-- ==== Sys2Proof/Word.lean ====
section
/-!
DEFINITION. Word.lean: the word types of the OH2048 and the operand types that its instructions are written with.
-/

namespace Sys2Proof

/-- A scalar register, a cistern word, a system register (R100, R266). -/
abbrev Word := BitVec 64

/-- A byte of staging, vault, host memory (R12). -/
abbrev Byte := BitVec 8

/-- A vector register, sixty-four lanes of 32 bits (R131). -/
abbrev VWord := BitVec 2048

/-- A mask, one bit a lane (R133). -/
abbrev Mask := BitVec 64

/-- A stored bundle (R39). -/
abbrev Bundle := BitVec 384

/-- A register number as a slot field holds it (R45). -/
abbrev Reg := BitVec 6

/-- The format codes of R68, by their suffix names. -/
inductive Fmt where
  | f64 | f32 | bf16 | f16 | e4m3 | e5m2 | e3m2 | e2m3 | e2m1 | i8 | intn | i32 | e8m0
deriving DecidableEq, Repr

/-- The condition suffixes of R47. -/
inductive Cond where
  | eq | ne | lt | ge | ltu | geu | gt | le | gtu | leu
deriving DecidableEq, Repr

/-- The order suffixes of R47. -/
inductive Order where
  | rlx | acq | rel | ar | sc
deriving DecidableEq, Repr

/-- The scope suffixes of R47. -/
inductive Scope where
  | tile | cluster | die | pkg | sys
deriving DecidableEq, Repr

/-- The fence levels of R47 and R176. -/
inductive Level where
  | acc | vis | dur
deriving DecidableEq, Repr

/-- The rounding field mod.rm of R46: a mode, or the mode that fcsr holds. -/
inductive Rm where
  | fcsr | rne | rtz | rup | rdn | rna
deriving DecidableEq, Repr

/-- The comparisons of VFCMP (R141), coded 0 to 7. -/
inductive FCond where
  | eq | ne | lt | le | gt | ge | un | or
deriving DecidableEq, Repr

/-- The kinds of VREDMAX and VREDMIN (R149). -/
inductive RedKind where
  | i32 | u32 | f32
deriving DecidableEq, Repr

/-- The kinds of VSCAN (R150). -/
inductive ScanKind where
  | i32 | f32
deriving DecidableEq, Repr

/-- The forms of VMOVS (R147). -/
inductive MovsForm where
  | single | pair | iota
deriving DecidableEq, Repr

/-- An immediate: the 20 bits of the slot, or those and the 32 bits of K (R48). -/
inductive Imm where
  | short (v : BitVec 20)
  | long (v : BitVec 52)
deriving DecidableEq, Repr

/-- A second source: register b, or the immediate when mod.ib = 1 (R46). -/
inductive Src where
  | reg (r : Reg)
  | imm (v : Imm)
deriving DecidableEq, Repr

/-- The element size of a staging move (R152) with its pair bit: the codes w of four bits, one, two and four bytes. -/
abbrev Width := BitVec 2

/-- A tile by its logical index (R1). -/
abbrev TileId := Nat

/-- A slot of a bundle, in the order of R60: the part codes 1 to 5 of R118. -/
inductive Part where
  | c | v | m | d | x
deriving DecidableEq, Repr

/-- What a mesh flit, a request or a landing is named by: the tile that issued it and its place in that tile's order of issue. -/
structure Ticket where
  tile : TileId
  seq  : Nat
deriving DecidableEq, Repr

/-- A command signed outside the device: its bytes, the signer's P-256 public key (x then y), and the two ECDSA integers (R20, R22). -/
structure Signed where
  body : List Byte
  keyX : BitVec 256
  keyY : BitVec 256
  sigR : BitVec 256
  sigS : BitVec 256
deriving DecidableEq, Repr

/-- The readings of one die's sensors (R26): temperatures signed in steps of 0.125 °C, voltages in 0.5 mV, oscillator cycles in 1 µs. -/
structure DieHealth where
  logic   : Vector (BitVec 12) 64 := Vector.replicate 64 0
  layers  : Vector (BitVec 12) 8 := Vector.replicate 8 0
  volts   : Vector (BitVec 12) 16 := Vector.replicate 16 0
  process : Vector Nat 8 := Vector.replicate 8 0
deriving DecidableEq, Repr, Inhabited

/-- The readings of one cooling loop (R28): coolant flow and its set point in one unit, outlet temperature in steps of 0.125 °C. -/
structure Coolant where
  flow     : Nat := 0
  setPoint : Nat := 0
  outlet   : Int := 0
deriving DecidableEq, Repr, Inhabited

/-- What the management controller samples at once (R26, R28): the sensors of the eight dies, and the two cooling loops. -/
structure Readings where
  dies  : Vector DieHealth 8 := Vector.replicate 8 {}
  upper : Coolant := {}
  lower : Coolant := {}
deriving DecidableEq, Repr, Inhabited

/-- What system software asks the loader's queue service to write (R290, R302). -/
inductive QueueWrite where
  | descriptor (q word : Nat) (v : Word)
  | tokenLink (l : Nat) (v : Word)
deriving DecidableEq, Repr

/-- The kind of an Ivloha program (R294). -/
inductive ProgKind where
  | rank | main
deriving DecidableEq, Repr

end Sys2Proof
end

