-- ==== Sys2Proof/Config.lean ====
section
/-!
DEFINITION. Config.lean: the values that the spec leaves open. Each is opaque: nothing in Lean can tell what it is, so a statement
holds whatever it is. The argument n is the counter State.free, which each use advances, so that no two uses need agree.
-/

namespace Sys2Proof.Config

/-- A free 64-bit value: nonces (R25), what the spec calls undefined. -/
opaque freeWord : Nat → BitVec 64

/-- A free count, used under a bound that the spec states: wall durations (R408, R334, R338), choices of an agent's moment. -/
opaque freeNat : Nat → Nat

/-- A free choice between two outcomes that the spec leaves open. -/
opaque freeBool : Nat → Bool

/-- The byte that a read of a vault slot never written since power-on delivers (R159): tile, bank × 4,096 + page, byte of the page, use. -/
opaque vaultByte : Nat → Nat → Nat → Nat → BitVec 8

/-- The P-256 signature that the device identity key, derived from the identity seed, makes over a digest (R24). -/
opaque identitySign : BitVec 256 → BitVec 256 → BitVec 512

/-- The certificate of the device identity key that the vendor issues at provisioning (R24): of the device identifier and the identity seed. -/
opaque identityCertificate : BitVec 64 → BitVec 256 → List (BitVec 8)

/-- What the sensors and the cooling loops read at a sample (R26, R28). -/
opaque readings : Nat → Readings

/-- The verdict of a schedule check of R318, reason 6, on what no table or schedule that the loader has shows: of check 9, what hangs on the schedules of a
gang's other members. Of the check's number and the image's digest (log 14). -/
opaque scheduleFails : Nat → BitVec 256 → Bool

/-- Where the loader put a slot of the copy of a segment in the service banks of its tile's vault (R319): of the tile, of variant × 65,536 + segment,
and of the slot's number. -/
opaque segmentPlace : Nat → Nat → Nat → Nat

/-- The service banks that the loader keeps in the vaults of a partition, by its first die, while no image names them (R181, R330). -/
opaque serviceBanks : Nat → BitVec 128

end Sys2Proof.Config
end

