-- ==== Sys2Proof/Syntax.lean ====
section
/-!
DEFINITION. Syntax.lean: the one inductive of the instruction set, one constructor per row of the operation table.
A slot instruction carries the operands of its slot word, an Ivloha op the fields of its 32 bits, and an input from outside the device what the outside sends.
The device's own events have no operands: what each acts on stands in State as the event in hand.
-/

namespace Sys2Proof

/-- The steps of the OH2048: its slot instructions, its Ivloha ops and its device events. -/
inductive Instr where
  /-- VENDOR_PROVISIONING (R20). -/
  | vendorProvisioning (device : Word) (seed k0 k1 k2 k3 : BitVec 256)
  /-- OWNER_ENROLMENT (R20). -/
  | ownerEnrolment (cmd : Signed)
  /-- RETURN_TOKEN (R20). -/
  | returnToken (cmd : Signed)
  /-- ROLLBACK_ADVANCE (R20). -/
  | rollbackAdvance (cmd : Signed)
  /-- SCRAP_COMMAND (R20). -/
  | scrapCommand (cmd : Signed)
  /-- ATTESTATION_REPORT (R24). -/
  | attestationReport (nonce : BitVec 256)
  /-- DBGCTL_GO (R25). -/
  | dbgctlGo (token : List Byte)
  /-- HEALTH_SAMPLE (R26). -/
  | healthSample (readings : Readings)
  /-- COOLING_LOOP_LOST (R28). -/
  | coolingLoopLost (upper : Bool)
  /-- COOLING_LOOP_RESTORED (R29). -/
  | coolingLoopRestored (upper : Bool)
  /-- HINT (R50). -/
  | hint (n : BitVec 4)
  /-- ADD (R102). -/
  | add (d a : Reg) (b : Src)
  /-- SUB (R102). -/
  | sub (d a : Reg) (b : Src)
  /-- MUL (R102). -/
  | mul (d a : Reg) (b : Src)
  /-- MULH (R102). -/
  | mulh (d a : Reg) (b : Src)
  /-- MULHU (R102). -/
  | mulhu (d a : Reg) (b : Src)
  /-- DIV (R103). -/
  | div (d a : Reg) (b : Src)
  /-- DIVU (R103). -/
  | divu (d a : Reg) (b : Src)
  /-- REM (R103). -/
  | rem (d a : Reg) (b : Src)
  /-- REMU (R103). -/
  | remu (d a : Reg) (b : Src)
  /-- AND (R102). -/
  | and (d a : Reg) (b : Src)
  /-- OR (R102). -/
  | or (d a : Reg) (b : Src)
  /-- XOR (R102). -/
  | xor (d a : Reg) (b : Src)
  /-- ANDN (R102). -/
  | andn (d a : Reg) (b : Src)
  /-- SHL (R102). -/
  | shl (d a : Reg) (b : Src)
  /-- SHR (R102). -/
  | shr (d a : Reg) (b : Src)
  /-- SAR (R102). -/
  | sar (d a : Reg) (b : Src)
  /-- ROT (R102). -/
  | rot (d a : Reg) (b : Src)
  /-- CLZ (R102). -/
  | clz (d a : Reg)
  /-- CTZ (R102). -/
  | ctz (d a : Reg)
  /-- POPC (R102). -/
  | popc (d a : Reg)
  /-- MIN (R102). -/
  | min (d a : Reg) (b : Src)
  /-- MAX (R102). -/
  | max (d a : Reg) (b : Src)
  /-- MINU (R102). -/
  | minu (d a : Reg) (b : Src)
  /-- MAXU (R102). -/
  | maxu (d a : Reg) (b : Src)
  /-- SEL (R102). -/
  | sel (d a : Reg) (b : Src) (c : Reg)
  /-- CMP (R102). -/
  | cmp (cc : Cond) (d a : Reg) (b : Src)
  /-- MOVI (R102). -/
  | movi (d : Reg) (v : Imm)
  /-- SEXT (R104). -/
  | sext (d a : Reg) (n : BitVec 7)
  /-- ZEXT (R104). -/
  | zext (d a : Reg) (n : BitVec 7)
  /-- BFX (R104). -/
  | bfx (d a : Reg) (pos : BitVec 6) (len : BitVec 7) (sx : Bool)
  /-- BFI (R104). -/
  | bfi (d a b : Reg) (pos : BitVec 6) (len : BitVec 7)
  /-- IDX (R102). -/
  | idx (d a b : Reg) (sh : BitVec 6)
  /-- MADD (R102). -/
  | madd (d a : Reg) (b : Src) (c : Reg)
  /-- BR (R105). -/
  | br (cc : Cond) (a b : Reg) (off : BitVec 20)
  /-- J (R105). -/
  | j (off : Imm)
  /-- CALL (R105). -/
  | call (d : Reg) (off : Imm)
  /-- RET (R105). -/
  | ret (a : Reg)
  /-- BRME (R105). -/
  | brme (off : BitVec 20)
  /-- LOOP (R106). -/
  | loop (a : Reg) (last : BitVec 16) (stages : BitVec 3)
  /-- LBRK (R105). -/
  | lbrk (a : Reg) (always : Bool)
  /-- LD (R109). -/
  | ld (d a : Reg) (w : Width) (sx : Bool) (off : BitVec 17)
  /-- ST (R109). -/
  | st (a b : Reg) (w : Width) (off : BitVec 17)
  /-- ST_IO (R110). -/
  | stIo (a b : Reg) (off : BitVec 17)
  /-- FENCE (R286). -/
  | fence (sc : Scope)
  /-- AMO_CAS (R272). -/
  | amoCas (o : Order) (d a b c : Reg) (fa : Bool)
  /-- AMO_ADD (R272). -/
  | amoAdd (o : Order) (d a : Reg) (b : Src)
  /-- AMO_SWP (R272). -/
  | amoSwp (o : Order) (d a : Reg) (b : Src)
  /-- AMO_MIN (R272). -/
  | amoMin (o : Order) (d a : Reg) (b : Src)
  /-- AMO_MAX (R272). -/
  | amoMax (o : Order) (d a : Reg) (b : Src)
  /-- AMO_AND (R272). -/
  | amoAnd (o : Order) (d a : Reg) (b : Src)
  /-- AMO_OR (R272). -/
  | amoOr (o : Order) (d a : Reg) (b : Src)
  /-- OBJPIN (R217). -/
  | objpin (d a : Reg)
  /-- OBJUNP (R218). -/
  | objunp (d : Reg)
  /-- OBJQ (R219). -/
  | objq (d a : Reg) (sel : BitVec 5)
  /-- OBJCHK (R220). -/
  | objchk (d a b : Reg) (acc : BitVec 2)
  /-- TRAP (R111). -/
  | trap (code : BitVec 16)
  /-- MFS (R112). -/
  | mfs (d : Reg) (n : BitVec 12)
  /-- MTS (R112). -/
  | mts (a : Reg) (n : BitVec 12)
  /-- WFE (R281). -/
  | wfe (d : Reg)
  /-- SEV (R280). -/
  | sev (a : Reg)
  /-- MARK (R111). -/
  | mark (a : Reg) (tag : BitVec 16)
  /-- VFADD (R139). -/
  | vfadd (f : Fmt) (rm : Rm) (mt : Bool) (d a : Reg) (b : Src)
  /-- VFSUB (R139). -/
  | vfsub (f : Fmt) (rm : Rm) (mt : Bool) (d a : Reg) (b : Src)
  /-- VFMUL (R139). -/
  | vfmul (f : Fmt) (rm : Rm) (mt : Bool) (d a : Reg) (b : Src)
  /-- VFMA (R139). -/
  | vfma (f : Fmt) (rm : Rm) (mt : Bool) (d a : Reg) (b : Src) (c : Reg)
  /-- VFMS (R139). -/
  | vfms (f : Fmt) (rm : Rm) (mt : Bool) (d a : Reg) (b : Src) (c : Reg)
  /-- VFNMA (R139). -/
  | vfnma (f : Fmt) (rm : Rm) (mt : Bool) (d a : Reg) (b : Src) (c : Reg)
  /-- VFDIV (R139). -/
  | vfdiv (f : Fmt) (rm : Rm) (mt : Bool) (d a : Reg) (b : Src)
  /-- VFSQRT (R139). -/
  | vfsqrt (f : Fmt) (rm : Rm) (mt : Bool) (d a : Reg)
  /-- VFMIN (R140). -/
  | vfmin (f : Fmt) (mt : Bool) (d a : Reg) (b : Src)
  /-- VFMAX (R140). -/
  | vfmax (f : Fmt) (mt : Bool) (d a : Reg) (b : Src)
  /-- VFABS (R140). -/
  | vfabs (f : Fmt) (mt : Bool) (d a : Reg)
  /-- VFNEG (R140). -/
  | vfneg (f : Fmt) (mt : Bool) (d a : Reg)
  /-- VFCMP (R141). -/
  | vfcmp (f : Fmt) (cc : FCond) (mt : Bool) (d a : Reg) (b : Src)
  /-- VFCVT (R142). -/
  | vfcvt (dst src : Fmt) (rm : Rm) (mt : Bool) (d a b : Reg) (hi : Bool)
  /-- VFRND (R143). -/
  | vfrnd (f : Fmt) (rm : Rm) (mt : Bool) (d a : Reg)
  /-- VSCALB (R143). -/
  | vscalb (f : Fmt) (rm : Rm) (mt : Bool) (d a : Reg) (b : Src)
  /-- VEXP2 (R144). -/
  | vexp2 (mt : Bool) (d a : Reg)
  /-- VLOG2 (R144). -/
  | vlog2 (mt : Bool) (d a : Reg)
  /-- VRCP (R144). -/
  | vrcp (mt : Bool) (d a : Reg)
  /-- VRSQ (R144). -/
  | vrsq (mt : Bool) (d a : Reg)
  /-- VADD (R145). -/
  | vadd (mt : Bool) (d a : Reg) (b : Src)
  /-- VSUB (R145). -/
  | vsub (mt : Bool) (d a : Reg) (b : Src)
  /-- VMUL (R145). -/
  | vmul (mt : Bool) (d a : Reg) (b : Src)
  /-- VMULH (R145). -/
  | vmulh (u : Bool) (mt : Bool) (d a : Reg) (b : Src)
  /-- VMAD (R145). -/
  | vmad (mt : Bool) (d a : Reg) (b : Src) (c : Reg)
  /-- VAND (R145). -/
  | vand (mt : Bool) (d a : Reg) (b : Src)
  /-- VOR (R145). -/
  | vor (mt : Bool) (d a : Reg) (b : Src)
  /-- VXOR (R145). -/
  | vxor (mt : Bool) (d a : Reg) (b : Src)
  /-- VSHL (R145). -/
  | vshl (mt : Bool) (d a : Reg) (b : Src)
  /-- VSHR (R145). -/
  | vshr (mt : Bool) (d a : Reg) (b : Src)
  /-- VSAR (R145). -/
  | vsar (mt : Bool) (d a : Reg) (b : Src)
  /-- VMIN (R145). -/
  | vmin (u : Bool) (mt : Bool) (d a : Reg) (b : Src)
  /-- VMAX (R145). -/
  | vmax (u : Bool) (mt : Bool) (d a : Reg) (b : Src)
  /-- VCMP (R145). -/
  | vcmp (cc : Cond) (mt : Bool) (d a : Reg) (b : Src)
  /-- VSEL (R145). -/
  | vsel (mt : Bool) (d a : Reg) (b : Src) (c : Reg)
  /-- VABS (R145). -/
  | vabs (mt : Bool) (d a : Reg)
  /-- VCLZ (R145). -/
  | vclz (mt : Bool) (d a : Reg)
  /-- VPOPC (R145). -/
  | vpopc (mt : Bool) (d a : Reg)
  /-- VCLMUL_LO (R146). -/
  | vclmulLo (mt : Bool) (d a b : Reg)
  /-- VCLMUL_HI (R146). -/
  | vclmulHi (mt : Bool) (d a b : Reg)
  /-- VPERM (R147). -/
  | vperm (mt : Bool) (d a b : Reg)
  /-- VSHUF (R147). -/
  | vshuf (mt : Bool) (d a b c : Reg)
  /-- VBCAST (R147). -/
  | vbcast (mt : Bool) (d a : Reg) (lane : BitVec 6)
  /-- VREDADD (R148). -/
  | vredadd (f : Fmt) (mt : Bool) (d a : Reg)
  /-- VREDMAX (R149). -/
  | vredmax (k : RedKind) (mt : Bool) (d a : Reg)
  /-- VREDMIN (R149). -/
  | vredmin (k : RedKind) (mt : Bool) (d a : Reg)
  /-- VSCAN (R150). -/
  | vscan (k : ScanKind) (mt : Bool) (d a : Reg)
  /-- VTOPK (R151). -/
  | vtopk (mt : Bool) (d a b : Reg) (k : BitVec 7)
  /-- MPUSH (R135). -/
  | mpush (a : Reg)
  /-- MAND (R135). -/
  | mand (d a b : Reg)
  /-- MOR (R135). -/
  | mor (d a b : Reg)
  /-- MNOT (R135). -/
  | mnot (d a : Reg)
  /-- MCNT (R135). -/
  | mcnt (d a : Reg) (top : Bool)
  /-- VMOV (R147). -/
  | vmov (mt : Bool) (d a : Reg) (pair : Bool)
  /-- VMOVS (R147). -/
  | vmovs (k : MovsForm) (mt : Bool) (d a : Reg)
  /-- VEXT (R147). -/
  | vext (d a : Reg) (lane : BitVec 6) (sx pair : Bool)
  /-- MMA (R238). -/
  | mma (d a b : Reg) (k : BitVec 4)
  /-- MMA_Z (R238). -/
  | mmaZ (d a b : Reg) (k : BitVec 4)
  /-- MMA_N (R238). -/
  | mmaN (d a b : Reg) (k : BitVec 4)
  /-- ACCZ (R241). -/
  | accz (d : Reg)
  /-- ACCRET (R242). -/
  | accret (a b : Reg)
  /-- ACCRET_AMAX (R242). -/
  | accretAmax (d a b : Reg)
  /-- ACCRET_APPLY (R242). -/
  | accretApply (a b c : Reg)
  /-- ACCRET_DERIVE (R242). -/
  | accretDerive (d a b : Reg)
  /-- ACCRD (R241). -/
  | accrd (d a : Reg) (row : BitVec 6)
  /-- ACCWR (R241). -/
  | accwr (d b : Reg) (row : BitVec 6) (int : Bool)
  /-- ACCWAIT (R241). -/
  | accwait (a : Reg)
  /-- ACCST (R241). -/
  | accst (a b : Reg)
  /-- OPLD (R232). -/
  | opld (d a : Reg) (q cnt : BitVec 2) (bind : Option Reg)
  /-- OPST (R232). -/
  | opst (a b : Reg) (q cnt : BitVec 2)
  /-- OPCLR (R232). -/
  | opclr (d : Reg)
  /-- SCLD (R233). -/
  | scld (d a : Reg) (off : BitVec 16) (ip : Bool)
  /-- SCST (R233). -/
  | scst (a b : Reg) (off : BitVec 16)
  /-- SCMOV (R233). -/
  | scmov (d a : Reg) (ip : Bool)
  /-- SCMUL (R233). -/
  | scmul (d a b : Reg) (ip : Bool)
  /-- SCMAX (R233). -/
  | scmax (d a b : Reg) (ip : Bool)
  /-- SCMIN (R233). -/
  | scmin (d a b : Reg) (ip : Bool)
  /-- SCQ (R234). -/
  | scq (d a : Reg) (f : Fmt) (ip : Bool)
  /-- SCSET (R233). -/
  | scset (d : Reg) (code : BitVec 8) (ip : Bool)
  /-- SCBIND (R236). -/
  | scbind (d a : Reg)
  /-- SCREL (R236). -/
  | screl (d : Reg)
  /-- SCGEN (R233). -/
  | scgen (d a : Reg) (ip : Bool)
  /-- FMT (R93). -/
  | fmt (d : Reg) (b : Src)
  /-- FTSEL (R94). -/
  | ftsel (lvl : BitVec 3) (base : BitVec 4)
  /-- ACT (R169). -/
  | act (a b : Reg)
  /-- RD (R170). -/
  | rd (a b c : Reg) (s n : BitVec 6)
  /-- RDA (R170). -/
  | rda (a b c : Reg) (s n : BitVec 6)
  /-- WR (R170). -/
  | wr (a b c : Reg) (s n : BitVec 6)
  /-- WRA (R170). -/
  | wra (a b c : Reg) (s n : BitVec 6)
  /-- PRE (R171). -/
  | pre (bank : BitVec 7) (lend : BitVec 13)
  /-- REF (R172). -/
  | ref (bank : BitVec 7)
  /-- RDOP (R229). -/
  | rdop (d a b : Reg) (s n : BitVec 6) (q : BitVec 2) (bind : Option Reg)
  /-- RDSC (R230). -/
  | rdsc (d a b c : Reg)
  /-- VFENCE (R176). -/
  | vfence (lvl : Level)
  /-- TRAIN (R175). -/
  | train (q : BitVec 2)
  /-- BSTAT (R173). -/
  | bstat (d : Reg) (bank : BitVec 7)
  /-- ACTRAW (R174). -/
  | actraw (bank : BitVec 7) (page : BitVec 12)
  /-- RDRAW (R174). -/
  | rdraw (c : Reg) (s n : BitVec 6) (bank : BitVec 7)
  /-- WRRAW (R174). -/
  | wrraw (c : Reg) (s n : BitVec 6) (bank : BitVec 7)
  /-- MSEND (R258). -/
  | msend (a b c : Reg) (n : BitVec 8)
  /-- MSENDV (R258). -/
  | msendv (a b c : Reg)
  /-- MCAST (R258). -/
  | mcast (a b c : Reg) (n : BitVec 8)
  /-- LSEND (R358). -/
  | lsend (a : Reg) (n : BitVec 8) (ch : BitVec 6) (rel : Bool)
  /-- LRECV (R359). -/
  | lrecv (a : Reg) (n : BitVec 8) (ch : BitVec 6) (acq : Bool)
  /-- VLD (R153). -/
  | vld (mt : Bool) (d a : Reg) (w : Width) (sx pair : Bool) (off : BitVec 16)
  /-- VST (R153). -/
  | vst (mt : Bool) (a b : Reg) (w : Width) (pair : Bool) (off : BitVec 16)
  /-- VGATH (R154). -/
  | vgath (mt : Bool) (d a b : Reg) (w : Width) (sx pair : Bool) (off : BitVec 16)
  /-- VSCAT (R154). -/
  | vscat (mt : Bool) (a b c : Reg) (w : Width) (pair : Bool) (off : BitVec 16)
  /-- APST (R304). -/
  | apst (d a : Reg) (b : Src)
  /-- WARR (R278). -/
  | warr (d : Reg) (weir : BitVec 6) (die : BitVec 3)
  /-- WWAIT (R278). -/
  | wwait (d b : Reg) (weir : BitVec 6) (die : BitVec 3) (w : BitVec 11)
  /-- WPOLL (R278). -/
  | wpoll (d : Reg) (weir : BitVec 6) (die : BitVec 3)
  /-- WPEND (R278). -/
  | wpend (d b : Reg) (weir : BitVec 6) (die : BitVec 3)
  /-- JCBRAISE (R262). -/
  | jcbraise (d a : Reg) (b : Src)
  /-- JCBPOST (R262). -/
  | jcbpost (d a : Reg) (b : Src)
  /-- JCBWAIT (R263). -/
  | jcbwait (d a : Reg) (w : BitVec 16)
  /-- QUEUE_ENABLE (R291). -/
  | queueEnable (q : Nat)
  /-- QUEUE_DISABLE (R291). -/
  | queueDisable (q : Nat)
  /-- PROGRAM_INSTALL (R295). -/
  | programInstall (slot : Nat) (kind : ProgKind) (code : List (BitVec 32)) (sig : Option Signed)
  /-- PREEMPTION_REQUEST (R333). -/
  | preemptionRequest (k : Nat)
  /-- IVLOHA_LDP (R294). -/
  | ivLdp (d : BitVec 4) (w : BitVec 3)
  /-- IVLOHA_LDW (R294). -/
  | ivLdw (d a : BitVec 4) (win : BitVec 2) (o : BitVec 14)
  /-- IVLOHA_STW (R294). -/
  | ivStw (d a : BitVec 4) (win : BitVec 2) (o : BitVec 14)
  /-- IVLOHA_MOVI (R294). -/
  | ivMovi (d : BitVec 4) (i : BitVec 16)
  /-- IVLOHA_MOVH (R294). -/
  | ivMovh (d : BitVec 4) (i : BitVec 16)
  /-- IVLOHA_ADD (R294). -/
  | ivAdd (d a : BitVec 4) (i : BitVec 16)
  /-- IVLOHA_SUB (R294). -/
  | ivSub (d a : BitVec 4) (i : BitVec 16)
  /-- IVLOHA_AND (R294). -/
  | ivAnd (d a : BitVec 4) (i : BitVec 16)
  /-- IVLOHA_OR (R294). -/
  | ivOr (d a : BitVec 4) (i : BitVec 16)
  /-- IVLOHA_XOR (R294). -/
  | ivXor (d a : BitVec 4) (i : BitVec 16)
  /-- IVLOHA_SHL (R294). -/
  | ivShl (d a : BitVec 4) (i : BitVec 16)
  /-- IVLOHA_SHR (R294). -/
  | ivShr (d a : BitVec 4) (i : BitVec 16)
  /-- IVLOHA_BEQ (R294). -/
  | ivBeq (d a : BitVec 4) (n : BitVec 16)
  /-- IVLOHA_BNE (R294). -/
  | ivBne (d a : BitVec 4) (n : BitVec 16)
  /-- IVLOHA_BLTU (R294). -/
  | ivBltu (d a : BitVec 4) (n : BitVec 16)
  /-- IVLOHA_JF (R294). -/
  | ivJf (n : BitVec 16)
  /-- IVLOHA_LOOP (R294). -/
  | ivLoop (a : BitVec 4) (len max : BitVec 8)
  /-- IVLOHA_RANK (R294). -/
  | ivRank (a : BitVec 4)
  /-- IVLOHA_NEED (R294). -/
  | ivNeed (link cnt : BitVec 8)
  /-- IVLOHA_TOKADD (R294). -/
  | ivTokadd (link cnt : BitVec 8)
  /-- IVLOHA_JOB (R294). -/
  | ivJob (a : BitVec 4) (die : BitVec 3) (ch : BitVec 6)
  /-- IVLOHA_LAUNCH (R317). -/
  | ivLaunch (a : BitVec 4)
  /-- IVLOHA_EVT (R294). -/
  | ivEvt (a : BitVec 4)
  /-- CONTEXT_CREATE (R330). -/
  | contextCreate (desc : List Word)
  /-- CONTEXT_TABLE_INSTALL (R331). -/
  | contextTableInstall (ctx : Nat)
  /-- CONTEXT_DESTROY (R332). -/
  | contextDestroy (ctx : Nat)
  /-- FAULT_ACKNOWLEDGE (R331). -/
  | faultAcknowledge (ctx : Nat)
  /-- RESTORE (R338). -/
  | restore (ctx die0 : Nat)
  /-- GANG_ENTRY_FLIT (R345). -/
  | gangEntryFlit (ctx rank : Nat)
  /-- GANG_ABORT_FLIT (R346). -/
  | gangAbortFlit (ctx : Nat)
  /-- LINK_FLIT_ENQUEUE (R353). -/
  | linkFlitEnqueue (link ch : Nat) (payload : BitVec 1024)
  /-- FLIT_REPLAY (R351). -/
  | flitReplay (link : Nat)
  /-- CREDIT_RETURN (R354). -/
  | creditReturn (link n : Nat)
  /-- LINK_DOWN (R351). -/
  | linkDown (link : Nat)
  /-- LINK_BEACON (R352). -/
  | linkBeacon (time : Nat)
  /-- COLLECTIVE_NODE_VALUE (R363). -/
  | collectiveNodeValue (die node : Nat) (value : List Word) (flags : BitVec 6)
  /-- HOST_MEM_READ (R366). -/
  | hostMemRead (o : Nat)
  /-- HOST_MEM_WRITE (R366). -/
  | hostMemWrite (o : Nat) (line : BitVec 512)
  /-- HOST_APERTURE_START (R368). -/
  | hostApertureStart (o width : Nat) (data : Word)
  /-- HOST_SNOOP (R365). -/
  | hostSnoop (addr : Nat)
  /-- SYSTEM_MEASUREMENT_EXTEND (R23). -/
  | systemMeasurementExtend (i : Nat) (digest : BitVec 256)
  /-- QUEUE_SERVICE_WRITE (R302). -/
  | queueServiceWrite (w : QueueWrite)
  /-- LINK_TRAINING (R353). -/
  | linkTraining (link worst : Nat)
  /-- POWER_ON (R22). -/
  | powerOn
  /-- LAYER_LIMIT_EXCEEDED (R27). -/
  | layerLimitExceeded
  /-- PACKAGE_POWER_REMOVAL (R27). -/
  | packagePowerRemoval
  /-- VARIANT_WAIT_TIMEOUT (R30). -/
  | variantWaitTimeout
  /-- BUNDLE_ISSUE (R35). -/
  | bundleIssue
  /-- HANDLER_BUNDLE_ISSUE (R129). -/
  | handlerBundleIssue
  /-- RESULT_LANDING (R56). -/
  | resultLanding
  /-- FORMAT_WRITE_EFFECT (R93). -/
  | formatWriteEffect
  /-- STOP_HORIZON (R124). -/
  | stopHorizon
  /-- PARTITION_RELEASE (R127). -/
  | partitionRelease
  /-- DEFERRED_TRAP (R409). -/
  | deferredTrap
  /-- TILE_HALTED (R114). -/
  | tileHalted
  /-- HOLD_RELEASE (R324). -/
  | holdRelease
  /-- NOP (R50). -/
  | nop
  /-- ERET (R126). -/
  | eret
  /-- ERET_SKIP (R126). -/
  | eretSkip
  /-- YIELD (R113). -/
  | yield
  /-- HALT (R114). -/
  | halt
  /-- MINV (R135). -/
  | minv
  /-- MPOP (R135). -/
  | mpop
  /-- PREA (R171). -/
  | prea
  /-- LQ_ENTRY_DISCARD (R123). -/
  | lqEntryDiscard
  /-- LQ_FLAGS_WRITE (R123). -/
  | lqFlagsWrite
  /-- LQV_WRITE (R123). -/
  | lqvWrite
  /-- VWDAT_WRITE (R156). -/
  | vwdatWrite
  /-- MWDAT_WRITE (R247). -/
  | mwdatWrite
  /-- VLCNT_WRITE (R191). -/
  | vlcntWrite
  /-- VINJ_PARITY_INJECT (R192). -/
  | vinjParityInject
  /-- VINJ_STUCK_LANE (R192). -/
  | vinjStuckLane
  /-- PCC_CLEAR (R343). -/
  | pccClear
  /-- PCC_REPROGRAM (R343). -/
  | pccReprogram
  /-- PCC_OVF_CLEAR (R343). -/
  | pccOvfClear
  /-- COUNTER_OVERFLOW (R344). -/
  | counterOverflow
  /-- BANK_ACTIVATION_COMPLETE (R161). -/
  | bankActivationComplete
  /-- AUTO_PRECHARGE (R161). -/
  | autoPrecharge
  /-- PRECHARGE_COMPLETE (R161). -/
  | prechargeComplete
  /-- REFRESH_COMPLETE (R161). -/
  | refreshComplete
  /-- TRAINING_WINDOW_START (R193). -/
  | trainingWindowStart
  /-- TRAINING_WINDOW_END (R161). -/
  | trainingWindowEnd
  /-- LEND_END (R181). -/
  | lendEnd
  /-- REFRESH_OVERDUE (R177). -/
  | refreshOverdue
  /-- VAULT_READ_TRANSFER (R170). -/
  | vaultReadTransfer
  /-- VAULT_WRITE_TRANSFER (R163). -/
  | vaultWriteTransfer
  /-- BUS_RETRY (R187). -/
  | busRetry
  /-- LANE_SWAP (R188). -/
  | laneSwap
  /-- SELF_REFRESH_ENTRY (R184). -/
  | selfRefreshEntry
  /-- RETRAINING_DUE (R194). -/
  | retrainingDue
  /-- FORCED_RETRAINING (R194). -/
  | forcedRetraining
  /-- SEGMENT_COPY_COMPLETE (R37). -/
  | segmentCopyComplete
  /-- RECORD_LOAD_COMPLETE (R200). -/
  | recordLoadComplete
  /-- MESH_FLIT_INJECT (R258). -/
  | meshFlitInject
  /-- MESH_FLIT_HOP (R253). -/
  | meshFlitHop
  /-- MESH_FLIT_ARRIVAL (R255). -/
  | meshFlitArrival
  /-- CISTERN_REQUEST_APPLY (R268). -/
  | cisternRequestApply
  /-- WEIR_BYTE_DECREMENT (R276). -/
  | weirByteDecrement
  /-- EVENT_LATCH_SET (R280). -/
  | eventLatchSet
  /-- PACKET_FETCH (R293). -/
  | packetFetch
  /-- PACKET_DISPATCH (R300). -/
  | packetDispatch
  /-- IVLOHA_DONE (R294). -/
  | ivDone
  /-- IVLOHA_DROP (R294). -/
  | ivDrop
  /-- SLUICE_START_ARRIVAL (R305). -/
  | sluiceStartArrival
  /-- JOB_APPLY (R305). -/
  | jobApply
  /-- JOB_UNIT (R307). -/
  | jobUnit
  /-- JOB_COMPLETION_RECORD (R308). -/
  | jobCompletionRecord
  /-- KERNEL_LOAD (R318). -/
  | kernelLoad
  /-- KERNEL_BIND (R319). -/
  | kernelBind
  /-- TIMETABLE_START (R319). -/
  | timetableStart
  /-- REPLAN_SWITCH (R322). -/
  | replanSwitch
  /-- HOST_SERVICE_TIMEOUT (R323). -/
  | hostServiceTimeout
  /-- KERNEL_COMPLETE (R326). -/
  | kernelComplete
  /-- CONTEXT_WIPE_COMPLETE (R331). -/
  | contextWipeComplete
  /-- YIELD_STOP (R334). -/
  | yieldStop
  /-- CONTEXT_SAVE_COMPLETE (R331). -/
  | contextSaveComplete
  /-- GANG_SLICE_ABORT (R346). -/
  | gangSliceAbort
  /-- LINK_RECEIVE_TIMEOUT (R361). -/
  | linkReceiveTimeout
  /-- LINK_FLIT_ACCEPT (R358). -/
  | linkFlitAccept
  /-- COLLECTIVE_START (R362). -/
  | collectiveStart
  /-- COLLECTIVE_COMPLETE (R364). -/
  | collectiveComplete
  /-- SLICE_START_TIME_REACHED (R345). -/
  | sliceStartTimeReached
deriving DecidableEq, Repr

end Sys2Proof
end

