-- ==== Sys2Proof/WellFormed.lean ====
section
/-!
DEFINITION. WellFormed.lean: the limits that the spec sets on the operands of an instruction, beyond the widths of their fields.
A slot that breaks one is an illegal encoding (R49); an Ivloha op that breaks one is refused at load (R294, R295).
-/

namespace Sys2Proof

/-- The access codes of R101. -/
inductive SysAccess where
  | r | rw | rp | rwp
deriving DecidableEq, Repr

/-- The access of a system register number; none for an unassigned number (R101, R156, R191, R247, R260, R276, R280, R343, R369). -/
def sysAccess (n : Nat) : Option SysAccess :=
  if n == 0x003 then some .rw
  else if n ≤ 0x005 then some .r
  else if 0x010 ≤ n && n ≤ 0x025 then some .r
  else if 0x028 ≤ n && n ≤ 0x02D then some .r
  else if n == 0x030 || n == 0x031 || n == 0x040 || n == 0x041 then some .r
  else if 0x048 ≤ n && n ≤ 0x04B then some .r
  else if n == 0x060 || n == 0x061 then some .r
  else if n == 0x101 || n == 0x102 || n == 0x106 then some .rwp
  else if 0x100 ≤ n && n ≤ 0x105 then some .rp
  else if 0x108 ≤ n && n ≤ 0x10F then some .rwp
  else if n == 0x110 then some .rp
  else if 0x111 ≤ n && n ≤ 0x113 then some .rwp
  else if 0x120 ≤ n && n ≤ 0x123 then some .rwp
  else if n == 0x130 || n == 0x131 then some .rwp
  else if n == 0x132 then some .r
  else if n == 0x140 || n == 0x144 || n == 0x146 || n == 0x147 then some .rwp
  else if 0x141 ≤ n && n ≤ 0x148 then some .rp
  else if n == 0x150 || n == 0x151 then some .rwp
  else if n == 0x152 || n == 0x153 then some .rp
  else if 0x160 ≤ n && n ≤ 0x164 then some .rw
  else if n == 0x165 then some .r
  else if n == 0x170 then some .r
  else if n == 0x171 then some .rwp
  else if n == 0x172 || n == 0x173 then some .rp
  else if 0x200 ≤ n && n ≤ 0x207 then some .rwp
  else if 0x208 ≤ n && n ≤ 0x20F then some .r
  else if n == 0x210 then some .rwp
  else if n == 0x211 then some .rp
  else if n == 0x212 then some .r
  else if n == 0x213 || n == 0x214 then some .rwp
  else none

/-- An MTS may name the register (R112). -/
def sysWritable (n : Nat) : Bool :=
  sysAccess n == some .rw || sysAccess n == some .rwp

/-- The register may be reached only when privileged() = 1 (R101). -/
def sysPrivileged (n : Nat) : Bool :=
  sysAccess n == some .rp || sysAccess n == some .rwp

/-- A register number below the size of its file (R49). -/
def below (lim : Nat) (r : Reg) : Bool := decide (r.toNat < lim)

/-- An even register number (R49, R132). -/
def evenReg (r : Reg) : Bool := r.toNat % 2 == 0

/-- A second source that is an immediate or a register below the size of its file. -/
def Src.below (lim : Nat) : Src → Bool
  | .reg r => Sys2Proof.below lim r
  | .imm _ => true

/-- A second source that is an immediate or an even register. -/
def Src.even : Src → Bool
  | .reg r => evenReg r
  | .imm _ => true

/-- The pair layout is that of FP64 (R132). -/
def Fmt.isPair : Fmt → Bool
  | .f64 => true
  | _ => false

/-- The packed layout is that of the 16-bit floating formats (R132). -/
def Fmt.isPacked : Fmt → Bool
  | .bf16 | .f16 => true
  | _ => false

/-- A vector register that holds, or begins, an operand of a format (R132, R136). -/
def vecReg (f : Fmt) (r : Reg) : Bool := below 32 r && (!f.isPair || evenReg r)

/-- A second source that is an immediate or a vector register of a format. -/
def vecSrc (f : Fmt) : Src → Bool
  | .reg r => vecReg f r
  | .imm _ => true

/-- The formats of R139. -/
def Fmt.isArith : Fmt → Bool
  | .f64 | .f32 | .bf16 | .f16 => true
  | _ => false

/-- FP64 and FP32 (R139, R141). -/
def Fmt.isWide : Fmt → Bool
  | .f64 | .f32 => true
  | _ => false

/-- The limits of a column command's run of slots (R168). -/
def slotRun (lim : Nat) (s n : BitVec 6) : Bool := decide (s.toNat + n.toNat + 1 ≤ lim)

/-- The limits on the operands of an instruction. -/
def Instr.wf : Instr → Bool
  | .sext _ _ n | .zext _ _ n => decide (1 ≤ n.toNat) && decide (n.toNat ≤ 64)
  | .bfx _ _ pos len _ | .bfi _ _ _ pos len => decide (1 ≤ len.toNat) && decide (len.toNat ≤ 64) && decide (pos.toNat + len.toNat ≤ 64)
  | .lbrk a always => !always || a == 0
  | .amoCas o _ _ _ _ fa => !fa || (o != .rlx && o != .rel)
  | .objpin d _ | .objunp d => below 16 d
  | .objq _ a w => below 16 a && decide (w.toNat ≤ 18)
  | .objchk _ a _ acc => below 16 a && acc != 3
  | .mfs _ n => (sysAccess n.toNat).isSome
  | .mts _ n => sysWritable n.toNat
  | .vfadd f _ _ d a b | .vfsub f _ _ d a b | .vfmul f _ _ d a b => f.isArith && vecReg f d && vecReg f a && vecSrc f b
  | .vfma f _ _ d a b c | .vfms f _ _ d a b c | .vfnma f _ _ d a b c =>
    f.isArith && vecReg f d && vecReg f a && vecSrc f b && vecReg f c
  | .vfdiv f _ _ d a b => f.isWide && vecReg f d && vecReg f a && vecSrc f b
  | .vfsqrt f _ _ d a => f.isWide && vecReg f d && vecReg f a
  | .vfmin f _ d a b | .vfmax f _ d a b => f.isArith && vecReg f d && vecReg f a && vecSrc f b
  | .vfabs f _ d a | .vfneg f _ d a => f.isArith && vecReg f d && vecReg f a
  | .vfcmp f _ _ d a b => f.isWide && below 8 d && vecReg f a && vecSrc f b
  | .vfcvt dst src _ _ d a b hi =>
    vecReg dst d && vecReg src a &&
    (if src.isPacked then b == 0 && (!dst.isPacked || !hi)
     else if dst.isPacked then vecReg src b && !hi
     else b == 0 && !hi)
  | .vfrnd f _ _ d a => f.isArith && vecReg f d && vecReg f a
  | .vscalb f _ _ d a b => f.isArith && vecReg f d && vecReg f a && b.below 32
  | .vexp2 _ d a | .vlog2 _ d a | .vrcp _ d a | .vrsq _ d a => below 32 d && below 32 a
  | .vadd _ d a b | .vsub _ d a b | .vmul _ d a b | .vand _ d a b | .vor _ d a b | .vxor _ d a b | .vshl _ d a b
  | .vshr _ d a b | .vsar _ d a b => below 32 d && below 32 a && b.below 32
  | .vmulh _ _ d a b | .vmin _ _ d a b | .vmax _ _ d a b => below 32 d && below 32 a && b.below 32
  | .vmad _ d a b c => below 32 d && below 32 a && b.below 32 && below 32 c
  | .vcmp _ _ d a b => below 8 d && below 32 a && b.below 32
  | .vsel _ d a b c => below 32 d && below 32 a && b.below 32 && below 8 c
  | .vabs _ d a | .vclz _ d a | .vpopc _ d a => below 32 d && below 32 a
  | .vclmulLo _ d a b | .vclmulHi _ d a b => below 32 d && below 32 a && below 32 b
  | .vperm _ d a b => below 32 d && below 32 a && below 32 b
  | .vshuf _ d a b c => below 32 d && below 32 a && below 32 b && below 32 c
  | .vbcast _ d a _ => below 32 d && below 32 a
  | .vredadd f _ d a => (f == .f32 || f == .f64 || f == .i32) && vecReg f d && vecReg f a
  | .vredmax _ _ d a | .vredmin _ _ d a => below 32 d && below 32 a
  | .vscan _ _ d a => below 32 d && below 32 a
  | .vtopk _ d a b k => below 32 d && evenReg d && below 32 a && below 32 b && decide (1 ≤ k.toNat) && decide (k.toNat ≤ 64)
  | .mpush a => below 8 a
  | .mand d a b | .mor d a b => below 8 d && below 8 a && below 8 b
  | .mnot d a => below 8 d && below 8 a
  | .mcnt _ a top => below 8 a && (!top || a == 0)
  | .vmov _ d a pair => below 32 d && below 32 a && (!pair || (evenReg d && evenReg a))
  | .vmovs k _ d _ => below 32 d && (k != .pair || evenReg d)
  | .vext _ a _ sx pair => below 32 a && (!pair || (evenReg a && !sx))
  | .mma d a b _ | .mmaZ d a b _ | .mmaN d a b _ => below 4 d && below 4 a && below 4 b
  | .accz d => below 4 d
  | .accret a _ => below 4 a
  | .accretAmax d a _ | .accretDerive d a _ => below 32 d && below 4 a
  | .accretApply a _ c => below 4 a && below 32 c
  | .accrd d a _ => below 32 d && below 4 a
  | .accwr d b _ _ => below 4 d && below 32 b
  | .accwait a | .accst a _ => below 4 a
  | .opld d _ q cnt bind => below 8 d && decide (q.toNat + cnt.toNat + 1 ≤ 4) && below 32 (bind.getD 0)
  | .opst _ b q cnt => below 8 b && decide (q.toNat + cnt.toNat + 1 ≤ 4)
  | .opclr d | .screl d => below 8 d
  | .scld d _ _ _ => below 32 d
  | .scst _ b _ => below 32 b
  | .scmov d a _ => below 32 d && below 32 a
  | .scmul d a b _ | .scmax d a b _ | .scmin d a b _ => below 32 d && below 32 a && below 32 b
  | .scq d a f _ =>
    below 32 d && below 32 a && (f == .e4m3 || f == .e5m2 || f == .e3m2 || f == .e2m3 || f == .e2m1 || f == .i8)
  | .scset d _ _ => below 32 d
  | .scbind d a => below 8 d && below 32 a
  | .scgen d a _ => below 32 d && below 32 a && evenReg a
  | .fmt d _ => below 17 d
  | .ftsel lvl _ => lvl != 7
  | .act a _ => below 16 a
  | .rd a _ _ s n | .rda a _ _ s n | .wr a _ _ s n | .wra a _ _ s n => below 16 a && slotRun 36 s n
  | .rdraw _ s n _ | .wrraw _ s n _ => slotRun 36 s n
  | .rdop d a _ s n _ bind => below 8 d && below 16 a && slotRun 32 s n && below 32 (bind.getD 0)
  | .rdsc d a _ c => below 32 d && below 16 a && below 16 c
  | .msendv a _ _ => below 32 a
  | .lsend _ n ch rel => ch != 63 || (n == 0 && !rel)
  | .lrecv _ _ ch _ => ch != 63
  | .vld _ d _ w sx pair _ => below 32 d && (w != 3 || !sx) && (!pair || (w == 3 && evenReg d))
  | .vst _ _ b w pair _ => below 32 b && (!pair || (w == 3 && evenReg b))
  | .vgath _ d _ b w sx pair _ => below 32 d && below 32 b && w != 0 && (w != 3 || !sx) && (!pair || (w == 3 && evenReg d))
  | .vscat _ _ b c w pair _ => below 32 b && below 32 c && w != 0 && (!pair || (w == 3 && evenReg c))
  | .jcbraise _ a _ | .jcbpost _ a _ => below 4 a
  | .ivBeq _ _ n | .ivBne _ _ n | .ivBltu _ _ n => decide (1 ≤ n.toNat) && decide (n.toNat ≤ 1023)
  | .ivLoop _ len m => decide (1 ≤ len.toNat) && decide (1 ≤ m.toNat) && decide (m.toNat ≤ 64)
  | .ivNeed _ cnt => decide (1 ≤ cnt.toNat)
  | _ => true

end Sys2Proof
end

