-- ==== Sys2Proof/Decode.lean ====
section
/-!
DEFINITION. Decode.lean: reading an instruction from its bits, and writing the bits of an instruction.
The slot word is the frame of R45 and R46; the suffixes are those of R47; the immediates those of R48; a slot is illegal by R49 and R50.
The Ivloha word is the frame of R294.
-/

namespace Sys2Proof

/-! ## Suffix codes (R46, R47) -/

/-- The format of a suffix code (R68). -/
def fmtOf : BitVec 4 → Option Fmt
  | 0x0 => some .f64 | 0x1 => some .f32 | 0x2 => some .bf16 | 0x3 => some .f16 | 0x4 => some .e4m3 | 0x5 => some .e5m2
  | 0x6 => some .e3m2 | 0x7 => some .e2m3 | 0x8 => some .e2m1 | 0x9 => some .i8 | 0xA => some .intn | 0xB => some .i32
  | 0xC => some .e8m0 | _ => none

/-- The code of a format (R68). -/
def fmtCode : Fmt → BitVec 4
  | .f64 => 0x0 | .f32 => 0x1 | .bf16 => 0x2 | .f16 => 0x3 | .e4m3 => 0x4 | .e5m2 => 0x5 | .e3m2 => 0x6 | .e2m3 => 0x7
  | .e2m1 => 0x8 | .i8 => 0x9 | .intn => 0xA | .i32 => 0xB | .e8m0 => 0xC

/-- The condition of a suffix code (R47). -/
def condOf : BitVec 4 → Option Cond
  | 0x0 => some .eq | 0x1 => some .ne | 0x2 => some .lt | 0x3 => some .ge | 0x4 => some .ltu | 0x5 => some .geu
  | 0x6 => some .gt | 0x7 => some .le | 0x8 => some .gtu | 0x9 => some .leu | _ => none

/-- The code of a condition (R47). -/
def condCode : Cond → BitVec 4
  | .eq => 0x0 | .ne => 0x1 | .lt => 0x2 | .ge => 0x3 | .ltu => 0x4 | .geu => 0x5 | .gt => 0x6 | .le => 0x7 | .gtu => 0x8
  | .leu => 0x9

/-- The order of a suffix code (R47). -/
def orderOf : BitVec 4 → Option Order
  | 0x0 => some .rlx | 0x1 => some .acq | 0x2 => some .rel | 0x3 => some .ar | 0x4 => some .sc | _ => none

/-- The code of an order (R47). -/
def orderCode : Order → BitVec 4
  | .rlx => 0x0 | .acq => 0x1 | .rel => 0x2 | .ar => 0x3 | .sc => 0x4

/-- The scope of a suffix code (R47). -/
def scopeOf : BitVec 4 → Option Scope
  | 0x0 => some .tile | 0x1 => some .cluster | 0x2 => some .die | 0x3 => some .pkg | 0x4 => some .sys | _ => none

/-- The code of a scope (R47). -/
def scopeCode : Scope → BitVec 4
  | .tile => 0x0 | .cluster => 0x1 | .die => 0x2 | .pkg => 0x3 | .sys => 0x4

/-- The fence level of a suffix code (R47). -/
def levelOf : BitVec 4 → Option Level
  | 0x0 => some .acc | 0x1 => some .vis | 0x2 => some .dur | _ => none

/-- The code of a fence level (R47). -/
def levelCode : Level → BitVec 4
  | .acc => 0x0 | .vis => 0x1 | .dur => 0x2

/-- The rounding of mod.rm (R46); 6 and 7 are illegal. -/
def rmOf : BitVec 3 → Option Rm
  | 0 => some .fcsr | 1 => some .rne | 2 => some .rtz | 3 => some .rup | 4 => some .rdn | 5 => some .rna | _ => none

/-- The code of mod.rm (R46). -/
def rmCode : Rm → BitVec 3
  | .fcsr => 0 | .rne => 1 | .rtz => 2 | .rup => 3 | .rdn => 4 | .rna => 5

/-- The comparison of VFCMP's code (R141). -/
def fcondOf : BitVec 3 → FCond
  | 0 => .eq | 1 => .ne | 2 => .lt | 3 => .le | 4 => .gt | 5 => .ge | 6 => .un | _ => .or

/-- The code of a comparison of VFCMP (R141). -/
def fcondCode : FCond → BitVec 3
  | .eq => 0 | .ne => 1 | .lt => 2 | .le => 3 | .gt => 4 | .ge => 5 | .un => 6 | .or => 7

/-- The kind of VREDMAX and VREDMIN in field c (R149). -/
def redOf : Reg → Option RedKind
  | 0 => some .i32 | 1 => some .u32 | 2 => some .f32 | _ => none

/-- The field c of a kind of VREDMAX and VREDMIN (R149). -/
def redCode : RedKind → Reg
  | .i32 => 0 | .u32 => 1 | .f32 => 2

/-- The kind of VSCAN in field c (R150). -/
def scanOf : Reg → Option ScanKind
  | 0 => some .i32 | 1 => some .f32 | _ => none

/-- The field c of a kind of VSCAN (R150). -/
def scanCode : ScanKind → Reg
  | .i32 => 0 | .f32 => 1

/-- The form of VMOVS in imm[1:0] (R147). -/
def movsOf (i : BitVec 20) : Option MovsForm :=
  match i.extractLsb' 0 2 with
  | 0 => some .single | 1 => some .pair | 2 => some .iota | _ => none

/-- The code of a form of VMOVS (R147). -/
def movsCode : MovsForm → BitVec 2
  | .single => 0 | .pair => 1 | .iota => 2

/-- A one-bit choice in a register field (R145). -/
def boolReg (u : Bool) : Reg := if u then 1 else 0

/-! ## The slot frame (R45, R46) -/

/-- The fields of a slot word; the hint bits have no effect and are not kept. -/
structure Frame where
  op  : BitVec 8 := 0
  sub : BitVec 4 := 0
  d   : Reg := 0
  a   : Reg := 0
  b   : Reg := 0
  c   : Reg := 0
  ib  : Bool := false
  kx  : Bool := false
  rm  : BitVec 3 := 0
  mt  : Bool := false
  imm : BitVec 20 := 0
  k   : BitVec 32 := 0
deriving DecidableEq, Repr

/-- The frame of a slot word and of the K lent to it (R45). -/
def Frame.unpack (w : BitVec 64) (k : BitVec 32) : Frame :=
  { op := w.extractLsb' 56 8, sub := w.extractLsb' 52 4, d := w.extractLsb' 46 6, a := w.extractLsb' 40 6, b := w.extractLsb' 34 6
    c := w.extractLsb' 28 6, ib := w.getLsbD 27, kx := w.getLsbD 26, rm := w.extractLsb' 23 3, mt := w.getLsbD 22
    imm := w.extractLsb' 0 20, k := k }

/-- The slot word of a frame (R45), with hint zero. -/
def Frame.pack (f : Frame) : BitVec 64 :=
  f.op ++ f.sub ++ f.d ++ f.a ++ f.b ++ f.c ++ BitVec.ofBool f.ib ++ BitVec.ofBool f.kx ++ f.rm ++ BitVec.ofBool f.mt ++ 0#2 ++ f.imm

/-- The immediate of a frame (R48). -/
def Frame.immv (f : Frame) (k : BitVec 32) : Imm :=
  if f.kx then .long (k ++ f.imm) else .short f.imm

/-- The second source of a frame (R46). -/
def Frame.src (f : Frame) (k : BitVec 32) : Src :=
  if f.ib then .imm (f.immv k) else .reg f.b

/-- A frame with an immediate put in (R48). -/
def Frame.withImm (f : Frame) : Imm → Frame
  | .short v => { f with imm := v }
  | .long v => { f with imm := v.extractLsb' 0 20, k := v.extractLsb' 20 32, kx := true }

/-- A frame with a second source put in (R46). -/
def Frame.withSrc (f : Frame) : Src → Frame
  | .reg r => { f with b := r }
  | .imm v => ({ f with ib := true }).withImm v

/-- The fields that an instruction uses; every other field must be zero (R49). -/
structure Uses where
  sub  : Bool := false
  d    : Bool := false
  a    : Bool := false
  b    : Bool := false
  c    : Bool := false
  src  : Bool := false
  immk : Bool := false
  imm  : Bool := false
  rm   : Bool := false
  mt   : Bool := false
deriving DecidableEq, Repr

/-- No field stands non-zero that the instruction does not use (R49). -/
def Frame.fits (f : Frame) (u : Uses) : Bool :=
  (u.sub || f.sub == 0) && (u.d || f.d == 0) && (u.a || f.a == 0) && (u.c || f.c == 0) &&
  (u.rm || f.rm == 0) && (u.mt || !f.mt) &&
  (if u.src then (if f.ib then f.b == 0 else !f.kx && (u.imm || f.imm == 0))
   else !f.ib && (u.b || f.b == 0) && (u.immk || !f.kx) && (u.imm || u.immk || f.imm == 0))

/-- VFCMP's frame: the comparison stands in imm[2:0], or in field c when an immediate is the second source (R141). -/
def encodeVfcmp (f : Frame) (cc : BitVec 3) : Src → Frame
  | .reg r => { f with b := r, imm := 0#17 ++ cc }
  | .imm v => ({ f with ib := true, c := 0#3 ++ cc }).withImm v

/-! ## The opcode maps (R50 to R55) -/

/-- NOP and the hint cells, which every slot holds (R50). -/
def decodeCommon (f : Frame) : Option Instr :=
  if f.op == 0x00 then (if f.fits {} then some .nop else none)
  else if f.op.extractLsb' 4 4 == 0xF#4 then some (.hint (f.op.extractLsb' 0 4))
  else none

/-- The C-slot map (R51). -/
def decodeC (f : Frame) (k : BitVec 32) : Option Instr :=
  match f.op.toNat with
  | 0x01 => if f.fits { d := true, a := true, src := true } then some (.add f.d f.a (f.src k)) else none
  | 0x02 => if f.fits { d := true, a := true, src := true } then some (.sub f.d f.a (f.src k)) else none
  | 0x03 => if f.fits { d := true, a := true, src := true } then some (.mul f.d f.a (f.src k)) else none
  | 0x04 => if f.fits { d := true, a := true, src := true } then some (.mulh f.d f.a (f.src k)) else none
  | 0x05 => if f.fits { d := true, a := true, src := true } then some (.mulhu f.d f.a (f.src k)) else none
  | 0x06 => if f.fits { d := true, a := true, src := true } then some (.div f.d f.a (f.src k)) else none
  | 0x07 => if f.fits { d := true, a := true, src := true } then some (.divu f.d f.a (f.src k)) else none
  | 0x08 => if f.fits { d := true, a := true, src := true } then some (.rem f.d f.a (f.src k)) else none
  | 0x09 => if f.fits { d := true, a := true, src := true } then some (.remu f.d f.a (f.src k)) else none
  | 0x0A => if f.fits { d := true, a := true, src := true } then some (.and f.d f.a (f.src k)) else none
  | 0x0B => if f.fits { d := true, a := true, src := true } then some (.or f.d f.a (f.src k)) else none
  | 0x0C => if f.fits { d := true, a := true, src := true } then some (.xor f.d f.a (f.src k)) else none
  | 0x0D => if f.fits { d := true, a := true, src := true } then some (.andn f.d f.a (f.src k)) else none
  | 0x0E => if f.fits { d := true, a := true, src := true } then some (.shl f.d f.a (f.src k)) else none
  | 0x0F => if f.fits { d := true, a := true, src := true } then some (.shr f.d f.a (f.src k)) else none
  | 0x10 => if f.fits { d := true, a := true, src := true } then some (.sar f.d f.a (f.src k)) else none
  | 0x11 => if f.fits { d := true, a := true, src := true } then some (.rot f.d f.a (f.src k)) else none
  | 0x12 => if f.fits { d := true, a := true } then some (.clz f.d f.a) else none
  | 0x13 => if f.fits { d := true, a := true } then some (.ctz f.d f.a) else none
  | 0x14 => if f.fits { d := true, a := true } then some (.popc f.d f.a) else none
  | 0x15 => if f.fits { d := true, a := true, src := true } then some (.min f.d f.a (f.src k)) else none
  | 0x16 => if f.fits { d := true, a := true, src := true } then some (.max f.d f.a (f.src k)) else none
  | 0x17 => if f.fits { d := true, a := true, src := true } then some (.minu f.d f.a (f.src k)) else none
  | 0x18 => if f.fits { d := true, a := true, src := true } then some (.maxu f.d f.a (f.src k)) else none
  | 0x19 => if f.fits { d := true, a := true, c := true, src := true } then some (.sel f.d f.a (f.src k) f.c) else none
  | 0x1A => if f.fits { sub := true, d := true, a := true, src := true } then (condOf f.sub).bind fun cc => some (.cmp cc f.d f.a (f.src k)) else none
  | 0x1B => if f.fits { d := true, immk := true } then some (.movi f.d (f.immv k)) else none
  | 0x1C => if f.fits { d := true, a := true, imm := true } && f.imm &&& 0xFFF80#20 == 0x00000#20 then some (.sext f.d f.a (f.imm.extractLsb' 0 7)) else none
  | 0x1D => if f.fits { d := true, a := true, imm := true } && f.imm &&& 0xFFF80#20 == 0x00000#20 then some (.zext f.d f.a (f.imm.extractLsb' 0 7)) else none
  | 0x1E => if f.fits { d := true, a := true, imm := true } && f.imm &&& 0xFC000#20 == 0x00000#20 then some (.bfx f.d f.a (f.imm.extractLsb' 0 6) (f.imm.extractLsb' 6 7) (f.imm.getLsbD 13)) else none
  | 0x1F => if f.fits { d := true, a := true, b := true, imm := true } && f.imm &&& 0xFE000#20 == 0x00000#20 then some (.bfi f.d f.a f.b (f.imm.extractLsb' 0 6) (f.imm.extractLsb' 6 7)) else none
  | 0x20 => if f.fits { d := true, a := true, b := true, imm := true } && f.imm &&& 0xFFFC0#20 == 0x00000#20 then some (.idx f.d f.a f.b (f.imm.extractLsb' 0 6)) else none
  | 0x21 => if f.fits { d := true, a := true, c := true, src := true } then some (.madd f.d f.a (f.src k) f.c) else none
  | 0x40 => if f.fits { sub := true, a := true, b := true, imm := true } then (condOf f.sub).bind fun cc => some (.br cc f.a f.b (f.imm.extractLsb' 0 20)) else none
  | 0x41 => if f.fits { immk := true } then some (.j (f.immv k)) else none
  | 0x42 => if f.fits { d := true, immk := true } then some (.call f.d (f.immv k)) else none
  | 0x43 => if f.fits { a := true } then some (.ret f.a) else none
  | 0x44 => if f.fits { imm := true } then some (.brme (f.imm.extractLsb' 0 20)) else none
  | 0x45 => if f.fits { a := true, imm := true } && f.imm &&& 0x80000#20 == 0x00000#20 then some (.loop f.a (f.imm.extractLsb' 0 16) (f.imm.extractLsb' 16 3)) else none
  | 0x46 => if f.fits { a := true, imm := true } && f.imm &&& 0xFFFFE#20 == 0x00000#20 then some (.lbrk f.a (f.imm.getLsbD 0)) else none
  | 0x60 => if f.fits { d := true, a := true, imm := true } then some (.ld f.d f.a (f.imm.extractLsb' 18 2) (f.imm.getLsbD 17) (f.imm.extractLsb' 0 17)) else none
  | 0x61 => if f.fits { a := true, b := true, imm := true } && f.imm &&& 0x20000#20 == 0x00000#20 then some (.st f.a f.b (f.imm.extractLsb' 18 2) (f.imm.extractLsb' 0 17)) else none
  | 0x62 => if f.fits { a := true, b := true, imm := true } && f.imm &&& 0xE0000#20 == 0xC0000#20 then some (.stIo f.a f.b (f.imm.extractLsb' 0 17)) else none
  | 0x63 => if f.fits { sub := true } then (scopeOf f.sub).bind fun sc => some (.fence sc) else none
  | 0x64 => if f.fits { sub := true, d := true, a := true, b := true, c := true, imm := true } && f.imm &&& 0xFFFFE#20 == 0x00000#20 then (orderOf f.sub).bind fun o => some (.amoCas o f.d f.a f.b f.c (f.imm.getLsbD 0)) else none
  | 0x65 => if f.fits { sub := true, d := true, a := true, src := true } then (orderOf f.sub).bind fun o => some (.amoAdd o f.d f.a (f.src k)) else none
  | 0x66 => if f.fits { sub := true, d := true, a := true, src := true } then (orderOf f.sub).bind fun o => some (.amoSwp o f.d f.a (f.src k)) else none
  | 0x67 => if f.fits { sub := true, d := true, a := true, src := true } then (orderOf f.sub).bind fun o => some (.amoMin o f.d f.a (f.src k)) else none
  | 0x68 => if f.fits { sub := true, d := true, a := true, src := true } then (orderOf f.sub).bind fun o => some (.amoMax o f.d f.a (f.src k)) else none
  | 0x69 => if f.fits { sub := true, d := true, a := true, src := true } then (orderOf f.sub).bind fun o => some (.amoAnd o f.d f.a (f.src k)) else none
  | 0x6A => if f.fits { sub := true, d := true, a := true, src := true } then (orderOf f.sub).bind fun o => some (.amoOr o f.d f.a (f.src k)) else none
  | 0x80 => if f.fits { d := true, a := true } then some (.objpin f.d f.a) else none
  | 0x81 => if f.fits { d := true } then some (.objunp f.d) else none
  | 0x82 => if f.fits { d := true, a := true, imm := true } && f.imm &&& 0xFFFE0#20 == 0x00000#20 then some (.objq f.d f.a (f.imm.extractLsb' 0 5)) else none
  | 0x83 => if f.fits { d := true, a := true, b := true, imm := true } && f.imm &&& 0xFFFFC#20 == 0x00000#20 then some (.objchk f.d f.a f.b (f.imm.extractLsb' 0 2)) else none
  | 0xA0 => if f.fits { imm := true } && f.imm &&& 0xF0000#20 == 0x00000#20 then some (.trap (f.imm.extractLsb' 0 16)) else none
  | 0xA1 => if f.fits { imm := true } && f.imm &&& 0xFFFFF#20 == 0x00000#20 then some .eret else if f.fits { imm := true } && f.imm &&& 0xFFFFF#20 == 0x00001#20 then some .eretSkip else none
  | 0xA2 => if f.fits { d := true, imm := true } && f.imm &&& 0xFF000#20 == 0x00000#20 then some (.mfs f.d (f.imm.extractLsb' 0 12)) else none
  | 0xA3 => if f.fits { a := true, imm := true } && f.imm &&& 0xFF000#20 == 0x00000#20 then some (.mts f.a (f.imm.extractLsb' 0 12)) else none
  | 0xA4 => if f.fits { d := true } then some (.wfe f.d) else none
  | 0xA5 => if f.fits { a := true } then some (.sev f.a) else none
  | 0xA6 => if f.fits {} then some .yield else none
  | 0xA7 => if f.fits { a := true, imm := true } && f.imm &&& 0xF0000#20 == 0x00000#20 then some (.mark f.a (f.imm.extractLsb' 0 16)) else none
  | 0xA8 => if f.fits {} then some .halt else none
  | _ => decodeCommon f

/-- The V-slot map (R52). -/
def decodeV (f : Frame) (k : BitVec 32) : Option Instr :=
  match f.op.toNat with
  | 0x01 => if f.fits { sub := true, d := true, a := true, src := true, rm := true, mt := true } then (fmtOf f.sub).bind fun fm => (rmOf f.rm).bind fun rm => some (.vfadd fm rm f.mt f.d f.a (f.src k)) else none
  | 0x02 => if f.fits { sub := true, d := true, a := true, src := true, rm := true, mt := true } then (fmtOf f.sub).bind fun fm => (rmOf f.rm).bind fun rm => some (.vfsub fm rm f.mt f.d f.a (f.src k)) else none
  | 0x03 => if f.fits { sub := true, d := true, a := true, src := true, rm := true, mt := true } then (fmtOf f.sub).bind fun fm => (rmOf f.rm).bind fun rm => some (.vfmul fm rm f.mt f.d f.a (f.src k)) else none
  | 0x04 => if f.fits { sub := true, d := true, a := true, c := true, src := true, rm := true, mt := true } then (fmtOf f.sub).bind fun fm => (rmOf f.rm).bind fun rm => some (.vfma fm rm f.mt f.d f.a (f.src k) f.c) else none
  | 0x05 => if f.fits { sub := true, d := true, a := true, c := true, src := true, rm := true, mt := true } then (fmtOf f.sub).bind fun fm => (rmOf f.rm).bind fun rm => some (.vfms fm rm f.mt f.d f.a (f.src k) f.c) else none
  | 0x06 => if f.fits { sub := true, d := true, a := true, c := true, src := true, rm := true, mt := true } then (fmtOf f.sub).bind fun fm => (rmOf f.rm).bind fun rm => some (.vfnma fm rm f.mt f.d f.a (f.src k) f.c) else none
  | 0x07 => if f.fits { sub := true, d := true, a := true, src := true, rm := true, mt := true } then (fmtOf f.sub).bind fun fm => (rmOf f.rm).bind fun rm => some (.vfdiv fm rm f.mt f.d f.a (f.src k)) else none
  | 0x08 => if f.fits { sub := true, d := true, a := true, rm := true, mt := true } then (fmtOf f.sub).bind fun fm => (rmOf f.rm).bind fun rm => some (.vfsqrt fm rm f.mt f.d f.a) else none
  | 0x09 => if f.fits { sub := true, d := true, a := true, src := true, mt := true } then (fmtOf f.sub).bind fun fm => some (.vfmin fm f.mt f.d f.a (f.src k)) else none
  | 0x0A => if f.fits { sub := true, d := true, a := true, src := true, mt := true } then (fmtOf f.sub).bind fun fm => some (.vfmax fm f.mt f.d f.a (f.src k)) else none
  | 0x0B => if f.fits { sub := true, d := true, a := true, mt := true } then (fmtOf f.sub).bind fun fm => some (.vfabs fm f.mt f.d f.a) else none
  | 0x0C => if f.fits { sub := true, d := true, a := true, mt := true } then (fmtOf f.sub).bind fun fm => some (.vfneg fm f.mt f.d f.a) else none
  | 0x0D => if f.fits { sub := true, d := true, a := true, c := true, src := true, imm := true, mt := true } && f.c &&& 0b111000#6 == 0#6 && (if f.ib then true else f.c == 0 && f.imm &&& 0xFFFF8#20 == 0#20 && !f.kx) then (fmtOf f.sub).bind fun fm => some (.vfcmp fm (fcondOf (if f.ib then f.c.extractLsb' 0 3 else f.imm.extractLsb' 0 3)) f.mt f.d f.a (f.src k)) else none
  | 0x0E => if f.fits { sub := true, d := true, a := true, b := true, imm := true, rm := true, mt := true } && f.imm &&& 0xFFFE0#20 == 0x00000#20 then (fmtOf f.sub).bind fun dst => (fmtOf (f.imm.extractLsb' 0 4)).bind fun src => (rmOf f.rm).bind fun rm => some (.vfcvt dst src rm f.mt f.d f.a f.b (f.imm.getLsbD 4)) else none
  | 0x0F => if f.fits { sub := true, d := true, a := true, rm := true, mt := true } then (fmtOf f.sub).bind fun fm => (rmOf f.rm).bind fun rm => some (.vfrnd fm rm f.mt f.d f.a) else none
  | 0x10 => if f.fits { sub := true, d := true, a := true, src := true, rm := true, mt := true } then (fmtOf f.sub).bind fun fm => (rmOf f.rm).bind fun rm => some (.vscalb fm rm f.mt f.d f.a (f.src k)) else none
  | 0x11 => if f.fits { sub := true, d := true, a := true, mt := true } && f.sub == 0x1#4 then some (.vexp2 f.mt f.d f.a) else none
  | 0x12 => if f.fits { sub := true, d := true, a := true, mt := true } && f.sub == 0x1#4 then some (.vlog2 f.mt f.d f.a) else none
  | 0x13 => if f.fits { sub := true, d := true, a := true, mt := true } && f.sub == 0x1#4 then some (.vrcp f.mt f.d f.a) else none
  | 0x14 => if f.fits { sub := true, d := true, a := true, mt := true } && f.sub == 0x1#4 then some (.vrsq f.mt f.d f.a) else none
  | 0x20 => if f.fits { d := true, a := true, src := true, mt := true } then some (.vadd f.mt f.d f.a (f.src k)) else none
  | 0x21 => if f.fits { d := true, a := true, src := true, mt := true } then some (.vsub f.mt f.d f.a (f.src k)) else none
  | 0x22 => if f.fits { d := true, a := true, src := true, mt := true } then some (.vmul f.mt f.d f.a (f.src k)) else none
  | 0x23 => if f.fits { d := true, a := true, c := true, src := true, mt := true } && f.c &&& 0b111110#6 == 0#6 then some (.vmulh (f.c.getLsbD 0) f.mt f.d f.a (f.src k)) else none
  | 0x24 => if f.fits { d := true, a := true, c := true, src := true, mt := true } then some (.vmad f.mt f.d f.a (f.src k) f.c) else none
  | 0x25 => if f.fits { d := true, a := true, src := true, mt := true } then some (.vand f.mt f.d f.a (f.src k)) else none
  | 0x26 => if f.fits { d := true, a := true, src := true, mt := true } then some (.vor f.mt f.d f.a (f.src k)) else none
  | 0x27 => if f.fits { d := true, a := true, src := true, mt := true } then some (.vxor f.mt f.d f.a (f.src k)) else none
  | 0x28 => if f.fits { d := true, a := true, src := true, mt := true } then some (.vshl f.mt f.d f.a (f.src k)) else none
  | 0x29 => if f.fits { d := true, a := true, src := true, mt := true } then some (.vshr f.mt f.d f.a (f.src k)) else none
  | 0x2A => if f.fits { d := true, a := true, src := true, mt := true } then some (.vsar f.mt f.d f.a (f.src k)) else none
  | 0x2B => if f.fits { d := true, a := true, c := true, src := true, mt := true } && f.c &&& 0b111110#6 == 0#6 then some (.vmin (f.c.getLsbD 0) f.mt f.d f.a (f.src k)) else none
  | 0x2C => if f.fits { d := true, a := true, c := true, src := true, mt := true } && f.c &&& 0b111110#6 == 0#6 then some (.vmax (f.c.getLsbD 0) f.mt f.d f.a (f.src k)) else none
  | 0x2D => if f.fits { sub := true, d := true, a := true, src := true, mt := true } then (condOf f.sub).bind fun cc => some (.vcmp cc f.mt f.d f.a (f.src k)) else none
  | 0x2E => if f.fits { d := true, a := true, c := true, src := true, mt := true } then some (.vsel f.mt f.d f.a (f.src k) f.c) else none
  | 0x2F => if f.fits { d := true, a := true, mt := true } then some (.vabs f.mt f.d f.a) else none
  | 0x30 => if f.fits { d := true, a := true, mt := true } then some (.vclz f.mt f.d f.a) else none
  | 0x31 => if f.fits { d := true, a := true, mt := true } then some (.vpopc f.mt f.d f.a) else none
  | 0x32 => if f.fits { d := true, a := true, b := true, mt := true } then some (.vclmulLo f.mt f.d f.a f.b) else none
  | 0x33 => if f.fits { d := true, a := true, b := true, mt := true } then some (.vclmulHi f.mt f.d f.a f.b) else none
  | 0x40 => if f.fits { d := true, a := true, b := true, mt := true } then some (.vperm f.mt f.d f.a f.b) else none
  | 0x41 => if f.fits { d := true, a := true, b := true, c := true, mt := true } then some (.vshuf f.mt f.d f.a f.b f.c) else none
  | 0x42 => if f.fits { d := true, a := true, imm := true, mt := true } && f.imm &&& 0xFFFC0#20 == 0x00000#20 then some (.vbcast f.mt f.d f.a (f.imm.extractLsb' 0 6)) else none
  | 0x43 => if f.fits { sub := true, d := true, a := true, mt := true } then (fmtOf f.sub).bind fun fm => some (.vredadd fm f.mt f.d f.a) else none
  | 0x44 => if f.fits { d := true, a := true, c := true, mt := true } then (redOf f.c).bind fun rk => some (.vredmax rk f.mt f.d f.a) else none
  | 0x45 => if f.fits { d := true, a := true, c := true, mt := true } then (redOf f.c).bind fun rk => some (.vredmin rk f.mt f.d f.a) else none
  | 0x46 => if f.fits { d := true, a := true, c := true, mt := true } then (scanOf f.c).bind fun sk => some (.vscan sk f.mt f.d f.a) else none
  | 0x47 => if f.fits { d := true, a := true, b := true, imm := true, mt := true } && f.imm &&& 0xFFF80#20 == 0x00000#20 then some (.vtopk f.mt f.d f.a f.b (f.imm.extractLsb' 0 7)) else none
  | 0x60 => if f.fits { a := true } then some (.mpush f.a) else none
  | 0x61 => if f.fits {} then some .minv else none
  | 0x62 => if f.fits {} then some .mpop else none
  | 0x63 => if f.fits { d := true, a := true, b := true } then some (.mand f.d f.a f.b) else none
  | 0x64 => if f.fits { d := true, a := true, b := true } then some (.mor f.d f.a f.b) else none
  | 0x65 => if f.fits { d := true, a := true } then some (.mnot f.d f.a) else none
  | 0x66 => if f.fits { d := true, a := true, imm := true } && f.imm &&& 0xFFFFE#20 == 0x00000#20 then some (.mcnt f.d f.a (f.imm.getLsbD 0)) else none
  | 0x70 => if f.fits { d := true, a := true, imm := true, mt := true } && f.imm &&& 0xFFFFE#20 == 0x00000#20 then some (.vmov f.mt f.d f.a (f.imm.getLsbD 0)) else none
  | 0x71 => if f.fits { d := true, a := true, imm := true, mt := true } && f.imm &&& 0xFFFFC#20 == 0x00000#20 then (movsOf f.imm).bind fun mf => some (.vmovs mf f.mt f.d f.a) else none
  | 0x72 => if f.fits { d := true, a := true, imm := true } && f.imm &&& 0xFFF00#20 == 0x00000#20 then some (.vext f.d f.a (f.imm.extractLsb' 0 6) (f.imm.getLsbD 6) (f.imm.getLsbD 7)) else none
  | _ => decodeCommon f

/-- The M-slot map (R53). -/
def decodeM (f : Frame) (k : BitVec 32) : Option Instr :=
  match f.op.toNat with
  | 0x01 => if f.fits { d := true, a := true, b := true, imm := true } && f.imm &&& 0xFFFF0#20 == 0x00000#20 then some (.mma f.d f.a f.b (f.imm.extractLsb' 0 4)) else none
  | 0x02 => if f.fits { d := true, a := true, b := true, imm := true } && f.imm &&& 0xFFFF0#20 == 0x00000#20 then some (.mmaZ f.d f.a f.b (f.imm.extractLsb' 0 4)) else none
  | 0x03 => if f.fits { d := true, a := true, b := true, imm := true } && f.imm &&& 0xFFFF0#20 == 0x00000#20 then some (.mmaN f.d f.a f.b (f.imm.extractLsb' 0 4)) else none
  | 0x10 => if f.fits { d := true } then some (.accz f.d) else none
  | 0x11 => if f.fits { a := true, b := true, imm := true } && f.imm &&& 0xFFFFF#20 == 0x00000#20 then some (.accret f.a f.b) else if f.fits { d := true, a := true, b := true, imm := true } && f.imm &&& 0xFFFFF#20 == 0x00001#20 then some (.accretAmax f.d f.a f.b) else if f.fits { a := true, b := true, c := true, imm := true } && f.imm &&& 0xFFFFF#20 == 0x00002#20 then some (.accretApply f.a f.b f.c) else if f.fits { d := true, a := true, b := true, imm := true } && f.imm &&& 0xFFFFF#20 == 0x00003#20 then some (.accretDerive f.d f.a f.b) else none
  | 0x12 => if f.fits { d := true, a := true, imm := true } && f.imm &&& 0xFFFC0#20 == 0x00000#20 then some (.accrd f.d f.a (f.imm.extractLsb' 0 6)) else none
  | 0x13 => if f.fits { d := true, b := true, imm := true } && f.imm &&& 0xFFF80#20 == 0x00000#20 then some (.accwr f.d f.b (f.imm.extractLsb' 0 6) (f.imm.getLsbD 6)) else none
  | 0x14 => if f.fits { a := true } then some (.accwait f.a) else none
  | 0x15 => if f.fits { a := true, b := true } then some (.accst f.a f.b) else none
  | 0x20 => if f.fits { d := true, a := true, c := true, imm := true } && f.imm &&& 0xFFFE0#20 == 0x00000#20 && (f.imm.getLsbD 4 || f.c == 0) then some (.opld f.d f.a (f.imm.extractLsb' 0 2) (f.imm.extractLsb' 2 2) (if f.imm.getLsbD 4 then some f.c else none)) else none
  | 0x21 => if f.fits { a := true, b := true, imm := true } && f.imm &&& 0xFFFF0#20 == 0x00000#20 then some (.opst f.a f.b (f.imm.extractLsb' 0 2) (f.imm.extractLsb' 2 2)) else none
  | 0x22 => if f.fits { d := true } then some (.opclr f.d) else none
  | 0x30 => if f.fits { d := true, a := true, imm := true } && f.imm &&& 0x70000#20 == 0x00000#20 then some (.scld f.d f.a (f.imm.extractLsb' 0 16) (f.imm.getLsbD 19)) else none
  | 0x31 => if f.fits { a := true, b := true, imm := true } && f.imm &&& 0xF0000#20 == 0x00000#20 then some (.scst f.a f.b (f.imm.extractLsb' 0 16)) else none
  | 0x32 => if f.fits { d := true, a := true, imm := true } && f.imm &&& 0x7FFFF#20 == 0x00000#20 then some (.scmov f.d f.a (f.imm.getLsbD 19)) else none
  | 0x33 => if f.fits { d := true, a := true, b := true, imm := true } && f.imm &&& 0x7FFFF#20 == 0x00000#20 then some (.scmul f.d f.a f.b (f.imm.getLsbD 19)) else none
  | 0x34 => if f.fits { d := true, a := true, b := true, imm := true } && f.imm &&& 0x7FFFF#20 == 0x00000#20 then some (.scmax f.d f.a f.b (f.imm.getLsbD 19)) else none
  | 0x35 => if f.fits { d := true, a := true, b := true, imm := true } && f.imm &&& 0x7FFFF#20 == 0x00000#20 then some (.scmin f.d f.a f.b (f.imm.getLsbD 19)) else none
  | 0x36 => if f.fits { d := true, a := true, imm := true } && f.imm &&& 0x7FFF0#20 == 0x00000#20 then (fmtOf (f.imm.extractLsb' 0 4)).bind fun fm => some (.scq f.d f.a fm (f.imm.getLsbD 19)) else none
  | 0x37 => if f.fits { d := true, imm := true } && f.imm &&& 0x7FF00#20 == 0x00000#20 then some (.scset f.d (f.imm.extractLsb' 0 8) (f.imm.getLsbD 19)) else none
  | 0x38 => if f.fits { d := true, a := true } then some (.scbind f.d f.a) else none
  | 0x39 => if f.fits { d := true } then some (.screl f.d) else none
  | 0x3A => if f.fits { d := true, a := true, imm := true } && f.imm &&& 0x7FFFF#20 == 0x00000#20 then some (.scgen f.d f.a (f.imm.getLsbD 19)) else none
  | 0x40 => if f.fits { d := true, src := true } then some (.fmt f.d (f.src k)) else none
  | 0x41 => if f.fits { imm := true } && f.imm &&& 0xFFF80#20 == 0x00000#20 then some (.ftsel (f.imm.extractLsb' 4 3) (f.imm.extractLsb' 0 4)) else none
  | _ => decodeCommon f

/-- The D-slot map (R54). -/
def decodeD (f : Frame) (_k : BitVec 32) : Option Instr :=
  match f.op.toNat with
  | 0x01 => if f.fits { a := true, b := true } then some (.act f.a f.b) else none
  | 0x02 => if f.fits { a := true, b := true, c := true, imm := true } && f.imm &&& 0xFF000#20 == 0x00000#20 then some (.rd f.a f.b f.c (f.imm.extractLsb' 0 6) (f.imm.extractLsb' 6 6)) else none
  | 0x03 => if f.fits { a := true, b := true, c := true, imm := true } && f.imm &&& 0xFF000#20 == 0x00000#20 then some (.rda f.a f.b f.c (f.imm.extractLsb' 0 6) (f.imm.extractLsb' 6 6)) else none
  | 0x04 => if f.fits { a := true, b := true, c := true, imm := true } && f.imm &&& 0xFF000#20 == 0x00000#20 then some (.wr f.a f.b f.c (f.imm.extractLsb' 0 6) (f.imm.extractLsb' 6 6)) else none
  | 0x05 => if f.fits { a := true, b := true, c := true, imm := true } && f.imm &&& 0xFF000#20 == 0x00000#20 then some (.wra f.a f.b f.c (f.imm.extractLsb' 0 6) (f.imm.extractLsb' 6 6)) else none
  | 0x06 => if f.fits { imm := true } then some (.pre (f.imm.extractLsb' 0 7) (f.imm.extractLsb' 7 13)) else none
  | 0x07 => if f.fits {} then some .prea else none
  | 0x08 => if f.fits { imm := true } && f.imm &&& 0xFFF80#20 == 0x00000#20 then some (.ref (f.imm.extractLsb' 0 7)) else none
  | 0x09 => if f.fits { d := true, a := true, b := true, c := true, imm := true } && f.imm &&& 0xF8000#20 == 0x00000#20 && (f.imm.getLsbD 14 || f.c == 0) then some (.rdop f.d f.a f.b (f.imm.extractLsb' 0 6) (f.imm.extractLsb' 6 6) (f.imm.extractLsb' 12 2) (if f.imm.getLsbD 14 then some f.c else none)) else none
  | 0x0A => if f.fits { d := true, a := true, b := true, c := true } then some (.rdsc f.d f.a f.b f.c) else none
  | 0x0B => if f.fits { sub := true } then (levelOf f.sub).bind fun lvl => some (.vfence lvl) else none
  | 0x0C => if f.fits { imm := true } && f.imm &&& 0xFFFFC#20 == 0x00000#20 then some (.train (f.imm.extractLsb' 0 2)) else none
  | 0x0D => if f.fits { d := true, imm := true } && f.imm &&& 0xFFF80#20 == 0x00000#20 then some (.bstat f.d (f.imm.extractLsb' 0 7)) else none
  | 0x40 => if f.fits { imm := true } && f.imm &&& 0x80000#20 == 0x00000#20 then some (.actraw (f.imm.extractLsb' 0 7) (f.imm.extractLsb' 7 12)) else none
  | 0x41 => if f.fits { c := true, imm := true } && f.imm &&& 0x80000#20 == 0x00000#20 then some (.rdraw f.c (f.imm.extractLsb' 0 6) (f.imm.extractLsb' 6 6) (f.imm.extractLsb' 12 7)) else none
  | 0x42 => if f.fits { c := true, imm := true } && f.imm &&& 0x80000#20 == 0x00000#20 then some (.wrraw f.c (f.imm.extractLsb' 0 6) (f.imm.extractLsb' 6 6) (f.imm.extractLsb' 12 7)) else none
  | _ => decodeCommon f

/-- The X-slot map (R55). -/
def decodeX (f : Frame) (k : BitVec 32) : Option Instr :=
  match f.op.toNat with
  | 0x01 => if f.fits { a := true, b := true, c := true, imm := true } && f.imm &&& 0xFFF00#20 == 0x00000#20 then some (.msend f.a f.b f.c (f.imm.extractLsb' 0 8)) else none
  | 0x02 => if f.fits { a := true, b := true, c := true } then some (.msendv f.a f.b f.c) else none
  | 0x03 => if f.fits { a := true, b := true, c := true, imm := true } && f.imm &&& 0xFFF00#20 == 0x00000#20 then some (.mcast f.a f.b f.c (f.imm.extractLsb' 0 8)) else none
  | 0x10 => if f.fits { a := true, imm := true } && f.imm &&& 0xF8000#20 == 0x00000#20 then some (.lsend f.a (f.imm.extractLsb' 0 8) (f.imm.extractLsb' 8 6) (f.imm.getLsbD 14)) else none
  | 0x11 => if f.fits { a := true, imm := true } && f.imm &&& 0xF8000#20 == 0x00000#20 then some (.lrecv f.a (f.imm.extractLsb' 0 8) (f.imm.extractLsb' 8 6) (f.imm.getLsbD 14)) else none
  | 0x20 => if f.fits { d := true, a := true, imm := true, mt := true } then some (.vld f.mt f.d f.a (f.imm.extractLsb' 18 2) (f.imm.getLsbD 17) (f.imm.getLsbD 16) (f.imm.extractLsb' 0 16)) else none
  | 0x21 => if f.fits { a := true, b := true, imm := true, mt := true } && f.imm &&& 0x20000#20 == 0x00000#20 then some (.vst f.mt f.a f.b (f.imm.extractLsb' 18 2) (f.imm.getLsbD 16) (f.imm.extractLsb' 0 16)) else none
  | 0x22 => if f.fits { d := true, a := true, b := true, imm := true, mt := true } then some (.vgath f.mt f.d f.a f.b (f.imm.extractLsb' 18 2) (f.imm.getLsbD 17) (f.imm.getLsbD 16) (f.imm.extractLsb' 0 16)) else none
  | 0x23 => if f.fits { a := true, b := true, c := true, imm := true, mt := true } && f.imm &&& 0x20000#20 == 0x00000#20 then some (.vscat f.mt f.a f.b f.c (f.imm.extractLsb' 18 2) (f.imm.getLsbD 16) (f.imm.extractLsb' 0 16)) else none
  | 0x30 => if f.fits { d := true, a := true, src := true } then some (.apst f.d f.a (f.src k)) else none
  | 0x40 => if f.fits { d := true, imm := true } && f.imm &&& 0xFFE00#20 == 0x00000#20 then some (.warr f.d (f.imm.extractLsb' 0 6) (f.imm.extractLsb' 6 3)) else none
  | 0x41 => if f.fits { d := true, b := true, imm := true } then some (.wwait f.d f.b (f.imm.extractLsb' 0 6) (f.imm.extractLsb' 6 3) (f.imm.extractLsb' 9 11)) else none
  | 0x42 => if f.fits { d := true, imm := true } && f.imm &&& 0xFFE00#20 == 0x00000#20 then some (.wpoll f.d (f.imm.extractLsb' 0 6) (f.imm.extractLsb' 6 3)) else none
  | 0x43 => if f.fits { d := true, b := true, imm := true } && f.imm &&& 0xFFE00#20 == 0x00000#20 then some (.wpend f.d f.b (f.imm.extractLsb' 0 6) (f.imm.extractLsb' 6 3)) else none
  | 0x50 => if f.fits { d := true, a := true, src := true } then some (.jcbraise f.d f.a (f.src k)) else none
  | 0x51 => if f.fits { d := true, a := true, src := true } then some (.jcbpost f.d f.a (f.src k)) else none
  | 0x52 => if f.fits { d := true, a := true, imm := true } && f.imm &&& 0xF0000#20 == 0x00000#20 then some (.jcbwait f.d f.a (f.imm.extractLsb' 0 16)) else none
  | _ => decodeCommon f

/-- A frame read by the map of its part (R51 to R55). -/
def decodePart (p : Part) (f : Frame) : Option Instr :=
  match p with
  | .c => decodeC f f.k
  | .v => decodeV f f.k
  | .m => decodeM f f.k
  | .d => decodeD f f.k
  | .x => decodeX f f.k

/-- A slot word of a part, with the K lent to it, as an instruction; none where the slot is an illegal encoding by its own fields (R49). -/
def decodeSlot (p : Part) (w : BitVec 64) (k : BitVec 32) : Option Instr :=
  (decodePart p (Frame.unpack w k)).bind fun i => if i.wf then some i else none

/-- The frame of a slot instruction; none for an Ivloha op and for a device event, which no slot holds. -/
def encodeFrame : Instr → Option Frame
  | .nop => some {}
  | .hint n => some { op := 0xF#4 ++ n }
  | .add d a b => some (({ op := 0x01#8, d := d, a := a : Frame }).withSrc b)
  | .sub d a b => some (({ op := 0x02#8, d := d, a := a : Frame }).withSrc b)
  | .mul d a b => some (({ op := 0x03#8, d := d, a := a : Frame }).withSrc b)
  | .mulh d a b => some (({ op := 0x04#8, d := d, a := a : Frame }).withSrc b)
  | .mulhu d a b => some (({ op := 0x05#8, d := d, a := a : Frame }).withSrc b)
  | .div d a b => some (({ op := 0x06#8, d := d, a := a : Frame }).withSrc b)
  | .divu d a b => some (({ op := 0x07#8, d := d, a := a : Frame }).withSrc b)
  | .rem d a b => some (({ op := 0x08#8, d := d, a := a : Frame }).withSrc b)
  | .remu d a b => some (({ op := 0x09#8, d := d, a := a : Frame }).withSrc b)
  | .and d a b => some (({ op := 0x0A#8, d := d, a := a : Frame }).withSrc b)
  | .or d a b => some (({ op := 0x0B#8, d := d, a := a : Frame }).withSrc b)
  | .xor d a b => some (({ op := 0x0C#8, d := d, a := a : Frame }).withSrc b)
  | .andn d a b => some (({ op := 0x0D#8, d := d, a := a : Frame }).withSrc b)
  | .shl d a b => some (({ op := 0x0E#8, d := d, a := a : Frame }).withSrc b)
  | .shr d a b => some (({ op := 0x0F#8, d := d, a := a : Frame }).withSrc b)
  | .sar d a b => some (({ op := 0x10#8, d := d, a := a : Frame }).withSrc b)
  | .rot d a b => some (({ op := 0x11#8, d := d, a := a : Frame }).withSrc b)
  | .clz d a => some ({ op := 0x12#8, d := d, a := a : Frame })
  | .ctz d a => some ({ op := 0x13#8, d := d, a := a : Frame })
  | .popc d a => some ({ op := 0x14#8, d := d, a := a : Frame })
  | .min d a b => some (({ op := 0x15#8, d := d, a := a : Frame }).withSrc b)
  | .max d a b => some (({ op := 0x16#8, d := d, a := a : Frame }).withSrc b)
  | .minu d a b => some (({ op := 0x17#8, d := d, a := a : Frame }).withSrc b)
  | .maxu d a b => some (({ op := 0x18#8, d := d, a := a : Frame }).withSrc b)
  | .sel d a b c => some (({ op := 0x19#8, d := d, a := a, c := c : Frame }).withSrc b)
  | .cmp cc d a b => some (({ op := 0x1A#8, sub := condCode cc, d := d, a := a : Frame }).withSrc b)
  | .movi d v => some (({ op := 0x1B#8, d := d : Frame }).withImm v)
  | .sext d a n => some ({ op := 0x1C#8, d := d, a := a, imm := 0#13 ++ n : Frame })
  | .zext d a n => some ({ op := 0x1D#8, d := d, a := a, imm := 0#13 ++ n : Frame })
  | .bfx d a pos len sx => some ({ op := 0x1E#8, d := d, a := a, imm := 0#6 ++ BitVec.ofBool sx ++ len ++ pos : Frame })
  | .bfi d a b pos len => some ({ op := 0x1F#8, d := d, a := a, b := b, imm := 0#7 ++ len ++ pos : Frame })
  | .idx d a b sh => some ({ op := 0x20#8, d := d, a := a, b := b, imm := 0#14 ++ sh : Frame })
  | .madd d a b c => some (({ op := 0x21#8, d := d, a := a, c := c : Frame }).withSrc b)
  | .br cc a b off => some ({ op := 0x40#8, sub := condCode cc, a := a, b := b, imm := off : Frame })
  | .j off => some (({ op := 0x41#8 : Frame }).withImm off)
  | .call d off => some (({ op := 0x42#8, d := d : Frame }).withImm off)
  | .ret a => some ({ op := 0x43#8, a := a : Frame })
  | .brme off => some ({ op := 0x44#8, imm := off : Frame })
  | .loop a last stages => some ({ op := 0x45#8, a := a, imm := 0#1 ++ stages ++ last : Frame })
  | .lbrk a always => some ({ op := 0x46#8, a := a, imm := 0#19 ++ BitVec.ofBool always : Frame })
  | .ld d a w sx off => some ({ op := 0x60#8, d := d, a := a, imm := w ++ BitVec.ofBool sx ++ off : Frame })
  | .st a b w off => some ({ op := 0x61#8, a := a, b := b, imm := w ++ 0#1 ++ off : Frame })
  | .stIo a b off => some ({ op := 0x62#8, a := a, b := b, imm := 6#3 ++ off : Frame })
  | .fence sc => some ({ op := 0x63#8, sub := scopeCode sc : Frame })
  | .amoCas o d a b c fa => some ({ op := 0x64#8, sub := orderCode o, d := d, a := a, b := b, c := c, imm := 0#19 ++ BitVec.ofBool fa : Frame })
  | .amoAdd o d a b => some (({ op := 0x65#8, sub := orderCode o, d := d, a := a : Frame }).withSrc b)
  | .amoSwp o d a b => some (({ op := 0x66#8, sub := orderCode o, d := d, a := a : Frame }).withSrc b)
  | .amoMin o d a b => some (({ op := 0x67#8, sub := orderCode o, d := d, a := a : Frame }).withSrc b)
  | .amoMax o d a b => some (({ op := 0x68#8, sub := orderCode o, d := d, a := a : Frame }).withSrc b)
  | .amoAnd o d a b => some (({ op := 0x69#8, sub := orderCode o, d := d, a := a : Frame }).withSrc b)
  | .amoOr o d a b => some (({ op := 0x6A#8, sub := orderCode o, d := d, a := a : Frame }).withSrc b)
  | .objpin d a => some ({ op := 0x80#8, d := d, a := a : Frame })
  | .objunp d => some ({ op := 0x81#8, d := d : Frame })
  | .objq d a sel => some ({ op := 0x82#8, d := d, a := a, imm := 0#15 ++ sel : Frame })
  | .objchk d a b acc => some ({ op := 0x83#8, d := d, a := a, b := b, imm := 0#18 ++ acc : Frame })
  | .trap code => some ({ op := 0xA0#8, imm := 0#4 ++ code : Frame })
  | .eret => some ({ op := 0xA1#8, imm := 0#19 ++ 0#1 : Frame })
  | .eretSkip => some ({ op := 0xA1#8, imm := 0#19 ++ 1#1 : Frame })
  | .mfs d n => some ({ op := 0xA2#8, d := d, imm := 0#8 ++ n : Frame })
  | .mts a n => some ({ op := 0xA3#8, a := a, imm := 0#8 ++ n : Frame })
  | .wfe d => some ({ op := 0xA4#8, d := d : Frame })
  | .sev a => some ({ op := 0xA5#8, a := a : Frame })
  | .yield => some ({ op := 0xA6#8 : Frame })
  | .mark a tag => some ({ op := 0xA7#8, a := a, imm := 0#4 ++ tag : Frame })
  | .halt => some ({ op := 0xA8#8 : Frame })
  | .vfadd f rm mt d a b => some (({ op := 0x01#8, sub := fmtCode f, d := d, a := a, rm := rmCode rm, mt := mt : Frame }).withSrc b)
  | .vfsub f rm mt d a b => some (({ op := 0x02#8, sub := fmtCode f, d := d, a := a, rm := rmCode rm, mt := mt : Frame }).withSrc b)
  | .vfmul f rm mt d a b => some (({ op := 0x03#8, sub := fmtCode f, d := d, a := a, rm := rmCode rm, mt := mt : Frame }).withSrc b)
  | .vfma f rm mt d a b c => some (({ op := 0x04#8, sub := fmtCode f, d := d, a := a, c := c, rm := rmCode rm, mt := mt : Frame }).withSrc b)
  | .vfms f rm mt d a b c => some (({ op := 0x05#8, sub := fmtCode f, d := d, a := a, c := c, rm := rmCode rm, mt := mt : Frame }).withSrc b)
  | .vfnma f rm mt d a b c => some (({ op := 0x06#8, sub := fmtCode f, d := d, a := a, c := c, rm := rmCode rm, mt := mt : Frame }).withSrc b)
  | .vfdiv f rm mt d a b => some (({ op := 0x07#8, sub := fmtCode f, d := d, a := a, rm := rmCode rm, mt := mt : Frame }).withSrc b)
  | .vfsqrt f rm mt d a => some ({ op := 0x08#8, sub := fmtCode f, d := d, a := a, rm := rmCode rm, mt := mt : Frame })
  | .vfmin f mt d a b => some (({ op := 0x09#8, sub := fmtCode f, d := d, a := a, mt := mt : Frame }).withSrc b)
  | .vfmax f mt d a b => some (({ op := 0x0A#8, sub := fmtCode f, d := d, a := a, mt := mt : Frame }).withSrc b)
  | .vfabs f mt d a => some ({ op := 0x0B#8, sub := fmtCode f, d := d, a := a, mt := mt : Frame })
  | .vfneg f mt d a => some ({ op := 0x0C#8, sub := fmtCode f, d := d, a := a, mt := mt : Frame })
  | .vfcmp f cc mt d a b => some (encodeVfcmp ({ op := 0x0D#8, sub := fmtCode f, d := d, a := a, mt := mt : Frame }) (fcondCode cc) b)
  | .vfcvt dst src rm mt d a b hi => some ({ op := 0x0E#8, sub := fmtCode dst, d := d, a := a, b := b, rm := rmCode rm, mt := mt, imm := 0#15 ++ BitVec.ofBool hi ++ fmtCode src : Frame })
  | .vfrnd f rm mt d a => some ({ op := 0x0F#8, sub := fmtCode f, d := d, a := a, rm := rmCode rm, mt := mt : Frame })
  | .vscalb f rm mt d a b => some (({ op := 0x10#8, sub := fmtCode f, d := d, a := a, rm := rmCode rm, mt := mt : Frame }).withSrc b)
  | .vexp2 mt d a => some ({ op := 0x11#8, sub := 0x1#4, d := d, a := a, mt := mt : Frame })
  | .vlog2 mt d a => some ({ op := 0x12#8, sub := 0x1#4, d := d, a := a, mt := mt : Frame })
  | .vrcp mt d a => some ({ op := 0x13#8, sub := 0x1#4, d := d, a := a, mt := mt : Frame })
  | .vrsq mt d a => some ({ op := 0x14#8, sub := 0x1#4, d := d, a := a, mt := mt : Frame })
  | .vadd mt d a b => some (({ op := 0x20#8, d := d, a := a, mt := mt : Frame }).withSrc b)
  | .vsub mt d a b => some (({ op := 0x21#8, d := d, a := a, mt := mt : Frame }).withSrc b)
  | .vmul mt d a b => some (({ op := 0x22#8, d := d, a := a, mt := mt : Frame }).withSrc b)
  | .vmulh u mt d a b => some (({ op := 0x23#8, d := d, a := a, c := boolReg u, mt := mt : Frame }).withSrc b)
  | .vmad mt d a b c => some (({ op := 0x24#8, d := d, a := a, c := c, mt := mt : Frame }).withSrc b)
  | .vand mt d a b => some (({ op := 0x25#8, d := d, a := a, mt := mt : Frame }).withSrc b)
  | .vor mt d a b => some (({ op := 0x26#8, d := d, a := a, mt := mt : Frame }).withSrc b)
  | .vxor mt d a b => some (({ op := 0x27#8, d := d, a := a, mt := mt : Frame }).withSrc b)
  | .vshl mt d a b => some (({ op := 0x28#8, d := d, a := a, mt := mt : Frame }).withSrc b)
  | .vshr mt d a b => some (({ op := 0x29#8, d := d, a := a, mt := mt : Frame }).withSrc b)
  | .vsar mt d a b => some (({ op := 0x2A#8, d := d, a := a, mt := mt : Frame }).withSrc b)
  | .vmin u mt d a b => some (({ op := 0x2B#8, d := d, a := a, c := boolReg u, mt := mt : Frame }).withSrc b)
  | .vmax u mt d a b => some (({ op := 0x2C#8, d := d, a := a, c := boolReg u, mt := mt : Frame }).withSrc b)
  | .vcmp cc mt d a b => some (({ op := 0x2D#8, sub := condCode cc, d := d, a := a, mt := mt : Frame }).withSrc b)
  | .vsel mt d a b c => some (({ op := 0x2E#8, d := d, a := a, c := c, mt := mt : Frame }).withSrc b)
  | .vabs mt d a => some ({ op := 0x2F#8, d := d, a := a, mt := mt : Frame })
  | .vclz mt d a => some ({ op := 0x30#8, d := d, a := a, mt := mt : Frame })
  | .vpopc mt d a => some ({ op := 0x31#8, d := d, a := a, mt := mt : Frame })
  | .vclmulLo mt d a b => some ({ op := 0x32#8, d := d, a := a, b := b, mt := mt : Frame })
  | .vclmulHi mt d a b => some ({ op := 0x33#8, d := d, a := a, b := b, mt := mt : Frame })
  | .vperm mt d a b => some ({ op := 0x40#8, d := d, a := a, b := b, mt := mt : Frame })
  | .vshuf mt d a b c => some ({ op := 0x41#8, d := d, a := a, b := b, c := c, mt := mt : Frame })
  | .vbcast mt d a lane => some ({ op := 0x42#8, d := d, a := a, mt := mt, imm := 0#14 ++ lane : Frame })
  | .vredadd f mt d a => some ({ op := 0x43#8, sub := fmtCode f, d := d, a := a, mt := mt : Frame })
  | .vredmax k mt d a => some ({ op := 0x44#8, d := d, a := a, c := redCode k, mt := mt : Frame })
  | .vredmin k mt d a => some ({ op := 0x45#8, d := d, a := a, c := redCode k, mt := mt : Frame })
  | .vscan k mt d a => some ({ op := 0x46#8, d := d, a := a, c := scanCode k, mt := mt : Frame })
  | .vtopk mt d a b k => some ({ op := 0x47#8, d := d, a := a, b := b, mt := mt, imm := 0#13 ++ k : Frame })
  | .mpush a => some ({ op := 0x60#8, a := a : Frame })
  | .minv => some ({ op := 0x61#8 : Frame })
  | .mpop => some ({ op := 0x62#8 : Frame })
  | .mand d a b => some ({ op := 0x63#8, d := d, a := a, b := b : Frame })
  | .mor d a b => some ({ op := 0x64#8, d := d, a := a, b := b : Frame })
  | .mnot d a => some ({ op := 0x65#8, d := d, a := a : Frame })
  | .mcnt d a top => some ({ op := 0x66#8, d := d, a := a, imm := 0#19 ++ BitVec.ofBool top : Frame })
  | .vmov mt d a pair => some ({ op := 0x70#8, d := d, a := a, mt := mt, imm := 0#19 ++ BitVec.ofBool pair : Frame })
  | .vmovs k mt d a => some ({ op := 0x71#8, d := d, a := a, mt := mt, imm := 0#18 ++ movsCode k : Frame })
  | .vext d a lane sx pair => some ({ op := 0x72#8, d := d, a := a, imm := 0#12 ++ BitVec.ofBool pair ++ BitVec.ofBool sx ++ lane : Frame })
  | .mma d a b k => some ({ op := 0x01#8, d := d, a := a, b := b, imm := 0#16 ++ k : Frame })
  | .mmaZ d a b k => some ({ op := 0x02#8, d := d, a := a, b := b, imm := 0#16 ++ k : Frame })
  | .mmaN d a b k => some ({ op := 0x03#8, d := d, a := a, b := b, imm := 0#16 ++ k : Frame })
  | .accz d => some ({ op := 0x10#8, d := d : Frame })
  | .accret a b => some ({ op := 0x11#8, a := a, b := b, imm := 0#18 ++ 0#2 : Frame })
  | .accretAmax d a b => some ({ op := 0x11#8, d := d, a := a, b := b, imm := 0#18 ++ 1#2 : Frame })
  | .accretApply a b c => some ({ op := 0x11#8, a := a, b := b, c := c, imm := 0#18 ++ 2#2 : Frame })
  | .accretDerive d a b => some ({ op := 0x11#8, d := d, a := a, b := b, imm := 0#18 ++ 3#2 : Frame })
  | .accrd d a row => some ({ op := 0x12#8, d := d, a := a, imm := 0#14 ++ row : Frame })
  | .accwr d b row int => some ({ op := 0x13#8, d := d, b := b, imm := 0#13 ++ BitVec.ofBool int ++ row : Frame })
  | .accwait a => some ({ op := 0x14#8, a := a : Frame })
  | .accst a b => some ({ op := 0x15#8, a := a, b := b : Frame })
  | .opld d a q cnt bind => some ({ op := 0x20#8, d := d, a := a, c := (bind.getD 0), imm := 0#15 ++ BitVec.ofBool bind.isSome ++ cnt ++ q : Frame })
  | .opst a b q cnt => some ({ op := 0x21#8, a := a, b := b, imm := 0#16 ++ cnt ++ q : Frame })
  | .opclr d => some ({ op := 0x22#8, d := d : Frame })
  | .scld d a off ip => some ({ op := 0x30#8, d := d, a := a, imm := BitVec.ofBool ip ++ 0#3 ++ off : Frame })
  | .scst a b off => some ({ op := 0x31#8, a := a, b := b, imm := 0#4 ++ off : Frame })
  | .scmov d a ip => some ({ op := 0x32#8, d := d, a := a, imm := BitVec.ofBool ip ++ 0#19 : Frame })
  | .scmul d a b ip => some ({ op := 0x33#8, d := d, a := a, b := b, imm := BitVec.ofBool ip ++ 0#19 : Frame })
  | .scmax d a b ip => some ({ op := 0x34#8, d := d, a := a, b := b, imm := BitVec.ofBool ip ++ 0#19 : Frame })
  | .scmin d a b ip => some ({ op := 0x35#8, d := d, a := a, b := b, imm := BitVec.ofBool ip ++ 0#19 : Frame })
  | .scq d a f ip => some ({ op := 0x36#8, d := d, a := a, imm := BitVec.ofBool ip ++ 0#15 ++ fmtCode f : Frame })
  | .scset d code ip => some ({ op := 0x37#8, d := d, imm := BitVec.ofBool ip ++ 0#11 ++ code : Frame })
  | .scbind d a => some ({ op := 0x38#8, d := d, a := a : Frame })
  | .screl d => some ({ op := 0x39#8, d := d : Frame })
  | .scgen d a ip => some ({ op := 0x3A#8, d := d, a := a, imm := BitVec.ofBool ip ++ 0#19 : Frame })
  | .fmt d b => some (({ op := 0x40#8, d := d : Frame }).withSrc b)
  | .ftsel lvl base => some ({ op := 0x41#8, imm := 0#13 ++ lvl ++ base : Frame })
  | .act a b => some ({ op := 0x01#8, a := a, b := b : Frame })
  | .rd a b c s n => some ({ op := 0x02#8, a := a, b := b, c := c, imm := 0#8 ++ n ++ s : Frame })
  | .rda a b c s n => some ({ op := 0x03#8, a := a, b := b, c := c, imm := 0#8 ++ n ++ s : Frame })
  | .wr a b c s n => some ({ op := 0x04#8, a := a, b := b, c := c, imm := 0#8 ++ n ++ s : Frame })
  | .wra a b c s n => some ({ op := 0x05#8, a := a, b := b, c := c, imm := 0#8 ++ n ++ s : Frame })
  | .pre bank lend => some ({ op := 0x06#8, imm := lend ++ bank : Frame })
  | .prea => some ({ op := 0x07#8 : Frame })
  | .ref bank => some ({ op := 0x08#8, imm := 0#13 ++ bank : Frame })
  | .rdop d a b s n q bind => some ({ op := 0x09#8, d := d, a := a, b := b, c := (bind.getD 0), imm := 0#5 ++ BitVec.ofBool bind.isSome ++ q ++ n ++ s : Frame })
  | .rdsc d a b c => some ({ op := 0x0A#8, d := d, a := a, b := b, c := c : Frame })
  | .vfence lvl => some ({ op := 0x0B#8, sub := levelCode lvl : Frame })
  | .train q => some ({ op := 0x0C#8, imm := 0#18 ++ q : Frame })
  | .bstat d bank => some ({ op := 0x0D#8, d := d, imm := 0#13 ++ bank : Frame })
  | .actraw bank page => some ({ op := 0x40#8, imm := 0#1 ++ page ++ bank : Frame })
  | .rdraw c s n bank => some ({ op := 0x41#8, c := c, imm := 0#1 ++ bank ++ n ++ s : Frame })
  | .wrraw c s n bank => some ({ op := 0x42#8, c := c, imm := 0#1 ++ bank ++ n ++ s : Frame })
  | .msend a b c n => some ({ op := 0x01#8, a := a, b := b, c := c, imm := 0#12 ++ n : Frame })
  | .msendv a b c => some ({ op := 0x02#8, a := a, b := b, c := c : Frame })
  | .mcast a b c n => some ({ op := 0x03#8, a := a, b := b, c := c, imm := 0#12 ++ n : Frame })
  | .lsend a n ch rel => some ({ op := 0x10#8, a := a, imm := 0#5 ++ BitVec.ofBool rel ++ ch ++ n : Frame })
  | .lrecv a n ch acq => some ({ op := 0x11#8, a := a, imm := 0#5 ++ BitVec.ofBool acq ++ ch ++ n : Frame })
  | .vld mt d a w sx pair off => some ({ op := 0x20#8, d := d, a := a, mt := mt, imm := w ++ BitVec.ofBool sx ++ BitVec.ofBool pair ++ off : Frame })
  | .vst mt a b w pair off => some ({ op := 0x21#8, a := a, b := b, mt := mt, imm := w ++ 0#1 ++ BitVec.ofBool pair ++ off : Frame })
  | .vgath mt d a b w sx pair off => some ({ op := 0x22#8, d := d, a := a, b := b, mt := mt, imm := w ++ BitVec.ofBool sx ++ BitVec.ofBool pair ++ off : Frame })
  | .vscat mt a b c w pair off => some ({ op := 0x23#8, a := a, b := b, c := c, mt := mt, imm := w ++ 0#1 ++ BitVec.ofBool pair ++ off : Frame })
  | .apst d a b => some (({ op := 0x30#8, d := d, a := a : Frame }).withSrc b)
  | .warr d weir die => some ({ op := 0x40#8, d := d, imm := 0#11 ++ die ++ weir : Frame })
  | .wwait d b weir die w => some ({ op := 0x41#8, d := d, b := b, imm := w ++ die ++ weir : Frame })
  | .wpoll d weir die => some ({ op := 0x42#8, d := d, imm := 0#11 ++ die ++ weir : Frame })
  | .wpend d b weir die => some ({ op := 0x43#8, d := d, b := b, imm := 0#11 ++ die ++ weir : Frame })
  | .jcbraise d a b => some (({ op := 0x50#8, d := d, a := a : Frame }).withSrc b)
  | .jcbpost d a b => some (({ op := 0x51#8, d := d, a := a : Frame }).withSrc b)
  | .jcbwait d a w => some ({ op := 0x52#8, d := d, a := a, imm := 0#4 ++ w : Frame })
  | _ => none

/-- The slot word and the K of a slot instruction. -/
def encodeSlot (i : Instr) : Option (BitVec 64 × BitVec 32) :=
  (encodeFrame i).map fun f => (f.pack, f.k)

/-! ## Ivloha ops (R294) -/

/-- An Ivloha word as an op; none where the op value is undefined or an unused field is not zero (R294). -/
def decodeIvloha (w : BitVec 32) : Option Instr :=
  let d := w.extractLsb' 8 4
  let a := w.extractLsb' 12 4
  let i := w.extractLsb' 16 16
  match (w.extractLsb' 0 8).toNat with
  | 0x01 => if a == 0 && i &&& 0xFFF8#16 == 0 then some (.ivLdp d (w.extractLsb' 16 3)) else none
  | 0x02 => some (.ivLdw d a (w.extractLsb' 16 2) (w.extractLsb' 18 14))
  | 0x03 => some (.ivStw d a (w.extractLsb' 16 2) (w.extractLsb' 18 14))
  | 0x04 => if a == 0 then some (.ivMovi d i) else none
  | 0x05 => if a == 0 then some (.ivMovh d i) else none
  | 0x06 => some (.ivAdd d a i)
  | 0x07 => some (.ivSub d a i)
  | 0x08 => some (.ivAnd d a i)
  | 0x09 => some (.ivOr d a i)
  | 0x0A => some (.ivXor d a i)
  | 0x0B => some (.ivShl d a i)
  | 0x0C => some (.ivShr d a i)
  | 0x0D => some (.ivBeq d a i)
  | 0x0E => some (.ivBne d a i)
  | 0x0F => some (.ivBltu d a i)
  | 0x10 => if d == 0 && a == 0 then some (.ivJf i) else none
  | 0x11 => if d == 0 then some (.ivLoop a (w.extractLsb' 16 8) (w.extractLsb' 24 8)) else none
  | 0x12 => if d == 0 && i == 0 then some (.ivRank a) else none
  | 0x13 => if d == 0 && a == 0 then some (.ivNeed (w.extractLsb' 16 8) (w.extractLsb' 24 8)) else none
  | 0x14 => if d == 0 && a == 0 then some (.ivTokadd (w.extractLsb' 16 8) (w.extractLsb' 24 8)) else none
  | 0x15 => if d == 0 && i &&& 0xFE00#16 == 0 then some (.ivJob a (w.extractLsb' 22 3) (w.extractLsb' 16 6)) else none
  | 0x16 => if d == 0 && i == 0 then some (.ivLaunch a) else none
  | 0x17 => if d == 0 && i == 0 then some (.ivEvt a) else none
  | 0x18 => if d == 0 && a == 0 && i == 0 then some .ivDone else none
  | 0x19 => if d == 0 && a == 0 && i == 0 then some .ivDrop else none
  | _ => none

/-- The word of an Ivloha op (R294); none for every other row. -/
def encodeIvloha : Instr → Option (BitVec 32)
  | .ivLdp d w => some (0#13 ++ w ++ 0#4 ++ d ++ 0x01#8)
  | .ivLdw d a win o => some (o ++ win ++ a ++ d ++ 0x02#8)
  | .ivStw d a win o => some (o ++ win ++ a ++ d ++ 0x03#8)
  | .ivMovi d i => some (i ++ 0#4 ++ d ++ 0x04#8)
  | .ivMovh d i => some (i ++ 0#4 ++ d ++ 0x05#8)
  | .ivAdd d a i => some (i ++ a ++ d ++ 0x06#8)
  | .ivSub d a i => some (i ++ a ++ d ++ 0x07#8)
  | .ivAnd d a i => some (i ++ a ++ d ++ 0x08#8)
  | .ivOr d a i => some (i ++ a ++ d ++ 0x09#8)
  | .ivXor d a i => some (i ++ a ++ d ++ 0x0A#8)
  | .ivShl d a i => some (i ++ a ++ d ++ 0x0B#8)
  | .ivShr d a i => some (i ++ a ++ d ++ 0x0C#8)
  | .ivBeq d a i => some (i ++ a ++ d ++ 0x0D#8)
  | .ivBne d a i => some (i ++ a ++ d ++ 0x0E#8)
  | .ivBltu d a i => some (i ++ a ++ d ++ 0x0F#8)
  | .ivJf n => some (n ++ 0#8 ++ 0x10#8)
  | .ivLoop a len max => some (max ++ len ++ a ++ 0#4 ++ 0x11#8)
  | .ivRank a => some (0#16 ++ a ++ 0#4 ++ 0x12#8)
  | .ivNeed link cnt => some (cnt ++ link ++ 0#8 ++ 0x13#8)
  | .ivTokadd link cnt => some (cnt ++ link ++ 0#8 ++ 0x14#8)
  | .ivJob a die ch => some (0#7 ++ die ++ ch ++ a ++ 0#4 ++ 0x15#8)
  | .ivLaunch a => some (0#16 ++ a ++ 0#4 ++ 0x16#8)
  | .ivEvt a => some (0#16 ++ a ++ 0#4 ++ 0x17#8)
  | .ivDone => some 0x18#32
  | .ivDrop => some 0x19#32
  | _ => none

/-- The op that the decoder reads from a table row's bits: the table gives bits to the Ivloha ops alone, 32 of them,
and every bit above them is zero. -/
def decodeTableWord (nbits w : Nat) : Option Instr :=
  if nbits ≤ 32 ∧ w < 2 ^ 32 then decodeIvloha (BitVec.ofNat 32 w) else none

/-! ## The bundle (R39 to R42) -/

/-- The header fields of a bundle (R40). -/
structure Header where
  gap  : Nat
  pres : List Part
  yld  : Bool
  rpl  : Bool
  seg  : Bool
  mkr  : Bool
  svc  : Bool
  kown : Option Part
deriving DecidableEq, Repr

/-- The parts in the order of R60. -/
def allParts : List Part := [.c, .v, .m, .d, .x]

/-- The number of a part (R118). -/
def Part.code : Part → Nat
  | .c => 1 | .v => 2 | .m => 3 | .d => 4 | .x => 5

/-- The K owner of a header (R40); none for the illegal codes 6 and 7. -/
def kownOf : Nat → Option (Option Part)
  | 0 => some none | 1 => some (some .c) | 2 => some (some .v) | 3 => some (some .m) | 4 => some (some .d) | 5 => some (some .x)
  | _ => none

/-- The word of a slot in a bundle (R39). -/
def slotWord (b : Bundle) : Part → BitVec 64
  | .c => b.extractLsb' 32 64 | .v => b.extractLsb' 96 64 | .m => b.extractLsb' 160 64 | .d => b.extractLsb' 224 64
  | .x => b.extractLsb' 288 64

/-- The K of a bundle (R39). -/
def bundleK (b : Bundle) : BitVec 32 := b.extractLsb' 352 32

/-- The header of a bundle, where it is no illegal encoding by its own fields (R40, R42, R44). -/
def decodeHeader (b : Bundle) : Option Header :=
  let h := b.extractLsb' 0 32
  let pres := allParts.filter fun p => h.getLsbD (5 + p.code)
  let mkr := h.getLsbD 14
  let svc := h.getLsbD 15
  match kownOf (h.extractLsb' 16 3).toNat with
  | none => none
  | some ko =>
    let kxOf (p : Part) := (slotWord b p).getLsbD 26 && !((slotWord b p).extractLsb' 60 4 == 0xF#4)
    let badK := match ko with
      | none => !mkr && bundleK b != 0
      | some p => mkr || !pres.contains p || !kxOf p
    if h.extractLsb' 19 13 != 0 || badK || (svc && pres.contains .d) then none
    else some { gap := (h.extractLsb' 0 6).toNat, pres := pres, yld := h.getLsbD 11, rpl := h.getLsbD 12, seg := h.getLsbD 13
                mkr := mkr, svc := svc, kown := ko }

/-- The K that a slot of a bundle is lent (R42). -/
def Header.kFor (h : Header) (b : Bundle) (p : Part) : BitVec 32 :=
  if h.kown == some p then bundleK b else 0

/-- A slot whose kx bit is set must be the K owner, unless it is a hint cell, whose fields are not decoded (R42, R50). -/
def Header.kxFits (h : Header) (b : Bundle) (p : Part) : Bool :=
  !((slotWord b p).getLsbD 26) || (slotWord b p).extractLsb' 60 4 == 0xF#4 || h.kown == some p

/-- The slots of a bundle with their instructions, or the number of the first part that is illegal by its own fields (R60). -/
def decodeSlots (h : Header) (b : Bundle) : List Part → Except Nat (List (Part × Instr))
  | [] => .ok []
  | p :: ps =>
    match (if h.kxFits b p then decodeSlot p (slotWord b p) (h.kFor b p) else none) with
    | none => .error p.code
    | some i =>
      match decodeSlots h b ps with
      | .error e => .error e
      | .ok l => .ok ((p, i) :: l)

end Sys2Proof
end

