-- ==== Sys2Proof/Machine/State.lean ====
section
/-!
DEFINITION. Machine/State.lean: everything the spec gives the OH2048, as plain data, and the machine right after reset.
A Map is a list of numbered entries, numbers rising, in which an entry equal to what an unlisted number reads as does not stand.
-/

namespace Sys2Proof.Machine

/-- Numbered entries, numbers strictly rising. -/
abbrev Map (α : Type) := List (Nat × α)

/-- Bytes by address, in the canonical form of Memory.wf. -/
abbrev Mem := List Host.Cell

/-! ## The tile: sequencer (R97 to R129) -/

/-- The sequencer states of R97. -/
inductive SeqState where
  | idle | ready | running | held | trapped | stopped | halted | yielded | faulted
deriving DecidableEq, Repr

/-- The PC of R34. -/
structure PC where
  seg : Nat := 0
  off : Nat := 0
deriving DecidableEq, Repr

/-- A loop-stack entry of R106: body start and end offsets, trip count, iteration index, stage count. -/
structure LoopEntry where
  start : Nat
  last  : Nat
  n     : Nat
  i     : Nat
  s     : Nat
deriving DecidableEq, Repr

/-- A pending transfer (R99): target offset, delay bundles still to issue, and whether the top loop entry leaves with it (LBRK, R105). -/
structure Transfer where
  target : Nat
  left   : Nat
  pop    : Bool
deriving DecidableEq, Repr

/-- A loop entry to be pushed when its LOOP's delay bundles have issued (R106). -/
structure Push where
  entry : LoopEntry
  left  : Nat
deriving DecidableEq, Repr

/-- A trap to be taken at a cycle (R117, R409). -/
structure CycTrap where
  cycle : Nat
  cause : Nat
  info  : Nat
  loss  : Bool := false
deriving DecidableEq, Repr

/-- The position and the stops of a sequencer (R97, R99, R117, R129). shade: the two stream successors of the last control bundle that issued (R59);
popDue: the bundle next due is the target of a taken LBRK (R105); stopWall: the wall time of the last trap (R184); lastPc and lastLoops: the PC and the loop
stack of the last bundle that issued (R340). -/
structure Flow where
  st       : SeqState := .idle
  pc       : PC := {}
  due      : Nat := 0
  transfer : Option Transfer := none
  push     : Option Push := none
  loops    : List LoopEntry := []
  haltLeft : Option Nat := none
  haltBase : Option Nat := none
  pairBusy : Option Nat := none
  iterStart : Bool := false
  resumed  : Bool := false
  stepLeft : Option Nat := none
  handler  : Bool := false
  hpc      : Nat := 0
  stopAt   : Nat := 0
  cycTraps : List CycTrap := []
  waits    : Nat := 0
  ahead    : Nat := 0
  seq      : Nat := 0
  yieldReq : Bool := false
  accWait  : List Nat := []
  waiting  : Option Nat := none
  rpl      : Option PC := none
  shade    : List PC := []
  popDue   : Bool := false
  stopWall : Nat := 0
  lastPc   : PC := {}
  lastLoops : List LoopEntry := []
  quiet    : Nat := 0
deriving DecidableEq, Repr

/-- The register files (R100, R131, R133); the mask stack has its top first. -/
structure Regs where
  s  : Map Word := []
  v  : Map VWord := []
  msk : Map Mask := []
  ms : List Mask := []
deriving DecidableEq, Repr

/-- A pending FMT or FTSEL write (R93 to R95): target 0–15 a row, 16 efr, 17 ftsr; bundles still to issue; the flags that a write of the
landing queue gave it (R123). -/
structure FmtWrite where
  seq    : Nat
  target : Nat
  val    : Nat
  left   : Nat
  flags  : BitVec 6 := 0
deriving DecidableEq, Repr

/-- The format state (R74, R83, R89, R91). -/
structure Formats where
  fcsr  : Word := 0
  efr   : Word := 0
  ft    : Map Word := []
  base  : Nat := 0
  level : Nat := 6
  row   : Nat := 0
  pend  : List FmtWrite := []
deriving DecidableEq, Repr

/-- The trap, handler and debug registers (R101, R121, R156, R167, R191, R247, R342, R343, R369). -/
structure Sys where
  xcause : Word := 0
  xpc    : Word := 0
  xtgt   : Word := 0
  xnext  : Word := 0
  xcyc   : Word := 0
  xinfo  : Word := 0
  ss     : Bool := false
  bpsk   : Bool := false
  hsv    : Map Word := []
  lqsel  : Word := 0
  bpa    : Map Word := []
  vwsel  : Word := 0
  vbsel  : Word := 0
  vlsel  : Word := 0
  vtrap  : Word := 0
  vtearl : Word := 0
  mwsel  : Word := 0
  dlsel  : Word := 0
  dthr   : Word := 0
  istp   : Word := 0
  lksel  : Word := 0
  mbr    : Map Word := []
deriving DecidableEq, Repr

/-- Instruction memory and handler memory (R31, R36, R38), with the segments that the service banks hold for the tile (R319).
Entry variant × 65,536 + k of segs is segment k; half h of the window holds segment win h; bad: the segments of the window that could not be
read whole, with the slot that failed (R186). -/
structure IMem where
  dict     : List Bundle := []
  table    : Bool := false
  nseg     : List Nat := []
  segs     : Map (List (BitVec 16)) := []
  bad      : Map Nat := []
  win      : Map Nat := []
  copying  : List Nat := []
  handlers : List Bundle := []
  replans  : List (List (List Nat)) := []
deriving DecidableEq, Repr

/-! ## Results in flight (R56, R123) -/

/-- Where a result lands. -/
inductive Dest where
  | sreg (n : Nat)
  | vreg (n : Nat)
  | mk (n : Nat)
  | mstack (depth : Nat)
  | scale (name slot : Nat) (ip : Bool)
  | flagsOnly
  | fcsr
  | sysreg (n : Nat)
  | staging (code : Nat) (captured : Bool)
  | acc (k : Nat) (int : Bool) (clear : Bool)
  | accRow (k row : Nat) (int : Bool)
  | accZero (k : Nat)
  | accRetire (k : Nat)
  | buffer (k lo : Nat) (len : Nat)
  | bufSlot (k q : Nat) (lay : Bool) (cont lvl slot : Nat)
  | tag (k : Nat) (name : Option Nat)
  | handle (k : Nat)
  | unpin (k : Nat)
  | jpPosted (k : Nat)
  | latch (n : Nat)
deriving DecidableEq, Repr

/-- A byte to be written to staging: its address, the bits written, their values. -/
structure SByte where
  addr : Nat
  mask : Byte
  val  : Byte
deriving DecidableEq, Repr

/-- A result in flight: its place in issue order, its landing cycle, the cycle at which a returning value is back, and, in a portable
image, the image cycle from which it is readable (R56, R122, R315). keep: the lanes that keep their previous value (R134). -/
structure Result where
  seq   : Nat
  due   : Nat
  img   : Nat := 0
  dst   : Dest
  val   : Nat := 0
  bytes : List SByte := []
  flags : BitVec 6 := 0
  keep  : Mask := 0
  pend  : Bool := false
  back  : Nat := 0
deriving DecidableEq, Repr

/-! ## Matrix engine (R222 to R247) -/

/-- The accumulator states of R240. -/
inductive AccState where
  | empty | accumulating | retiring | retired
deriving DecidableEq, Repr

/-- An accumulator (R239, R240). -/
structure Accum where
  elems  : BitVec 131072 := 0
  int    : Bool := false
  flags  : BitVec 6 := 0
  st     : AccState := .empty
  retire : Option Nat := none
deriving DecidableEq, Repr

/-- An operand buffer and its binding tag (R222, R227). -/
structure Buffer where
  data  : BitVec 65536 := 0
  valid : Bool := false
  slot  : Nat := 0
  gen   : Nat := 0
deriving DecidableEq, Repr

/-- A physical scale slot (R225). -/
structure ScaleSlot where
  codes : BitVec 1024
  gen   : Nat := 0
deriving DecidableEq, Repr

/-- The matrix engine of a tile. A name not listed maps to the slot of its own number (R225). -/
structure Matrix where
  acc   : Map Accum := []
  bufs  : Map Buffer := []
  slots : Map ScaleSlot := []
  names : Map Nat := []
  busy  : Nat := 0
deriving DecidableEq, Repr

/-! ## Vault (R158 to R194) -/

/-- The bank states of R160. -/
inductive BankState where
  | idle | activating | open | precharging | refreshing | training
deriving DecidableEq, Repr

/-- An entry of the bank table (R160 to R162, R181, R191). -/
structure Bank where
  st       : BankState := .idle
  page     : Nat := 0
  lvl      : Nat := 0
  raw      : Bool := false
  ap       : Option Nat := none
  lastAct  : Option Nat := none
  lastPre  : Option Nat := none
  lastRef  : Option Nat := none
  lastRd   : Option Nat := none
  lastWr   : Option Nat := none
  deadline : Nat := 0
  lend     : Nat := 0
  lendEnd  : Option Nat := none
deriving DecidableEq, Repr

/-- Where a read stream delivers (R170, R208, R229, R230). -/
inductive StreamDest where
  | staging (addr : Nat)
  | buffer (k q : Nat) (lay : Bool) (container : Nat) (bind : Option Nat)
  | scale (result : Nat)
deriving DecidableEq, Repr

/-- A stream of R163: read or write, its data cycles, what it names, the transfers still to come. done counts the transfers made;
taken the write transfers taken from staging, with their bytes; words and wm: the record and the watermark that a write was translated by (R206); img: in a
portable image, the image cycle from which its first slot is readable (R315). -/
structure Stream where
  seq   : Nat
  read  : Bool
  raw   : Bool := false
  null  : Bool := false
  bank  : Nat := 0
  page  : Nat := 0
  lvl   : Nat := 0
  slot  : Nat
  n     : Nat
  issue : Nat
  first : Nat
  dest  : StreamDest := .staging 0
  src   : Nat := 0
  taken : List (BitVec 512) := []
  done  : Nat := 0
  oh    : Nat := 0
  brick : Nat := 0
  sync  : Option Nat := none
  obj   : Option Nat := none
  words : List Word := []
  wm    : Nat := 0
  img   : Nat := 0
deriving DecidableEq, Repr

/-- Data cycles of a stream issued, kept for the spacing rules of R164. -/
structure BusUse where
  q     : Nat
  read  : Bool
  first : Nat
  last  : Nat
  bank  : Nat
deriving DecidableEq, Repr

/-- A program write on its way to its levels (R176): when issued, the data cycle, the last data cycle of its stream, its bound sync object. -/
structure WriteMark where
  seq  : Nat
  bank : Nat
  page : Nat := 0
  w    : Nat
  last : Nat
  tWR  : Nat
  sync : Option Nat := none
  obj  : Option Nat := none
  brick : Nat := 0
deriving DecidableEq, Repr

/-- A transfer being retried (R187, R188): the pseudo-channel, the stream, whether it reads, the lane group, the tries made, the tries that
will still fail, the lane at fault, a lane swap made, and the slot's data. -/
structure Retry where
  q     : Nat
  seq   : Nat
  read  : Bool
  grp   : Nat
  tries : Nat := 0
  fails : Nat
  lane  : Nat
  swapped : Bool := false
  data  : BitVec 512
deriving DecidableEq, Repr

/-- A bus fault that nature holds ready for the next transfer of a pseudo-channel in a direction: lane group, retries that fail, lane at fault. -/
structure BusFault where
  q     : Nat
  grp   : Nat
  read  : Bool
  tries : Nat
  lane  : Nat
deriving DecidableEq, Repr

/-- A piece of work of a service agent at a vault (R182): the agent by its precedence, the ask that it is part of, its bank, the transfers left, the
slots left of the activation that it has, and the cycle of that. -/
structure Work where
  agent : Nat
  ask   : Nat
  bank  : Nat
  left  : Nat
  slots : Nat := 0
  act   : Nat := 0
deriving DecidableEq, Repr

/-- The management controller's copy of an error log (R190, R320): entries by index, the count since power-on. -/
structure LogCopy where
  entries : Map (Nat × Nat) := []
  count   : Nat := 0
deriving DecidableEq, Repr

/-- The vault above a tile. pages: bank × 4,096 + page to the bytes written since power-on; keptArray and keptBus: the error logs as the health
window shows them; agentBusy: until when a pseudo-channel retries transfers of agents; work: what the
service agents still have to do, in the order of R182; agentActs: their activates, by cycle and bank; agentShut: the cycle from which a bank that they
close may be activated again; agentData: their last transfer on each pseudo-channel, by ask and cycle; touched: the slots, by page and number, that the device wrote since the last completion record
(R367). -/
structure Vault where
  pages   : Map Mem := []
  banks   : Map Bank := []
  acts    : List (Nat × Nat) := []
  streams : List Stream := []
  bus     : List BusUse := []
  windows : List Nat := []
  wcap    : List (Nat × Nat) := []
  marks   : List WriteMark := []
  resid   : Map Nat := []
  alog    : Map (Nat × Nat) := []
  blog    : Map (Nat × Nat) := []
  acount  : Nat := 0
  bcount  : Nat := 0
  keptArray : LogCopy := {}
  keptBus : LogCopy := {}
  vinj    : Word := 0
  spare   : Map Nat := []
  failed  : Map Nat := []
  train   : Map Nat := []
  lastTrain : Map Nat := []
  trainDue : Map Nat := []
  selfRef : Bool := false
  retries : List Retry := []
  nature  : List BusFault := []
  agentBusy : Map Nat := []
  work    : List Work := []
  agentActs : List (Nat × Nat) := []
  agentShut : Map Nat := []
  agentData : Map (Nat × Nat) := []
  touched : List (Nat × Nat) := []
deriving DecidableEq, Repr

/-- A record-cache entry (R199). -/
structure OhEntry where
  est   : Nat := 0
  why   : Nat := 0
  id    : Nat := 0
  gen   : Nat := 0
  nib   : Bool := false
  words : List Word := []
  wm    : Nat := 0
deriving DecidableEq, Repr

/-- A record load in flight (R200): the result it feeds, the scalar that named the record, the container bit, and its outcome when complete. -/
structure RecLoad where
  seq  : Nat
  oh   : Nat
  v    : Nat
  nib  : Bool
  done : Option OhEntry := none
deriving DecidableEq, Repr

/-! ## Mesh, requests, counters -/

/-- A send of R258, R358 or R359: n flits, the next one to inject, the tile whose port they enter at, and where they come from: staging from a
base on, a vector register, or the halves of received link flits. link: the link and channel that an LSEND goes to. -/
structure Send where
  seq    : Nat
  issue  : Nat
  n      : Nat
  next   : Nat := 0
  start  : TileId
  src    : Option Nat := none
  halves : List (BitVec 512) := []
  addr   : Nat
  dests  : List TileId
  link   : Option (Nat × Nat) := none
deriving DecidableEq, Repr

/-- A flit in the mesh (R253), kept after its end as long as a re-run may still meet it (R256): its sending tile and send, its number, its
route, the cycle in which it was read, its arrival cycle, its bytes. gone: the cycle in which it left the mesh by a loss. -/
structure Flit where
  id     : Nat
  own    : TileId
  seq    : Nat
  issue  : Nat
  num    : Nat
  src    : TileId
  dst    : TileId
  addr   : Nat
  start  : Nat
  arr    : Nat
  data   : BitVec 512
  port   : Option (Nat × Nat) := none
  gone   : Option Nat := none
  landed : Bool := false
  void   : Bool := false
deriving DecidableEq, Repr

/-- What a request asks of a cistern or of a sluice (R262, R263, R272, R278, R304). -/
inductive ReqKind where
  | cas (old new : Word)
  | add (v : Word) | swp (v : Word) | min (v : Word) | max (v : Word) | and (v : Word) | or (v : Word)
  | warr | wpend (n : Nat) | wpoll | wwait (phase : Nat)
  | jcbraise (p n : Nat) | jcbpost (p n : Nat) | jcbwait
  | start (ctx ch : Nat) (data : Word)
deriving DecidableEq, Repr

/-- A request in the request network (R267): its place in issue order, where and when it is applied, the result that its reply feeds. -/
structure Req where
  seq    : Nat
  die    : Nat
  byte   : Nat
  due    : Nat
  kind   : ReqKind
  result : Option Nat
deriving DecidableEq, Repr

/-- An event set on its way to a tile (R276, R280). -/
structure LatchSet where
  tile : TileId
  due  : Nat
deriving DecidableEq, Repr

/-- A byte decrement on its way to a weir (R276): cistern, word, cycle, the flit's staging address. -/
structure Decrement where
  die  : Nat
  byte : Nat
  due  : Nat
  addr : Nat
deriving DecidableEq, Repr

/-- A sluice job that a tile has started and that has not written its record: its die, its start's place in issue order and cycle at the sluice, the
sync object of the grain that an ST.IO went through, the sync objects in its footprint (R283, R286). -/
structure JobRef where
  die   : Nat
  seq   : Nat
  due   : Nat := 0
  io    : Option Nat := none
  syncs : List Nat := []
deriving DecidableEq, Repr

/-- The tile's part in mesh, requests, events and job control (R254, R260, R276, R280, R284). past: the requests applied while the tile is
stopped, which release checks of the cycles before them still see. -/
structure Sync where
  jp       : Map Word := []
  wcfg     : Word := 0
  latch    : Bool := false
  portFree : Nat := 0
  sends    : List Send := []
  reqs     : List Req := []
  past     : List Req := []
  sets     : List LatchSet := []
  decs     : List Decrement := []
  lsendAcc : Nat := 0
  jobs     : List JobRef := []
deriving DecidableEq, Repr

/-- The counters and the drift log (R340, R343). Of the present cycle, until it ends: adds the events by number, marks the counters that an
MTS clears (1) or reprograms (2), before the count and the control word that a reprogrammed counter had, reads the MFS of a count with their places in
issue order (R344). -/
structure Perf where
  pcc   : Map Word := []
  pcv   : Map Nat := []
  adds  : Map Nat := []
  marks : Map Nat := []
  before : Map (Nat × Nat) := []
  reads : List (Nat × Nat) := []
  dl    : Map (List Word) := []
  dlcnt : Nat := 0
  armed : Bool := false
deriving DecidableEq, Repr

/-- A tile and its vault. -/
structure Tile where
  flow    : Flow := {}
  regs    : Regs := {}
  fmts    : Formats := {}
  sys     : Sys := {}
  imem    : IMem := {}
  flight  : List Result := []
  staging : Mem := []
  matrix  : Matrix := {}
  vault   : Vault := {}
  oh      : Map OhEntry := []
  loads   : List RecLoad := []
  sync    : Sync := {}
  perf    : Perf := {}
deriving DecidableEq, Repr

/-! ## Dies: cistern, sluice, collective engine, tun -/

/-- A start on a sluice channel (R303, R305). -/
structure Start where
  ctx  : Nat
  data : Word
  tile : Option Ticket := none
deriving DecidableEq, Repr

/-- A job that runs, or that has ended and waits to write its record (R305 to R309): units done, its end with status and fault, the bytes
written, the units written since they began, the unit of a page-out that is moving, the data of a unit that is read and not yet written, the fault of a
page-out with the unit from which it still looks for moving ones, and the units whose bits in the dirty map are still to be written. -/
structure Job where
  start : Start
  order : Nat
  units : Nat := 0
  ended : Option (Nat × Nat) := none
  bytes : Nat := 0
  redo  : List Nat := []
  begun : Option Nat := none
  data  : Option (List Byte) := none
  failing : Option (Nat × Nat) := none
  writes : List Nat := []
deriving DecidableEq, Repr

/-- A channel of a sluice: starts that wait, jobs of a restored context that go on before them (R310), the job that runs, and the refused starts whose
records are still to be written, with their numbers. -/
structure Channel where
  queue : List Start := []
  resume : List Job := []
  job   : Option Job := none
  refused : List (Nat × Start) := []
deriving DecidableEq, Repr

/-- A collective in the engine of a die (R362 to R364): its context, request block address and words; once it has read them, the node array, the rank
that holds each shard and its own shards; the node values and the flags that peers sent, and by rank their tree hashes, none of a member at fault; what it
has sent; a fault found, a destroyed context, its place among the jobs; num: how many collectives of its context began on the die before it. -/
structure Collective where
  ctx    : Nat
  addr   : Nat
  words  : List Word
  hasRead : Bool := false
  tree   : List Word := []
  ranks  : List Nat := []
  leaves : Map (List Word) := []
  values : Map (List Word) := []
  flags  : BitVec 6 := 0
  hashes : Map (Option Word) := []
  sent   : List Nat := []
  failed : Bool := false
  aborted : Bool := false
  order  : Nat := 0
  num    : Nat := 0
deriving DecidableEq, Repr

/-- The aggregates of a die's tun (R341). -/
structure Tun where
  tsh    : Nat := 0
  issued : Map Nat := []
  holds  : Map Nat := []
  holdNs : Map Nat := []
  waits  : Map Nat := []
  waitCy : Map Nat := []
  traps  : Map Nat := []
deriving DecidableEq, Repr

/-- A start of queue engine or host on its way to a sluice (R305): its number, whether the host sent it, its channel; here: it has reached the sluice, and is
applied in the next timetable cycle. -/
structure Arrival where
  id    : Nat
  host  : Bool
  ch    : Nat
  start : Start
  here  : Bool := false
deriving DecidableEq, Repr

/-- A die. arrivals: the starts of queue engine and host on their way to its sluice; early: the node values and
hashes that came before their collective began; past: the collective that ended last, for replays (R364); peers: the link tables of gang members, by rank (R356). -/
structure Die where
  cistern : Map Word := []
  chans   : Map Channel := []
  arrivals : List Arrival := []
  coll    : List Collective := []
  early   : List (Nat × List Word × BitVec 6) := []
  past    : Option Collective := none
  peers   : Map (List (List Word)) := []
  tun     : Tun := {}
deriving DecidableEq, Repr

/-! ## Queue engine (R290 to R302) -/

/-- A queue descriptor (R290); snap: the first of the two snapshots of a slot that a PCIe-only host's queues take (R368). -/
structure Queue where
  rbase  : Nat := 0
  lsz    : Nat := 0
  en     : Bool := false
  dev    : Bool := false
  hseq   : Nat := 0
  drops  : Nat := 0
  prog   : Nat := 0
  rprog  : Nat := 0
  ctx    : Nat := 0
  nwin   : Nat := 0
  qfault : Nat := 0
  fpc    : Nat := 0
  fseq   : Nat := 0
  wbase  : Map Nat := []
  wen    : Map Bool := []
  wlen   : Map Nat := []
  snap   : Option (List Word) := none
deriving DecidableEq, Repr

/-- A program slot (R294). -/
structure Program where
  kind : ProgKind
  code : List (BitVec 32)
deriving DecidableEq, Repr

/-- A token link (R302). -/
structure TokenLink where
  prod  : Nat := 0
  cons  : Nat := 0
  val   : Bool := false
  err   : Bool := false
  count : Nat := 0
deriving DecidableEq, Repr

/-- A run of an interpreter (R294, R297): loops hold the first op of the body, the op past its end, and the runs left; due: the wall time of its next op;
waits: its op waits for a memory access. -/
structure Run where
  queue  : Nat
  packet : List Word
  regs   : Map Word := []
  pc     : Nat := 0
  loops  : List (Nat × Nat × Nat) := []
  needs  : List (Nat × Nat) := []
  tokens : List (Nat × Nat) := []
  rank   : Nat := 0
  arrival : Nat := 0
  due    : Nat := 0
  waits  : Bool := false
deriving DecidableEq, Repr

/-- An entry of the push-in first-out queue (R299). -/
structure Entry where
  rank    : Nat
  arrival : Nat
  queue   : Nat
  packet  : List Word
  needs   : List (Nat × Nat)
deriving DecidableEq, Repr

/-- The queue engine. rankTurn: the op in hand is the rank interpreter's; fetched: packets that wait for the rank interpreter; polling: the fetch paths that
are being read; again: those of which the round in hand has shown a valid slot (R290, R293). -/
structure QueueEngine where
  queues  : Map Queue := []
  progs   : Map Program := []
  tokens  : Map TokenLink := []
  pifo    : List Entry := []
  arrival : Nat := 0
  rankRun : Option Run := none
  mainRun : Option Run := none
  rankTurn : Bool := false
  polling : List Nat := []
  fetched : List Run := []
  again   : List Nat := []
deriving DecidableEq, Repr

/-! ## Kernels (R312 to R328) -/

/-- The kernel states of R316. -/
inductive KState where
  | loaded | bound | launched | running | held | replanning | yielded | completed | faulted
deriving DecidableEq, Repr

/-- A launch request (R317): the launch block's words, and the rank of the packet that made it; tabled: the link table of its image has been sent to the
gang's other members (R356). -/
structure Launch where
  image : Nat
  recAt : Nat
  rect  : Nat
  wake  : Bool
  irq   : Bool
  rank  : Nat := 0
  tabled : Bool := false
deriving DecidableEq, Repr

/-- What the loader keeps of an image header (R312, R315). -/
structure ImageInfo where
  addr     : Nat := 0
  portable : Bool := false
  priv     : Bool := false
  shape    : Nat := 0
  svcf     : Nat := 32
  vmask    : Nat := 1
  nrpl     : Nat := 0
  yint     : List Nat := []
  sbmask   : Nat := 0
  trwin    : List (Nat × Nat) := []
  plat     : List Nat := []
  links    : List (List Word) := []
deriving DecidableEq, Repr

/-- The first fault of R327. -/
structure FirstFault where
  cycle : Nat
  pos   : Nat
  cause : Nat
  pc    : Nat
  info  : Nat
deriving DecidableEq, Repr

/-- A kernel on a partition: die0 is the first die, shape its shape (R252). phase is the place in the order of events of the present cycle; closed says
that a faulted ending has stopped the partition (R325); saving that it has stopped at a yield point for its save (R334). yields counts the yield points
reached, and agreed is the index of the one that a gang's members have agreed on (R345). image: the bytes that the loader has read and verified, until the
launch (R318). yieldAt and replanAt: the cycle of a yield or a replan to come, and the issue cycle of its bundles; stops: the cycles, not yet run past, at
which bundles have trapped (R322). begun: the collectives that its context had begun when the slice was to start (R346); peers: the link tables of its gang's other members, by rank (R356). -/
structure Kernel where
  ctx     : Nat
  die0    : Nat
  shape   : Nat
  st      : KState
  img     : ImageInfo := {}
  image   : List Byte := []
  launch  : Launch
  cycle   : Nat := 0
  phase   : Nat := 0
  nextWall : Nat := 0
  variant : Nat := 0
  slow    : Bool := false
  horizon : Option Nat := none
  reached : Option Nat := none
  holds   : List Nat := []
  holdMask : Nat := 0
  holdFrom : Option Nat := none
  linkFrom : Option Nat := none
  hostFrom : Option Nat := none
  handlers : Nat := 0
  mesh    : List Flit := []
  nextFlit : Nat := 0
  request : Option Nat := none
  yieldAt : Option (Nat × Nat) := none
  replanAt : Option (Nat × Nat) := none
  stops   : List Nat := []
  callFrom : List (Nat × Nat) := []
  tstart  : Nat := 0
  tend    : Nat := 0
  nflt    : Nat := 0
  first   : Option FirstFault := none
  ending  : Option Nat := none
  tcyc    : Nat := 0
  holdSum : Nat := 0
  nhold   : Nat := 0
  recv    : List (Nat × Nat × Nat) := []
  lyield  : Option Nat := none
  thash   : BitVec 64 := 0
  slice   : Option Nat := none
  restored : Bool := false
  closed  : Bool := false
  saving  : Bool := false
  yields  : Nat := 0
  agreed  : Option Nat := none
  begun   : Map Nat := []
  peers   : Map (List (List Word)) := []
deriving DecidableEq, Repr

/-! ## Contexts (R329 to R346) -/

/-- The context states of R331. -/
inductive CState where
  | free | assigned | loaded | running | held | yielding | saved | faulted | destroyed
deriving DecidableEq, Repr

/-- A ring descriptor (R308). -/
structure Ring where
  base : Nat := 0
  lsz  : Nat := 0
  wseq : Nat := 0
  cseq : Nat := 0
  rect : Nat := 0
  vec  : Nat := 0
deriving DecidableEq, Repr

/-- A context: its descriptor, its tables, the launches that wait, its kernel that is loaded and waits for a partition (R316), the first dies of the other
partitions that it is assigned to (R329), the sluice channels and collectives saved with it (R310, R364), its gang slice (R345); begun: the collectives that it has begun, by the place of the die. -/
structure Context where
  st       : CState := .free
  desc     : List Word := []
  objs     : Map (List Word) := []
  wmks     : Map Nat := []
  grains   : List (List Word) := []
  temps    : Map (List Word) := []
  rings    : Map Ring := []
  launches : List Launch := []
  loaded   : Option Kernel := none
  places   : List Nat := []
  chans    : Map Channel := []
  colls    : List (Nat × Collective) := []
  kernel   : Option Kernel := none
  doomed   : Bool := false
  entries  : List Nat := []
  aborted  : Bool := false
  begun    : Map Nat := []
deriving DecidableEq, Repr

/-! ## Links and host (R351 to R369) -/

/-- A flit on its way over a link to this package (R353): its channel, its payload, the link time at which the peer's link accepted it, and the wall
time at which it arrives. -/
structure Transit where
  ch      : Nat
  payload : BitVec 1024
  accepted : Nat
  arrive  : Nat
deriving DecidableEq, Repr

/-- What a package sends its peers on the reserved channels of a link (R345, R346, R356, R363, R364): a node value with its flags, of the collective with a
number; a member's tree hash (its rank and the hash, none at fault; again: sent as part of a replay); a gang's entry flit or abort flit with the sender's
rank; a member's link table. -/
inductive PeerFlit where
  | node (num n : Nat) (value : List Word) (flags : BitVec 6)
  | hash (num rank : Nat) (h : Option Word) (again : Bool)
  | entry (gang rank : Nat)
  | abort (gang rank : Nat)
  | table (gang rank : Nat) (entries : List (List Word))
deriving DecidableEq, Repr

/-- A link (R351 to R354): receive queue of channel and payload, flits on their way to it, credits held for the peer's queue, flits waiting for a credit;
granted: the credits given back to the peer; reserved: what was sent on the reserved channels, with its link time. -/
structure Link where
  trained : Bool := false
  padded  : Nat := 1600
  worst   : Nat := 0
  down    : Bool := false
  seen    : Nat := 0
  queue   : List (Nat × BitVec 1024) := []
  credits : Nat := 2048
  waiting : List (Nat × BitVec 1024) := []
  sent    : List (Nat × Nat × BitVec 1024) := []
  fec     : Nat := 0
  replays : Nat := 0
  busy    : Nat := 0
  transit : List Transit := []
  granted : Nat := 0
  reserved : List (Nat × PeerFlit) := []
deriving DecidableEq, Repr

/-- A host access waiting for a service window (R366): since the wall time at which it came. -/
structure HostAccess where
  write : Bool
  o     : Nat
  line  : BitVec 512
  since : Nat
deriving DecidableEq, Repr

/-- A host read completed: its offset, its line, the poison indication (R366). -/
structure HostReply where
  o      : Nat
  line   : BitVec 512
  poison : Bool
deriving DecidableEq, Repr

/-- The modes of the host link (R368). -/
inductive HostMode where
  | cxl3 | cxl2 | pcie
deriving DecidableEq, Repr

/-- The host link and the memory it gives the device: its mode, and the lines, by HDM offset, that the device has back-invalidated (R367, R368). -/
structure HostLink where
  mem     : Mem := []
  ctx     : Option Nat := none
  refused : Nat := 0
  discarded : Nat := 0
  waiting : List HostAccess := []
  replies : List HostReply := []
  irqs    : List Nat := []
  snoops  : Nat := 0
  backInv : List Nat := []
  mode    : HostMode := .cxl3
deriving DecidableEq, Repr

/-! ## Security block and management controller (R19 to R30) -/

/-- The life-cycle states of R19. -/
inductive LifeCycle where
  | blank | provisioned | owned | debugUnlocked | returned | scrapped
deriving DecidableEq, Repr

/-- What the boot has come to (R21, R22). -/
inductive Boot where
  | off | running | provisioning | halted
deriving DecidableEq, Repr

/-- A firmware image in module flash (R22): its version, and its signed body. -/
structure Firmware where
  version : Nat
  sig     : Signed
deriving DecidableEq, Repr

/-- The keys of a tenant (R20, R25, R332): its IDE key, its context key, its token-link secret. -/
structure TenantKeys where
  ide    : BitVec 256
  ctx    : BitVec 256
  secret : BitVec 256
deriving DecidableEq, Repr

/-- A fused key hash and its revocation (R20, R22). -/
structure KeyHash where
  hash    : BitVec 256
  revoked : Bool := false
deriving DecidableEq, Repr

/-- The security block. fuses is the state that the pattern in the fuse field stands for, none where it stands for none; lfst reflects it as decoded
at power-on or at a transition (R19). keys: the tenants' keys, by context. cert: the identity key's certificate in module flash (R24). -/
structure Security where
  fuses    : Option LifeCycle := some .blank
  lfst     : LifeCycle := .blank
  rollback : Nat := 0
  device   : Option Word := none
  seed     : Option (BitVec 256) := none
  vendor   : Map KeyHash := []
  owner    : Option KeyHash := none
  keys     : Map TenantKeys := []
  cert     : Option (List Byte) := none
  meas     : Map (BitVec 256) := []
  boot     : Boot := .off
  bootWord : Nat := 0
  flash    : List Firmware := []
  nonce    : BitVec 128 := 0
  token    : List Byte := []
  status   : Nat := 0
  port     : Bool := false
  report   : List Byte := []
deriving DecidableEq, Repr

/-- What the management controller keeps of a cooling loop (R28, R29): since when it is lost, since when its readings are beyond their limits, since
when those of a lost loop are within them, and when it was found fit to be taken back. -/
structure CoolingLoop where
  lost : Option Nat := none
  bad  : Option Nat := none
  good : Option Nat := none
  back : Option Nat := none
deriving DecidableEq, Repr

/-- The management controller: power, the health window's latest readings and their time stamp (R26), its timers (R27 to R30). -/
structure Health where
  power    : Bool := false
  now      : Readings := {}
  stamp    : Nat := 0
  hotSince : Option Nat := none
  upper    : CoolingLoop := {}
  lower    : CoolingLoop := {}
deriving DecidableEq, Repr

/-! ## The machine -/

/-- How a row of a service agent stands to the accesses that it needs (R182): not yet asked for, waiting as an ask, or given. -/
inductive Grant where
  | fresh
  | waits (id : Nat)
  | given
deriving DecidableEq, Repr

/-- The row waits as an ask. -/
def Grant.waiting : Grant → Bool
  | .waits _ => true
  | _ => false

/-- What an event acts on: a tile, die, kernel, queue or context by number, and two more numbers; for a row of a service agent its grant. -/
structure EvArg where
  tile : Nat := 0
  x    : Nat := 0
  y    : Nat := 0
  grant : Grant := .fresh
deriving DecidableEq, Repr

/-- A row of the table with what it acts on. -/
structure Due where
  i   : Instr
  arg : EvArg := {}
deriving DecidableEq, Repr

/-- An access that a service agent has asked for: its number in order of arrival, the agent, its row, the parts that it needs: vault, bank and transfers. -/
structure Ask where
  id    : Nat
  agent : Nat
  row   : Due
  needs : List (TileId × Nat × Nat)
deriving DecidableEq, Repr

/-- The bundle in hand: its tile, its issue cycle, its PC and gap, whether it is a handler bundle, and the tile as it stood before the bundle, to
which a trap returns it (R60). -/
structure Cur where
  tile    : TileId := 0
  now     : Nat := 0
  pc      : PC := {}
  gap     : Nat := 0
  handler : Bool := false
  pre     : Tile := {}
deriving DecidableEq, Repr

/-- The OH2048. todo: the rows still to run of the event or bundle in hand. agenda: rows dated in wall time, in units of 1/39 ns, in order.
free: the counter of the free values. pkg: the package's number in the system (R249). asks: the accesses of service agents that wait, in the order
of arrival, and asked, how many have come (R182). -/
structure State where
  todo   : List Due := []
  agenda : List (Nat × Due) := []
  wall   : Nat := 0
  free   : Nat := 0
  pkg    : Nat := 0
  ev     : EvArg := {}
  cur    : Cur := {}
  sec    : Security := {}
  health : Health := {}
  ctxs   : Map Context := []
  kernels : Map Kernel := []
  tiles  : Map Tile := []
  dies   : Map Die := []
  qe     : QueueEngine := {}
  links  : Map Link := []
  ltBase : Nat := 0
  host   : HostLink := {}
  asks   : List Ask := []
  asked  : Nat := 0
deriving DecidableEq, Repr

/-- Why a step stops without a next state. No meaning of this model raises one: every row answers a next state. -/
inductive Fault where
  /-- Raised by nothing in the model; it is there because the interface asks for a reason type. Safe. -/
  | none
deriving DecidableEq, Repr

/-- Why a row has no meaning. -/
inductive Refusal where
  /-- Raised by an arm of exec that is not modelled yet, by name. Safe. -/
  | notModelled (mnemonic : String)
  /-- Raised by step when an interpreter's program counter stands at a word that is no op (R294 refuses such a word at load). Safe. -/
  | notAnOp (word : Nat)
deriving DecidableEq, Repr

/-- The machine right after reset, before power-on: the power-on step is the first. Fields that the spec gives no reset value are zero,
empty or absent (log 2), and the fuses are blank (log 3). -/
def State.reset : State := { todo := [{ i := .powerOn }] }

end Sys2Proof.Machine
end

