-- ==== Sys2Proof/Machine/Maps.lean ====
section
/-!
DEFINITION. Machine/Maps.lean: reading and writing numbered entries and bytes by address, little-endian values (R12), bit fields.
-/

namespace Sys2Proof.Machine

/-! ## Numbered entries -/

/-- The entry of a number, or what an unlisted number reads as. -/
def mapGet {α : Type} (d : α) (m : Map α) (k : Nat) : α :=
  match m with
  | [] => d
  | (j, v) :: r => if j = k then v else mapGet d r k

/-- The entry of a number, where one is listed. -/
def mapFind {α : Type} (m : Map α) (k : Nat) : Option α :=
  match m with
  | [] => none
  | (j, v) :: r => if j = k then some v else mapFind r k

/-- An entry put in its place, the numbers kept rising. -/
def mapPut {α : Type} (m : Map α) (k : Nat) (v : α) : Map α :=
  match m with
  | [] => [(k, v)]
  | (j, w) :: r => if k < j then (k, v) :: (j, w) :: r else if k = j then (k, v) :: r else (j, w) :: mapPut r k v

/-- An entry taken out. -/
def mapDel {α : Type} (m : Map α) (k : Nat) : Map α :=
  match m with
  | [] => []
  | (j, w) :: r => if j = k then r else (j, w) :: mapDel r k

/-- An entry written: it stands unless it equals what an unlisted number reads as. -/
def mapSet {α : Type} [DecidableEq α] (d : α) (m : Map α) (k : Nat) (v : α) : Map α :=
  if v = d then mapDel m k else mapPut m k v

/-- The numbers of the entries rise strictly. -/
abbrev RisingMap {α : Type} (m : Map α) : Prop := m.Pairwise fun a b => a.1 < b.1

/-! ## Bytes by address -/

/-- The canonical form of memory: addresses strictly rising, no zero byte listed (an unlisted address reads zero). -/
def Memory.wf (m : Mem) : Bool :=
  match m with
  | [] => true
  | [(_, b)] => b != 0
  | (a, b) :: (a', b') :: r => b != 0 && decide (a < a') && Memory.wf ((a', b') :: r)

/-- One byte read. -/
def memGet (m : Mem) (a : Nat) : Byte := mapGet 0 m a

/-- One byte written. -/
def memSet (m : Mem) (a : Nat) (b : Byte) : Mem := mapSet 0 m a b

/-- n bytes from an address. -/
def memRange (m : Mem) (lo n : Nat) : List Byte :=
  let w := m.filter fun c => lo ≤ c.1 && c.1 < lo + n
  (List.range n).map fun i => memGet w (lo + i)

/-- Bytes laid from an address on, as cells, the zero ones left out. -/
def memCells (lo : Nat) : List Byte → Mem
  | [] => []
  | b :: r => if b = 0 then memCells (lo + 1) r else (lo, b) :: memCells (lo + 1) r

/-- Bytes written from an address on. -/
def memPutRange (m : Mem) (lo : Nat) (bs : List Byte) : Mem :=
  (m.filter fun c => c.1 < lo) ++ memCells lo bs ++ (m.filter fun c => lo + bs.length ≤ c.1)

/-! ## Little-endian values (R12) -/

/-- The value of bytes, byte 0 lowest. -/
def bytesNat : List Byte → Nat
  | [] => 0
  | b :: r => b.toNat + 256 * bytesNat r

/-- n bytes of a value, byte 0 lowest. -/
def natBytes : Nat → Nat → List Byte
  | 0, _ => []
  | n + 1, v => BitVec.ofNat 8 v :: natBytes n (v / 256)

/-! ## Bit fields -/

/-- Bits [hi : lo] of a value. -/
def field (x hi lo : Nat) : Nat := x / 2 ^ lo % 2 ^ (hi + 1 - lo)

/-- Bit n of a value. -/
def bitOf (x n : Nat) : Bool := x / 2 ^ n % 2 == 1

/-- One or zero. -/
def b2n (b : Bool) : Nat := if b then 1 else 0

/-- The sign extension of the low n bits of a value, as an integer (R61). -/
def signed (x n : Nat) : Int :=
  let v := x % 2 ^ n
  if n ≠ 0 ∧ 2 ^ (n - 1) ≤ v then (v : Int) - 2 ^ n else v

/-- An integer reduced modulo 2^n (R61, trunc). -/
def wrap (x : Int) (n : Nat) : Nat := (x % 2 ^ n).toNat

/-- A value with bits [lo + w - 1 : lo] replaced. -/
def setField (x lo w v : Nat) : Nat :=
  x / 2 ^ (lo + w) * 2 ^ (lo + w) + v % 2 ^ w * 2 ^ lo + x % 2 ^ lo

/-- A dated entry put in its place, after those of the same moment. -/
def insertDated {α : Type} (t : Nat) (x : α) : List (Nat × α) → List (Nat × α)
  | [] => [(t, x)]
  | (u, y) :: r => if t < u then (t, x) :: (u, y) :: r else (u, y) :: insertDated t x r

end Sys2Proof.Machine
end

