-- ==== Sys2Proof/Machine/Flags.lean ====
section
/-!
DEFINITION. Machine/Flags.lean: the number formats, rounding and every flag computation (R68 to R88).
A real value is a signed integer times a power of two; a value that no such pair holds exactly (a quotient, a root, an exponential)
is held with enough bits that one odd bit below them stands for the rest.
-/

namespace Sys2Proof.Machine

/-! ## Flags (R74, R76) -/

/-- The six sticky flags in fcsr order (R74). -/
abbrev FlagSet := BitVec 6

/-- Invalid. -/
def flagNv : FlagSet := 0b000001
/-- Divide by zero. -/
def flagDz : FlagSet := 0b000010
/-- Overflow. -/
def flagOf : FlagSet := 0b000100
/-- Underflow. -/
def flagUf : FlagSet := 0b001000
/-- Inexact. -/
def flagNx : FlagSet := 0b010000
/-- Saturated. -/
def flagSat : FlagSet := 0b100000

/-- A flag set raised under a condition. -/
def flagIf (b : Bool) (f : FlagSet) : FlagSet := if b then f else 0

/-! ## Values -/

/-- A value of a floating format: a NaN, signalling or quiet; an infinity; or (-1)^neg × man × 2^exp (R69). -/
inductive Num where
  | nan (signalling : Bool)
  | inf (neg : Bool)
  | fin (neg : Bool) (man : Nat) (exp : Int)
deriving DecidableEq, Repr

/-- The rounding modes of R75. -/
inductive RMode where
  | rne | rtz | rup | rdn | rna
deriving DecidableEq, Repr

/-- The mode that fcsr.rm holds; 5 to 7 act as RNE (R74). -/
def rmodeOfFcsr (fcsr : Word) : RMode :=
  match (fcsr.extractLsb' 0 3).toNat with
  | 1 => .rtz | 2 => .rup | 3 => .rdn | 4 => .rna | _ => .rne

/-- rmode() of R61: mod.rm when it names a mode, otherwise the mode of fcsr. -/
def rmodeOf (rm : Rm) (fcsr : Word) : RMode :=
  match rm with
  | .fcsr => rmodeOfFcsr fcsr | .rne => .rne | .rtz => .rtz | .rup => .rup | .rdn => .rdn | .rna => .rna

/-- The special codes of a floating format (R69): IEEE infinities and NaNs, E4M3's NaN alone, or none. -/
inductive Special where
  | ieee | nanOnly | none
deriving DecidableEq, Repr

/-- The layout of a floating format (R68, R69): exponent and significand widths, bias, special codes. -/
structure Layout where
  e    : Nat
  m    : Nat
  bias : Nat
  sp   : Special
deriving DecidableEq, Repr

/-- The layout of a floating format (R68). -/
def layoutOf : Fmt → Layout
  | .f64 => ⟨11, 52, 1023, .ieee⟩
  | .f32 => ⟨8, 23, 127, .ieee⟩
  | .bf16 => ⟨8, 7, 127, .ieee⟩
  | .f16 => ⟨5, 10, 15, .ieee⟩
  | .e4m3 => ⟨4, 3, 7, .nanOnly⟩
  | .e5m2 => ⟨5, 2, 15, .ieee⟩
  | .e3m2 => ⟨3, 2, 3, .none⟩
  | .e2m3 => ⟨2, 3, 1, .none⟩
  | .e2m1 => ⟨2, 1, 1, .none⟩
  | _ => ⟨8, 23, 127, .ieee⟩

/-- A format is an integer format (R71). -/
def fmtIsInt : Fmt → Bool
  | .i8 | .intn | .i32 => true
  | _ => false

/-- efr.fsat acts on a target of the format (R79). -/
def fmtSaturates : Fmt → Bool
  | .f64 | .f32 => false
  | _ => true

/-- The width of an element of a floating format. -/
def Layout.width (l : Layout) : Nat := l.e + l.m + 1

/-- The value of a floating code (R69); every NaN of E4M3 and E5M2 is quiet. -/
def Layout.value (l : Layout) (bits : Nat) : Num :=
  let neg := bitOf bits (l.e + l.m)
  let ex := bits / 2 ^ l.m % 2 ^ l.e
  let fr := bits % 2 ^ l.m
  if l.sp = .ieee ∧ ex = 2 ^ l.e - 1 then
    if fr = 0 then .inf neg else .nan (!bitOf fr (l.m - 1) && l.m != 2)
  else if l.sp = .nanOnly ∧ ex = 2 ^ l.e - 1 ∧ fr = 2 ^ l.m - 1 then .nan false
  else if ex = 0 then .fin neg fr (1 - (l.bias : Int) - l.m)
  else .fin neg (2 ^ l.m + fr) ((ex : Int) - l.bias - l.m)

/-- The canonical NaN of a format that has one (R69). -/
def Layout.canonicalNaN (l : Layout) : Nat :=
  match l.sp with
  | .ieee => (2 ^ l.e - 1) * 2 ^ l.m + 2 ^ (l.m - 1)
  | .nanOnly => 2 ^ (l.e + l.m) - 1
  | .none => 0

/-- The code of infinity with its sign (R69). -/
def Layout.infCode (l : Layout) (neg : Bool) : Nat := b2n neg * 2 ^ (l.e + l.m) + (2 ^ l.e - 1) * 2 ^ l.m

/-- The code of the largest finite magnitude, without sign (R69). -/
def Layout.maxCode (l : Layout) : Nat :=
  match l.sp with
  | .ieee => (2 ^ l.e - 1) * 2 ^ l.m - 1
  | .nanOnly => 2 ^ (l.e + l.m) - 2
  | .none => 2 ^ (l.e + l.m) - 1

/-- A magnitude code with its sign. -/
def Layout.withSign (l : Layout) (neg : Bool) (code : Nat) : Nat := b2n neg * 2 ^ (l.e + l.m) + code

/-! ## Rounding (R75) -/

/-- man / 2^k rounded to an integer in a mode, and whether that changed it (R75). -/
def roundShift (mode : RMode) (neg : Bool) (man k : Nat) : Nat × Bool :=
  let q := man / 2 ^ k
  let r := man % 2 ^ k
  let up := match mode with
    | .rne => decide (2 ^ k < 2 * r) || (2 * r == 2 ^ k && q % 2 == 1)
    | .rtz => false
    | .rup => !neg && r != 0
    | .rdn => neg && r != 0
    | .rna => r != 0 && decide (2 ^ k ≤ 2 * r)
  (if up then q + 1 else q, r != 0)

/-- man × 2^exp rounded to a multiple of 2^ulp, as the multiple, and whether that changed it. -/
def roundTo (mode : RMode) (neg : Bool) (man : Nat) (exp ulp : Int) : Nat × Bool :=
  if exp < ulp then roundShift mode neg man (ulp - exp).toNat else (man * 2 ^ (exp - ulp).toNat, false)

/-- floor(log2 (man × 2^exp)) for a man that is not zero. -/
def logFloor (man : Nat) (exp : Int) : Int := (Nat.log2 man : Int) + exp

/-- rnd of R79 for a finite value that is not zero and a floating target: the code and the flags (R76, R77, R79). -/
def Layout.roundFin (l : Layout) (mode : RMode) (sat ftz : Bool) (neg : Bool) (man : Nat) (exp : Int) : Nat × FlagSet :=
  let e0 := logFloor man exp
  let emin : Int := 1 - (l.bias : Int)
  -- as if the exponent range were unbounded
  let (q, _) := roundTo mode neg man exp (e0 - l.m)
  let er := if q = 2 ^ (l.m + 1) then e0 + 1 else e0
  let qn := if q = 2 ^ (l.m + 1) then 2 ^ l.m else q
  let emax : Int := match l.sp with
    | .ieee => (2 ^ l.e : Nat) - 2 - (l.bias : Int)
    | _ => (2 ^ l.e : Nat) - 1 - (l.bias : Int)
  let qmax := match l.sp with
    | .nanOnly => 2 ^ (l.m + 1) - 2
    | _ => 2 ^ (l.m + 1) - 1
  if emax < er ∨ (er = emax ∧ qmax < qn) then
    let maxc := l.withSign neg l.maxCode
    if sat then (maxc, flagOf ||| flagNx ||| flagSat)
    else match l.sp with
      | .none => (maxc, flagOf ||| flagNx)
      | _ =>
        let toInf := match mode with
          | .rne | .rna => true
          | .rtz => false
          | .rup => !neg
          | .rdn => neg
        let infc := if l.sp = .ieee then l.infCode neg else l.canonicalNaN
        (if toInf then infc else maxc, flagOf ||| flagNx)
  else
    let tiny := decide (er < emin)
    if tiny && ftz then (l.withSign neg 0, flagUf ||| flagNx)
    else
      let ulp := if e0 < emin then emin - l.m else e0 - l.m
      let (r, inx) := roundTo mode neg man exp ulp
      let code :=
        if r < 2 ^ l.m then r
        else if r = 2 ^ (l.m + 1) then (ulp + 1 + l.m + l.bias).toNat * 2 ^ l.m
        else (ulp + l.m + l.bias).toNat * 2 ^ l.m + (r - 2 ^ l.m)
      (l.withSign neg code, flagIf inx flagNx ||| flagIf (tiny && inx) flagUf)

/-- A conversion to E8M0 (R80): the code and the flags. -/
def toE8m0 (mode : RMode) (sat : Bool) : Num → Nat × FlagSet
  | .nan sig => (0xFF, flagIf sig flagNv)
  | .inf true => (0xFF, flagNv)
  | .inf false => if sat then (0xFE, flagOf ||| flagNx ||| flagSat) else (0xFF, flagNv)
  | .fin _ 0 _ => (0x00, flagUf ||| flagNx)
  | .fin neg man exp =>
    let e0 := logFloor man exp
    let exact := man == 2 ^ Nat.log2 man
    -- |x| = man × 2^exp against the tie point 1.5 × 2^e0
    let twice := 2 * man
    let tie := 3 * 2 ^ Nat.log2 man
    let up := !exact && (match mode with
      | .rne => decide (tie < twice) || (twice == tie && (e0 + 127) % 2 != 0)
      | .rna => decide (tie ≤ twice)
      | .rup => true
      | .rtz | .rdn => false)
    let k := if up then e0 + 1 else e0
    if k < -127 then (0x00, flagUf ||| flagNx)
    else if neg then (0xFF, flagNv)
    else if 127 < k then
      if sat then (0xFE, flagOf ||| flagNx ||| flagSat)
      else match mode with
        | .rtz | .rdn => (0xFE, flagOf ||| flagNx)
        | _ => (0xFF, flagOf ||| flagNx)
    else ((k + 127).toNat, flagIf (!exact) flagNx)

/-- rnd of R61 and R79 to a floating format: sat is efr.fsat, ftz is fcsr.ftz where it acts. -/
def rndFloat (f : Fmt) (mode : RMode) (sat ftz : Bool) (x : Num) : Nat × FlagSet :=
  if f = .e8m0 then toE8m0 mode sat x
  else
    let l := layoutOf f
    let sat := sat && fmtSaturates f
    match x with
    | .nan sig => if l.sp = .none then (0, flagNv) else (l.canonicalNaN, flagIf sig flagNv)
    | .inf neg =>
      if sat then (l.withSign neg l.maxCode, flagOf ||| flagNx ||| flagSat)
      else match l.sp with
        | .ieee => (l.infCode neg, 0)
        | .nanOnly => (l.canonicalNaN, flagNv)
        | .none => (l.withSign neg l.maxCode, flagOf ||| flagNx)
    | .fin neg 0 _ => (l.withSign neg 0, 0)
    | .fin neg man exp => l.roundFin mode sat ftz neg man exp

/-! ## Integer formats (R71, R81, R82) -/

/-- An integer format: signedness, width, and the substitute of a reserved most-negative code (R71). -/
structure IntSpec where
  sgn : Bool
  n   : Nat
  sub : Option Int
deriving DecidableEq, Repr

/-- The integer format of a code, with the narrow-integer fields isgn, nwid and rcp (R71, R83, R89). -/
def intSpec (f : Fmt) (isgn : Bool) (nwid rcp : Nat) : IntSpec :=
  match f with
  | .i8 => ⟨true, 8, none⟩
  | .intn =>
    let n := min (nwid + 2) 8
    ⟨isgn, n, if !isgn || rcp = 0 then none else if rcp = 1 then some (-(2 ^ (n - 1) - 1)) else some 0⟩
  | _ => ⟨true, 32, none⟩

/-- The range of an integer format (R71, R81). -/
def IntSpec.lo (i : IntSpec) : Int :=
  if i.sgn then (if i.sub.isSome then -(2 ^ (i.n - 1) - 1) else -(2 ^ (i.n - 1))) else 0

/-- The upper end of the range of an integer format (R71). -/
def IntSpec.hi (i : IntSpec) : Int := if i.sgn then 2 ^ (i.n - 1) - 1 else 2 ^ i.n - 1

/-- The value that a code stands for, a reserved code for its substitute (R71). -/
def IntSpec.value (i : IntSpec) (code : Nat) : Int :=
  let v : Int := if i.sgn then signed code i.n else ((code % 2 ^ i.n : Nat) : Int)
  match i.sub with
  | some u => if v = -(2 ^ (i.n - 1)) then u else v
  | none => v

/-- A floating value as an integer target (R81). -/
def numToInt (i : IntSpec) (mode : RMode) : Num → Int × FlagSet
  | .nan _ => (0, flagNv)
  | .inf neg => (if neg then i.lo else i.hi, flagNv)
  | .fin neg man exp =>
    let (q, inx) := roundTo mode neg man exp 0
    let v : Int := if neg then -(q : Int) else q
    if v < i.lo then (i.lo, flagNv)
    else if i.hi < v then (i.hi, flagNv)
    else (v, flagIf inx flagNx)

/-- An integer as an integer target, under efr.isat (R82). -/
def intToInt (i : IntSpec) (isat : Bool) (v : Int) : Int × FlagSet :=
  if i.lo ≤ v ∧ v ≤ i.hi then (v, 0)
  else if isat then (if v < i.lo then i.lo else i.hi, flagSat)
  else (i.value (wrap v i.n), 0)

/-- An integer as a real value. -/
def intNum (v : Int) : Num := .fin (decide (v < 0)) v.natAbs 0

/-- The real value that an element of a format holds: E8M0 codes are powers of two, integer elements plain integers (R69 to R72). -/
def elemNum (f : Fmt) (i : IntSpec) (bits : Nat) : Num :=
  match f with
  | .e8m0 => if bits % 256 = 255 then .nan false else .fin false 1 ((bits % 256 : Nat) - 127)
  | .i8 | .intn | .i32 => intNum (i.value bits)
  | _ => let l := layoutOf f; l.value (bits % 2 ^ l.width)

/-- A subnormal input read as a zero of its own sign (R77). -/
def dazNum (f : Fmt) (daz : Bool) (x : Num) : Num :=
  match x with
  | .fin neg man exp =>
    let l := layoutOf f
    if daz && man != 0 && decide (logFloor man exp < 1 - (l.bias : Int)) then .fin neg 0 exp else x
  | _ => x

/-! ## Exact arithmetic with its invalid and divide-by-zero cases (R76, R78, R138) -/

/-- The value with its sign inverted. -/
def Num.neg : Num → Num
  | .nan s => .nan s
  | .inf n => .inf (!n)
  | .fin n m e => .fin (!n) m e

/-- A NaN's signalling bit. -/
def Num.isSig : Num → Bool
  | .nan s => s
  | _ => false

/-- The value is a NaN. -/
def Num.isNan : Num → Bool
  | .nan _ => true
  | _ => false

/-- man with its sign, at an exponent not above its own. -/
def scaled (neg : Bool) (man : Nat) (exp at0 : Int) : Int :=
  let v : Int := (man * 2 ^ (exp - at0).toNat : Nat)
  if neg then -v else v

/-- A sum, with the sign of an exact zero (R138). -/
def numAdd (mode : RMode) (a b : Num) : Num × FlagSet :=
  match a, b with
  | .nan s, y => (.nan false, flagIf (s || y.isSig) flagNv)
  | x, .nan s => (.nan false, flagIf (s || x.isSig) flagNv)
  | .inf m, .inf n => if m = n then (.inf m, 0) else (.nan false, flagNv)
  | .inf m, .fin _ _ _ => (.inf m, 0)
  | .fin _ _ _, .inf n => (.inf n, 0)
  | .fin na ma ea, .fin nb mb eb =>
    let e := min ea eb
    let v := scaled na ma ea e + scaled nb mb eb e
    if v = 0 then
      (.fin (if ma = 0 ∧ mb = 0 ∧ na = nb then na else decide (mode = .rdn)) 0 e, 0)
    else (.fin (decide (v < 0)) v.natAbs e, 0)

/-- A product. -/
def numMul (a b : Num) : Num × FlagSet :=
  match a, b with
  | .nan s, y => (.nan false, flagIf (s || y.isSig) flagNv)
  | x, .nan s => (.nan false, flagIf (s || x.isSig) flagNv)
  | .inf m, .inf n => (.inf (m != n), 0)
  | .inf m, .fin n man _ => if man = 0 then (.nan false, flagNv) else (.inf (m != n), 0)
  | .fin m man _, .inf n => if man = 0 then (.nan false, flagNv) else (.inf (m != n), 0)
  | .fin na ma ea, .fin nb mb eb => (.fin (na != nb) (ma * mb) (ea + eb), 0)

/-- a × b + c with one rounding to come; 0 × ∞ is invalid whatever the addend (R138). -/
def numFma (mode : RMode) (negProd : Bool) (a b c : Num) : Num × FlagSet :=
  let (p, f) := numMul a b
  let p := if negProd then p.neg else p
  let (r, g) := numAdd mode p c
  (r, f ||| g)

/-- A quotient. -/
def numDiv (a b : Num) : Num × FlagSet :=
  match a, b with
  | .nan s, y => (.nan false, flagIf (s || y.isSig) flagNv)
  | x, .nan s => (.nan false, flagIf (s || x.isSig) flagNv)
  | .inf _, .inf _ => (.nan false, flagNv)
  | .inf m, .fin n _ _ => (.inf (m != n), 0)
  | .fin m _ _, .inf n => (.fin (m != n) 0 0, 0)
  | .fin na ma ea, .fin nb mb eb =>
    if mb = 0 then (if ma = 0 then (.nan false, flagNv) else (.inf (na != nb), flagDz))
    else if ma = 0 then (.fin (na != nb) 0 0, 0)
    else
      let sh := 80 + Nat.log2 mb - Nat.log2 ma
      let q := ma * 2 ^ sh / mb
      let r := ma * 2 ^ sh % mb
      (.fin (na != nb) (2 * q + b2n (r != 0)) (ea - eb - sh - 1), 0)

/-- floor of a square root, its bits taken from the highest down. -/
def isqrtFrom (x : Nat) : Nat → Nat → Nat
  | 0, r => if (r + 1) * (r + 1) ≤ x then r + 1 else r
  | b + 1, r => isqrtFrom x b (if (r + 2 ^ (b + 1)) * (r + 2 ^ (b + 1)) ≤ x then r + 2 ^ (b + 1) else r)

/-- floor of a square root. -/
def isqrt (x : Nat) : Nat := isqrtFrom x (Nat.log2 x / 2 + 1) 0

/-- A square root; that of -0 is -0 (R139). -/
def numSqrt : Num → Num × FlagSet
  | .nan s => (.nan false, flagIf s flagNv)
  | .inf true => (.nan false, flagNv)
  | .inf false => (.inf false, 0)
  | .fin neg 0 e => (.fin neg 0 e, 0)
  | .fin true _ _ => (.nan false, flagNv)
  | .fin false man exp =>
    let odd : Nat := (exp % 2).toNat
    let x := man * 2 ^ (odd + 160)
    let r := isqrt x
    (.fin false (2 * r + b2n (r * r != x)) ((exp - odd - 160) / 2 - 1), 0)

/-- Order of two values that are no NaN: -1, 0 or 1, with -0 equal to +0. -/
def numCmp (a b : Num) : Int :=
  match a, b with
  | .inf m, .inf n => if m = n then 0 else if m then -1 else 1
  | .inf m, _ => if m then -1 else 1
  | _, .inf n => if n then 1 else -1
  | .fin na ma ea, .fin nb mb eb =>
    let e := min ea eb
    let x := scaled na ma ea e
    let y := scaled nb mb eb e
    if x < y then -1 else if y < x then 1 else 0
  | _, _ => 0

/-- The sign bit of a value. -/
def Num.sign : Num → Bool
  | .nan _ => false
  | .inf n => n
  | .fin n _ _ => n

/-- a comes before b for minimum: less, or -0 against +0 (R140). -/
def numBefore (a b : Num) : Bool :=
  let c := numCmp a b
  decide (c < 0) || (c == 0 && a.sign && !b.sign)

/-! ## The functions of R144, exact up to one odd bit -/

/-- The bits of the fixed-point series below. -/
def fixBits : Nat := 320

/-- ln 2 in fixed point, from the sum of 1 / (k × 2^k). -/
def ln2Fix : Nat := ((List.range 330).map fun k => 2 ^ (fixBits + 20) / ((k + 1) * 2 ^ (k + 1))).sum / 2 ^ 20

/-- e^y for a fixed-point y below 1, by its series: the sum of the terms from the k-th on. -/
def expSeries (y : Nat) : Nat → Nat → Nat → Nat
  | 0, _, _ => 0
  | fuel + 1, k, term => term + expSeries y fuel (k + 1) (term * y / 2 ^ fixBits / (k + 1))

/-- 2^a for a finite a (R144): exact for an integral a. -/
def numExp2Fin (neg : Bool) (man : Nat) (exp : Int) : Num :=
  if man = 0 then .fin false 1 0
  else if 12 < logFloor man exp then (if neg then .fin false 1 (-100000) else .fin false 1 100000)
  else
    let v : Int := scaled neg man exp (-(200 : Int))
    let whole := v / 2 ^ 200
    let frac := (v % 2 ^ 200).toNat
    if exp < -200 then
      -- no FP32 value has bits below 2^-149
      .fin false 1 0
    else if frac = 0 then .fin false 1 whole
    else
      let y := frac * 2 ^ (fixBits - 200) * ln2Fix / 2 ^ fixBits
      let e := expSeries y 90 0 (2 ^ fixBits)
      .fin false (2 * e + 1) (whole - fixBits - 1)

/-- 2 × atanh of a fixed-point z, by its series: z2 is z squared, term the present power of z. -/
def atanhSeries (z2 : Nat) : Nat → Nat → Nat → Nat
  | 0, _, _ => 0
  | fuel + 1, k, term => 2 * term / (2 * k + 1) + atanhSeries z2 fuel (k + 1) (term * z2 / 2 ^ fixBits)

/-- log2 of a positive finite value (R144): exact for a power of two. -/
def numLog2Fin (man : Nat) (exp : Int) : Num :=
  let e := logFloor man exp
  let p := 2 ^ Nat.log2 man
  if man = p then intNum e
  else
    let z := (man - p) * 2 ^ fixBits / (man + p)
    let ln := atanhSeries (z * z / 2 ^ fixBits) 110 0 z
    let l2 := ln * 2 ^ fixBits / ln2Fix
    let v : Int := e * 2 ^ fixBits + l2
    .fin (decide (v < 0)) (2 * v.natAbs + (if v < 0 then 0 else 1)) (-(fixBits : Int) - 1)

/-- 1 / √x for a positive finite value (R144). -/
def numRsqFin (man : Nat) (exp : Int) : Num :=
  let odd : Nat := (exp % 2).toNat
  let x := man * 2 ^ odd
  let k := 90 + Nat.log2 x
  let r := isqrt (2 ^ (2 * k) / x)
  .fin false (2 * r + b2n (r * r * x != 2 ^ (2 * k))) (-((exp - odd) / 2) - k - 1)

/-! ## The matrix summation window (R85, R86, R87) -/

/-- A finite, non-zero term cut to the window whose lowest bit weighs 2^u, in units of 2^u, and whether bits were lost (R85). -/
def windowTerm (u : Int) (neg : Bool) (man : Nat) (exp : Int) : Int × Bool :=
  if u ≤ exp then (scaled neg man exp u, false)
  else
    let k := (u - exp).toNat
    let q := man / 2 ^ k
    (if neg then -(q : Int) else q, man % 2 ^ k != 0)

/-- The weight exponent of a term that counts for the window: floor(log2 |t|) for a finite term that is not zero (R85). -/
def termLog : Num → Option Int
  | .fin _ 0 _ => none
  | .fin _ man exp => some (logFloor man exp)
  | _ => none

/-- The largest weight exponent of a list of terms. -/
def maxLog : List Num → Option Int
  | [] => none
  | t :: r =>
    match termLog t, maxLog r with
    | none, y => y
    | some x, none => some x
    | some x, some y => some (max x y)

/-- The sum of the terms in the window, and whether any bit was lost (R85). -/
def windowSum (u : Int) : List Num → Int × Bool
  | [] => (0, false)
  | .fin neg man exp :: r =>
    let (v, st) := windowTerm u neg man exp
    let (w, st') := windowSum u r
    (v + w, st || st')
  | _ :: r => windowSum u r

/-- A term of the list is an infinity of the sign. -/
def hasInf (neg : Bool) (ts : List Num) : Bool := ts.any fun t => t == .inf neg

/-- One block of a floating MMA (R85): the accumulator element and the products, with the flags that their forming raised. The infinitesimal ε of a sticky
block is 2^-32 of the window's lowest bit: below the gap from any sum to the next FP32 value or tie. -/
def windowBlock (c : Nat) (products : List Num) (raised : FlagSet) : Nat × FlagSet :=
  let cv := (layoutOf .f32).value (c % 2 ^ 32)
  let terms := cv :: products
  if terms.any Num.isNan then (0x7FC00000, raised ||| flagIf (cv.isSig || (hasInf false terms && hasInf true terms)) flagNv)
  else if hasInf false terms && hasInf true terms then (0x7FC00000, raised ||| flagNv)
  else if hasInf false terms then (0x7F800000, raised)
  else if hasInf true terms then (0xFF800000, raised)
  else match maxLog terms with
    | none => (if terms.all Num.sign then 0x80000000 else 0, raised)
    | some e =>
      let u := e - 63
      let (s, sticky) := windowSum u terms
      if s = 0 then (0, raised ||| flagIf sticky (flagUf ||| flagNx))
      else
        let (bits, f) := (layoutOf .f32).roundFin .rne false false (decide (s < 0)) (2 ^ 32 * s.natAbs + b2n sticky) (u - 32)
        (bits, raised ||| f)

/-- One block of an integer MMA (R87): the accumulator element as a 32-bit code, and the flags. -/
def intBlock (isat : Bool) (c : Nat) (products : List Int) : Nat × FlagSet :=
  let s := signed c 32 + products.foldl (· + ·) 0
  if isat then
    (if s < -(2 ^ 31) then (wrap (-(2 ^ 31)) 32, flagSat)
     else if 2 ^ 31 - 1 < s then (2 ^ 31 - 1, flagSat)
     else (wrap s 32, 0))
  else (wrap s 32, 0)

/-! ## Scale codes (R233 to R235) -/

/-- mx of an FP32 code (R235). -/
def mxCode (bits : Nat) : Nat :=
  match (layoutOf .f32).value (bits % 2 ^ 32) with
  | .nan _ => 0xFF
  | .inf _ => 0xFE
  | .fin _ 0 _ => 0
  | .fin _ man exp => (min (max (logFloor man exp + 127) 0) 254).toNat

/-- emax of SCQ (R234). -/
def emaxOf : Fmt → Nat
  | .e4m3 => 8 | .e5m2 => 15 | .e3m2 => 4 | .e2m3 => 2 | .e2m1 => 2 | _ => 0

/-- The product of two scale codes (R233). -/
def scaleMul (a b : Nat) : Nat := if a = 255 ∨ b = 255 then 255 else min (a + b - 127) 254

/-- SCQ of a code (R233). -/
def scaleQuant (f : Fmt) (a : Nat) : Nat := if a = 255 then 255 else min (a - emaxOf f) 254

end Sys2Proof.Machine
end

