-- ==== Sys2Proof/Machine/Ops.lean ====
section
/-!
DEFINITION. Machine/Ops.lean: the named operations over the state: geometry, registers, staging, results in flight, sequencing,
taking a trap and returning from one, and the running of one slot.
-/

namespace Sys2Proof.Machine

/-! ## Geometry (R1, R5, R18, R61, R252, R253, R267) -/

/-- Column of a tile (R1). -/
def tileX (t : TileId) : Nat := t % 64
/-- Row of a tile (R1). -/
def tileY (t : TileId) : Nat := t / 64
/-- Logical index of a tile (R1). -/
def tileAt (x y : Nat) : TileId := y * 64 + x
/-- Die of a tile (R1). -/
def dieOf (t : TileId) : Nat := tileY t / 16 * 4 + tileX t / 16
/-- The difference of two counts. -/
def dist (a b : Nat) : Nat := (a - b) + (b - a)
/-- hops(s, t) of R61. -/
def hops (s t : TileId) : Nat := dist (tileX s) (tileX t) + dist (tileY s) (tileY t)
/-- seams(s, t) of R61. -/
def seams (s t : TileId) : Nat := dist (tileX s / 16) (tileX t / 16) + dist (tileY s / 16) (tileY t / 16)
/-- The mesh latency L(s, t) of R253. -/
def meshLat (s t : TileId) : Nat := 3 + hops s t + 3 + 12 * seams s t
/-- The port tile c_d of a die (R267). -/
def portTile (d : Nat) : TileId := tileAt (16 * (d % 4) + 8) (16 * (d / 4) + 8)
/-- The cistern distance h(s, d) of R267. -/
def cisternDist (s : TileId) (d : Nat) : Nat := hops s (portTile d) + 12 * seams s (portTile d)
/-- Hmax of R267. -/
def hMax : Nat := 128
/-- Dies of a shape code (R312). -/
def shapeDies (shape : Nat) : Nat := 2 ^ shape
/-- A die lies in the partition. -/
def inPartition (die0 shape d : Nat) : Bool := decide (die0 ≤ d) && decide (d < die0 + shapeDies shape)
/-- Columns of a partition's rectangle (R252). -/
def partWidth (shape : Nat) : Nat := 16 * min (shapeDies shape) 4
/-- The tile at a partition position (R206): the partition's tiles in ascending logical index. -/
def tileOfPos (die0 shape p : Nat) : TileId :=
  tileAt (16 * (die0 % 4) + p % partWidth shape) (16 * (die0 / 4) + p / partWidth shape)
/-- The partition position of a tile (R206). -/
def posOfTile (die0 shape : Nat) (t : TileId) : Nat :=
  (tileY t - 16 * (die0 / 4)) * partWidth shape + (tileX t - 16 * (die0 % 4))
/-- The tiles of a partition in ascending logical index. -/
def partTiles (die0 shape : Nat) : List TileId :=
  (List.range (256 * shapeDies shape)).map (tileOfPos die0 shape)

/-- A rectangle coded as in R257. -/
structure Rect where
  x0 : Nat
  y0 : Nat
  x1 : Nat
  y1 : Nat
deriving DecidableEq, Repr

/-- The rectangle of a scalar (R257). -/
def rectOf (v : Nat) : Rect := ⟨field v 5 0, field v 12 8, field v 21 16, field v 28 24⟩
/-- The tile of a scalar (R257). -/
def destTile (v : Nat) : TileId := tileAt (field v 5 0) (field v 12 8)
/-- The tiles of a rectangle. -/
def rectTiles (r : Rect) : List TileId :=
  ((List.range 32).filter fun y => r.y0 ≤ y && y ≤ r.y1).flatMap fun y =>
    ((List.range 64).filter fun x => r.x0 ≤ x && x ≤ r.x1).map fun x => tileAt x y

/-! ## Parts of the state -/

/-- A tile. -/
def State.tile (s : State) (t : TileId) : Tile := mapGet {} s.tiles t
/-- A tile written. -/
def State.setTile (s : State) (t : TileId) (x : Tile) : State := { s with tiles := mapSet {} s.tiles t x }
/-- A tile changed. -/
def State.updTile (s : State) (t : TileId) (f : Tile → Tile) : State := s.setTile t (f (s.tile t))
/-- A die. -/
def State.die (s : State) (d : Nat) : Die := mapGet {} s.dies d
/-- A die written. -/
def State.setDie (s : State) (d : Nat) (x : Die) : State := { s with dies := mapSet {} s.dies d x }
/-- A die changed. -/
def State.updDie (s : State) (d : Nat) (f : Die → Die) : State := s.setDie d (f (s.die d))
/-- A context. -/
def State.ctx (s : State) (c : Nat) : Context := mapGet {} s.ctxs c
/-- A context written. -/
def State.setCtx (s : State) (c : Nat) (x : Context) : State := { s with ctxs := mapSet {} s.ctxs c x }
/-- A context changed. -/
def State.updCtx (s : State) (c : Nat) (f : Context → Context) : State := s.setCtx c (f (s.ctx c))
/-- A kernel, by the first die of its partition. -/
def State.kernel? (s : State) (k : Nat) : Option Kernel := mapFind s.kernels k
/-- A kernel written. -/
def State.setKernel (s : State) (k : Nat) (x : Kernel) : State := { s with kernels := mapPut s.kernels k x }
/-- A kernel changed, where there is one. -/
def State.updKernel (s : State) (k : Nat) (f : Kernel → Kernel) : State :=
  match s.kernel? k with
  | some x => s.setKernel k (f x)
  | none => s
/-- A kernel taken away. -/
def State.delKernel (s : State) (k : Nat) : State := { s with kernels := mapDel s.kernels k }
/-- A link. -/
def State.link (s : State) (l : Nat) : Link := mapGet {} s.links l
/-- A link changed. -/
def State.updLink (s : State) (l : Nat) (f : Link → Link) : State :=
  { s with links := mapSet {} s.links l (f (s.link l)) }
/-- A row dated in wall time (in units of 1/39 ns). -/
def State.at (s : State) (w : Nat) (d : Due) : State := { s with agenda := insertDated w d s.agenda }
/-- A row put before those still to run. -/
def State.push (s : State) (ds : List Due) : State := { s with todo := ds ++ s.todo }
/-- One more use of the free values. -/
def State.tickFree (s : State) : State := { s with free := s.free + 1 }

/-- A free 128-bit value, k uses of the free values ahead. -/
def State.freeNonce (s : State) (k : Nat := 0) : BitVec 128 := Config.freeWord (s.free + k) ++ Config.freeWord (s.free + k + 1)
/-- A free 256-bit value, k uses of the free values ahead. -/
def State.freeDigest (s : State) (k : Nat := 0) : BitVec 256 := s.freeNonce k ++ s.freeNonce (k + 2)

/-- The kernel whose partition holds a die, with its number. -/
def kernelOfDie : List (Nat × Kernel) → Nat → Option (Nat × Kernel)
  | [], _ => none
  | (n, k) :: r, d => if inPartition k.die0 k.shape d then some (n, k) else kernelOfDie r d
/-- The kernel that runs on a tile. -/
def State.kernelOf (s : State) (t : TileId) : Option (Nat × Kernel) := kernelOfDie s.kernels (dieOf t)

/-- Wall units of one cycle of the running clock (R4, R322): 30 of 1/39 ns at 1.3 GHz, 40 at 0.975 GHz. -/
def Kernel.period (k : Kernel) : Nat := if k.slow then 40 else 30
/-- Wall units of a number of nanoseconds. -/
def nsUnits (n : Nat) : Nat := 39 * n
/-- wclk: wall time since power-on in whole ns (R101). -/
def State.wclk (s : State) : Nat := s.wall / 39
/-- ltime: link time in ns (R352, R369). -/
def State.ltime (s : State) : Nat := (s.ltBase + s.wall / 39) % 2 ^ 64

/-! ## Registers and flags -/

/-- sreg(i): s0 reads zero (R61, R100). -/
def Tile.sreg (t : Tile) (r : Reg) : Word := if r = 0 then 0 else mapGet 0 t.regs.s r.toNat
/-- vreg(i) (R61). -/
def Tile.vreg (t : Tile) (r : Reg) : VWord := mapGet 0 t.regs.v r.toNat
/-- mreg(i) (R61). -/
def Tile.mreg (t : Tile) (r : Reg) : Mask := mapGet 0 t.regs.msk r.toNat
/-- The top of the mask stack; all ones at depth 0 (R133). -/
def Tile.topMask (t : Tile) : Mask := t.regs.ms.headD (BitVec.allOnes 64)
/-- The entry below the top; all ones at depth 1 (R133). -/
def Tile.parentMask (t : Tile) : Mask := (t.regs.ms.drop 1).headD (BitVec.allOnes 64)
/-- A scalar register written; a write to s0 is discarded (R100). -/
def Tile.setS (t : Tile) (n : Nat) (v : Word) : Tile :=
  if n = 0 then t else { t with regs := { t.regs with s := mapSet 0 t.regs.s n v } }
/-- A vector register written. -/
def Tile.setV (t : Tile) (n : Nat) (v : VWord) : Tile := { t with regs := { t.regs with v := mapSet 0 t.regs.v n v } }
/-- A mask register written. -/
def Tile.setMk (t : Tile) (n : Nat) (v : Mask) : Tile := { t with regs := { t.regs with msk := mapSet 0 t.regs.msk n v } }
/-- Flags ORed into the sticky flags of fcsr (R56, R74). -/
def Tile.orFlags (t : Tile) (f : FlagSet) : Tile :=
  { t with fmts := { t.fmts with fcsr := t.fmts.fcsr ||| (f.setWidth 64 <<< 8) } }
/-! The bits that registers hold: a reserved bit reads zero, whatever is written, loaded or restored (R14). -/

/-- fcsr (R74). -/
def fcsrKept (v : Nat) : Word := BitVec.ofNat 64 v &&& 0x3F1F
/-- efr (R83). -/
def efrKept (v : Nat) : Word := BitVec.ofNat 64 (v % 2 ^ 8)
/-- A row of the format table (R89). -/
def rowKept (v : Nat) : Word := BitVec.ofNat 64 (v % 2 ^ 14 + field v 21 16 * 2 ^ 16)
/-- A breakpoint register (R101). -/
def bpaKept (v : Nat) : Word := BitVec.ofNat 64 (v % 2 ^ 32 + b2n (bitOf v 63) * 2 ^ 63)
/-- istp (R342). -/
def istpKept (v : Nat) : Word := BitVec.ofNat 64 (v % 2 ^ 39 + b2n (bitOf v 63) * 2 ^ 63)
/-- A job pointer (R260). -/
def jpKept (v : Nat) : Word := BitVec.ofNat 64 (v % 2 ^ 26)
/-- wcfg (R276). -/
def wcfgKept (v : Nat) : Word := BitVec.ofNat 64 (v % 2 ^ 20)
/-- A counter control register (R343): ev, en, ovf and olog; clr reads zero. -/
def pccKept (v : Nat) : Word := BitVec.ofNat 64 (v % 2 ^ 7 + field v 9 8 * 2 ^ 8)
/-- An entry of the drift log (R340). -/
def driftKept (w : List Word) : List Word :=
  [w.getD 0 0 &&& BitVec.ofNat 64 (2 ^ 50 - 1), w.getD 1 0 &&& BitVec.ofNat 64 (2 ^ 48 - 1), w.getD 2 0, w.getD 3 0 &&& BitVec.ofNat 64 (2 ^ 59 - 1)]
/-- dthr (R341). -/
def dthrKept (v : Nat) : Word := BitVec.ofNat 64 (v % 2 ^ 32)

/-- The row selection with a base, a level and a row index (R91): level 7 is never held, and stands for 6 (log 68); with level 6 the active row is the
base row. -/
def Formats.withSelection (f : Formats) (base level row : Nat) : Formats :=
  { f with base := base % 16, level := min (level % 8) 6, row := if min (level % 8) 6 = 6 then base % 16 else row % 16 }
/-- A row of the format table (R89). -/
def Tile.ftRow (t : Tile) (n : Nat) : Word := mapGet 0 t.fmts.ft n
/-- ftsr (R91). -/
def Tile.ftsr (t : Tile) : Nat := t.fmts.base + t.fmts.level * 16 + t.fmts.row * 256

/-- The immediate as a signed 64-bit value, simm() (R48, R61). -/
def Imm.simm : Imm → Word
  | .short v => v.signExtend 64
  | .long v => v.signExtend 64
/-- The immediate as an unsigned 64-bit value, zimm() (R48, R61). -/
def Imm.zimm : Imm → Word
  | .short v => v.setWidth 64
  | .long v => v.setWidth 64
/-- bsrc() of R61. -/
def Tile.bsrc (t : Tile) : Src → Word
  | .reg r => t.sreg r
  | .imm v => Imm.simm v
/-- A second source whose immediate is unsigned (R93, R261, R304). -/
def Tile.zsrc (t : Tile) : Src → Word
  | .reg r => t.sreg r
  | .imm v => Imm.zimm v

/-! ## Staging (R61, R109) -/

/-- The size of staging. -/
def stagingSize : Nat := 2 ^ 18
/-- The address of stg_rd and stg_wr: modulo 2^18, rounded down to a multiple of n (R61). -/
def stgAddr (a : Word) (n : Nat) : Nat := a.toNat % stagingSize / n * n
/-- stg_rd of R61. -/
def Tile.stgRd (t : Tile) (a : Word) (n : Nat) : Nat := bytesNat (memRange t.staging (stgAddr a n) n)
/-- n bytes of staging from an address on, modulo 2^18, for n up to the size. -/
def stagingBytes (m : Mem) (a n : Nat) : List Byte :=
  let a := a % stagingSize
  if a + n ≤ stagingSize then memRange m a n
  else memRange m a (stagingSize - a) ++ memRange m 0 (a + n - stagingSize)
/-- Bytes put into staging from an address on, modulo 2^18. -/
def stagingPut (m : Mem) (a : Nat) (bs : List Byte) : Mem :=
  let a := a % stagingSize
  if a + bs.length ≤ stagingSize then memPutRange m a bs
  else memPutRange (memPutRange m a (bs.take (stagingSize - a))) 0 (bs.drop (stagingSize - a))
/-- The bytes of a write of n bytes from an address on, each whole. -/
def wholeBytes (a : Nat) : List Byte → List SByte
  | [] => []
  | b :: r => ⟨a % stagingSize, 0xFF, b⟩ :: wholeBytes (a + 1) r
/-- One byte written under its mask. -/
def putSByte (m : Mem) (b : SByte) : Mem :=
  memSet m b.addr ((memGet m b.addr &&& ~~~b.mask) ||| (b.val &&& b.mask))
/-- A run of whole bytes in ascending addresses from the first one on. -/
def contiguous : Nat → List SByte → Bool
  | _, [] => true
  | a, b :: r => b.addr == a && b.mask == 0xFF && contiguous (a + 1) r
/-- Bytes written under their masks, in order. -/
def putSBytes (m : Mem) (bs : List SByte) : Mem :=
  match bs with
  | [] => m
  | b :: r => if contiguous b.addr (b :: r) then memPutRange m b.addr ((b :: r).map SByte.val) else (b :: r).foldl putSByte m

/-! ## The scale register file (R225, R226) -/

/-- The codes of a slot at launch: 1.0 in every position (R225). -/
def scaleOnes : BitVec 1024 := BitVec.ofNat 1024 (bytesNat (List.replicate 128 0x7F))
/-- A physical scale slot. -/
def Tile.scaleSlot (t : Tile) (n : Nat) : ScaleSlot := mapGet ⟨scaleOnes, 0⟩ t.matrix.slots n
/-- A physical scale slot written. -/
def Tile.setSlot (t : Tile) (n : Nat) (x : ScaleSlot) : Tile :=
  { t with matrix := { t.matrix with slots := mapSet ⟨scaleOnes, 0⟩ t.matrix.slots n x } }
/-- The slot that a name maps to (R225). -/
def Tile.slotOf (t : Tile) (name : Nat) : Nat := mapGet name t.matrix.names name
/-- A name mapped to a slot. -/
def Tile.mapName (t : Tile) (name slot : Nat) : Tile :=
  { t with matrix := { t.matrix with names := mapSet name t.matrix.names name slot } }
/-- The codes read through a name (R225). -/
def Tile.scaleCodes (t : Tile) (name : Nat) : BitVec 1024 := (t.scaleSlot (t.slotOf name)).codes
/-- Code k of a slot. -/
def codeAt (codes : BitVec 1024) (k : Nat) : Nat := (codes.extractLsb' (8 * k) 8).toNat
/-- An operand buffer. -/
def Tile.buf (t : Tile) (k : Nat) : Buffer := mapGet {} t.matrix.bufs k
/-- An operand buffer written. -/
def Tile.setBuf (t : Tile) (k : Nat) (b : Buffer) : Tile :=
  { t with matrix := { t.matrix with bufs := mapSet {} t.matrix.bufs k b } }
/-- An accumulator. -/
def Tile.acc (t : Tile) (k : Nat) : Accum := mapGet {} t.matrix.acc k
/-- An accumulator written. -/
def Tile.setAcc (t : Tile) (k : Nat) (a : Accum) : Tile :=
  { t with matrix := { t.matrix with acc := mapSet {} t.matrix.acc k a } }
/-- The slot that a result in flight holds (R226). -/
def Dest.heldSlot : Dest → Option Nat
  | .scale _ slot _ => some slot
  | _ => none
/-- A slot is live (R226). -/
def Tile.slotLive (t : Tile) (n : Nat) : Bool :=
  (List.range 32).any (fun k => t.slotOf k == n) ||
  (List.range 8).any (fun k => (t.buf k).valid && (t.buf k).slot == n) ||
  t.flight.any (fun r => r.dst.heldSlot == some n)
/-- The lowest-numbered free slot (R226). -/
def Tile.freeSlot (t : Tile) : Nat := ((List.range 128).find? fun n => !t.slotLive n).getD 0
/-- The tag of a buffer stamped from a name, or cleared (R227). -/
def Tile.stamp (t : Tile) (k : Nat) (name : Option Nat) : Tile :=
  let b := t.buf k
  match name with
  | none => t.setBuf k { b with valid := false }
  | some n => let sl := t.slotOf n; t.setBuf k { b with valid := true, slot := sl, gen := (t.scaleSlot sl).gen }
/-- A tag is current (R228). -/
def Tile.tagCurrent (t : Tile) (k : Nat) : Bool :=
  let b := t.buf k
  b.valid && (t.scaleSlot b.slot).gen == b.gen

/-! ## Results in flight (R56, R123) -/

/-- A result is capturable in the landing queue (R123, R244). -/
def Dest.capturable : Dest → Bool
  | .sreg n => n != 0
  | .vreg _ | .mk _ | .mstack _ | .scale _ _ _ | .flagsOnly | .fcsr | .sysreg _ | .latch _ => true
  | .staging _ captured => captured
  | .jpPosted _ => true
  | _ => false

/-- The architectural register a destination names (R43, R57): a file code of R123, or of R243 for what the queue never holds, and a number. -/
def Dest.key : Dest → Option (Nat × Nat)
  | .sreg n => if n = 0 then none else some (0, n)
  | .latch n => if n = 0 then none else some (0, n)
  | .vreg n => some (1, n)
  | .mk n => some (2, n)
  | .mstack _ => some (3, 0)
  | .scale name _ _ => some (4, name)
  | .fcsr => some (8, 0)
  | .sysreg n => some (10, n)
  | .jpPosted k => some (10, 0x160 + k)
  | .handle k => some (15, k)
  | .unpin k => some (15, k)
  | _ => none

/-- A tag taken out of the tile's next place in issue order. -/
def Tile.nextSeq (t : Tile) : Tile := { t with flow := { t.flow with seq := t.flow.seq + 1 } }

/-- A result sent on its way: it takes the next place in issue order. A result for s0 is discarded (R100), but its landing cycle is kept, since a
HALT waits for it (R114). -/
def Tile.launch (t : Tile) (r : Result) : Tile :=
  if r.dst = .sreg 0 then { t with flow := { t.flow with quiet := max t.flow.quiet r.due } } else
  { t with flight := t.flight ++ [{ r with seq := t.flow.seq }], flow := { t.flow with seq := t.flow.seq + 1 } }

/-! ## What a slot runs in -/

/-- What a slot's meaning reads beside its tile: the state, the tile's number, now() of R61, the kernel. -/
structure Ctx where
  s       : State
  id      : TileId
  now     : Nat
  handler : Bool
  kernel  : Option (Nat × Kernel)

/-- The context of the bundle in hand. -/
def State.slotCtx (s : State) : Ctx :=
  { s := s, id := s.cur.tile, now := s.cur.now, handler := s.cur.handler, kernel := s.kernelOf s.cur.tile }

/-- The tile runs a portable image (R116). -/
def Ctx.portable (c : Ctx) : Bool := match c.kernel with
  | some (_, k) => k.img.portable && !c.handler
  | none => false
/-- The variant that the tile runs (R322). -/
def Ctx.variant (c : Ctx) : Nat := match c.kernel with
  | some (_, k) => k.variant
  | none => 0
/-- The PC of the bundle in hand; in handler mode its offset is the handler bundle number (R101). -/
def Ctx.pc (c : Ctx) : PC := c.s.cur.pc
/-- privileged() of R115. -/
def Ctx.privileged (c : Ctx) : Bool := c.handler || match c.kernel with
  | some (_, k) => k.img.priv
  | none => false
/-- Variant 3's parameter column is in use (R165). -/
def Ctx.slow (c : Ctx) : Bool := match c.kernel with
  | some (_, k) => k.slow
  | none => false
/-- A die is one of the partition's. -/
def Ctx.inPart (c : Ctx) (d : Nat) : Bool := match c.kernel with
  | some (_, k) => inPartition k.die0 k.shape d
  | none => decide (d = dieOf c.id)
/-- The number of the context whose kernel the tile runs. -/
def Ctx.ctxNo (c : Ctx) : Nat := match c.kernel with
  | some (_, k) => k.ctx
  | none => 0
/-- The tile's partition position (R206). -/
def Ctx.pos (c : Ctx) : Nat := match c.kernel with
  | some (_, k) => posOfTile k.die0 k.shape c.id
  | none => 0

/-- The latency classes of R315. -/
inductive LatClass where
  | scalar | mul | div | ld | amo | vfloat | vexp | vdiv | vint | perm | redmax | redadd | topk | mma | accret | cl
  | other
deriving DecidableEq, Repr

/-- The class number of R315. -/
def LatClass.num : LatClass → Nat
  | .scalar => 0 | .mul => 1 | .div => 2 | .ld => 3 | .amo => 4 | .vfloat => 5 | .vexp => 6 | .vdiv => 7 | .vint => 8
  | .perm => 9 | .redmax => 10 | .redadd => 11 | .topk => 12 | .mma => 13 | .accret => 14 | .cl => 15 | .other => 16

/-- L_dev of a class (R315). -/
def LatClass.dev : LatClass → Nat
  | .scalar => 1 | .mul => 3 | .div => 18 | .ld => 6 | .amo => 10 | .vfloat => 4 | .vexp => 8 | .vdiv => 14 | .vint => 2
  | .perm => 3 | .redmax => 12 | .redadd => 24 | .topk => 32 | .mma => 6 | .accret => 70 | .cl => 24 | .other => 0

/-- The image cycle from which a result is readable, in a portable image; 0 in a timetabled one (R315). CL is that of the variant in use (R165). -/
def Ctx.imgDue (c : Ctx) (t : Tile) (cls : LatClass) (lat : Nat) : Nat :=
  match c.kernel with
  | some (_, k) =>
    if k.img.portable then
      let e := (k.img.plat[cls.num]?).getD 0
      let dev := if cls = .cl ∧ k.slow then 18 else cls.dev
      let l := if cls = .other ∨ e = 0 then lat else lat + e - dev
      c.now + t.flow.ahead - t.flow.waits + l
    else 0
  | none => 0

/-- land(d, v, L) of R61 with flags raised at the same cycle: the result is in flight, and in handler mode its landing is at once (R129). -/
def Ctx.land (c : Ctx) (t : Tile) (cls : LatClass) (d : Dest) (v lat : Nat) (flags : FlagSet := 0) : Tile :=
  t.launch { seq := 0, due := if c.handler then c.now else c.now + lat, img := if c.handler then 0 else c.imgDue t cls lat
             dst := d, val := v, flags := flags, back := c.now + lat }

/-- A result whose value returns from a request (R122). -/
def Ctx.landPending (c : Ctx) (t : Tile) (cls : LatClass) (d : Dest) (lat : Nat) : Tile :=
  t.launch { seq := 0, due := if c.handler then c.now else c.now + lat, img := if c.handler then 0 else c.imgDue t cls lat
             dst := d, pend := true, back := c.now + lat }

/-- A staging write of the tile's own instruction (R155). -/
def Ctx.landStaging (c : Ctx) (t : Tile) (code : Nat) (captured : Bool) (bytes : List SByte) (lat : Nat) (flags : FlagSet := 0)
    (cls : LatClass := .other) : Tile :=
  t.launch { seq := 0, due := if c.handler then c.now else c.now + lat, img := if c.handler then 0 else c.imgDue t cls lat
             dst := .staging code captured, bytes := bytes, flags := flags, back := c.now + lat }

/-- What a slot's meaning comes to: the tile after it, a trap of R118 with its xinfo, or, in a portable image, a wait of one cycle (R116). -/
inductive SlotRes where
  | ok (t : Tile)
  | trap (cause info : Nat)
  | wait (reason : Nat)

/-! ## Trap causes (R118) -/

def causeEncoding : Nat := 0x01
def causeIndex : Nat := 0x02
def causeConflict : Nat := 0x03
def causeVault : Nat := 0x04
def causeOverdue : Nat := 0x05
def causePin : Nat := 0x06
def causeShape : Nat := 0x07
def causeResidency : Nat := 0x08
def causePermission : Nat := 0x09
def causeStale : Nat := 0x0A
def causeWheel : Nat := 0x0B
def causeMesh : Nat := 0x0C
def causeWeir : Nat := 0x0D
def causeJcb : Nat := 0x0E
def causeData : Nat := 0x0F
def causeAlign : Nat := 0x10
def causePriv : Nat := 0x11
def causeBreak : Nat := 0x12
def causeTrap : Nat := 0x13
def causeStep : Nat := 0x14

/-- A cause is a deviation (R8, R118). -/
def isDeviation (cause : Nat) : Bool :=
  cause == causeConflict || cause == causeVault || cause == causeOverdue || cause == causePin || cause == causeWheel || cause == causeMesh

/-- A cause counts in nflt (R327). -/
def isCounted (cause : Nat) : Bool := !(cause == causeBreak || cause == causeTrap || cause == causeStep)

/-- xinfo of a permission fault that did not arise through a handle: the sentinel with access write (R118). -/
def permSentinel (h : Nat) : Nat := h + 1 * 16 + 64

/-! ## The index stream (R31 to R37) -/

/-- What stands at a position of the stream. -/
inductive Fetched where
  | bundle (b : Bundle) (escaped : Bool)
  | illegal (info : Nat)
  | absent
deriving DecidableEq, Repr

/-- The indices of a segment of a variant. -/
def Tile.segment (t : Tile) (variant seg : Nat) : List (BitVec 16) := mapGet [] t.imem.segs (variant * 65536 + seg)

/-- A segment stands whole in the index window (R36, R37). -/
def Tile.inWindow (t : Tile) (seg : Nat) : Bool :=
  !t.imem.table || (mapFind t.imem.win (seg % 2) == some seg && !t.imem.copying.contains seg)

/-- The bundle of 24 indices (R33): index j carries bits [16j - 1 : 16j - 16]. -/
def literalBundle (l : List (BitVec 16)) : Bundle :=
  BitVec.ofNat 384 (l.foldr (fun x a => x.toNat + 65536 * a) 0)

/-- The stream at a PC (R33, R34, R37). -/
def Tile.fetch (t : Tile) (variant : Nat) (pc : PC) : Fetched :=
  if !t.inWindow pc.seg then .absent
  else
    let l := t.segment variant pc.seg
    match l[pc.off]? with
    | none => .illegal (pc.off % 65536)
    | some v =>
      if v = 0xFFFF then
        if pc.off + 25 ≤ l.length then .bundle (literalBundle ((l.drop (pc.off + 1)).take 24)) true
        else .illegal 0xFFFF
      else match t.imem.dict[v.toNat]? with
        | some b => .bundle b false
        | none => .illegal v.toNat

/-- 1 when the bundle at a PC is escaped (R35). -/
def Tile.escapedAt (t : Tile) (variant : Nat) (pc : PC) : Nat :=
  b2n ((t.segment variant pc.seg)[pc.off]? == some 0xFFFF)

/-- The stream successor of a PC (R34). -/
def Tile.successor (t : Tile) (variant : Nat) (pc : PC) : PC :=
  { pc with off := pc.off + 1 + 24 * t.escapedAt variant pc }

/-! ## Sequencing (R35, R59, R92, R105 to R108) -/

/-- The row selection at an iteration start of the top loop entry (R92). -/
def Tile.selectRow (t : Tile) : Tile :=
  match t.flow.loops with
  | [] => t
  | e :: r =>
    if t.fmts.level = r.length then { t with fmts := { t.fmts with row := (t.fmts.base + e.i) % 16 } } else t

/-- The loop-end step of R107 on a loop stack, top first, at an end offset: the stack after it and, when an iteration starts, its start. -/
def loopEnd (off : Nat) : List LoopEntry → List LoopEntry × Option Nat
  | [] => ([], none)
  | e :: r =>
    if e.last = off then
      if e.i + 1 < e.n then ({ e with i := e.i + 1 } :: r, some e.start)
      else loopEnd off r
    else (e :: r, none)

/-- The stage predicates of R108. -/
def stagePreds : List LoopEntry → Nat
  | [] => 1
  | e :: _ =>
    let c := e.n + 1 - e.s
    (List.range 8).foldl (fun a k => a + b2n (decide (k < e.s) && decide (k ≤ e.i) && decide (e.i < c + k)) * 2 ^ k) 0

/-- The tile at the cycle at which the target of a taken LBRK issues: the top loop entry is popped (R105). -/
def Tile.popped (t : Tile) : Tile :=
  if t.flow.popDue then { t with flow := { t.flow with popDue := false, loops := t.flow.loops.drop 1 } } else t

/-- The sequencer moved on past the bundle at a PC that issued at a cycle with a gap (R35, R59, R107): hand is its seg bit.
The transfer, the push and the halt that earlier bundles left pending count this bundle. -/
def Tile.advance (t : Tile) (variant : Nat) (pc : PC) (issue gap : Nat) (hand : Bool) : Tile :=
  let succ := if hand then { seg := pc.seg + 1, off := 0 : PC } else t.successor variant pc
  let f := t.flow
  let (loops, rep) := loopEnd pc.off f.loops
  let t := { t with flow := { f with loops := loops, iterStart := rep.isSome, resumed := false } }
  let next := match rep with
    | some st => { succ with seg := pc.seg, off := st : PC }
    | none => succ
  let t := if rep.isSome then t.selectRow else t
  -- a taken transfer
  let (t, next) := match f.transfer with
    | none => (t, next)
    | some x =>
      if x.left ≤ 1 then
        ({ t with flow := { t.flow with transfer := none, popDue := x.pop } },
         { pc with off := x.target : PC })
      else ({ t with flow := { t.flow with transfer := some { x with left := x.left - 1 } } }, next)
  -- a LOOP's push
  let t := match f.push with
    | none => t
    | some x =>
      if x.left ≤ 1 then
        ({ t with flow := { t.flow with push := none, loops := x.entry :: t.flow.loops, iterStart := true } }).selectRow
      else { t with flow := { t.flow with push := some { x with left := x.left - 1 } } }
  let base := issue + 1 + gap
  let t := match f.haltLeft with
    | none => t
    | some n => if n ≤ 1 then { t with flow := { t.flow with haltLeft := none, haltBase := some base } }
                else { t with flow := { t.flow with haltLeft := some (n - 1) } }
  { t with flow := { t.flow with pc := next, due := base + t.escapedAt variant next } }

/-! ## Taking a trap (R117, R122, R124, R128) -/

/-- The wall time of a handler's part, within the bound of R408: a free number of cycles from 1 to the bound. -/
def State.handlerTime (s : State) (k : Kernel) (bound : Nat) : Nat := (Config.freeNat s.free % bound + 1) * k.period

/-- A trap takes part in the choice of the first fault (R327). -/
def Kernel.noteFault (k : Kernel) (f : FirstFault) : Kernel :=
  match k.first with
  | none => { k with first := some f }
  | some g =>
    if f.cycle < g.cycle ∨ (f.cycle = g.cycle ∧ f.pos < g.pos) then { k with first := some f } else k

/-- The kernel is ending faulted, with a status of R327 (R325). -/
def Kernel.endFaulted (k : Kernel) (status : Nat) : Kernel :=
  match k.ending with
  | none => { k with st := .faulted, ending := some status }
  | some _ => k

/-- The trap registers of a trap (R121). -/
def Sys.trapped (r : Sys) (f : Flow) (cause part info t next : Nat) (cyc : Bool) : Sys :=
  let delay := match f.transfer with
    | some x => x.left
    | none => 0
  let tgt := match f.transfer with
    | some x => x.target
    | none => 0
  { r with
    xcause := BitVec.ofNat 64 (cause + part * 256 + b2n (isDeviation cause) * 2048 + b2n cyc * 4096)
    xinfo := BitVec.ofNat 64 info
    xpc := BitVec.ofNat 64 (f.pc.off % 65536 + f.pc.seg % 65536 * 65536 + delay % 4 * 2 ^ 32)
    xtgt := BitVec.ofNat 64 (tgt % 65536 + f.pc.seg % 65536 * 65536)
    xnext := BitVec.ofNat 64 (next % 64)
    xcyc := BitVec.ofNat 64 t }

/-- A bundle has trapped at cycle t: if it is a replan bundle, its replan point is cancelled, for every tile (R60, R322). -/
def Kernel.noteStop (k : Kernel) (t : Nat) : Kernel :=
  { k with stops := t :: k.stops.filter fun c => decide (k.cycle ≤ c)
           replanAt := k.replanAt.filter fun r => r.2 != t }

/-- A counter's events of this cycle, kept until the cycle ends (R343). -/
def Tile.count (t : Tile) (ev n : Nat) : Tile :=
  if n = 0 then t else { t with perf := { t.perf with adds := mapSet 0 t.perf.adds ev (mapGet 0 t.perf.adds ev + n) } }

/-- A sequencer runs, or would but for a hold (R97). -/
def Tile.runs (t : Tile) : Bool := t.flow.st == .running || t.flow.st == .held

/-- One more of a numbered count that saturates at 64 bits (R341). -/
def bump (m : Map Nat) (k n : Nat) : Map Nat := mapSet 0 m k (min (mapGet 0 m k + n) (2 ^ 64 - 1))

/-- A trap of a tile at a stop cycle t (R122): tile is the tile as it stands with nothing of the trapping bundle done.
In handler mode, and on a tile without a handler, the sequencer is faulted (R128, R313). -/
def State.takeTrap (s : State) (id : TileId) (tile : Tile) (cause part info t next : Nat) (cyc : Bool) : State :=
  let kn := s.kernelOf id
  if tile.flow.handler then
    -- a trap in handler mode: the trap whose handler ran joins the first-fault choice
    let s := s.setTile id { tile with flow := { tile.flow with st := .faulted } }
    match kn with
    | none => s
    | some (n, k) =>
      let k := { k with handlers := k.handlers - 1 }
      let k := k.noteFault { cycle := tile.sys.xcyc.toNat, pos := posOfTile k.die0 k.shape id
                             cause := tile.sys.xcause.toNat % 256, pc := tile.sys.xpc.toNat % 2 ^ 32, info := tile.sys.xinfo.toNat % 2 ^ 32 }
      s.setKernel n (k.endFaulted 2)
  else
    let sys := tile.sys.trapped tile.flow cause part info t next cyc
    let noHandler := tile.imem.handlers.isEmpty
    let tile := { tile with
      sys := sys
      flow := { tile.flow with st := if noHandler then .faulted else .trapped, handler := !noHandler, hpc := 0, stopAt := t, stopWall := s.wall } }
    let s := s.setTile id (tile.count 6 1)
    let d := dieOf id
    let s := s.updDie d fun x => { x with tun := { x.tun with traps := bump x.tun.traps cause 1 } }
    match kn with
    | none => s
    | some (n, k) =>
      let k := if isCounted cause then { k with nflt := min (k.nflt + 1) (2 ^ 32 - 1) } else k
      let k := if isCounted cause || noHandler then
          k.noteFault { cycle := t, pos := posOfTile k.die0 k.shape id, cause := cause, pc := sys.xpc.toNat % 2 ^ 32, info := info % 2 ^ 32 }
        else k
      if noHandler then s.setKernel n (k.endFaulted 2)
      else
        let k := { k with horizon := some (k.horizon.getD (t + 40)), handlers := k.handlers + 1 }
        let k := if cyc then k else k.noteStop t
        (((s.setKernel n k).at (s.wall + s.handlerTime k 64) { i := .handlerBundleIssue, arg := { tile := id } }).at
          (s.wall + nsUnits 20000) { i := .selfRefreshEntry, arg := { tile := id + 1, x := n, y := s.wall } }).tickFree

/-! ## Returning from a trap (R126) -/

/-- The position that the trap registers name at ERET: xpc and xtgt as the handler left them. What else the position counts (a LOOP's push, a HALT's
delay bundles, a loop entry to be popped) stays, and counts on at the place that xpc names, even where the handler moved it (DESIGN CHOICE, log 72). -/
def Tile.resumePos (t : Tile) : Tile :=
  let xpc := t.sys.xpc.toNat
  let delay := field xpc 33 32
  let pop := match t.flow.transfer with
    | some x => x.pop
    | none => false
  let held := match t.flow.transfer with
    | some x => x.target
    | none => 0
  let tgt := field t.sys.xtgt.toNat 15 0
  let tr := if delay = 0 then none
    else some { target := if held % 65536 = tgt then held else tgt, left := delay, pop := pop : Transfer }
  { t with flow := { t.flow with
      st := .stopped, handler := false, resumed := true
      pc := { t.flow.pc with off := field xpc 15 0 }
      transfer := tr
      due := t.sys.xcyc.toNat + t.sys.xnext.toNat
      stepLeft := if t.sys.ss then some 1 else none } }

/-- ERET with skip (R126): the bundle at the resumption position is abandoned, as if it had issued with every slot a no-operation. -/
def Tile.abandon (t : Tile) (variant gap : Nat) (hand : Bool) : Tile :=
  let t := t.popped.advance variant t.flow.pc t.flow.due gap hand
  { t with
    flow := { t.flow with resumed := false, stepLeft := t.flow.stepLeft.map (· - 1) }
    sys := { t.sys with bpsk := false }
    fmts := { t.fmts with pend := t.fmts.pend.map fun w => { w with left := w.left - 1 } } }

/-- Pending format writes count one bundle (R95). -/
def Tile.countFmt (t : Tile) : Tile :=
  { t with fmts := { t.fmts with pend := t.fmts.pend.map fun w => { w with left := w.left - 1 } } }

/-- The rows of the format writes whose count is served (R93, R95). -/
def Tile.fmtRows (t : Tile) (id : TileId) : List Due :=
  (t.fmts.pend.filter fun w => w.left == 0).map fun w => { i := .formatWriteEffect, arg := { tile := id, x := w.seq } }

/-- The hand-over bundle of segment k has issued (R36): its half of the window is released, and the copy of segment k + 2 begins there. -/
def State.handOver (s : State) (id : TileId) (variant k : Nat) : State :=
  let t := s.tile id
  if k + 2 < t.imem.nseg.getD variant 0 then
    (s.setTile id { t with imem := { t.imem with win := mapPut t.imem.win (k % 2) (k + 2), copying := (k + 2) :: t.imem.copying } }).at
      s.wall { i := .segmentCopyComplete, arg := { tile := id, x := k + 2 } }
  else s.setTile id { t with imem := { t.imem with win := mapDel t.imem.win (k % 2) } }

/-! ## Running one slot (R16, R60, R116) -/

/-- The part of a trap that a slot raises is the part of its slot word (R118). -/
def Instr.part : Instr → Nat
  | .nop | .hint _ => 0
  | i => match encodeFrame i with
    | none => 0
    | some f =>
      if decodeC f f.k == some i then 1 else if decodeV f f.k == some i then 2 else if decodeM f f.k == some i then 3
      else if decodeD f f.k == some i then 4 else if decodeX f f.k == some i then 5 else 0

/-- The record loads, request applications and landings that a handler bundle's slot makes at once (R129). -/
def handlerRows (id : TileId) (before after : Tile) : List Due :=
  ((after.loads.filter fun l => before.flow.seq ≤ l.seq).map fun l =>
    { i := .recordLoadComplete, arg := { tile := id, x := l.seq, grant := .given } }) ++
  ((after.sync.reqs.filter fun q => before.flow.seq ≤ q.seq).map fun q =>
    { i := .cisternRequestApply, arg := { tile := id, x := q.die, y := q.seq } }) ++
  ((after.flight.filter fun r => before.flow.seq ≤ r.seq).map fun r =>
    { i := .resultLanding, arg := { tile := id, x := r.seq } })

/-- One cycle of an interlock wait of the bundle in hand (R116): it has no effect and is due again one cycle later; while drift tracing is
armed the wait and its length are reported to the die's tun (R341). Image cycles stop during it, but not during that of an ACCWAIT, reason 14: what it
waits for lands at its image cycle (DEDUCED, log 86). -/
def State.waitCycle (s : State) (reason : Nat) : State :=
  let p := s.cur.pre
  let id := s.cur.tile
  let t := { p with flow := { p.flow with due := s.cur.now + 1, waits := p.flow.waits + b2n (reason != 14), waiting := some reason } }.count 11 1
  let s := ({ s with todo := [] } : State).setTile id t
  if p.perf.armed then s.updDie (dieOf id) fun x => { x with tun := { x.tun with
      waits := bump x.tun.waits reason (b2n (p.flow.waiting != some reason)), waitCy := bump x.tun.waitCy reason 1 } }
  else s

/-- The meaning of a slot in the bundle in hand: its effect on its tile; or its trap, by which the bundle has no effect (R60);
or, in a portable image, a wait of one cycle, after which the bundle issues again (R116). part is its slot's number. -/
def runSlot (part : Nat) (s : State) (f : Ctx → Tile → SlotRes) : Host.Outcome State Fault Refusal :=
  let c := s.slotCtx
  let t := s.tile s.cur.tile
  match f c t with
  | .ok t' =>
    let s' := s.setTile c.id t'
    .next (if c.handler then s'.push (handlerRows c.id t t') else s')
  | .trap cause info =>
    .next (({ s with todo := [] } : State).takeTrap c.id s.cur.pre cause part info c.now 0 false)
  | .wait reason => .next (s.waitCycle reason)

end Sys2Proof.Machine
end

