-- ==== Sys2Proof/Machine/Scalar.lean ====
section
/-!
DEFINITION. Machine/Scalar.lean: the scalar arithmetic of R102 to R104.
-/

namespace Sys2Proof.Machine

/-- A scalar result that lands in d (R102): no flag, no trap. -/
def scalarOp (s : State) (cls : LatClass) (lat : Nat) (d : Reg) (f : Tile → Word) : Host.Outcome State Fault Refusal :=
  runSlot 1 s fun c t => .ok (c.land t cls (.sreg d.toNat) (f t).toNat lat)

/-- The conditions of R47 on values of any width. -/
def condHolds {n : Nat} (cc : Cond) (x y : BitVec n) : Bool :=
  match cc with
  | .eq => x == y
  | .ne => x != y
  | .lt => x.slt y
  | .ge => y.sle x
  | .ltu => x.ult y
  | .geu => y.ule x
  | .gt => y.slt x
  | .le => x.sle y
  | .gtu => y.ult x
  | .leu => x.ule y

/-- The number of leading zero bits (R102). -/
def clzOf (n x : Nat) : Nat := if x = 0 then n else n - 1 - Nat.log2 x

/-- The number of trailing zero bits (R102). -/
def ctzOf {n : Nat} (x : BitVec n) : Nat := ((List.range n).find? fun k => x.getLsbD k).getD n

/-- The number of one bits (R102). -/
def popcOf (n x : Nat) : Nat := (List.range n).foldl (fun a i => a + b2n (bitOf x i)) 0

/-- The shift amount B[5:0]. -/
def shiftAmt (b : Word) : Nat := b.toNat % 64

/-- DIV (R103): truncating, with -1 for a zero divisor. -/
def divS (a b : Word) : Word := if b = 0 then -1 else a.sdiv b
/-- DIVU (R103). -/
def divU (a b : Word) : Word := if b = 0 then -1 else a.udiv b
/-- REM (R103). -/
def remS (a b : Word) : Word := if b = 0 then a else a.srem b
/-- REMU (R103). -/
def remU (a b : Word) : Word := if b = 0 then a else a.umod b

/-- BFX (R104). -/
def bitField (a : Word) (pos len : Nat) (sx : Bool) : Word :=
  let f := field a.toNat (pos + len - 1) pos
  if sx then BitVec.ofInt 64 (signed f len) else BitVec.ofNat 64 f

/-- ADD (R102). -/
def execAdd (d a : Reg) (b : Src) (s : State) : Host.Outcome State Fault Refusal :=
  scalarOp s .scalar 1 d fun t => t.sreg a + t.bsrc b
/-- SUB (R102). -/
def execSub (d a : Reg) (b : Src) (s : State) : Host.Outcome State Fault Refusal :=
  scalarOp s .scalar 1 d fun t => t.sreg a - t.bsrc b
/-- MUL (R102). -/
def execMul (d a : Reg) (b : Src) (s : State) : Host.Outcome State Fault Refusal :=
  scalarOp s .mul 3 d fun t => t.sreg a * t.bsrc b
/-- MULH (R102). -/
def execMulh (d a : Reg) (b : Src) (s : State) : Host.Outcome State Fault Refusal :=
  scalarOp s .mul 3 d fun t => BitVec.ofInt 64 ((t.sreg a).toInt * (t.bsrc b).toInt / 2 ^ 64)
/-- MULHU (R102). -/
def execMulhu (d a : Reg) (b : Src) (s : State) : Host.Outcome State Fault Refusal :=
  scalarOp s .mul 3 d fun t => BitVec.ofNat 64 ((t.sreg a).toNat * (t.bsrc b).toNat / 2 ^ 64)
/-- DIV (R103). -/
def execDiv (d a : Reg) (b : Src) (s : State) : Host.Outcome State Fault Refusal :=
  scalarOp s .div 18 d fun t => divS (t.sreg a) (t.bsrc b)
/-- DIVU (R103). -/
def execDivu (d a : Reg) (b : Src) (s : State) : Host.Outcome State Fault Refusal :=
  scalarOp s .div 18 d fun t => divU (t.sreg a) (t.bsrc b)
/-- REM (R103). -/
def execRem (d a : Reg) (b : Src) (s : State) : Host.Outcome State Fault Refusal :=
  scalarOp s .div 18 d fun t => remS (t.sreg a) (t.bsrc b)
/-- REMU (R103). -/
def execRemu (d a : Reg) (b : Src) (s : State) : Host.Outcome State Fault Refusal :=
  scalarOp s .div 18 d fun t => remU (t.sreg a) (t.bsrc b)
/-- AND (R102). -/
def execAnd (d a : Reg) (b : Src) (s : State) : Host.Outcome State Fault Refusal :=
  scalarOp s .scalar 1 d fun t => t.sreg a &&& t.bsrc b
/-- OR (R102). -/
def execOr (d a : Reg) (b : Src) (s : State) : Host.Outcome State Fault Refusal :=
  scalarOp s .scalar 1 d fun t => t.sreg a ||| t.bsrc b
/-- XOR (R102). -/
def execXor (d a : Reg) (b : Src) (s : State) : Host.Outcome State Fault Refusal :=
  scalarOp s .scalar 1 d fun t => t.sreg a ^^^ t.bsrc b
/-- ANDN (R102). -/
def execAndn (d a : Reg) (b : Src) (s : State) : Host.Outcome State Fault Refusal :=
  scalarOp s .scalar 1 d fun t => t.sreg a &&& ~~~(t.bsrc b)
/-- SHL (R102). -/
def execShl (d a : Reg) (b : Src) (s : State) : Host.Outcome State Fault Refusal :=
  scalarOp s .scalar 1 d fun t => t.sreg a <<< shiftAmt (t.bsrc b)
/-- SHR (R102). -/
def execShr (d a : Reg) (b : Src) (s : State) : Host.Outcome State Fault Refusal :=
  scalarOp s .scalar 1 d fun t => t.sreg a >>> shiftAmt (t.bsrc b)
/-- SAR (R102). -/
def execSar (d a : Reg) (b : Src) (s : State) : Host.Outcome State Fault Refusal :=
  scalarOp s .scalar 1 d fun t => (t.sreg a).sshiftRight (shiftAmt (t.bsrc b))
/-- ROT (R102). -/
def execRot (d a : Reg) (b : Src) (s : State) : Host.Outcome State Fault Refusal :=
  scalarOp s .scalar 1 d fun t => (t.sreg a).rotateRight (shiftAmt (t.bsrc b))
/-- CLZ (R102). -/
def execClz (d a : Reg) (s : State) : Host.Outcome State Fault Refusal :=
  scalarOp s .scalar 1 d fun t => BitVec.ofNat 64 (clzOf 64 (t.sreg a).toNat)
/-- CTZ (R102). -/
def execCtz (d a : Reg) (s : State) : Host.Outcome State Fault Refusal :=
  scalarOp s .scalar 1 d fun t => BitVec.ofNat 64 (ctzOf (t.sreg a))
/-- POPC (R102). -/
def execPopc (d a : Reg) (s : State) : Host.Outcome State Fault Refusal :=
  scalarOp s .scalar 1 d fun t => BitVec.ofNat 64 (popcOf 64 (t.sreg a).toNat)
/-- MIN (R102). -/
def execMin (d a : Reg) (b : Src) (s : State) : Host.Outcome State Fault Refusal :=
  scalarOp s .scalar 1 d fun t => if (t.sreg a).sle (t.bsrc b) then t.sreg a else t.bsrc b
/-- MAX (R102). -/
def execMax (d a : Reg) (b : Src) (s : State) : Host.Outcome State Fault Refusal :=
  scalarOp s .scalar 1 d fun t => if (t.bsrc b).sle (t.sreg a) then t.sreg a else t.bsrc b
/-- MINU (R102). -/
def execMinu (d a : Reg) (b : Src) (s : State) : Host.Outcome State Fault Refusal :=
  scalarOp s .scalar 1 d fun t => if (t.sreg a).ule (t.bsrc b) then t.sreg a else t.bsrc b
/-- MAXU (R102). -/
def execMaxu (d a : Reg) (b : Src) (s : State) : Host.Outcome State Fault Refusal :=
  scalarOp s .scalar 1 d fun t => if (t.bsrc b).ule (t.sreg a) then t.sreg a else t.bsrc b
/-- SEL (R102). -/
def execSel (d a : Reg) (b : Src) (c : Reg) (s : State) : Host.Outcome State Fault Refusal :=
  scalarOp s .scalar 1 d fun t => if t.sreg c = 0 then t.bsrc b else t.sreg a
/-- CMP (R102). -/
def execCmp (cc : Cond) (d a : Reg) (b : Src) (s : State) : Host.Outcome State Fault Refusal :=
  scalarOp s .scalar 1 d fun t => if condHolds cc (t.sreg a) (t.bsrc b) then 1 else 0
/-- MOVI (R102). -/
def execMovi (d : Reg) (v : Imm) (s : State) : Host.Outcome State Fault Refusal :=
  scalarOp s .scalar 1 d fun _ => Imm.simm v
/-- SEXT (R104). -/
def execSext (d a : Reg) (n : BitVec 7) (s : State) : Host.Outcome State Fault Refusal :=
  scalarOp s .scalar 1 d fun t => BitVec.ofInt 64 (signed (t.sreg a).toNat n.toNat)
/-- ZEXT (R104). -/
def execZext (d a : Reg) (n : BitVec 7) (s : State) : Host.Outcome State Fault Refusal :=
  scalarOp s .scalar 1 d fun t => BitVec.ofNat 64 ((t.sreg a).toNat % 2 ^ n.toNat)
/-- BFX (R104). -/
def execBfx (d a : Reg) (pos : BitVec 6) (len : BitVec 7) (sx : Bool) (s : State) : Host.Outcome State Fault Refusal :=
  scalarOp s .scalar 1 d fun t => bitField (t.sreg a) pos.toNat len.toNat sx
/-- BFI (R104). -/
def execBfi (d a b : Reg) (pos : BitVec 6) (len : BitVec 7) (s : State) : Host.Outcome State Fault Refusal :=
  scalarOp s .scalar 1 d fun t => BitVec.ofNat 64 (setField (t.sreg a).toNat pos.toNat len.toNat (t.sreg b).toNat)
/-- IDX (R102). -/
def execIdx (d a b : Reg) (sh : BitVec 6) (s : State) : Host.Outcome State Fault Refusal :=
  scalarOp s .scalar 1 d fun t => t.sreg a + (t.sreg b <<< sh.toNat)
/-- MADD (R102). -/
def execMadd (d a : Reg) (b : Src) (c : Reg) (s : State) : Host.Outcome State Fault Refusal :=
  scalarOp s .mul 3 d fun t => t.sreg a * t.bsrc b + t.sreg c

end Sys2Proof.Machine
end

