-- ==== Sys2Proof/Machine/Control.lean ====
section
/-!
DEFINITION. Machine/Control.lean: control transfers and loops (R105, R106), loads and stores (R109), the drift log's entries (R340), and
the system instructions of R111, R113, R114 and R126.
A bundle is moved past after its slots, so a transfer, a push and a halt are left with three bundles to count: the bundle in hand and its
two delay bundles (R59).
-/

namespace Sys2Proof.Machine

/-! ## Transfers -/

/-- A target offset: those outside a 16-bit offset stand above every segment, so that their issue traps (R37, R105). -/
def targetOff (off : Nat) (d : Word) : Nat :=
  let x : Int := (off : Int) + d.toInt
  if 0 ≤ x ∧ x < 65536 then x.toNat else 65536 + wrap x 16

/-- A taken transfer: after two delay bundles, or at once in handler mode (R59, R129). -/
def Ctx.transfer (c : Ctx) (t : Tile) (target : Nat) (pop : Bool := false) : Tile :=
  if c.handler then { t with flow := { t.flow with hpc := target } }
  else { t with flow := { t.flow with transfer := some { target := target, left := 3, pop := pop } } }

/-- The offset of the third stream successor of the bundle in hand (R105, R106). -/
def Ctx.third (c : Ctx) (t : Tile) : PC :=
  t.successor c.variant (t.successor c.variant (t.successor c.variant c.pc))

/-- BR (R105). -/
def execBr (cc : Cond) (a b : Reg) (off : BitVec 20) (s : State) : Host.Outcome State Fault Refusal :=
  runSlot 1 s fun c t =>
    .ok (if condHolds cc (t.sreg a) (t.sreg b) then c.transfer t (targetOff c.pc.off (off.signExtend 64)) else t)

/-- J (R105). -/
def execJ (off : Imm) (s : State) : Host.Outcome State Fault Refusal :=
  runSlot 1 s fun c t => .ok (c.transfer t (targetOff c.pc.off (Imm.simm off)))

/-- The link value of a CALL (R105). -/
def Ctx.link (c : Ctx) (t : Tile) : Nat :=
  if c.handler then c.pc.off + 1 else (c.third t).off % 65536 + c.pc.seg % 65536 * 65536

/-- CALL (R105). -/
def execCall (d : Reg) (off : Imm) (s : State) : Host.Outcome State Fault Refusal :=
  runSlot 1 s fun c t =>
    .ok (c.land (c.transfer t (targetOff c.pc.off (Imm.simm off))) .scalar (.sreg d.toNat) (c.link t) 1)

/-- RET (R105). -/
def execRet (a : Reg) (s : State) : Host.Outcome State Fault Refusal :=
  runSlot 1 s fun c t =>
    let v := (t.sreg a).toNat
    if (if c.handler then v / 65536 ≠ 0 else field v 63 32 ≠ 0 ∨ field v 31 16 ≠ c.pc.seg) then .trap causeIndex (v % 65536)
    else .ok (c.transfer t (v % 65536))

/-- BRME (R105). -/
def execBrme (off : BitVec 20) (s : State) : Host.Outcome State Fault Refusal :=
  runSlot 1 s fun c t =>
    .ok (if t.topMask = 0 then c.transfer t (targetOff c.pc.off (off.signExtend 64)) else t)

/-- LOOP (R106). -/
def execLoop (a : Reg) (last : BitVec 16) (stages : BitVec 3) (s : State) : Host.Outcome State Fault Refusal :=
  runSlot 1 s fun c t =>
    let count := (t.sreg a).toNat
    let start := (c.third t).off
    let stop := c.pc.off + last.toNat
    if c.handler ∨ 6 ≤ t.flow.loops.length then .trap causeEncoding 1
    else if stop < start ∨ (t.segment c.variant c.pc.seg).length ≤ stop then .trap causeIndex (stop % 65536)
    else if count = 0 then .ok (c.transfer t (t.successor c.variant { c.pc with off := stop }).off)
    else
      let e : LoopEntry := { start := start, last := stop, n := count + stages.toNat, i := 0, s := stages.toNat + 1 }
      .ok { t with flow := { t.flow with push := some { entry := e, left := 3 } } }

/-- LBRK (R105). -/
def execLbrk (a : Reg) (always : Bool) (s : State) : Host.Outcome State Fault Refusal :=
  runSlot 1 s fun c t =>
    match t.flow.loops with
    | [] => .trap causeEncoding 1
    | e :: _ =>
      if c.handler then .trap causeEncoding 1
      else if always ∨ t.sreg a ≠ 0 then
        .ok (c.transfer t (t.successor c.variant { c.pc with off := e.last }).off true)
      else .ok t

/-! ## Loads and stores of staging (R109) -/

/-- LD (R109): staging as it stands at issue. -/
def execLd (d a : Reg) (w : Width) (sx : Bool) (off : BitVec 17) (s : State) : Host.Outcome State Fault Refusal :=
  runSlot 1 s fun c t =>
    let n := 2 ^ w.toNat
    let v := t.stgRd (t.sreg a + off.signExtend 64) n
    .ok (c.land t .ld (.sreg d.toNat) (if sx then wrap (signed v (8 * n)) 64 else v) 6)

/-- ST (R109). -/
def execSt (a b : Reg) (w : Width) (off : BitVec 17) (s : State) : Host.Outcome State Fault Refusal :=
  runSlot 1 s fun c t =>
    let n := 2 ^ w.toNat
    let addr := stgAddr (t.sreg a + off.signExtend 64) n
    .ok (c.landStaging t w.toNat true (wholeBytes addr (natBytes n (t.sreg b).toNat)) 1)

/-! ## The drift log (R340) -/

/-- A drift-log entry's words (R340): the loop, iteration and stage as the tile stands. -/
def Tile.driftWords (t : Tile) (kind : Nat) (pc : PC) (cyc val tagm : Nat) : List Word :=
  let top := t.flow.loops.headD { start := 0, last := 0, n := 0, i := 0, s := 0 }
  [BitVec.ofNat 64 (kind % 4 + pc.off % 65536 * 2 ^ 2 + pc.seg % 65536 * 2 ^ 18 + top.start % 65536 * 2 ^ 34)
  ,BitVec.ofNat 64 (cyc % 2 ^ 48)
  ,BitVec.ofNat 64 val
  ,BitVec.ofNat 64 (t.flow.loops.length % 8 + top.i % 2 ^ 32 * 2 ^ 3 + stagePreds t.flow.loops % 256 * 2 ^ 35 + tagm % 65536 * 2 ^ 43)]

/-- An entry appended to the drift log (R340). -/
def Tile.drift (t : Tile) (kind : Nat) (pc : PC) (cyc val tagm : Nat) : Tile :=
  { t with perf := { t.perf with
      dl := mapPut t.perf.dl (t.perf.dlcnt % 64) (t.driftWords kind pc cyc val tagm)
      dlcnt := min (t.perf.dlcnt + 1) (2 ^ 32 - 1) } }

/-! ## System instructions (R111, R113, R114, R126) -/

/-- NOP (R50): no effect. -/
def execNop (s : State) : Host.Outcome State Fault Refusal :=
  runSlot 0 s fun _ t => .ok t

/-- HINT (R50): a defined no-operation. -/
def execHint (_ : BitVec 4) (s : State) : Host.Outcome State Fault Refusal :=
  runSlot 0 s fun _ t => .ok t

/-- TRAP (R111). -/
def execTrap (code : BitVec 16) (s : State) : Host.Outcome State Fault Refusal :=
  runSlot 1 s fun _ _ => .trap causeTrap code.toNat

/-- MARK (R111): an entry of the drift log; ignored in handler mode. -/
def execMark (a : Reg) (tag : BitVec 16) (s : State) : Host.Outcome State Fault Refusal :=
  runSlot 1 s fun c t => .ok (if c.handler then t else t.drift 1 c.pc c.now (t.sreg a).toNat tag.toNat)

/-- YIELD (R113): the partition yields at this yield point; an illegal encoding in handler mode. -/
def execYield (s : State) : Host.Outcome State Fault Refusal :=
  runSlot 1 s fun c t => if c.handler then .trap causeEncoding 1 else .ok { t with flow := { t.flow with yieldReq := true } }

/-- HALT (R114): two delay bundles issue, then none; in handler mode the sequencer is faulted (R128). -/
def execHalt (s : State) : Host.Outcome State Fault Refusal :=
  if s.cur.handler then
    .next (({ s with todo := [] } : State).takeTrap s.cur.tile (s.tile s.cur.tile) 0 1 0 s.cur.now 0 false)
  else runSlot 1 s fun _ t => .ok { t with flow := { t.flow with haltLeft := some 3 } }

/-- The end of a handler (R126): the sequencer is stopped and waits for release. -/
def State.endHandler (s : State) (id : TileId) (t : Tile) : State :=
  let s := s.setTile id t
  match s.kernelOf id with
  | none => s
  | some (n, k) => s.setKernel n { k with handlers := k.handlers - 1 }

/-- ERET (R126); outside handler mode an illegal encoding (R115). -/
def execEret (s : State) : Host.Outcome State Fault Refusal :=
  if s.cur.handler then .next (s.endHandler s.cur.tile (s.tile s.cur.tile).resumePos)
  else runSlot 1 s fun _ _ => .trap causeEncoding 1

/-- The gap of the bundle at a tile's PC, and whether it hands over to a segment that there is: those of an abandoned bundle (R36, R126). -/
def Tile.abandoned (t : Tile) (variant : Nat) : Nat × Bool :=
  match t.fetch variant t.flow.pc with
  | .bundle b _ => ((b.extractLsb' 0 6).toNat, b.getLsbD 13 && decide (t.flow.pc.seg + 1 < t.imem.nseg.getD variant 0))
  | _ => (0, false)

/-- ERET with skip (R126): the abandoned bundle counts for pending format writes and hands its segment over. -/
def execEretSkip (s : State) : Host.Outcome State Fault Refusal :=
  if s.cur.handler then
    let c := s.slotCtx
    let t := (s.tile s.cur.tile).resumePos
    let (gap, hand) := t.abandoned c.variant
    let t' := t.abandon c.variant gap hand
    let s := (s.endHandler s.cur.tile t').push (t'.fmtRows s.cur.tile)
    .next (if hand then s.handOver s.cur.tile c.variant t.flow.pc.seg else s)
  else runSlot 1 s fun _ _ => .trap causeEncoding 1

end Sys2Proof.Machine
end

