-- ==== Sys2Proof/Machine/Holds.lean ====
section
/-!
DEFINITION. Machine/Holds.lean: holds of a partition (R7, R323, R324), self-refresh in them (R184), and the release of a hold.
-/

namespace Sys2Proof.Machine

/-- The tiles of a kernel's partition. -/
def Kernel.tiles (k : Kernel) : List TileId := partTiles k.die0 k.shape

/-- The tiles of a kernel's partition that the state lists, by logical index. -/
def State.tilesOf (s : State) (k : Kernel) : List (Nat × Tile) := s.tiles.filter fun t => inPartition k.die0 k.shape (dieOf t.1)

/-- Tiles changed, each by the same function. -/
def State.updTiles (s : State) (ts : List TileId) (f : Tile → Tile) : State := ts.foldl (fun s t => s.updTile t f) s

/-- The context of a kernel held, or running again (R331). -/
def State.ctxHeld (s : State) (c : Nat) (held : Bool) : State :=
  s.updCtx c fun x => if held then (if x.st = .running then { x with st := .held } else x)
    else (if x.st = .held then { x with st := .running } else x)

/-- The sequencers of a partition are held, or run again (R97, R98). -/
def State.holdTiles (s : State) (k : Kernel) (held : Bool) : State :=
  s.updTiles k.tiles fun t => { t with flow := { t.flow with st :=
    if held then (if t.flow.st = .running then .held else t.flow.st) else (if t.flow.st = .held then .running else t.flow.st) } }

/-- A hold cause arises in a kernel (R323): it joins the interval that runs, or the first one begins an interval, and with it the count of 20 µs to
self-refresh (R184, R324). -/
def State.openHold (s : State) (n cause : Nat) : State :=
  match s.kernel? n with
  | none => s
  | some k =>
    let k' := { k with holds := cause :: k.holds, holdMask := k.holdMask ||| 2 ^ cause }
    match k.holdFrom with
    | some _ => s.setKernel n k'
    | none =>
      let s := (s.setKernel n { k' with holdFrom := some s.wall, st := if k.st = .running then .held else k.st }).ctxHeld k.ctx true
      ((s.holdTiles k true).updTiles k.tiles fun t => t.count 7 1).at (s.wall + nsUnits 20000)
        { i := .selfRefreshEntry, arg := { x := n, y := s.wall } }

/-- A hold cause arises: link receive begins the count of 500 µs to the end of its slice (R361), host service the list of the requests that it
serves (R323). -/
def State.beginHold (s : State) (n cause : Nat) : State :=
  let u := s.openHold n cause
  if cause = 1 then
    (u.updKernel n fun k => { k with linkFrom := some (k.linkFrom.getD s.wall) }).at (s.wall + nsUnits 500000) { i := .linkReceiveTimeout, arg := { x := n, y := s.wall } }
  else if cause = 7 then u.updKernel n fun k => { k with hostFrom := some s.wall }
  else u

/-- A hold cause clears: when none stands the release follows. -/
def State.endHold (s : State) (n cause : Nat) : State :=
  match s.kernel? n with
  | none => s
  | some k =>
    let holds := k.holds.erase cause
    let k := { k with holds := holds, linkFrom := if holds.contains 1 then k.linkFrom else none, hostFrom := if holds.contains 7 then k.hostFrom else none }
    let s := s.setKernel n k
    if k.holds.isEmpty then s.push [{ i := .holdRelease, arg := { x := n } }] else s

/-- A hold interval that began at a wall time is recorded (R324, R340, R341): an entry of every tile's drift log, the sums of the completion
record, and, for the tiles whose tracing is armed, the report to their die's tun. A hold that stands once a stop has reached its horizon is recorded with
the horizon's cycle, at which the partition stands. -/
def State.recordHold (s : State) (n start mask : Nat) : State :=
  match s.kernel? n with
  | none => s
  | some k =>
    let ns := (s.wall - start) / 39
    let armed := k.tiles.filter fun t => (s.tile t).perf.armed
    let s := s.updTiles k.tiles fun t => t.drift 2 t.flow.pc (if k.reached.isSome then k.horizon.getD k.cycle else k.cycle) ns mask
    let causes := (List.range 10).filter (bitOf mask)
    let dies := ((List.range 8).filter fun d => armed.any fun t => dieOf t == d)
    let s := dies.foldl (fun s d => s.updDie d fun x => { x with tun := { x.tun with
        holds := causes.foldl (fun m c => bump m c 1) x.tun.holds
        holdNs := causes.foldl (fun m c => bump m c ns) x.tun.holdNs } }) s
    s.setKernel n { k with holdSum := min (k.holdSum + ns) (2 ^ 64 - 1), nhold := min (k.nhold + 1) (2 ^ 32 - 1) }

/-- The wall units of re-activating open pages after self-refresh (R184): tRCD of the running clock, where a vault is in self-refresh. -/
def State.reactivation (s : State) (k : Kernel) : Nat :=
  if k.tiles.any fun t => (s.tile t).vault.selfRef then (if k.slow then 14 else 18) * k.period else 0

/-- The vaults of a kernel leave self-refresh. -/
def State.leaveSelfRefresh (s : State) (k : Kernel) : State :=
  s.updTiles (k.tiles.filter fun t => (s.tile t).vault.selfRef) fun t => { t with vault := { t.vault with selfRef := false } }

/-- The interval that stands is over: it is recorded, and the partition goes on after a wait (R324). A wait at the stop horizon that lasts no time is
no hold (R127). -/
def State.closeHold (s : State) (n wait : Nat) : State :=
  match s.kernel? n with
  | none => s
  | some k =>
    let s := match k.holdFrom with
      | some start => s.recordHold n start k.holdMask
      | none => s
    (((s.leaveSelfRefresh k).holdTiles k false).ctxHeld k.ctx false).updKernel n fun k =>
      { k with holdFrom := none, holdMask := 0, linkFrom := none, hostFrom := none, nextWall := s.wall + wait, st := if k.st = .held then .running else k.st }

/-- HOLD_RELEASE (R324): with no cause left the interval is recorded, and the partition goes on at the cycle it held at. -/
def execHoldRelease (s : State) : Host.Outcome State Fault Refusal :=
  .next (
    match s.kernel? s.ev.x with
    | none => s
    | some k => if k.holds.isEmpty && k.holdFrom.isSome then s.closeHold s.ev.x (s.reactivation k) else s)

/-- SELF_REFRESH_ENTRY (R184): a hold of kernel x that began at wall time y, or the stop of a tile (its number + 1 stands in the event's tile field)
by a trap at that time, has lasted 20 µs: the vaults concerned commit their writes and refresh themselves. -/
def execSelfRefreshEntry (s : State) : Host.Outcome State Fault Refusal :=
  .next (
    let enter := fun (t : Tile) => { t with vault := { t.vault with selfRef := true } }
    match s.kernel? s.ev.x with
    | none => s
    | some k =>
      if s.ev.tile = 0 then (if k.holdFrom = some s.ev.y then s.updTiles k.tiles enter else s)
      else
        let id := s.ev.tile - 1
        let st := (s.tile id).flow.st
        if (st = .trapped ∨ st = .stopped) ∧ k.horizon.isSome ∧ (s.tile id).flow.stopWall = s.ev.y then s.updTile id enter else s)

end Sys2Proof.Machine
end

