-- ==== Sys2Proof/Machine/Operands.lean ====
section
/-!
DEFINITION. Machine/Operands.lean: the operand forms of the vector unit and of the staging moves (R132, R134, R136, R152) and the tile image
of an operand's elements.
-/

namespace Sys2Proof.Machine

/-! ## Lanes and elements (R131, R132) -/

/-- Lane k of a vector register. -/
def laneOf (v : VWord) (k : Nat) : Nat := v.toNat / 2 ^ (32 * k) % 2 ^ 32

/-- The lanes of a vector register. -/
def lanesOf (v : VWord) : List Nat := (List.range 64).map (laneOf v)

/-- A register of lanes, lane 0 first, each modulo 2^32. -/
def packLanes : List Nat → Nat
  | [] => 0
  | x :: r => x % 2 ^ 32 + 2 ^ 32 * packLanes r

/-- Pairs of neighbours joined, the first lower, each of w bits. -/
def joinPairs (w : Nat) : List Nat → List Nat
  | x :: y :: r => (x % 2 ^ w + 2 ^ w * (y % 2 ^ w)) :: joinPairs w r
  | [x] => [x]
  | [] => []

/-- Each value cut into a low and a high part of w bits. -/
def splitPairs (w : Nat) : List Nat → List Nat
  | x :: r => (x % 2 ^ w) :: (x / 2 ^ w % 2 ^ w) :: splitPairs w r
  | [] => []

/-- The elements of an operand that begins at a vector register (R132): 64, or 128 in the packed layout. -/
def Tile.elems (t : Tile) (f : Fmt) (r : Reg) : List Nat :=
  let v := lanesOf (t.vreg r)
  if f.isPair then List.zipWith (fun lo hi => lo + 2 ^ 32 * hi) v (lanesOf (t.vreg (r + 1)))
  else if f.isPacked then splitPairs 16 v
  else v

/-- The pattern of a floating immediate for one lane (R136). -/
def immPattern (f : Fmt) : Imm → Nat
  | .short v => if f.isPair then v.toNat * 2 ^ 44 else v.toNat * 2 ^ 12
  | .long v => if f.isPair then v.toNat * 2 ^ 12 else v.toNat % 2 ^ 32

/-- The second source of a floating instruction (R136). -/
def Tile.elemsB (t : Tile) (f : Fmt) : Src → List Nat
  | .reg r => t.elems f r
  | .imm v =>
    let p := List.replicate 64 (immPattern f v)
    if f.isPacked then splitPairs 16 p else p

/-- The second source of an integer instruction (R136). -/
def Tile.lanesB (t : Tile) : Src → List Nat
  | .reg r => lanesOf (t.vreg r)
  | .imm v => List.replicate 64 ((Imm.simm v).toNat % 2 ^ 32)

/-- The lanes that are active (R134): all, or those of the top mask. -/
def Tile.activeMask (t : Tile) (mt : Bool) : Mask := if mt then t.topMask else BitVec.allOnes 64

/-- A lane is active. -/
def laneOn (m : Mask) (k : Nat) : Bool := m.getLsbD k

/-- For each element of a layout, whether its lane is active (R134). -/
def activeElems (f : Fmt) (m : Mask) : List Bool :=
  if f.isPacked then (List.range 128).map fun e => laneOn m (e / 2) else (List.range 64).map (laneOn m)

/-- The flags of the active elements (R74, R134). -/
def activeFlags : List Bool → List FlagSet → FlagSet
  | b :: bs, f :: fs => (if b then f else 0) ||| activeFlags bs fs
  | _, _ => 0

/-- The lanes that hold elements of a format, as they are written (R132): the upper bits of a narrow lane hold the sign extension of i8 and of
a signed intn, and zeros otherwise. -/
def lanesFrom (f : Fmt) (i : IntSpec) (es : List Nat) : List Nat :=
  if f.isPacked then joinPairs 16 es
  else match f with
    | .f32 | .i32 => es
    | .i8 | .intn => es.map fun x => if i.sgn then wrap (signed x i.n) 32 else x % 2 ^ i.n
    | _ => es.map fun x => x % 2 ^ (layoutOf f).width

/-- The lanes of a vector result sent on their way (R56, R134); flags with them. -/
def Ctx.landLanes (c : Ctx) (t : Tile) (cls : LatClass) (d : Nat) (lanes : List Nat) (on : Mask) (lat : Nat) (flags : FlagSet := 0) : Tile :=
  t.launch { seq := 0, due := if c.handler then c.now else c.now + lat, img := if c.handler then 0 else c.imgDue t cls lat
             dst := .vreg d, val := packLanes lanes, flags := flags, keep := ~~~on, back := c.now + lat }

/-- The elements of a vector result sent on their way in the layout of a format (R132, R137). -/
def Ctx.landElems (c : Ctx) (t : Tile) (cls : LatClass) (f : Fmt) (i : IntSpec) (d : Reg) (es : List Nat) (on : Mask) (lat : Nat)
    (flags : FlagSet := 0) : Tile :=
  if f.isPair then
    let t := c.landLanes t cls d.toNat (es.map fun x => x % 2 ^ 32) on lat flags
    c.landLanes t cls (d.toNat + 1) (es.map fun x => x / 2 ^ 32) on lat
  else if f = .e8m0 then c.landLanes t cls d.toNat (es.map fun x => x % 256) on lat flags
  else c.landLanes t cls d.toNat (lanesFrom f i es) on lat flags

/-- efr.fsat (R83). -/
def Tile.fsat (t : Tile) : Bool := t.fmts.efr.getLsbD 7
/-- efr.isat (R83). -/
def Tile.isat (t : Tile) : Bool := t.fmts.efr.getLsbD 6
/-- fcsr.ftz (R74). -/
def Tile.ftz (t : Tile) : Bool := t.fmts.fcsr.getLsbD 3
/-- fcsr.daz (R74). -/
def Tile.daz (t : Tile) : Bool := t.fmts.fcsr.getLsbD 4
/-- The integer format of a code under the narrow-integer fields of efr (R71, R83). -/
def Tile.efrInt (t : Tile) (f : Fmt) : IntSpec :=
  let e := t.fmts.efr.toNat
  intSpec f (bitOf e 0) (field e 3 1) (field e 5 4)

/-! ## Staging moves (R152 to R154) -/

/-- The size of a staging-move element in half bytes: 1, 2, 4, 8, or 16 for a pair (R152). -/
def nibbles (w : Width) (pair : Bool) : Nat := if pair then 16 else 2 ^ w.toNat

/-- align of R61 for an element of so many half bytes, modulo 2^18. -/
def moveAlign (a : Nat) (nib : Nat) : Nat :=
  let s := max 1 (nib / 2)
  a % stagingSize / s * s

/-- The half-byte address of element e of consecutive elements from a base. -/
def moveNibble (base nib e : Nat) : Nat := (2 * base + e * nib) % (2 * stagingSize)

/-- extend of R61. -/
def moveExtend (nib : Nat) (sx : Bool) (x : Nat) : Nat :=
  if nib < 16 ∧ sx then wrap (signed x (4 * nib)) 32 else x

/-- The element of nib half bytes at a half-byte address of staging. -/
def Tile.moveRead (t : Tile) (at0 nib : Nat) : Nat :=
  if nib = 1 then
    let b := (memGet t.staging (at0 / 2)).toNat
    if at0 % 2 = 0 then b % 16 else b / 16
  else bytesNat (stagingBytes t.staging (at0 / 2) (nib / 2))

/-- The bytes that a store of an element writes. -/
def moveBytes (at0 nib x : Nat) : List SByte :=
  if nib = 1 then
    if at0 % 2 = 0 then [⟨at0 / 2, 0x0F, BitVec.ofNat 8 (x % 16)⟩] else [⟨at0 / 2, 0xF0, BitVec.ofNat 8 (x % 16 * 16)⟩]
  else wholeBytes (at0 / 2) (natBytes (nib / 2) x)

/-- Two half-written entries of one byte joined (R152). -/
def joinNibbles : List SByte → List SByte
  | a :: b :: r =>
    if a.addr = b.addr then ⟨a.addr, a.mask ||| b.mask, a.val ||| b.val⟩ :: joinNibbles r
    else a :: joinNibbles (b :: r)
  | l => l

/-- A vector register, or a pair, as the elements of a staging store. -/
def Tile.moveData (t : Tile) (r : Reg) (pair : Bool) : List Nat :=
  if pair then List.zipWith (fun lo hi => lo + 2 ^ 32 * hi) (lanesOf (t.vreg r)) (lanesOf (t.vreg (r + 1)))
  else lanesOf (t.vreg r)

/-- A byte put before those written after it, at its place by address: at a common address the later one stands. -/
def insertByte (b : SByte) : List SByte → List SByte
  | [] => [b]
  | x :: l => if b.addr < x.addr then b :: x :: l else if b.addr = x.addr then x :: l else x :: insertByte b l

/-- The bytes that a VST or VSCAT writes one after another, in order of address (R123, R155). -/
def inOrder (bs : List SByte) : List SByte := bs.foldr insertByte []

/-- The bytes that a store of elements writes, the active ones, ascending: at0 gives element e its half-byte address. -/
def storeBytes (on : Mask) (nib : Nat) (at0 : Nat → Nat) : Nat → List Nat → List SByte
  | _, [] => []
  | e, x :: r => (if laneOn on e then moveBytes (at0 e) nib x else []) ++ storeBytes on nib at0 (e + 1) r

end Sys2Proof.Machine
end

