-- ==== Sys2Proof/Machine/Objects.lean ====
section
/-!
DEFINITION. Machine/Objects.lean: object records, the record cache, translation and residency, and the object instructions (R196 to R221).
-/

namespace Sys2Proof.Machine

/-! ## Records (R196, R202, R204) -/

/-- Word w of a record. -/
def recWord (r : List Word) (w : Nat) : Nat := (r.getD w 0).toNat
/-- Bits of word w of a record. -/
def recBits (r : List Word) (w hi lo : Nat) : Nat := field (recWord r w) hi lo
/-- Entry i of six 32-bit values from word w on. -/
def recSix (r : List Word) (w i : Nat) : Nat := if i % 2 = 0 then recBits r (w + i / 2) 31 0 else recBits r (w + i / 2) 63 32
/-- state of a record. -/
def recState (r : List Word) : Nat := recBits r 0 34 32
/-- The extent of dimension i. -/
def recExtent (r : List Word) (i : Nat) : Nat := recSix r 1 i
/-- The stride of dimension i. -/
def recStride (r : List Word) (i : Nat) : Nat := recSix r 4 i
/-- The protection level of a record. -/
def recProt (r : List Word) : Nat := recBits r 0 53 52
/-- Block size β. -/
def recBeta (r : List Word) : Nat := recBits r 7 42 23 + 1
/-- Tile count T. -/
def recTiles (r : List Word) : Nat := recBits r 7 22 11
/-- The bound sync object, as die and byte address (R196). -/
def recSync (r : List Word) : Option (Nat × Nat) :=
  if bitOf (recWord r 10) 18 then some (recBits r 10 17 15, recBits r 10 14 0) else none

/-- Container bits of a format code (R68, R202); nib is the four-bit container of intn. -/
def containerBits (fmt : Nat) (nib : Bool) : Nat :=
  if fmt = 0 then 64 else if fmt = 1 ∨ fmt = 0xB then 32 else if fmt = 2 ∨ fmt = 3 then 16
  else if fmt = 8 then 4 else if fmt = 0xA then (if nib then 4 else 8) else 8

/-- Columns of a brick for a container (R202). -/
def brickCols (bits : Nat) : Nat := if bits = 4 then 64 else if bits = 8 ∨ bits = 16 then 32 else if bits = 32 then 16 else 8
/-- Data slots of a level (R159). -/
def levelSlots (lvl : Nat) : Nat := if lvl = 0 then 32 else if lvl = 1 then 34 else 36
/-- Rows of a brick (R202). -/
def brickRows (bits lvl : Nat) : Nat := levelSlots lvl * 512 / (brickCols bits * bits)

/-- ceil(a / b). -/
def ceilDiv (a b : Nat) : Nat := (a + b - 1) / b
/-- ceil(log2 n). -/
def ceilLog2 (n : Nat) : Nat := if n ≤ 1 then 0 else Nat.log2 (n - 1) + 1

/-- The brick extent of dimension i (R204). -/
def brickExtent (r : List Word) (nib : Bool) (i : Nat) : Nat :=
  let bits := containerBits (recBits r 0 43 40) nib
  if i = 0 then ceilDiv (recExtent r 0) (brickCols bits)
  else if i = 1 then ceilDiv (recExtent r 1) (brickRows bits (recProt r))
  else recExtent r i

/-- Gmax (R197). -/
def gMax (r : List Word) (nib : Bool) : Nat := ((List.range 6).map fun i => (brickExtent r nib i - 1) * recStride r i).sum

/-- The highest local brick index of any vault (R197). -/
def localMax (r : List Word) (nib : Bool) : Nat := (gMax r nib / (recBeta r * recTiles r) + 1) * recBeta r - 1

/-- nib from an efr (R199, R202): the INTn container is four bits. -/
def nibOf (efr : Word) : Bool := decide (min (field efr.toNat 3 1 + 2) 8 ≤ 4)

/-- R197 but for the companion: tiles is the number of tiles of the partition. -/
def recUsable (r : List Word) (nib : Bool) (tiles : Nat) : Bool :=
  let st := recState r
  let rank := recBits r 0 46 44
  let span := localMax r nib / 128
  let pb := recBits r 8 11 0
  let nb := recBits r 12 11 0
  (st == 1 || st == 2) && decide (1 ≤ rank) && decide (rank ≤ 6) && decide (recBits r 0 49 48 ≤ 1) && decide (recBits r 0 51 50 ≤ 2)
  && decide (recProt r ≤ 2) && decide (recBits r 0 43 40 ≤ 0xC)
  && (List.range 6).all (fun i => decide (1 ≤ recExtent r i) && (decide (i < rank) || recExtent r i == 1))
  && decide (1 ≤ recTiles r) && decide (recTiles r ≤ 2048) && decide (recBits r 7 10 0 + recTiles r ≤ tiles)
  && decide (pb + span ≤ 0xFFF)
  && (st != 2 || (decide (nb + span ≤ 0xFFF) && (decide (pb + span < nb) || decide (nb + span < pb))))
  && decide (((List.range 6).map fun i => ceilLog2 (brickExtent r nib i)).sum ≤ 64)

/-- The companion condition of R197, of a record and its companion k in a table of a length. -/
def companionOk (r k : List Word) (len : Nat) : Bool :=
  if bitOf (recWord r 11) 32 then
    decide (recBits r 11 15 0 < len) && (recState k == 1 || recState k == 2) && recBits k 0 31 16 == recBits r 11 31 16 && recProt k == 0
    && recBits k 0 37 37 == 1
  else true

/-- Word w of a context's descriptor (R330). -/
def Context.descWord (c : Context) (w : Nat) : Nat := (c.desc.getD w 0).toNat
/-- The members of a context's gang (R249, R330): one, itself, where it is in none. -/
def Context.gangSize (c : Context) : Nat := if bitOf (c.descWord 8) 43 then field (c.descWord 8) 42 29 else 1
/-- A context's rank in its gang. -/
def Context.gangRank (c : Context) : Nat := if bitOf (c.descWord 8) 43 then field (c.descWord 8) 28 16 else 0
/-- The object table length (R330). -/
def Context.objLen (c : Context) : Nat := field (c.descWord 2) 16 0

/-- Where a relocate job keeps its watermark for the vault at a partition position (R199, R212). -/
def wmKey (pos id : Nat) : Nat := pos * 65536 + id

/-- The outcome of the pin checks of R200 on a record and its companion, for the tile at a partition position: v names id and generation. -/
def pinOutcome (ctx : Context) (pos : Nat) (tiles v : Nat) (nib : Bool) (r companion : List Word) : OhEntry :=
  let id := v % 65536
  let gen := v / 65536 % 65536
  let fail (why : Nat) : OhEntry := { est := 2, why := why, id := id, gen := gen, nib := nib }
  if ctx.objLen ≤ id ∨ v / 2 ^ 32 ≠ 0 then fail 1
  else if recState r = 0 then fail 2
  else if recBits r 0 31 16 ≠ gen then fail 3
  else if recUsable r nib tiles && companionOk r companion ctx.objLen then
    { est := 1, id := id, gen := gen, nib := nib, words := r
      wm := if recState r = 2 then mapGet (recBits r 12 63 32) ctx.wmks (wmKey pos id) else 0 }
  else fail 4

/-- The status word of an entry (R199). -/
def OhEntry.status (e : OhEntry) : Nat := e.est + e.why * 4 + e.id * 64 + e.gen * 2 ^ 22 + b2n e.nib * 2 ^ 38

/-- A record-cache entry. -/
def Tile.ohe (t : Tile) (k : Nat) : OhEntry := mapGet {} t.oh k
/-- A record-cache entry written. -/
def Tile.setOhe (t : Tile) (k : Nat) (e : OhEntry) : Tile := { t with oh := mapSet {} t.oh k e }

/-! ## Coordinates and translation (R204 to R206) -/

/-- The packed fields of a brick coordinate (R204), and the excess above them. -/
def coordFields (widths : List Nat) (x : Nat) : List Nat × Nat :=
  match widths with
  | [] => ([], x)
  | w :: r => let (cs, e) := coordFields r (x / 2 ^ w); (x % 2 ^ w :: cs, e)

/-- What R205 makes of a coordinate. -/
inductive Coord where
  | shape (dim : Nat)
  | null
  | ok (cs : List Nat) (clamped : Bool)
deriving DecidableEq, Repr

/-- R205. -/
def checkCoord (r : List Word) (nib : Bool) (x : Nat) : Coord :=
  let bs := (List.range 6).map (brickExtent r nib)
  let (cs, excess) := coordFields (bs.map ceilLog2) x
  let bad := (List.range 6).filter fun i => bs.getD i 0 ≤ cs.getD i 0
  if excess ≠ 0 then .shape 6
  else match bad with
    | [] => .ok cs false
    | i :: _ =>
      match recBits r 0 51 50 with
      | 0 => .shape i
      | 1 => .null
      | _ => .ok (List.zipWith (fun c b => min c (b - 1)) cs bs) true

/-- Where a brick lies (R206). -/
structure Place where
  own  : Nat
  n    : Nat
  bank : Nat
  page : Nat
  nw   : Bool
  res  : Nat
  clp  : Bool
deriving DecidableEq, Repr

/-- The residency that a vault controller's store holds for a page (R209). -/
def Tile.residency (t : Tile) (bank page : Nat) : Nat := mapGet 0 t.vault.resid (bank * 4096 + page)

/-- The place of the brick at coordinates cs through an entry (R206). -/
def Ctx.placeOf (c : Ctx) (e : OhEntry) (cs : List Nat) (clp : Bool) : Place :=
  let r := e.words
  let g := ((List.range 6).map fun i => cs.getD i 0 * recStride r i).sum
  let bk := g / recBeta r
  let own := recBits r 7 10 0 + bk % recTiles r
  let n := bk / recTiles r * recBeta r + g % recBeta r
  let bank := (recBits r 8 18 12 + n) % 128
  let nw := decide (recState r = 2) && decide (n < e.wm)
  let page := (if nw then recBits r 12 11 0 else recBits r 8 11 0) + n / 128
  let owner := match c.kernel with
    | some (_, k) => tileOfPos k.die0 k.shape own
    | none => c.id
  { own := own, n := n, bank := bank, page := page, nw := nw, res := (c.s.tile owner).residency bank page, clp := clp }

/-- The outcomes of translation (R206, R220). -/
inductive Trans where
  | unpinned
  | shape (dim : Nat)
  | null
  | denied (clp : Bool)
  | notOwner (p : Place)
  | away (p : Place)
  | found (p : Place)
deriving DecidableEq, Repr

/-- translate of R206 through an entry: acc 0 read, 1 write, 2 scale. -/
def Ctx.translate (c : Ctx) (t : Tile) (h acc x : Nat) : Trans :=
  let e := t.ohe h
  if e.est ≠ 1 then .unpinned
  else match checkCoord e.words e.nib x with
    | .shape d => .shape d
    | .null => .null
    | .ok cs clp =>
      if !bitOf (recWord e.words 0) (35 + acc) then .denied clp
      else
        let p := c.placeOf e cs clp
        if p.own ≠ c.pos then .notOwner p
        else if p.res = 1 ∨ p.res = 2 then .away p
        else .found p

/-- The trap of a failed translation (R118, R206): its cause and xinfo. -/
def Trans.trap (h acc : Nat) : Trans → Option (Nat × Nat)
  | .unpinned => some (causePin, h)
  | .shape d => some (causeShape, h + d * 16)
  | .denied _ => some (causePermission, h + acc * 16)
  | .notOwner _ => some (causePermission, h + 3 * 16)
  | .away p => some (causeResidency, h + p.n * 2 ^ 32)
  | .null | .found _ => none

/-- The outcome word of OBJCHK (R220). -/
def Trans.word (t : Trans) : Nat :=
  let fill (out : Nat) (p : Place) (nw : Bool) : Nat :=
    out + b2n p.clp * 2 ^ 6 + b2n nw * 2 ^ 7 + p.res * 2 ^ 8 + p.bank * 2 ^ 10 + p.page % 4096 * 2 ^ 17 + p.own * 2 ^ 29
  match t with
  | .unpinned => 1
  | .shape d => 2 + d * 8
  | .denied clp => 3 + b2n clp * 2 ^ 6
  | .notOwner p => fill 4 p false
  | .away p => fill 5 p false
  | .null => 6
  | .found p => fill 0 p p.nw

/-! ## The object instructions (R216 to R220) -/

/-- OBJPIN (R217): the load is requested, and the entry lands 4,096 cycles later. -/
def execObjpin (d a : Reg) (s : State) : Host.Outcome State Fault Refusal :=
  runSlot 1 s fun c t =>
    let t := { t with loads := t.loads ++ [{ seq := t.flow.seq, oh := d.toNat, v := (t.sreg a).toNat, nib := nibOf t.fmts.efr, done := none }] }
    .ok (c.land t .other (.handle d.toNat) 0 4096)

/-- OBJUNP (R218). -/
def execObjunp (d : Reg) (s : State) : Host.Outcome State Fault Refusal :=
  runSlot 1 s fun c t => .ok (c.land t .other (.unpin d.toNat) 0 1)

/-- The number of g from 0 to Gmax whose owner is at a partition position (R219): whole blocks, the last one in part. -/
def localBricks (r : List Word) (nib : Bool) (pos : Nat) : Nat :=
  let first := recBits r 7 10 0
  let g := gMax r nib
  let last := g / recBeta r
  let k := pos - first
  if pos < first ∨ recTiles r ≤ k ∨ last < k then 0
  else
    let whole := ((last - k) / recTiles r + 1) * recBeta r
    if (last - k) % recTiles r = 0 then whole - (recBeta r - (g % recBeta r + 1)) else whole

/-- OBJQ (R219). A word of the cached record is shown as it stands in the record, its reserved bits too: whether they read zero in it (R14) the spec does
not say (DESIGN CHOICE, log 93). -/
def execObjq (d a : Reg) (sel : BitVec 5) (s : State) : Host.Outcome State Fault Refusal :=
  runSlot 1 s fun c t =>
    let e := t.ohe a.toNat
    let v :=
      if sel.toNat = 16 then e.status
      else if e.est ≠ 1 then 0
      else if sel.toNat < 16 then recWord e.words sel.toNat
      else if sel.toNat = 17 then localBricks e.words e.nib c.pos
      else if recState e.words = 2 then e.wm else 0
    .ok (c.land t .other (.sreg d.toNat) v 2)

/-- OBJCHK (R220). -/
def execObjchk (d a b : Reg) (acc : BitVec 2) (s : State) : Host.Outcome State Fault Refusal :=
  runSlot 1 s fun c t =>
    .ok (c.land t .other (.sreg d.toNat) (c.translate t a.toNat acc.toNat (t.sreg b).toNat).word 2)

end Sys2Proof.Machine
end

