-- ==== Sys2Proof/Machine/Protect.lean ====
section
/-!
DEFINITION. Machine/Protect.lean: the codes that protect vault slots (R159), the bytes of a vault page, and the two error logs (R190).
-/

namespace Sys2Proof.Machine

/-! ## Reed–Solomon over GF(2^16) (R159) -/

/-- Product in GF(2^16) with field polynomial x^16 + x^12 + x^3 + x + 1, by the bits of the second factor, n of them left. -/
def gfMul (a b : Nat) : Nat → Nat
  | 0 => 0
  | n + 1 =>
    let a2 := if 2 ^ 15 ≤ a then (2 * a) ^^^ 0x1100B else 2 * a
    (if b % 2 = 1 then a else 0) ^^^ gfMul a2 (b / 2) n

/-- Product of two symbols. -/
def gf (a b : Nat) : Nat := gfMul a b 16

/-- α^n, α = x. -/
def gfPow : Nat → Nat
  | 0 => 1
  | n + 1 => gf 2 (gfPow n)

/-- (x - 1)(x - α)(x - α²)(x - α³), the coefficient of x^0 first, that of x^4 left out. -/
def rsGenerator : List Nat :=
  let mulRoot (p : List Nat) (r : Nat) : List Nat := List.zipWith (· ^^^ ·) (p.map (gf r) ++ [0]) (0 :: p)
  (((List.range 4).map gfPow).foldl mulRoot [1]).take 4

/-- The little-endian 16-bit words of bytes. -/
def symbolsOf : List Byte → List Nat
  | a :: b :: r => (a.toNat + 256 * b.toNat) :: symbolsOf r
  | _ => []

/-- Symbols as bytes. -/
def symbolBytes (l : List Nat) : List Byte := l.flatMap (natBytes 2)

/-- The four check symbols of 32 data symbols (R159): the remainder of d(x) × x^4, the coefficient of x^0 first. -/
def rsCheck (d : List Nat) : List Nat :=
  d.reverse.foldl (fun r v =>
    let fb := v ^^^ r.getD 3 0
    List.zipWith (· ^^^ ·) (0 :: r.take 3) (rsGenerator.map (gf fb))) [0, 0, 0, 0]

/-- Syndrome i of a received word, the coefficient of x^0 first. -/
def syndrome (cw : List Nat) (i : Nat) : Nat := cw.reverse.foldl (fun a c => gf a (gfPow i) ^^^ c) 0

/-- What checking finds (R185). -/
inductive Finding where
  | clean (data : List Byte)
  | corrected (data : List Byte) (sym : Nat)
  | uncorrectable
  | detected
deriving DecidableEq, Repr

/-- Strong checking (R185): a single symbol in error is corrected. -/
def rsDecode (data check : List Byte) : Finding :=
  let cw := symbolsOf check ++ symbolsOf data
  let s0 := syndrome cw 0
  let s1 := syndrome cw 1
  let s2 := syndrome cw 2
  let s3 := syndrome cw 3
  if s0 = 0 ∧ s1 = 0 ∧ s2 = 0 ∧ s3 = 0 then .clean data
  else
    match (List.range 36).find? fun p => s0 != 0 && gf s0 (gfPow p) == s1 && gf s1 (gfPow p) == s2 && gf s2 (gfPow p) == s3 with
    | none => .uncorrectable
    | some p =>
      if p < 4 then .corrected data (32 + p)
      else .corrected (symbolBytes ((symbolsOf data).set (p - 4) ((symbolsOf data).getD (p - 4) 0 ^^^ s0))) (p - 4)

/-- One step of CRC-24 by a bit. -/
def crcBit (c : Nat) : Nat := if 2 ^ 23 ≤ c then ((2 * c) ^^^ 0x1864CFB) % 2 ^ 24 else 2 * c

/-- CRC-24 of bytes (R159): polynomial 0x864CFB, initial value 0xB704CE, no reflection, no final inversion. -/
def crc24 (bs : List Byte) : Nat :=
  bs.foldl (fun c b => (List.range 8).foldl (fun c _ => crcBit c) (c ^^^ (b.toNat * 2 ^ 16))) 0xB704CE

/-! ## Pages (R158, R159) -/

/-- The bytes of a page that stand from an offset on, n of them; one that nothing has written is a free value. -/
def pageBytes (id key use : Nat) (p : Mem) (lo n : Nat) : List Byte :=
  let w := p.filter fun c => lo ≤ c.1 && c.1 < lo + n
  (List.range n).map fun i => (mapFind w (lo + i)).getD (Config.vaultByte id key (lo + i) use)

/-- Bytes written into a page, zero bytes among them. -/
def pagePut (p : Mem) (lo : Nat) (bs : List Byte) : Mem :=
  (p.filter fun c => c.1 < lo) ++ (List.zipIdx bs).map (fun x => (lo + x.2, x.1)) ++ (p.filter fun c => lo + bs.length ≤ c.1)

/-- Where the check word of a data slot stands, and its bytes (R159). -/
def checkAt (lvl slot : Nat) : Nat := if lvl = 0 then 64 * (32 + slot / 8) + 8 * (slot % 8) else 64 * 34 + 3 * slot

/-- A slot written at a level, with its check word (R159, R170). -/
def pageWrite (p : Mem) (lvl slot : Nat) (bs : List Byte) : Mem :=
  let p := pagePut p (64 * slot) bs
  if lvl = 0 then pagePut p (checkAt 0 slot) (symbolBytes (rsCheck (symbolsOf bs)))
  else if lvl = 1 then
    pagePut (pagePut p (checkAt 1 slot) (natBytes 3 (crc24 bs))) (64 * 34 + 102) (List.replicate 26 0)
  else p

/-- A slot read and checked at a level (R185). -/
def pageRead (id key use : Nat) (p : Mem) (lvl slot : Nat) : Finding :=
  let d := pageBytes id key use p (64 * slot) 64
  if lvl = 0 then rsDecode d (pageBytes id key use p (checkAt 0 slot) 8)
  else if lvl = 1 then
    if crc24 d = bytesNat (pageBytes id key use p (checkAt 1 slot) 3) then .clean d else .detected
  else .clean d

/-- The number of a page in the vault's map. -/
def pageKey (bank page : Nat) : Nat := bank * 4096 + page
/-- A page of a vault. -/
def Vault.page (v : Vault) (key : Nat) : Mem := mapGet [] v.pages key
/-- A page of a vault written. -/
def Vault.setPage (v : Vault) (key : Nat) (p : Mem) : Vault := { v with pages := mapSet [] v.pages key p }

/-- A slot noted as written by the device since the last completion record (R367). -/
def Vault.touch (v : Vault) (key slot : Nat) : Vault := if v.touched.contains (key, slot) then v else { v with touched := (key, slot) :: v.touched }

/-! ## Error logs (R190) -/

/-- An entry taken into the management controller's copy of a log, which no launch and no write of vlcnt empties (R190, R320). Its form, that of the
log itself, is the model's (log 78). -/
def LogCopy.add (l : LogCopy) (word cycle : Nat) : LogCopy :=
  { entries := mapPut l.entries (l.count % 64) (word, cycle), count := min (l.count + 1) (2 ^ 32 - 1) }
/-- An entry appended to the array error log: its word 0 and its cycle. -/
def Vault.logArray (v : Vault) (word cycle : Nat) : Vault :=
  { v with alog := mapPut v.alog (v.acount % 64) (word, cycle), acount := min (v.acount + 1) (2 ^ 32 - 1), keptArray := v.keptArray.add word cycle }
/-- An entry appended to the bus error log. -/
def Vault.logBus (v : Vault) (word cycle : Nat) : Vault :=
  { v with blog := mapPut v.blog (v.bcount % 64) (word, cycle), bcount := min (v.bcount + 1) (2 ^ 32 - 1), keptBus := v.keptBus.add word cycle }
/-- Word 0 of an array-log entry. -/
def arrayWord (kind req lvl bank page slot sym : Nat) : Nat :=
  kind + req * 2 ^ 2 + lvl % 2 * 2 ^ 4 + bank * 2 ^ 5 + page * 2 ^ 12 + slot * 2 ^ 24 + sym * 2 ^ 30
/-- Word 0 of a bus-log entry. -/
def busWord (q grp : Nat) (read : Bool) (out tries lane req bank page slot : Nat) : Nat :=
  q + grp * 2 ^ 2 + b2n (!read) * 2 ^ 5 + out * 2 ^ 6 + tries * 2 ^ 8 + lane * 2 ^ 11 + req * 2 ^ 16 + bank * 2 ^ 18 + page * 2 ^ 25 + slot * 2 ^ 37

/-- A finding of a requester's read, logged (R185, R190). -/
def Vault.logFinding (v : Vault) (f : Finding) (req lvl bank page slot cycle : Nat) : Vault :=
  match f with
  | .clean _ => v
  | .corrected _ sym => v.logArray (arrayWord 0 req lvl bank page slot sym) cycle
  | .uncorrectable => v.logArray (arrayWord 1 req lvl bank page slot 63) cycle
  | .detected => v.logArray (arrayWord 2 req lvl bank page slot 63) cycle

/-- The data that a finding delivers (R185). -/
def Finding.data : Finding → Option (List Byte)
  | .clean d | .corrected d _ => some d
  | .uncorrectable | .detected => none

/-- A program's tile at fault ends its bank: the xinfo of a vault data error (R118). -/
def dataInfo (bank page slot : Nat) : Nat := bank + page * 2 ^ 8 + slot * 2 ^ 20

end Sys2Proof.Machine
end

