-- ==== Sys2Proof/Machine/Sysmem.lean ====
section
/-!
DEFINITION. Machine/Sysmem.lean: system addresses (R214, R215), the memory behind them as agents reach it (R186 to R190), and the dirty marks of
sluice jobs (R210, R212).
-/

namespace Sys2Proof.Machine

/-! ## Grains (R214, R215) -/

/-- A grain descriptor, decoded. -/
structure Grain where
  gva  : Nat
  size : Nat
  cnt  : Nat
  rd   : Bool
  wr   : Bool
  hv   : Bool
  kind : Nat
  tgt  : Nat
  sync : Option Nat
deriving DecidableEq, Repr

/-- Grain sizes (R214). -/
def grainSize (gsz : Nat) : Nat := if gsz = 0 then 2 ^ 12 else if gsz = 1 then 2 ^ 16 else if gsz = 2 then 2 ^ 21 else 2 ^ 30

/-- A descriptor's fields; none where it is not valid. -/
def grainOf (g : List Word) : Option Grain :=
  if bitOf (recWord g 0) 59 then
    some { gva := recBits g 0 56 0, size := grainSize (recBits g 0 58 57), cnt := recBits g 1 31 0, rd := bitOf (recWord g 1) 32
           wr := bitOf (recWord g 1) 33, hv := bitOf (recWord g 1) 34, kind := recBits g 1 43 40, tgt := recBits g 2 56 0
           sync := if bitOf (recWord g 3) 18 then some (recBits g 3 17 15 * 32768 + recBits g 3 14 0) else none }
  else none

/-- A valid descriptor meets the rules of R214. -/
def Grain.ok (g : Grain) : Bool :=
  decide (g.kind ≤ 5) && decide (1 ≤ g.cnt) && decide (g.gva % g.size = 0) && (decide (g.kind ≤ 1) || decide (field g.tgt 16 11 = 0))

/-- An address lies in a grain's range. -/
def Grain.holds (g : Grain) (a : Nat) : Bool := decide (g.gva ≤ a) && decide (a < g.gva + g.cnt * g.size)

/-- The grain of a context that holds an address (R215). -/
def Context.grain (c : Context) (a : Nat) : Option Grain := (c.grains.filterMap grainOf).find? fun g => g.holds a

/-- n bytes from an address lie in the grain of the address. -/
def Grain.covers (g : Grain) (a n : Nat) : Bool := g.holds a && decide (a + n ≤ g.gva + g.cnt * g.size)

/-- The offset of an address behind a grain: tgt + (a − gva) for host memory and apertures, the byte offset in the vault otherwise. -/
def Grain.offset (g : Grain) (a : Nat) : Nat := (if g.kind ≤ 1 then g.tgt else field g.tgt 40 11) + (a - g.gva)

/-- The partition of a context: the first die and the shape of its descriptor (R330). -/
def Context.die0 (c : Context) : Nat := field (c.descWord 0) 12 10
/-- Its shape code. -/
def Context.shape (c : Context) : Nat := field (c.descWord 0) 9 8
/-- The tile behind a grain of kind 2 to 5 (R214). -/
def Context.grainTile (c : Context) (g : Grain) : TileId := tileOfPos c.die0 c.shape (field g.tgt 10 0)

/-- The global brick index of the local brick n of the tile at a partition position (R206). -/
def globalBrick (r : List Word) (pos n : Nat) : Nat :=
  (n / recBeta r * recTiles r + (pos - recBits r 7 10 0)) * recBeta r + n % recBeta r

/-! ## Regions (R283, R288) -/

/-- A region as the memory that it takes: bytes of host memory, bytes of a vault by their offset in its strong data space, or bricks of an object by
global index, on a partition. -/
inductive MemSpan where
  | host (lo hi : Nat)
  | vault (t : TileId) (lo hi : Nat)
  | bricks (die0 shape : Nat) (r : List Word) (lo hi : Nat)
deriving DecidableEq, Repr

/-- The pages, by bank and page, that n bytes of a vault touch. -/
def pagesOf (lo hi : Nat) : List (Nat × Nat) :=
  if hi ≤ lo then [] else (List.range ((hi + 2047) / 2048 - lo / 2048)).map fun i => ((lo / 2048 + i) % 128, (lo / 2048 + i) / 128)

/-- A page of a tile's vault holds a brick of an object with index in a range, at its page base or, while it is relocated, at its new one (R206, R212). -/
def brickOnPage (die0 shape : Nat) (r : List Word) (lo hi : Nat) (t : TileId) (bank page : Nat) : Bool :=
  let pos := posOfTile die0 shape t
  let first := recBits r 7 10 0
  let here := fun (base : Nat) => decide (base ≤ page) && (
    let g := globalBrick r pos ((page - base) * 128 + (bank + 128 - recBits r 8 18 12) % 128)
    decide (lo ≤ g) && decide (g < hi))
  inPartition die0 shape (dieOf t) && decide (first ≤ pos) && decide (pos < first + recTiles r) &&
    (here (recBits r 8 11 0) || (recState r == 2 && here (recBits r 12 11 0)))

/-- The pages of a brick of an object: its tile, bank and page, at either base (R206). -/
def brickPages (die0 shape : Nat) (r : List Word) (g : Nat) : List (TileId × Nat × Nat) :=
  let bk := g / recBeta r
  let t := tileOfPos die0 shape (recBits r 7 10 0 + bk % recTiles r)
  let n := bk / recTiles r * recBeta r + g % recBeta r
  let bank := (recBits r 8 18 12 + n) % 128
  (t, bank, recBits r 8 11 0 + n / 128) :: (if recState r = 2 then [(t, bank, recBits r 12 11 0 + n / 128)] else [])

/-- Two spans overlap on a byte. -/
def MemSpan.overlaps : MemSpan → MemSpan → Bool
  | .host a b, .host c d => decide (a < d) && decide (c < b) && decide (a < b) && decide (c < d)
  | .vault t a b, .vault u c d => t == u && decide (a < d) && decide (c < b) && decide (a < b) && decide (c < d)
  | .vault t a b, .bricks d0 sh r lo hi => (pagesOf a b).any fun p => brickOnPage d0 sh r lo hi t p.1 p.2
  | .bricks d0 sh r lo hi, .vault t a b => (pagesOf a b).any fun p => brickOnPage d0 sh r lo hi t p.1 p.2
  | .bricks d0 sh r lo hi, .bricks d1 sh1 r' lo' hi' =>
    if d0 = d1 ∧ sh = sh1 ∧ r = r' then decide (lo < hi') && decide (lo' < hi) && decide (lo < hi) && decide (lo' < hi')
    else if hi - lo ≤ hi' - lo' then
      (List.range (hi - lo)).any fun i => (brickPages d0 sh r (lo + i)).any fun p => brickOnPage d1 sh1 r' lo' hi' p.1 p.2.1 p.2.2
    else (List.range (hi' - lo')).any fun i => (brickPages d1 sh1 r' (lo' + i)).any fun p => brickOnPage d0 sh r lo hi p.1 p.2.1 p.2.2
  | _, _ => false

/-- The span of a page of a vault. -/
def pageSpan (t : TileId) (bank page : Nat) : MemSpan := .vault t (page * 262144 + bank * 2048) (page * 262144 + bank * 2048 + 2048)

/-- The span of n bytes of a system address of a context; none where no grain holds it. -/
def Context.span (c : Context) (a n : Nat) : Option MemSpan := (c.grain a).map fun g =>
  if g.kind = 0 then .host (g.offset a) (g.offset a + n) else .vault (c.grainTile g) (g.offset a) (g.offset a + n)

/-- A page of a tile's vault lies in a grain whose gsync names a sync object (R283). -/
def Context.pageBound (c : Context) (t : TileId) (bank page x : Nat) : Bool :=
  (c.grains.filterMap grainOf).any fun g => g.sync == some x && decide (2 ≤ g.kind) && c.grainTile g == t &&
    (pageSpan t bank page).overlaps (.vault t (g.offset g.gva) (g.offset g.gva + g.cnt * g.size))

/-- The aperture offset and the sync object of an 8-byte store by a sequencer (R110, R215, R303); none where it traps. -/
def Ctx.aperture (c : Ctx) (a : Nat) : Option (Nat × Option Nat) :=
  match (c.s.ctx c.ctxNo).grain a with
  | none => none
  | some g =>
    let o := g.offset a
    if g.kind = 1 ∧ g.wr ∧ g.covers a 8 ∧ o % 8 = 0 ∧ o / 4096 = 0 ∧ c.inPart (field o 11 9) then some (o, g.sync) else none

/-! ## Mesh collisions (R255) -/

/-- A block of a tile's staging was struck by a mesh collision at cycle c: the tile's own writes to it in that cycle change no byte (R255). -/
def State.struck (s : State) (id : TileId) (c : Nat) (a : Nat) : Bool :=
  match s.kernelOf id with
  | some (_, k) => k.mesh.any fun g => g.void && g.dst == id && g.arr == c && decide (g.addr ≤ a) && decide (a < g.addr + 64)
  | none => false

/-! ## Service agents at a vault (R182, R186 to R190) -/

/-- The cycle that an agent's access is logged with (R190): that of the partition's kernel, or 0. -/
def State.agentCycle (s : State) (t : TileId) : Nat := match s.kernelOf t with
  | some (_, k) => k.cycle
  | none => 0

/-- What a transfer meets on the bus (R187, R188, R192). -/
inductive Meets where
  | nothing
  | failed (grp : Nat)
  | parity
  | stuck
  | fault (f : BusFault)
deriving DecidableEq, Repr

/-- The fault that a transfer of a pseudo-channel meets. -/
def Vault.meets (v : Vault) (q : Nat) (read : Bool) : Meets :=
  match mapFind v.failed q with
  | some g => .failed g
  | none =>
    let x := v.vinj.toNat
    if bitOf x 0 && field x 3 2 == q && !bitOf x 1 && (bitOf x 12 != read) then .parity
    else if bitOf x 0 && field x 3 2 == q && bitOf x 1 && mapFind v.spare (8 * q + field x 6 4) != some (field x 11 7) then .stuck
    else match v.nature.find? fun f => f.q == q && f.read == read with
      | some f => .fault f
      | none => .nothing

/-- The retries of an agent's transfer that fails so many of them on a lane of a group (R187, R188): its log entry, a lane swap, the mark of a failed
pseudo-channel; whether it succeeds in the end, and the wall ns that it holds the partition. -/
def Vault.agentRetry (v : Vault) (q grp fails lane : Nat) (entry : Nat → Nat → Nat → Nat) (cycle : Nat) : Vault × Bool × Nat :=
  if fails < 3 then (v.logBus (entry 0 (fails + 1) 0) cycle, true, 40 * (fails + 1))
  else if (mapFind v.spare (8 * q + grp)).isSome then ({ v with failed := mapPut v.failed q grp }.logBus (entry 2 3 0) cycle, false, 120)
  else
    let v : Vault := { v with spare := mapPut v.spare (8 * q + grp) lane }
    if fails < 6 then (v.logBus (entry 1 (fails + 1) lane) cycle, true, 40 * (fails + 1) + 2000)
    else ({ v with failed := mapPut v.failed q grp }.logBus (entry 2 6 0) cycle, false, 2240)

/-- An agent's transfer over the bus (R187, R188): it meets what a program's would, and is retried in the same way. -/
def Vault.agentCross (v : Vault) (req bank page slot cycle : Nat) (read : Bool) : Vault × Bool × Nat :=
  let q := bank % 4
  let x := v.vinj.toNat
  let off := BitVec.ofNat 64 (x - 1)
  let entry := fun (grp out tries lane : Nat) => busWord q grp read out tries lane req bank page slot
  match v.meets q read with
  | .nothing => (v, true, 0)
  | .failed g => (v.logBus (entry g 2 0 0) cycle, false, 0)
  | .parity => { v with vinj := off }.agentRetry q (field x 6 4) 0 0 (entry (field x 6 4)) cycle
  | .stuck =>
    let g := field x 6 4
    (if (mapFind v.spare (8 * q + g)).isSome then v else { v with vinj := off }).agentRetry q g 3 (field x 11 7) (entry g) cycle
  | .fault f => { v with nature := v.nature.erase f }.agentRetry q f.grp f.tries f.lane (entry f.grp) cycle

/-- The hold that an agent's retries on a pseudo-channel cause: they come one after another (R187). -/
def State.agentHold (s : State) (t : TileId) (q ns : Nat) : State :=
  if ns = 0 then s
  else match s.kernelOf t with
    | some (n, _) =>
      let stop := max s.wall (mapGet 0 (s.tile t).vault.agentBusy q) + nsUnits ns
      ((s.updTile t fun x => { x with vault := { x.vault with agentBusy := mapPut x.vault.agentBusy q stop } }).beginHold n 2).at stop
        { i := .busRetry, arg := { tile := t, x := 4, y := n } }
    | none => s

/-- An agent reads a slot at a level: the state after it, and the bytes or the fault of R308 (1 array error, 2 bus transfer failed). -/
def State.agentRead (s : State) (t : TileId) (req bank page lvl slot : Nat) : State × Except Nat (List Byte) :=
  let x := s.tile t
  let cyc := s.agentCycle t
  let f := pageRead t (pageKey bank page) s.free (x.vault.page (pageKey bank page)) lvl slot
  let v := x.vault.logFinding f req lvl bank page slot cyc
  let s := s.tickFree
  match f.data with
  | none => (s.setTile t { x with vault := v }, .error 1)
  | some d =>
    let (v, ok, ns) := v.agentCross req bank page slot cyc true
    ((s.setTile t { x with vault := v }).agentHold t (bank % 4) ns, if ok then .ok d else .error 2)

/-- An agent writes a slot at a level. -/
def State.agentWrite (s : State) (t : TileId) (req bank page lvl slot : Nat) (bs : List Byte) : State × Except Nat Unit :=
  let x := s.tile t
  let (v, ok, ns) := x.vault.agentCross req bank page slot (s.agentCycle t) false
  let key := pageKey bank page
  let v := if ok then v.setPage key (pageWrite (v.page key) lvl slot bs) else v
  let v := if ok && req != 3 then v.touch key slot else v
  ((s.setTile t { x with vault := v }).agentHold t (bank % 4) ns, if ok then .ok () else .error 2)

/-! ## The strong data space of a vault, by byte offset (R214) -/

/-- Bank, page and data slot of a byte offset. -/
def strongBank (o : Nat) : Nat := o / 2048 % 128
/-- The page of a byte offset. -/
def strongPage (o : Nat) : Nat := o / 262144 % 4096
/-- The data slot of a byte offset. -/
def strongSlot (o : Nat) : Nat := o / 64 % 32

/-- n slots read from a byte offset on, a multiple of 64. -/
def State.slotsRead (s : State) (t : TileId) (req o : Nat) : Nat → State × Except Nat (List Byte)
  | 0 => (s, .ok [])
  | n + 1 =>
    match s.agentRead t req (strongBank o) (strongPage o) 0 (strongSlot o) with
    | (s, .error e) => (s, .error e)
    | (s, .ok d) => match s.slotsRead t req (o + 64) n with
      | (s, .error e) => (s, .error e)
      | (s, .ok r) => (s, .ok (d ++ r))

/-- n bytes of a vault read from a byte offset on. -/
def State.vaultRead (s : State) (t : TileId) (req o n : Nat) : State × Except Nat (List Byte) :=
  match s.slotsRead t req (o / 64 * 64) ((o % 64 + n + 63) / 64) with
  | (s, .error e) => (s, .error e)
  | (s, .ok l) => (s, .ok ((l.drop (o % 64)).take n))

/-- Slots written from a byte offset on, a multiple of 64, 64 bytes each. -/
def State.slotsWrite (s : State) (t : TileId) (req o : Nat) (bs : List Byte) : Nat → State × Except Nat Unit
  | 0 => (s, .ok ())
  | n + 1 =>
    match s.agentWrite t req (strongBank o) (strongPage o) 0 (strongSlot o) (bs.take 64) with
    | (s, .error e) => (s, .error e)
    | (s, .ok ()) => s.slotsWrite t req (o + 64) (bs.drop 64) n

/-- Bytes of a vault written from a byte offset on: the slots that they lie in are read first where they are written in part. -/
def State.vaultWrite (s : State) (t : TileId) (req o : Nat) (bs : List Byte) : State × Except Nat Unit :=
  let lo := o / 64 * 64
  let n := (o % 64 + bs.length + 63) / 64
  if o % 64 = 0 ∧ bs.length % 64 = 0 then s.slotsWrite t req lo bs n
  else match s.slotsRead t req lo n with
    | (s, .error e) => (s, .error e)
    | (s, .ok l) => s.slotsWrite t req lo (l.take (o % 64) ++ bs ++ l.drop (o % 64 + bs.length)) n

/-! ## System addresses -/

/-- n bytes read at a system address of a context by an agent (R215): faults 4 permission, 5 range, 7 host error, and those of agentRead. -/
def State.sysRead (s : State) (ctx req a n : Nat) : State × Except Nat (List Byte) :=
  match (s.ctx ctx).grain a with
  | none => (s, .error 4)
  | some g =>
    if !g.rd || g.kind == 1 then (s, .error 4)
    else if !g.covers a n then (s, .error 5)
    else if g.kind = 0 then (s, .ok (memRange s.host.mem (g.offset a) n))
    else s.vaultRead ((s.ctx ctx).grainTile g) req (g.offset a) n

/-- Bytes written at a system address of a context by an agent. -/
def State.sysWrite (s : State) (ctx req a : Nat) (bs : List Byte) : State × Except Nat Unit :=
  match (s.ctx ctx).grain a with
  | none => (s, .error 4)
  | some g =>
    if !g.wr || g.kind == 1 then (s, .error 4)
    else if !g.covers a bs.length then (s, .error 5)
    else if g.kind = 0 then ({ s with host := { s.host with mem := memPutRange s.host.mem (g.offset a) bs } }, .ok ())
    else s.vaultWrite ((s.ctx ctx).grainTile g) req (g.offset a) bs

/-! ## Record loads (R186, R200) -/

/-- The tile of another die that stands where a tile stands in its own: the vault that holds that die's copy of an object table (R198, log 79). -/
def sameSpot (t : TileId) (die : Nat) : TileId := tileAt (16 * (die % 4) + tileX t % 16) (16 * (die / 4) + tileY t % 16)

/-- The address of a record in the table that the context's descriptor names (R198). -/
def Context.recAddr (c : Context) (id : Nat) : Nat := field (c.descWord 1) 56 0 + 128 * id

/-- The words of bytes, little-endian (R12). -/
def wordsOf (bs : List Byte) : List Word :=
  (List.range (bs.length / 8)).map fun i => BitVec.ofNat 64 (bytesNat ((bs.drop (8 * i)).take 8))

/-- The bytes of words. -/
def wordBytes (ws : List Word) : List Byte := ws.flatMap fun w => natBytes 8 w.toNat

/-- The object table of a context in its vaults (R198): its tile and its byte offset there. -/
def Context.tablePlace (c : Context) : Option (TileId × Nat) := (c.grain (c.recAddr 0)).bind fun g =>
  if g.kind ≤ 1 then none else some (c.grainTile g, g.offset (c.recAddr 0))

/-- The tiles whose vaults hold the copies of a context's table, one for each die of its partition (R198). -/
def Context.tableTiles (c : Context) (t : TileId) : List TileId := (List.range (shapeDies c.shape)).map fun d => sameSpot t (c.die0 + d)

/-- A record of a die's copy of a context's table read by the record-load agent (R182, R198, R200); none where a vault data error lost it. -/
def State.recordRead (s : State) (n die id : Nat) : State × Option (List Word) :=
  match (s.ctx n).tablePlace with
  | none => (s, some (mapGet [] (s.ctx n).objs id))
  | some (t, o) => match s.vaultRead (sameSpot t die) 1 (o + 128 * id) 128 with
    | (s, .error _) => (s, none)
    | (s, .ok bs) => (s, some (wordsOf bs))

/-- Bytes of a context's object table, at an offset of it, written into copies of it. -/
def State.writeCopies (s : State) (o : Nat) (bs : List Byte) (ts : List TileId) : State := ts.foldl (fun s t => (s.vaultWrite t 2 o bs).1) s

/-- Bytes of a context's object table, at an offset of it, written into the copy of each die of the partition (R198). -/
def State.writeTable (s : State) (n o : Nat) (bs : List Byte) : State :=
  match (s.ctx n).tablePlace with
  | none => s
  | some (t, base) => s.writeCopies (base + o) bs ((s.ctx n).tableTiles t)

/-- A record pinned for a tile of a partition (R200): the pin checks on the record read from the copy of the tile's die, and on its companion where the
record passes them, and why 5 where a vault data error lost either (R197). v names id and generation. -/
def State.pin (s : State) (n : Nat) (t : TileId) (tiles v : Nat) (nib : Bool) : State × OhEntry :=
  let c := s.ctx n
  let out := pinOutcome c (posOfTile c.die0 c.shape t) tiles v nib
  let lost : OhEntry := { est := 2, why := 5, id := v % 65536, gen := v / 65536 % 65536, nib := nib }
  if (out [] []).why = 1 then (s, out [] [])
  else match s.recordRead n (dieOf t) (v % 65536) with
    | (s, none) => (s, lost)
    | (s, some r) =>
      let k := recBits r 11 15 0
      if !bitOf (recWord r 11) 32 || decide (c.objLen ≤ k) || (out (r.set 11 0) []).est != 1 then (s, out r [])
      else match s.recordRead n (dieOf t) k with
        | (s, none) => (s, lost)
        | (s, some x) => (s, out r x)

/-- RECORD_LOAD_COMPLETE (R200): the load that the event in hand names has its outcome. -/
def recordLoaded (s : State) : State :=
  let id := s.ev.tile
  match (s.tile id).loads.find? fun l => l.seq == s.ev.x, s.kernelOf id with
  | some l, some (_, k) =>
    let p := s.pin k.ctx id (256 * shapeDies k.shape) l.v l.nib
    p.1.updTile id fun t => { t with loads := t.loads.map fun x => if x.seq = l.seq then { x with done := some p.2 } else x }
  | _, _ => s

/-! ## Sluice templates and dirty marks (R210, R212, R306) -/

/-- The template of a job (R306). -/
def State.template (s : State) (x : Start) : List Word := mapGet [] (s.ctx x.ctx).temps (field x.data.toNat 7 0)
/-- The first unit of a job (R306): m × step. -/
def jobFirst (tm : List Word) (x : Start) : Nat := field x.data.toNat 63 32 * recBits tm 3 31 0

/-- The unit that a program's write dirties in a running job, if it does (R210, R212): a moving brick of a page-out; brick wm of a relocate, while the
entry that translated the write is relocating. For a relocate the unit is the partition position × 2^32 + the local brick. -/
def dirtyUnit (tm : List Word) (x : Start) (r : List Word) (pos n obj wm res : Nat) : Option Nat :=
  let kind := recBits tm 0 2 0
  if recBits tm 1 15 0 ≠ obj then none
  else if kind = 2 ∧ res = 3 then
    let g := globalBrick r pos n
    let lo := recBits tm 1 63 32 + jobFirst tm x
    if lo ≤ g ∧ g < lo + recBits tm 0 63 32 then some (g - recBits tm 1 63 32) else none
  else if kind = 3 ∧ recState r = 2 ∧ n = wm then some (pos * 2 ^ 32 + n)
  else none

/-- The address of a unit's bit in a job's dirty map, by byte and bit: the unit's place in the job, or a relocate's local brick (R212, R306). The local
bricks n of several vaults share bit n, which R212 names by the brick alone: set while any of them is to be copied again (DESIGN CHOICE, log 99). -/
def dirtyBit (tm : List Word) (x : Start) (u : Nat) : Nat × Nat :=
  let n := if recBits tm 0 2 0 = 3 then u % 2 ^ 32 else u - jobFirst tm x
  (recBits tm 5 56 0 + n / 8, n % 8)

/-- A unit is to be copied again by a job, or another one with the same bit in its dirty map. -/
def Job.bitSet (j : Job) (tm : List Word) (u : Nat) : Bool := j.redo.any fun v => dirtyBit tm j.start v == dirtyBit tm j.start u

/-- A unit's bit in a job's dirty map set or cleared. -/
def State.markDmap (s : State) (tm : List Word) (x : Start) (u : Nat) (on : Bool) : State :=
  let (a, n) := dirtyBit tm x u
  match s.sysRead x.ctx 2 a 1 with
  | (s, .ok [b]) => (s.sysWrite x.ctx 2 a [BitVec.ofNat 8 (setField b.toNat n 1 (b2n on))]).1
  | (s, _) => s

/-- A job must copy a unit again, and writes the unit's bit. -/
def Job.dirtied (j : Job) (u : Nat) : Job :=
  if j.redo.contains u then j else { j with redo := j.redo ++ [u], writes := if j.writes.contains u then j.writes else j.writes ++ [u] }

/-- A unit copied again: its bit is written anew. -/
def Job.copied (j : Job) (u : Nat) : Job :=
  if j.redo.contains u then { j with redo := j.redo.erase u, writes := if j.writes.contains u then j.writes else j.writes ++ [u] } else j

/-- The next unit of a job asks for its turn at once; k = 0 for a job done unit by unit and the begin of a relocate, the shard position + 1 for a vault of a
relocate, 4,095 for the dirty map. -/
def State.nextUnit (s : State) (d ch order k : Nat) : State :=
  s.at s.wall { i := .jobUnit, arg := { tile := d, x := ch, y := 4096 * order + k } }

/-- A channel of a die's sluice. -/
def State.chan (s : State) (d ch : Nat) : Channel := mapGet {} (s.die d).chans ch
/-- A channel written. -/
def State.setChan (s : State) (d ch : Nat) (c : Channel) : State := s.updDie d fun x => { x with chans := mapSet {} x.chans ch c }

/-- The job of a channel changed. -/
def State.updJob (s : State) (d ch : Nat) (f : Job → Job) : State :=
  s.setChan d ch (let c := s.chan d ch; { c with job := c.job.map f })

/-- The job of a channel changed, whose dirty map is then written in its turn where that was not under way. -/
def State.markJob (s : State) (d ch : Nat) (f : Job → Job) : State := match (s.chan d ch).job with
  | none => s
  | some j =>
    let s := s.updJob d ch f
    if j.writes.isEmpty && !(f j).writes.isEmpty then s.nextUnit d ch j.order 4095 else s

/-- A program's write transfer noted by the running jobs of its context, by the record that it was translated with (R206, R210, R212); the sluice writes the
bits in its window cycles (R307). -/
def State.noteDirty (s : State) (id : TileId) (y : Stream) : State :=
  match s.kernelOf id, y.obj with
  | some (_, k), some obj =>
    let pos := posOfTile k.die0 k.shape id
    let res := (s.tile id).residency y.bank y.page
    let hits := (List.range 8).flatMap fun d => (s.die d).chans.filterMap fun c => match c.2.job with
      | some j =>
        if j.start.ctx = k.ctx ∧ j.ended.isNone then
          (dirtyUnit (s.template j.start) j.start y.words pos y.brick obj y.wm res).map fun u => (d, c.1, u)
        else none
      | none => none
    hits.foldl (fun s h => s.markJob h.1 h.2.1 fun j => j.dirtied h.2.2) s
  | _, _ => s

end Sys2Proof.Machine
end

