-- ==== Sys2Proof/Machine/Matrix.lean ====
section
/-!
DEFINITION. Machine/Matrix.lean: the matrix engine: format rows, the tile image, MMA, the accumulators, operand buffers and the scale
instructions (R89 to R95, R222 to R247).
-/

namespace Sys2Proof.Machine

/-! ## Format rows (R68, R89, R90) -/

/-- The plane count P of a matrix operand format (R68), with n for INTn. -/
def planesOf (f : Fmt) (n : Nat) : Nat :=
  match f with
  | .f32 => 24 | .bf16 => 8 | .f16 => 12 | .e4m3 | .e5m2 | .e3m2 | .e2m3 => 4 | .e2m1 => 2 | .i8 => 8 | .intn => n | _ => 0

/-- A matrix operand format (R90). -/
def fmtIsOperand : Fmt → Bool
  | .f64 | .i32 | .e8m0 => false
  | _ => true

/-- An MX element format (R73, R90). -/
def fmtIsMx : Fmt → Bool
  | .e4m3 | .e5m2 | .e3m2 | .e2m3 | .e2m1 | .i8 => true
  | _ => false

/-- An output format of ACCRET (R90). -/
def fmtIsOutput : Fmt → Bool
  | .f64 | .e8m0 => false
  | _ => true

/-- A format-table row read (R89). -/
structure Row where
  a   : Option Fmt
  b   : Option Fmt
  o   : Option Fmt
  sm  : Nat
  isgn : Bool
  nwid : Nat
  rcp : Nat
deriving DecidableEq, Repr

/-- A row's fields (R89). -/
def rowOf (w : Word) : Row :=
  let x := w.toNat
  { a := fmtOf (w.extractLsb' 0 4), b := fmtOf (w.extractLsb' 4 4), o := fmtOf (w.extractLsb' 8 4), sm := field x 13 12
    isgn := bitOf x 16, nwid := field x 19 17, rcp := field x 21 20 }

/-- The active row (R92). -/
def Tile.activeRow (t : Tile) : Row := rowOf (t.ftRow t.fmts.row)

/-- A integer format under the narrow-integer fields of a row (R71, R89). -/
def Row.int (r : Row) (f : Fmt) : IntSpec := intSpec f r.isgn r.nwid r.rcp

/-- A is scaled (R86). -/
def Row.scaledA (r : Row) : Bool := r.sm == 1 || r.sm == 2
/-- B is scaled (R86). -/
def Row.scaledB (r : Row) : Bool := r.sm == 1 || r.sm == 3

/-- The operand formats of a valid row (R90). -/
def Row.valid (r : Row) : Option (Fmt × Fmt) :=
  match r.a, r.b, r.o with
  | some a, some b, some o =>
    if fmtIsOperand a && fmtIsOperand b && fmtIsOutput o && fmtIsInt a == fmtIsInt b && (!r.scaledA || fmtIsMx a) && (!r.scaledB || fmtIsMx b)
    then some (a, b) else none
  | _, _, _ => none

/-- Container bits of a format under a row (R68). -/
def Row.bits (r : Row) (f : Fmt) : Nat :=
  match f with
  | .f64 => 64 | .f32 | .i32 => 32 | .bf16 | .f16 => 16 | .e2m1 => 4
  | .intn => if min (r.nwid + 2) 8 ≤ 4 then 4 else 8
  | _ => 8

/-! ## The tile image (R203, R223, R242) -/

/-- Columns and rows of a strong brick for a container (R202). -/
def imageCols (bits : Nat) : Nat := if bits = 4 then 64 else if bits = 8 ∨ bits = 16 then 32 else 16
/-- Rows of a strong brick (R202). -/
def imageRows (bits : Nat) : Nat := 16384 / (imageCols bits * bits)

/-- The bit at which element (row, col) of a matrix of w columns lies in the tile image (R223). -/
def imageBit (bits w row col : Nat) : Nat :=
  let c := imageCols bits
  let r := imageRows bits
  16384 * (row / r * (w / c) + col / c) + (row % r * c + col % c) * bits

/-- The raw element (row, col). -/
def imageElem (image bits w row col : Nat) : Nat := image / 2 ^ imageBit bits w row col % 2 ^ bits

/-- Values of w bits packed, the first lowest. -/
def packW (w : Nat) : List Nat → Nat
  | [] => 0
  | x :: r => x % 2 ^ w + 2 ^ w * packW w r

/-- n values of w bits unpacked. -/
def unpackW (w : Nat) : Nat → Nat → List Nat
  | 0, _ => []
  | n + 1, x => (x % 2 ^ w) :: unpackW w n (x / 2 ^ w)

/-- The 64 × 64 indices 64i + j in the order in which the tile image of a container holds their elements (R242). -/
def imageOrder (bits : Nat) : List Nat :=
  let c := imageCols bits
  let r := imageRows bits
  (List.range (64 / r)).flatMap fun pi => (List.range (64 / c)).flatMap fun pj =>
    (List.range r).flatMap fun i => (List.range c).map fun j => 64 * (r * pi + i) + (c * pj + j)

/-- The output image of 64 × 64 values (R242), as bytes. -/
def outImage (bits : Nat) (y : Nat → Nat) : List Byte := natBytes (512 * bits) (packW bits ((imageOrder bits).map y))

/-! ## Accumulators (R238 to R243) -/

/-- One element of an accumulator's contents. -/
def accElem (x : Nat) (k : Nat) : Nat := x / 2 ^ (32 * k) % 2 ^ 32

/-- The accumulator that a write or a retirement in flight names (R243). -/
def Dest.accNo : Dest → Option Nat
  | .acc k _ _ | .accRow k _ _ | .accZero k | .accRetire k => some k
  | _ => none

/-- The writes and retirements in flight of an accumulator, in landing order. -/
def insertByDue (r : Result) : List Result → List Result
  | [] => [r]
  | x :: l => if r.due < x.due ∨ (r.due = x.due ∧ r.seq < x.seq) then r :: x :: l else x :: insertByDue r l

/-- Results in landing order (R56). -/
def sortByDue (l : List Result) : List Result := l.foldl (fun a r => insertByDue r a) []

/-- The contents of an accumulator after one write lands. -/
def accAfter (x : Nat) (r : Result) : Nat :=
  match r.dst with
  | .acc _ _ _ => r.val
  | .accRow _ row _ => setField x (2048 * row) 2048 r.val
  | _ => 0

/-- The contents of an accumulator when every earlier-issued write has landed (R238). -/
def Tile.accChain (t : Tile) (k : Nat) : Nat :=
  (sortByDue (t.flight.filter fun r => r.dst.accNo == some k)).foldl accAfter (t.acc k).elems.toNat

/-- xinfo of a landing conflict on an accumulator (R243). -/
def accConflict (k : Nat) : Nat := 12 + k * 16

/-- R243 for a write that lands at a cycle, or a retirement. -/
def Tile.accClash (t : Tile) (k now land : Nat) (ret : Bool) : Bool :=
  (t.flight.any fun r => r.dst.accNo == some k && (r.due == land || (ret && r.dst != .accRetire k && decide (r.due ≤ now + 70)))) ||
  (match (t.acc k).retire with
    | some r => (ret && decide (now ≤ r)) || (decide (now < r) && decide (land ≤ r))
    | none => false)

/-- The accumulator's state as an instruction issues (R240). -/
def Tile.accIssue (t : Tile) (k : Nat) (st : AccState) : Tile := t.setAcc k { t.acc k with st := st }

/-- The state after a write issues (R240). -/
def AccState.written : AccState → AccState
  | .empty | .retired | .accumulating => .accumulating
  | .retiring => .retiring

/-! ## MMA (R85 to R87, R237, R238) -/

/-- The element of an operand as the engine reads it (R69 to R72): an INT8 element that the row scales carries the factor 2^-6. -/
def Row.operand (r : Row) (f : Fmt) (scaled : Bool) (raw : Nat) : Num :=
  match elemNum f (r.int f) raw with
  | .fin n m e => if f = .i8 ∧ scaled then .fin n m (e - 6) else .fin n m e
  | x => x

/-- One exact product with its scales (R85, R86): codes sa and sb, 127 where an operand is not scaled. DESIGN CHOICE (log 67): a zero product of integer
elements takes the xor of its elements' signs, as a floating product does; R85 gives integers no signed zero. -/
def mmaProduct (neg : Bool) (sa sb : Nat) (a b : Num) : Num × FlagSet :=
  let (p, f) := numMul a b
  if sa = 255 ∨ sb = 255 then (.nan false, f)
  else match p with
    | .fin n m e => (.fin (n != neg) m (e + (sa : Int) + sb - 254), f)
    | .inf n => (.inf (n != neg), f)
    | x => (x, f)

/-- Blocks of a floating MMA in ascending k (R85): the rows left, the position k, the element c and the flags so far. -/
def mmaBlocks (neg : Bool) (blk : Nat) (sa sb : Nat → Nat) : Nat → Nat → List Num → List Num → Nat → FlagSet → Nat × FlagSet
  | 0, _, _, _, c, f => (c, f)
  | n + 1, k, as, bs, c, f =>
    let ps := List.zipWith (mmaProduct neg (sa (k / 32)) (sb (k / 32))) (as.take blk) (bs.take blk)
    let (c, g) := windowBlock c (ps.map Prod.fst) (ps.foldl (fun x p => x ||| p.2) 0)
    mmaBlocks neg blk sa sb n (k + blk) (as.drop blk) (bs.drop blk) c (f ||| g)

/-- Blocks of an integer MMA (R87). -/
def immaBlocks (neg isat : Bool) : Nat → List Int → List Int → Nat → FlagSet → Nat × FlagSet
  | 0, _, _, c, f => (c, f)
  | n + 1, as, bs, c, f =>
    let (c, g) := intBlock isat c (List.zipWith (fun a b => if neg then -(a * b) else a * b) (as.take 32) (bs.take 32))
    immaBlocks neg isat n (as.drop 32) (bs.drop 32) c (f ||| g)

/-- The forms of MMA. -/
inductive MmaForm where
  | plain | zero | neg
deriving DecidableEq, Repr

/-- K of an MMA, where it lies within the limits of R237. -/
def mmaK (a b : Fmt) (k : BitVec 4) : Option Nat :=
  let n := 4 * (k.toNat + 1)
  if a = .f32 ∨ b = .f32 then (if n ≤ 32 then some n else none)
  else if n = 32 ∨ n = 64 then some n else none

/-- The array cycles of an MMA (R237). -/
def Row.occupancy (r : Row) (b : Fmt) (k : Nat) : Nat := k * planesOf b (min (r.nwid + 2) 8) / 8

/-- The landing conflict that an MMA meets at issue, when its row and K are allowed (R237, R243). -/
def Ctx.mmaConflict (c : Ctx) (t : Tile) (d : Reg) (k : BitVec 4) : Option Nat :=
  let r := t.activeRow
  match r.valid with
  | none => none
  | some (a, b) => match mmaK a b k with
    | none => none
    | some n =>
      if c.now < t.matrix.busy then some 0xFFFD
      else if t.accClash d.toNat c.now (c.now + 6 + r.occupancy b n) false then some (accConflict d.toNat) else none

/-- The results of an MMA (R238): the 4,096 elements and the flags raised. -/
def Tile.mmaResult (t : Tile) (r : Row) (a b : Fmt) (n : Nat) (form : MmaForm) (d a' b' : Nat) : List Nat × FlagSet :=
  let ba := (t.buf a').data.toNat
  let bb := (t.buf (4 + b')).data.toNat
  let ca := r.bits a
  let cb := r.bits b
  let wa := if ca = 32 then 32 else 64
  let c := unpackW 32 4096 (if form = .zero then 0 else t.accChain d)
  let neg := form == .neg
  let as := (List.range 64).map fun i => (List.range n).map fun k => imageElem ba ca wa i k
  let bs := (List.range 64).map fun j => (List.range n).map fun k => imageElem bb cb 64 k j
  if fmtIsInt a && r.sm == 0 then
    let as := as.map fun l => l.map (r.int a).value
    let bs := bs.map fun l => l.map (r.int b).value
    let res := List.zipWith (fun (p : List Int × List Int) x => immaBlocks neg t.isat (n / 32) p.1 p.2 x 0)
      (as.flatMap fun x => bs.map fun y => (x, y)) c
    (res.map Prod.fst, res.foldl (fun f x => f ||| x.2) 0)
  else
    let as := as.map fun l => l.map (r.operand a r.scaledA)
    let bs := bs.map fun l => l.map (r.operand b r.scaledB)
    let blk := if a = .f32 ∨ b = .f32 then 4 else 32
    let slotA := (t.scaleSlot (t.buf a').slot).codes
    let slotB := (t.scaleSlot (t.buf (4 + b')).slot).codes
    let sa := fun i kb => if r.scaledA then codeAt slotA (2 * i + kb) else 127
    let sb := fun j kb => if r.scaledB then codeAt slotB (2 * j + kb) else 127
    let ai := List.zip (List.range 64) as
    let bj := List.zip (List.range 64) bs
    let res := List.zipWith (fun (p : (Nat × List Num) × (Nat × List Num)) x =>
        mmaBlocks neg blk (sa p.1.1) (sb p.2.1) (n / blk) 0 p.1.2 p.2.2 x 0)
      (ai.flatMap fun x => bj.map fun y => (x, y)) c
    (res.map Prod.fst, res.foldl (fun f x => f ||| x.2) 0)

/-- MMA, MMA.Z and MMA.N (R237, R238). -/
def mmaOp (s : State) (form : MmaForm) (d a b : Reg) (k : BitVec 4) : Host.Outcome State Fault Refusal :=
  runSlot 3 s fun c t =>
    let r := t.activeRow
    match r.valid with
    | none => .trap causeEncoding 3
    | some (fa, fb) => match mmaK fa fb k with
      | none => .trap causeEncoding 3
      | some n =>
        match c.mmaConflict t d k with
        | some info => if c.portable then .wait 11 else .trap causeConflict info
        | none =>
          if r.scaledA && !t.tagCurrent a.toNat then .trap causeStale a.toNat
          else if r.scaledB && !t.tagCurrent (4 + b.toNat) then .trap causeStale (4 + b.toNat)
          else
            let (es, flags) := t.mmaResult r fa fb n form d.toNat a.toNat b.toNat
            let occ := r.occupancy fb n
            let t := t.accIssue d.toNat (t.acc d.toNat).st.written
            let t := { t with matrix := { t.matrix with busy := c.now + occ } }
            .ok (c.land t .mma (.acc d.toNat (fmtIsInt fa && r.sm == 0) (form == .zero)) (packW 32 es) (6 + occ) flags)

/-- MMA (R238). -/
def execMma (d a b : Reg) (k : BitVec 4) (s : State) : Host.Outcome State Fault Refusal := mmaOp s .plain d a b k
/-- MMA.Z (R238). -/
def execMmaZ (d a b : Reg) (k : BitVec 4) (s : State) : Host.Outcome State Fault Refusal := mmaOp s .zero d a b k
/-- MMA.N (R238). -/
def execMmaN (d a b : Reg) (k : BitVec 4) (s : State) : Host.Outcome State Fault Refusal := mmaOp s .neg d a b k

/-! ## Accumulator instructions (R241, R242) -/

/-- A conflict of R243, in a portable image a wait of one cycle (R116). -/
def Ctx.clash (c : Ctx) (k : Nat) : SlotRes := if c.portable then .wait 11 else .trap causeConflict (accConflict k)

/-- ACCZ (R241). -/
def execAccz (d : Reg) (s : State) : Host.Outcome State Fault Refusal :=
  runSlot 3 s fun c t =>
    if t.accClash d.toNat c.now (c.now + 1) false then c.clash d.toNat
    else .ok (c.land (t.accIssue d.toNat .empty) .other (.accZero d.toNat) 0 1)

/-- ACCWR (R241). -/
def execAccwr (d b : Reg) (row : BitVec 6) (int : Bool) (s : State) : Host.Outcome State Fault Refusal :=
  runSlot 3 s fun c t =>
    if t.accClash d.toNat c.now (c.now + 2) false then c.clash d.toNat
    else .ok (c.land (t.accIssue d.toNat (t.acc d.toNat).st.written) .other (.accRow d.toNat row.toNat int) (t.vreg b).toNat 2)

/-- ACCRD (R241): the elements as they stand at issue. -/
def execAccrd (d a : Reg) (row : BitVec 6) (s : State) : Host.Outcome State Fault Refusal :=
  runSlot 3 s fun c t =>
    .ok (c.land t .other (.vreg d.toNat) ((t.acc a.toNat).elems.toNat / 2 ^ (2048 * row.toNat) % 2 ^ 2048) 4)

/-- The staging address of OPLD, OPST, ACCST and ACCRET (R232, R241, R242). -/
def Tile.blockAddr (t : Tile) (r : Reg) : Nat := (t.sreg r).toNat % stagingSize / 64 * 64

/-- ACCST (R241). -/
def execAccst (a b : Reg) (s : State) : Host.Outcome State Fault Refusal :=
  runSlot 3 s fun c t =>
    let x := (t.acc a.toNat).elems.toNat
    .ok (c.landStaging t 7 false (wholeBytes (t.blockAddr b) (outImage 32 (accElem x))) 36)

/-- ACCWAIT (R241): in a portable image the bundle after it waits for the writes; it has no effect in a timetabled one. -/
def execAccwait (a : Reg) (s : State) : Host.Outcome State Fault Refusal :=
  runSlot 3 s fun c t => .ok (if c.portable then { t with flow := { t.flow with accWait := a.toNat :: t.flow.accWait } } else t)

/-- The modes of ACCRET. -/
inductive RetMode where
  | plain | amax | apply | derive'
deriving DecidableEq, Repr

/-- The output format of an ACCRET that may run (R242): one that the row and the mode allow. -/
def Tile.accretFmt (t : Tile) (a : Reg) (mode : RetMode) : Option Fmt :=
  match t.activeRow.o with
  | none => none
  | some o =>
    if !fmtIsOutput o || (mode != .plain && (t.acc a.toNat).int) then none
    else if (mode == .apply || mode == .derive') && !(fmtIsMx o && o != .i8) then none
    else some o

/-- The block maxima codes of an accumulator (R242): two for each row. -/
def blockMaxima (es : List Nat) : Nat → List Nat
  | 0 => []
  | n + 1 => ((es.take 32).foldl (fun m x => max m (mxCode x)) 0) :: blockMaxima (es.drop 32) n

/-- The conversion of one element in ACCRET (R242): sc its scale code, where it is applied. -/
def accretElem (r : Row) (o : Fmt) (mode : RMode) (fsat isat int : Bool) (sc : Option Nat) (x : Nat) : Nat × FlagSet :=
  let bits := r.bits o
  let v := if int then intNum (signed x 32) else (layoutOf .f32).value x
  let v := match sc with
    | none => v
    | some 255 => .nan false
    | some k => match v with
      | .fin n m e => .fin n m (e + 127 - (k : Int))
      | y => y
  if fmtIsInt o then
    let (y, f) := if int then intToInt (r.int o) isat (signed x 32) else numToInt (r.int o) mode v
    (wrap y bits, f)
  else rndFloat o mode fsat false v

/-- ACCRET (R242): d the scale name of modes 1 and 3, sc that of mode 2. -/
def accretOp (s : State) (mode : RetMode) (d a b sc : Reg) : Host.Outcome State Fault Refusal :=
  runSlot 3 s fun c t =>
    let r := t.activeRow
    match t.accretFmt a mode with
    | none => .trap causeEncoding 3
    | some o =>
      if t.accClash a.toNat c.now (c.now + 70) true then c.clash a.toNat
      else
        let acc := t.acc a.toNat
        let es := unpackW 32 4096 acc.elems.toNat
        let mc := if mode = .amax ∨ mode = .derive' then blockMaxima es 128 else []
        let derived := mc.map (scaleQuant o)
        let codes := match mode with
          | .apply => some (unpackW 8 128 (t.scaleCodes sc.toNat).toNat)
          | .derive' => some derived
          | _ => none
        let scs : List (Option Nat) := match codes with
          | none => List.replicate 4096 none
          | some l => l.flatMap fun k => List.replicate 32 (some k)
        let ys := List.zipWith (accretElem r o (rmodeOfFcsr t.fmts.fcsr) t.fsat t.isat acc.int) scs es
        let bytes := natBytes (512 * r.bits o)
          (packW (r.bits o) ((imageOrder (r.bits o)).map fun k => (ys.map Prod.fst).getD k 0))
        let flags := ys.foldl (fun f y => f ||| y.2) acc.flags
        -- the scale name is renamed (R226)
        let (t, name) := match mode with
          | .amax | .derive' =>
            let slot := t.freeSlot
            let t := t.setSlot slot { t.scaleSlot slot with gen := ((t.scaleSlot slot).gen + 1) % 16 }
            (t, some slot)
          | _ => (t, none)
        let t := c.landStaging t 7 false (wholeBytes (t.blockAddr b) bytes) 70 0 .accret
        let t := c.land t .accret .flagsOnly 0 70 flags
        let t := match name with
          | some slot => c.land t .accret (.scale d.toNat slot false) (packW 8 (if mode = RetMode.amax then mc else derived)) 70
          | none => t
        let t := t.setAcc a.toNat { t.acc a.toNat with st := .retiring, retire := some (c.now + 70) }
        .ok (c.land t .accret (.accRetire a.toNat) 0 70)

/-- ACCRET (R242). -/
def execAccret (a b : Reg) (s : State) : Host.Outcome State Fault Refusal := accretOp s .plain 0 a b 0
/-- ACCRET mode 1 (R242). -/
def execAccretAmax (d a b : Reg) (s : State) : Host.Outcome State Fault Refusal := accretOp s .amax d a b 0
/-- ACCRET mode 2 (R242). -/
def execAccretApply (a b c : Reg) (s : State) : Host.Outcome State Fault Refusal := accretOp s .apply 0 a b c
/-- ACCRET mode 3 (R242). -/
def execAccretDerive (d a b : Reg) (s : State) : Host.Outcome State Fault Refusal := accretOp s .derive' d a b 0

/-! ## Operand buffers (R232, R227) -/

/-- The latency of OPLD and OPST (R231). -/
def moveLat (cnt : BitVec 2) : Nat := 6 + 8 * (cnt.toNat + 1)

/-- OPLD (R232). -/
def execOpld (d a : Reg) (q cnt : BitVec 2) (bind : Option Reg) (s : State) : Host.Outcome State Fault Refusal :=
  runSlot 3 s fun c t =>
    let n := 2048 * (cnt.toNat + 1)
    let v := bytesNat (stagingBytes t.staging (t.blockAddr a) n)
    let t := c.land t .other (.buffer d.toNat (2048 * q.toNat) n) v (moveLat cnt)
    .ok (c.land t .other (.tag d.toNat (bind.map fun x => x.toNat)) 0 (moveLat cnt))

/-- OPST (R232). -/
def execOpst (a b : Reg) (q cnt : BitVec 2) (s : State) : Host.Outcome State Fault Refusal :=
  runSlot 3 s fun c t =>
    let n := 2048 * (cnt.toNat + 1)
    let x := (t.buf b.toNat).data.toNat / 2 ^ (16384 * q.toNat)
    .ok (c.landStaging t 7 false (wholeBytes (t.blockAddr a) (natBytes n x)) (moveLat cnt))

/-- OPCLR (R232). -/
def execOpclr (d : Reg) (s : State) : Host.Outcome State Fault Refusal :=
  runSlot 3 s fun c t =>
    .ok (c.land (c.land t .other (.buffer d.toNat 0 8192) 0 1) .other (.tag d.toNat none) 0 1)

/-- SCBIND (R236). -/
def execScbind (d a : Reg) (s : State) : Host.Outcome State Fault Refusal :=
  runSlot 3 s fun c t => .ok (c.land t .other (.tag d.toNat (some a.toNat)) 0 1)

/-- SCREL (R236). -/
def execScrel (d : Reg) (s : State) : Host.Outcome State Fault Refusal :=
  runSlot 3 s fun c t => .ok (c.land t .other (.tag d.toNat none) 0 1)

/-! ## Scale instructions (R226, R233 to R235) -/

/-- The target slot of a scale write at issue (R226): the slot of the name, or the lowest free one with its generation advanced. -/
def Tile.scaleTarget (t : Tile) (name : Nat) (ip : Bool) : Tile × Nat :=
  if ip then (t, t.slotOf name)
  else
    let slot := t.freeSlot
    (t.setSlot slot { t.scaleSlot slot with gen := ((t.scaleSlot slot).gen + 1) % 16 }, slot)

/-- A scale write (R226): the 128 codes on their way. -/
def Ctx.landScale (c : Ctx) (t : Tile) (d : Reg) (ip : Bool) (codes : Nat) (lat : Nat) : Tile :=
  let (t, slot) := t.scaleTarget d.toNat ip
  c.land t .other (.scale d.toNat slot ip) codes lat

/-- A scale instruction position by position (R233). -/
def scaleOp (s : State) (d : Reg) (ip : Bool) (lat : Nat) (g : Tile → List Nat) : Host.Outcome State Fault Refusal :=
  runSlot 3 s fun c t => .ok (c.landScale t d ip (packW 8 (g t)) lat)

/-- The codes read through a name. -/
def Tile.codesOf (t : Tile) (r : Reg) : List Nat := unpackW 8 128 (t.scaleCodes r.toNat).toNat

/-- The staging address of SCLD and SCST (R233). -/
def Tile.scaleAddr (t : Tile) (r : Reg) (off : BitVec 16) : Nat := stgAddr (t.sreg r + off.signExtend 64) 128

/-- SCLD (R233). -/
def execScld (d a : Reg) (off : BitVec 16) (ip : Bool) (s : State) : Host.Outcome State Fault Refusal :=
  scaleOp s d ip 6 fun t => (stagingBytes t.staging (t.scaleAddr a off) 128).map BitVec.toNat
/-- SCST (R233). -/
def execScst (a b : Reg) (off : BitVec 16) (s : State) : Host.Outcome State Fault Refusal :=
  runSlot 3 s fun c t =>
    .ok (c.landStaging t 7 false (wholeBytes (t.scaleAddr a off) (natBytes 128 (t.scaleCodes b.toNat).toNat)) 2)
/-- SCMOV (R233). -/
def execScmov (d a : Reg) (ip : Bool) (s : State) : Host.Outcome State Fault Refusal :=
  scaleOp s d ip 2 fun t => t.codesOf a
/-- SCMUL (R233). -/
def execScmul (d a b : Reg) (ip : Bool) (s : State) : Host.Outcome State Fault Refusal :=
  scaleOp s d ip 2 fun t => List.zipWith scaleMul (t.codesOf a) (t.codesOf b)
/-- SCMAX (R233). -/
def execScmax (d a b : Reg) (ip : Bool) (s : State) : Host.Outcome State Fault Refusal :=
  scaleOp s d ip 2 fun t => List.zipWith (fun x y => if x = 255 ∨ y = 255 then 255 else max x y) (t.codesOf a) (t.codesOf b)
/-- SCMIN (R233). -/
def execScmin (d a b : Reg) (ip : Bool) (s : State) : Host.Outcome State Fault Refusal :=
  scaleOp s d ip 2 fun t => List.zipWith (fun x y => if x = 255 ∨ y = 255 then 255 else min x y) (t.codesOf a) (t.codesOf b)
/-- SCQ (R234). -/
def execScq (d a : Reg) (f : Fmt) (ip : Bool) (s : State) : Host.Outcome State Fault Refusal :=
  scaleOp s d ip 2 fun t => (t.codesOf a).map (scaleQuant f)
/-- SCSET (R233). -/
def execScset (d : Reg) (code : BitVec 8) (ip : Bool) (s : State) : Host.Outcome State Fault Refusal :=
  scaleOp s d ip 2 fun _ => List.replicate 128 code.toNat
/-- SCGEN (R233, R235). -/
def execScgen (d a : Reg) (ip : Bool) (s : State) : Host.Outcome State Fault Refusal :=
  scaleOp s d ip 4 fun t => (lanesOf (t.vreg a) ++ lanesOf (t.vreg (a + 1))).map mxCode

/-! ## Format state (R93 to R95) -/

/-- A format write pending for the third bundle after this one (R93, R94). -/
def Tile.pendFmt (t : Tile) (target val : Nat) : Tile :=
  { t with
    fmts := { t.fmts with pend := t.fmts.pend ++ [{ seq := t.flow.seq, target := target, val := val, left := 3 }] }
    flow := { t.flow with seq := t.flow.seq + 1 } }

/-- FMT (R93). -/
def execFmt (d : Reg) (b : Src) (s : State) : Host.Outcome State Fault Refusal :=
  runSlot 3 s fun _ t =>
    let v := (t.zsrc b).toNat
    .ok (t.pendFmt d.toNat (if d = 16 then (efrKept v).toNat else (rowKept v).toNat))

/-- FTSEL (R94). -/
def execFtsel (lvl : BitVec 3) (base : BitVec 4) (s : State) : Host.Outcome State Fault Refusal :=
  runSlot 3 s fun _ t => .ok (t.pendFmt 17 (base.toNat + lvl.toNat * 16))

/-- One pending format write in effect (R93, R94), with the loop stack as the next bundle finds it: at the target of a taken LBRK its loop is gone (R105). -/
def Tile.applyFmt (t0 : Tile) (w : FmtWrite) : Tile :=
  let t := t0.orFlags w.flags
  if w.target = 16 then { t with fmts := { t.fmts with efr := efrKept w.val } }
  else if w.target < 16 then { t with fmts := { t.fmts with ft := mapSet 0 t.fmts.ft w.target (rowKept w.val) } }
  else
    let base := w.val % 16
    let lvl := min (field w.val 6 4) 6
    let loops := t.popped.flow.loops
    let i := match loops.drop (loops.length - 1 - lvl) with
      | e :: _ => if lvl < loops.length then e.i else 0
      | [] => 0
    { t with fmts := t.fmts.withSelection base lvl (base + i) }

/-- FORMAT_WRITE_EFFECT (R93): the write that the event in hand names takes effect. -/
def execFormatWriteEffect (s : State) : Host.Outcome State Fault Refusal :=
  .next (s.updTile s.ev.tile fun t =>
    match t.fmts.pend.find? fun w => w.seq == s.ev.x with
    | none => t
    | some w => { t.applyFmt w with fmts := { (t.applyFmt w).fmts with pend := t.fmts.pend.filter fun x => x.seq != s.ev.x } })

end Sys2Proof.Machine
end

