-- ==== Sys2Proof/Machine/Vault.lean ====
section
/-!
DEFINITION. Machine/Vault.lean: the vault's timing parameters, its checker, and the D-slot vault commands (R158 to R176, R229, R230).
-/

namespace Sys2Proof.Machine

/-! ## Timing parameters (R165) -/

/-- A column of R165. -/
structure VParams where
  tRCD  : Nat
  tRP   : Nat
  tRAS  : Nat
  tRC   : Nat
  tRRD  : Nat
  tFAW  : Nat
  tCCDL : Nat
  tWTR  : Nat
  tRTP  : Nat
  tWR   : Nat
  tRFC  : Nat
  cl    : Nat
  wl    : Nat
  tTRN  : Nat
  tREFB : Nat
deriving DecidableEq, Repr

/-- The parameters of a variant; slow is variant 3's column. -/
def vparams (slow : Bool) (variant : Nat) : VParams :=
  if slow then ⟨14, 14, 32, 46, 3, 18, 2, 6, 6, 17, 83, 18, 8, 390, 15210⟩
  else ⟨18, 18, 42, 60, 4, 24, 2, 8, 8, 22, 110, 24, 10, 520, if variant = 0 then 20280 else if variant = 1 then 10140 else 5070⟩

/-- The parameters in use for a kernel. -/
def Kernel.params (k : Kernel) : VParams := vparams k.slow k.variant
/-- The parameters in use where a slot runs. -/
def Ctx.params (c : Ctx) : VParams := vparams c.slow c.variant
/-- The service-bank mask in use. -/
def Ctx.sbmask (c : Ctx) : Nat := match c.kernel with
  | some (_, k) => k.img.sbmask
  | none => 0

/-! ## The bank table (R160, R162) -/

/-- An entry of the bank table. -/
def Vault.bank (v : Vault) (b : Nat) : Bank := mapGet {} v.banks b
/-- An entry of the bank table written. -/
def Vault.setBank (v : Vault) (b : Nat) (x : Bank) : Vault := { v with banks := mapSet {} v.banks b x }
/-- The vault of a tile changed. -/
def Tile.updVault (t : Tile) (f : Vault → Vault) : Tile := { t with vault := f t.vault }

/-- A bank is lent at a cycle (R181). -/
def Bank.lent (x : Bank) (now : Nat) : Bool := x.lend != 0 && match x.lendEnd with
  | some e => decide (now < e)
  | none => false
/-- A pseudo-channel is in a training window or in a TRAIN at a cycle (R160, R175, R193). -/
def Vault.training (v : Vault) (q now : Nat) : Bool := match mapFind v.train q with
  | some e => decide (now < e)
  | none => false
/-- A bank refuses every command with code 13 (R166): a service bank, a lent bank, a bank in training. -/
def Vault.barred (v : Vault) (mask b now : Nat) : Bool := bitOf mask b || (v.bank b).lent now || v.training (b % 4) now
/-- The state of a bank as it reads (R160). -/
def Vault.state (v : Vault) (mask b now : Nat) : BankState :=
  if bitOf mask b || (v.bank b).lent now then .idle
  else if v.training (b % 4) now then .training
  else (v.bank b).st
/-- The code of a bank state (R160). -/
def BankState.code : BankState → Nat
  | .idle => 0 | .activating => 1 | .open => 2 | .precharging => 3 | .refreshing => 4 | .training => 5

/-- The summary word of R162. -/
def Vault.summary (v : Vault) (mask b now : Nat) : Nat :=
  let x := v.bank b
  let free := bitOf mask b || x.lent now
  (v.state mask b now).code + b2n (x.ap.isSome && !free) * 2 ^ 3 + b2n (x.lent now) * 2 ^ 4 + b2n (bitOf mask b) * 2 ^ 5
    + b2n x.raw * 2 ^ 6 + x.lvl * 2 ^ 7 + x.page * 2 ^ 9
    + (if free then 2 ^ 32 - 1 else min (x.deadline - now) (2 ^ 32 - 1)) * 2 ^ 32

/-! ## The checker (R164, R166) -/

/-- A command as vtrap reports it (R167), with its bank. -/
structure VCmd where
  op   : Nat
  bank : Nat
  page : Nat := 0
  slot : Nat := 0
  cnt  : Nat := 0
deriving DecidableEq, Repr

/-- A refusal: the code, the bank, and the earliest cycle at which the failing check alone would pass. -/
structure VRefusal where
  code  : Nat
  bank  : Nat
  early : Option Nat := none
deriving DecidableEq, Repr

/-- The first cycle from one on, within so many, at which a check passes. -/
def firstPass (ok : Nat → Bool) (c : Nat) : Nat → Option Nat
  | 0 => none
  | n + 1 => if ok c then some c else firstPass ok (c + 1) n

/-- How far ahead vtearl is looked for. -/
def lookAhead : Nat := 8192

/-- The activates that count on a layer (R165): bank 128 stands for the first cycle of a service run. -/
def Vault.layerActs (v : Vault) (layer : Nat) : List Nat :=
  (v.acts.filter fun a => a.2 == 128 || a.2 / 16 == layer).map Prod.fst

/-- tRRD and tFAW for an activate of a bank (R165, R166). -/
def Vault.checkLayer (v : Vault) (p : VParams) (b now : Nat) : Option VRefusal :=
  let acts := v.layerActs (b / 16)
  let rrd := fun c => acts.all fun a => decide (a + p.tRRD ≤ c)
  let faw := fun c => decide ((acts.filter fun a => decide (c < a + p.tFAW)).length ≤ 3)
  if !rrd now then some ⟨5, b, firstPass rrd (now + 1) lookAhead⟩
  else if !faw now then some ⟨6, b, firstPass faw (now + 1) lookAhead⟩
  else none

/-- The row of ACT, ACTRAW and REF in R166; REF is not bound by tRC. -/
def Vault.checkAct (v : Vault) (p : VParams) (mask b now : Nat) (ref : Bool) : Option VRefusal :=
  let x := v.bank b
  if v.barred mask b now then some ⟨13, b, none⟩
  else match x.st with
    | .precharging => some ⟨2, b, x.lastPre.map (· + p.tRP)⟩
    | .refreshing => some ⟨11, b, x.lastRef.map (· + p.tRFC)⟩
    | .activating | .open | .training => some ⟨0, b, none⟩
    | .idle =>
      match x.lastAct with
      | some a => if !ref && decide (now < a + p.tRC) then some ⟨4, b, some (a + p.tRC)⟩ else v.checkLayer p b now
      | none => v.checkLayer p b now

/-- The spacing of one stream in flight or completed against a new one (R164): the code that fails, if one does. X is the stream whose data cycles
come first; of a read and a write with the same first data cycle the model takes the earlier-issued one for X (log 75). -/
def spacing (p : VParams) (u : BusUse) (read : Bool) (c n : Nat) : Option Nat :=
  let y0 := c + (if read then p.cl else p.wl)
  let y1 := y0 + n - 1
  if u.first ≤ y0 then
    if !u.read && read then (if c < u.last + p.tWTR then some 8 else none)
    else if y0 < u.last + p.tCCDL then some 7 else none
  else if !read && u.read then (if u.first - p.cl < y1 + p.tWTR then some 8 else none)
  else if u.first < y1 + p.tCCDL then some 7 else none

/-- R164 for a column command of n transfers at a cycle: the first code that fails. Where several streams fail it, with code 7 and code 8, the
earliest-issued of them gives the code: the spec does not say which (log 76). -/
def Vault.spacingCode (v : Vault) (p : VParams) (q : Nat) (read : Bool) (n c : Nat) : Option Nat :=
  match (v.bus.filter fun u => u.q == q).findSome? fun u => spacing p u read c n with
  | some code => some code
  | none =>
    let y0 := c + (if read then p.cl else p.wl)
    if v.windows.any fun w => decide (w + p.cl - 1 ≤ y0 + n - 1) && decide (y0 ≤ w + p.cl + 1) then some 7 else none

/-- The layers that R29 caps: those nearest a lost cooling loop. -/
def cappedLayers (h : Health) : List Nat := (if h.upper.lost.isSome then [6, 7] else []) ++ (if h.lower.lost.isSome then [0, 1] else [])

/-- The write cap of R29 on a layer for n transfers from a data cycle on: no 32 consecutive cycles hold more than 8. -/
def Vault.capOk (v : Vault) (layer n first : Nat) : Bool :=
  let l := ((v.wcap.filter fun x => x.1 == layer).map Prod.snd) ++ (List.range n).map (first + ·)
  l.all fun a => decide ((l.filter fun b => decide (a ≤ b) && decide (b < a + 32)).length ≤ 8)

/-- The row of the column commands in R166. -/
def Vault.checkColumn (v : Vault) (p : VParams) (mask b now page lvl : Nat) (raw read : Bool) (n : Nat) (capped : List Nat) : Option VRefusal :=
  let x := v.bank b
  if v.barred mask b now then some ⟨13, b, none⟩
  else if x.st = .activating then some ⟨1, b, x.lastAct.map (· + p.tRCD)⟩
  else if x.st ≠ .open ∨ x.ap.isSome then some ⟨0, b, none⟩
  else if x.raw != raw || (!raw && (x.page != page || x.lvl != lvl)) then some ⟨12, b, none⟩
  else match v.spacingCode p (b % 4) read n now with
    | some code => some ⟨code, b, firstPass (fun c => (v.spacingCode p (b % 4) read n c).isNone) (now + 1) lookAhead⟩
    | none =>
      if !read && capped.contains (b / 16) && !v.capOk (b / 16) n (now + p.wl) then
        some ⟨14, b, firstPass (fun c => v.capOk (b / 16) n (c + p.wl)) (now + 1) lookAhead⟩
      else none

/-- What the PRE row of R166 comes to: a refusal, no effect (R171), or a precharge. -/
inductive PreCheck where
  | refused (r : VRefusal)
  | noEffect
  | close
deriving DecidableEq, Repr

/-- The row of PRE in R166. -/
def Vault.checkPre (v : Vault) (p : VParams) (mask b now : Nat) : PreCheck :=
  let x := v.bank b
  let early (o : Option Nat) (d : Nat) : Bool := match o with
    | some a => decide (now < a + d)
    | none => false
  if v.barred mask b now then .refused ⟨13, b, none⟩
  else match x.st with
    | .refreshing => .refused ⟨11, b, x.lastRef.map (· + p.tRFC)⟩
    | .activating | .open =>
      if x.ap.isSome then .noEffect
      else if early x.lastAct p.tRAS then .refused ⟨3, b, x.lastAct.map (· + p.tRAS)⟩
      else if early x.lastRd p.tRTP then .refused ⟨9, b, x.lastRd.map (· + p.tRTP)⟩
      else if early x.lastWr p.tWR then .refused ⟨10, b, x.lastWr.map (· + p.tWR)⟩
      else .close
    | .idle | .precharging | .training => .noEffect

/-! ## Refusals (R167) -/

/-- vtrap and vtearl of a refused command (R167). -/
def Sys.refused (r : Sys) (cmd : VCmd) (f : VRefusal) : Sys :=
  { r with
    vtrap := BitVec.ofNat 64 (cmd.op + f.bank * 2 ^ 8 + cmd.page * 2 ^ 15 + cmd.slot * 2 ^ 27 + cmd.cnt * 2 ^ 33 + f.code * 2 ^ 39)
    vtearl := if f.code = 0 ∨ f.code = 12 ∨ f.code = 13 ∨ f.code = 15 then BitVec.allOnes 64
              else match f.early with
                | some e => BitVec.ofNat 64 e
                | none => BitVec.allOnes 64 }

/-- xinfo of a vault-timing trap (R118). -/
def vaultInfo (f : VRefusal) : Nat := f.bank + f.code * 256

/-- A tile whose checker refused a command: the trap registers of R167. -/
def Tile.noteRefusal (t : Tile) (cmd : VCmd) (f : VRefusal) : Tile := { t with sys := t.sys.refused cmd f }

/-- What a vault command comes to. -/
inductive VaultRes where
  | done (r : SlotRes)
  | refused (cmd : VCmd) (f : VRefusal)

/-- A D-slot vault command (R166, R167): refused, it traps, and in a portable image it waits (R116). -/
def runVault (s : State) (f : Ctx → Tile → VaultRes) : Host.Outcome State Fault Refusal :=
  match f s.slotCtx (s.tile s.cur.tile) with
  | .done r => runSlot 4 s fun _ _ => r
  | .refused cmd x =>
    if s.slotCtx.portable then runSlot 4 s fun _ _ => .wait 12
    else runSlot 4 { s with cur := { s.cur with pre := s.cur.pre.noteRefusal cmd x } } fun _ _ => .trap causeVault (vaultInfo x)

/-- A privileged D-slot command (R115). -/
def runPrivileged (s : State) (f : Ctx → Tile → VaultRes) : Host.Outcome State Fault Refusal :=
  if s.slotCtx.privileged then runVault s f else runSlot 4 s fun _ _ => .trap causePriv 4

/-! ## ACT, PRE, REF, TRAIN, BSTAT, VFENCE -/

/-- An activate noted for tRRD and tFAW (R165). -/
def Vault.noteAct (v : Vault) (b now : Nat) : Vault := { v with acts := (v.acts.filter fun a => decide (now < a.1 + 64)) ++ [(now, b)] }

/-- A bank activated (R161, R169, R174). -/
def Vault.activate (v : Vault) (b now page lvl : Nat) (raw : Bool) : Vault :=
  (v.setBank b { v.bank b with st := .activating, page := page, lvl := lvl, raw := raw, lastAct := some now, ap := none }).noteAct b now

/-- The end of a translation that failed, as a slot's outcome. -/
def Trans.fail (x : Trans) (h acc : Nat) : VaultRes := match x.trap h acc with
  | some (cause, info) => .done (.trap cause info)
  | none => .done (.trap causePin h)

/-- ACT (R169). -/
def execAct (a b : Reg) (s : State) : Host.Outcome State Fault Refusal :=
  runVault s fun c t =>
    match c.translate t a.toNat 0 (t.sreg b).toNat with
    | .null => .done (.ok t)
    | .found p =>
      match t.vault.checkAct c.params c.sbmask p.bank c.now false with
      | some f => .refused { op := 0x01, bank := p.bank, page := p.page } f
      | none => .done (.ok (t.updVault fun v => v.activate p.bank c.now p.page (recProt (t.ohe a.toNat).words) false))
    | x => x.fail a.toNat 0

/-- ACTRAW (R174). -/
def execActraw (bank : BitVec 7) (page : BitVec 12) (s : State) : Host.Outcome State Fault Refusal :=
  runPrivileged s fun c t =>
    match t.vault.checkAct c.params c.sbmask bank.toNat c.now false with
    | some f => .refused { op := 0x40, bank := bank.toNat, page := page.toNat } f
    | none => .done (.ok (t.updVault fun v => v.activate bank.toNat c.now page.toNat 2 true))

/-- A bank precharged (R161, R171). A lend that the PRE carries has no end until it begins. -/
def Vault.precharge (v : Vault) (b now lend : Nat) : Vault :=
  let x := v.bank b
  v.setBank b { x with st := .precharging, lastPre := some now, ap := none, lend := lend, lendEnd := if lend = 0 then x.lendEnd else none }

/-- PRE (R171). -/
def execPre (bank : BitVec 7) (lend : BitVec 13) (s : State) : Host.Outcome State Fault Refusal :=
  runVault s fun c t =>
    match t.vault.checkPre c.params c.sbmask bank.toNat c.now with
    | .refused f => .refused { op := 0x06, bank := bank.toNat } f
    | .noEffect => .done (.ok t)
    | .close => .done (.ok (t.updVault fun v => v.precharge bank.toNat c.now lend.toNat))

/-- The banks that PREA closes (R171): those of the program that are activating or open. -/
def Vault.preaBanks (v : Vault) (mask now : Nat) : List Nat :=
  (List.range 128).filter fun b => let st := v.state mask b now; (st == .activating || st == .open) && (v.bank b).ap.isNone

/-- The first of the banks that fails the PRE row. -/
def Vault.firstRefusal (v : Vault) (p : VParams) (mask now : Nat) : List Nat → Option VRefusal
  | [] => none
  | b :: r => match v.checkPre p mask b now with
    | .refused f => some f
    | _ => v.firstRefusal p mask now r

/-- PREA (R171). -/
def execPrea (s : State) : Host.Outcome State Fault Refusal :=
  runVault s fun c t =>
    let bs := t.vault.preaBanks c.sbmask c.now
    match t.vault.firstRefusal c.params c.sbmask c.now bs with
    | some f => .refused { op := 0x07, bank := f.bank } f
    | none => .done (.ok (t.updVault fun v => bs.foldl (fun v b => v.precharge b c.now 0) v))

/-- REF (R172, R177). -/
def execRef (bank : BitVec 7) (s : State) : Host.Outcome State Fault Refusal :=
  runVault s fun c t =>
    let b := bank.toNat
    match t.vault.checkAct c.params c.sbmask b c.now true with
    | some f => .refused { op := 0x08, bank := b } f
    | none => .done (.ok (t.updVault fun v =>
        (v.setBank b { v.bank b with st := .refreshing, lastRef := some c.now, deadline := c.now + c.params.tREFB }).noteAct b c.now))

/-- A retraining of a pseudo-channel begins (R175, R193, R194): its banks are in training until a cycle, and no retraining is due. -/
def Vault.train' (v : Vault) (q stop wall : Nat) : Vault :=
  { v with train := mapPut v.train q stop, lastTrain := mapPut v.lastTrain q wall, trainDue := mapDel v.trainDue q }

/-- TRAIN (R175): refused unless every bank of the pseudo-channel is idle and no stream has data cycles from now on. A refused one reports the lowest bank of
q that is not idle, else the bank of the earliest issued stream (DESIGN CHOICE, log 95). -/
def execTrain (q : BitVec 2) (s : State) : Host.Outcome State Fault Refusal :=
  runPrivileged s fun c t =>
    let n := q.toNat
    let busyBank := (List.range 32).find? fun i => t.vault.state c.sbmask (4 * i + n) c.now != .idle
    match busyBank with
    | some i => .refused { op := 0x0C, bank := 4 * i + n } ⟨0, 4 * i + n, none⟩
    | none =>
      match t.vault.bus.find? fun u => u.q == n && decide (c.now ≤ u.last) with
      | some u => .refused { op := 0x0C, bank := u.bank } ⟨0, u.bank, none⟩
      | none => .done (.ok (t.updVault fun v => v.train' n (c.now + c.params.tTRN) c.s.wall))

/-- BSTAT (R173). -/
def execBstat (d : Reg) (bank : BitVec 7) (s : State) : Host.Outcome State Fault Refusal :=
  runVault s fun c t => .done (.ok (c.land t .other (.sreg d.toNat) (t.vault.summary c.sbmask bank.toNat c.now) 2))

/-- The cycle at which the last transfer of a program write reaches a level (R176). -/
def WriteMark.reached (m : WriteMark) : Level → Nat
  | .acc => m.last + 1
  | .vis => m.last + 2
  | .dur => m.last + m.tWR

/-- The earliest-issued program write that has not reached a level by a cycle. -/
def Vault.unmet (v : Vault) (l : Level) (c : Nat) : Option WriteMark := v.marks.find? fun m => decide (c < m.reached l)

/-- VFENCE (R176). -/
def execVfence (lvl : Level) (s : State) : Host.Outcome State Fault Refusal :=
  runVault s fun c t =>
    match t.vault.unmet lvl c.now with
    | some m => .refused { op := 0x0B, bank := m.bank } ⟨15, m.bank, none⟩
    | none => .done (.ok t)

/-! ## Streams (R163, R170) -/

/-- A stream begun (R161, R163): the stream, its data cycles kept for R164, the bank's last column or last data cycle, and its auto-precharge. -/
def Vault.start (v : Vault) (p : VParams) (x : Stream) (ap : Bool) : Vault :=
  let q := x.bank % 4
  let last := x.first + x.n - 1
  let b := v.bank x.bank
  let use : BusUse := { q := q, read := x.read, first := x.first, last := last, bank := x.bank }
  let col := x.issue + x.n - 1
  let act := b.lastAct.getD 0
  let b := if x.read then { b with lastRd := some col, ap := if ap then some (max (act + p.tRAS) (col + p.tRTP)) else b.ap }
           else { b with lastWr := some last, ap := if ap then some (max (act + p.tRAS) (last + p.tWR)) else b.ap }
  let mark : WriteMark := { seq := x.seq, bank := x.bank, page := x.page, w := x.first, last := last, tWR := p.tWR, sync := x.sync, obj := x.obj, brick := x.brick }
  let v : Vault := { v with
    streams := v.streams ++ [x]
    bus := (v.bus.filter fun u => decide (x.issue ≤ u.last + 64) || u.q != q || u.read != x.read) ++ [use]
    marks := if x.read then v.marks else (v.marks.filter fun m => decide (x.issue ≤ m.last + m.tWR)) ++ [mark]
    wcap := if x.read then v.wcap else
      (v.wcap.filter fun w => decide (x.issue ≤ w.2 + 64)) ++ (List.range x.n).map fun j => (x.bank / 16, x.first + j) }
  v.setBank x.bank b

/-- A stream of the tile begun: it takes the next place in issue order. -/
def Tile.startStream (t : Tile) (p : VParams) (x : Stream) (ap : Bool) : Tile :=
  (t.updVault fun v => v.start p { x with seq := t.flow.seq } ap).nextSeq

/-- A stream of a null brick begun (R208): it meets no bank and no rule of the bus. -/
def Tile.startNull (t : Tile) (x : Stream) : Tile :=
  (t.updVault fun v => { v with streams := v.streams ++ [{ x with seq := t.flow.seq, null := true }] }).nextSeq

/-- The sync object of an entry's record as one number: die × 32,768 + byte address. -/
def syncNo (r : List Word) : Option Nat := (recSync r).map fun x => x.1 * 32768 + x.2

/-- The layers under the write cap, where variant 3 is in use (R29). -/
def Ctx.capped (c : Ctx) : List Nat := if c.slow then cappedLayers c.s.health else []

/-- RD, RDA, WR and WRA (R170). -/
def columnOp (s : State) (op : Nat) (read ap : Bool) (a b cr : Reg) (sl n : BitVec 6) : Host.Outcome State Fault Refusal :=
  runVault s fun c t =>
    let h := a.toNat
    let e := t.ohe h
    let acc := if read then 0 else 1
    let len := n.toNat + 1
    let lvl := recProt e.words
    let past := decide (levelSlots lvl < sl.toNat + len)
    let addr := t.blockAddr cr
    let p := c.params
    match c.translate t h acc (t.sreg b).toNat with
    | .null =>
      if past then .done (.trap causeShape (h + 7 * 16))
      else if read then
        .done (.ok (t.startNull { seq := 0, read := true, slot := sl.toNat, n := len, issue := c.now, first := c.now + p.cl, dest := .staging addr, img := c.imgDue t .cl p.cl }))
      else .done (.ok t)
    | .found pl =>
      if past then .done (.trap causeShape (h + 7 * 16))
      else match t.vault.checkColumn p c.sbmask pl.bank c.now pl.page lvl false read len c.capped with
        | some f => .refused { op := op, bank := pl.bank, page := pl.page, slot := sl.toNat, cnt := n.toNat } f
        | none =>
          .done (.ok (t.startStream p
            { seq := 0, read := read, bank := pl.bank, page := pl.page, lvl := lvl, slot := sl.toNat, n := len, issue := c.now
              first := c.now + (if read then p.cl else p.wl), dest := .staging addr, src := addr, oh := h, brick := pl.n
              sync := syncNo e.words, obj := some e.id, words := if read then [] else e.words, wm := e.wm
              img := if read then c.imgDue t .cl p.cl else 0 } ap))
    | x => x.fail h acc

/-- RD (R170). -/
def execRd (a b c : Reg) (sl n : BitVec 6) (s : State) : Host.Outcome State Fault Refusal := columnOp s 0x02 true false a b c sl n
/-- RDA (R170). -/
def execRda (a b c : Reg) (sl n : BitVec 6) (s : State) : Host.Outcome State Fault Refusal := columnOp s 0x03 true true a b c sl n
/-- WR (R170). -/
def execWr (a b c : Reg) (sl n : BitVec 6) (s : State) : Host.Outcome State Fault Refusal := columnOp s 0x04 false false a b c sl n
/-- WRA (R170). -/
def execWra (a b c : Reg) (sl n : BitVec 6) (s : State) : Host.Outcome State Fault Refusal := columnOp s 0x05 false true a b c sl n

/-- RDRAW and WRRAW (R174): physical slots of the open raw page, which the command itself does not name (vtrap.page reads 0). -/
def rawOp (s : State) (op : Nat) (read : Bool) (cr : Reg) (sl n : BitVec 6) (bank : BitVec 7) : Host.Outcome State Fault Refusal :=
  runPrivileged s fun c t =>
    let b := bank.toNat
    let len := n.toNat + 1
    let p := c.params
    let addr := t.blockAddr cr
    let page := (t.vault.bank b).page
    match t.vault.checkColumn p c.sbmask b c.now page 2 true read len c.capped with
    | some f => .refused { op := op, bank := b, slot := sl.toNat, cnt := n.toNat } f
    | none =>
      .done (.ok (t.startStream p
        { seq := 0, read := read, raw := true, bank := b, page := page, lvl := 2, slot := sl.toNat, n := len, issue := c.now
          first := c.now + (if read then p.cl else p.wl), dest := .staging addr, src := addr, img := if read then c.imgDue t .cl p.cl else 0 } false))

/-- RDRAW (R174). -/
def execRdraw (c : Reg) (sl n : BitVec 6) (bank : BitVec 7) (s : State) : Host.Outcome State Fault Refusal := rawOp s 0x41 true c sl n bank
/-- WRRAW (R174). -/
def execWrraw (c : Reg) (sl n : BitVec 6) (bank : BitVec 7) (s : State) : Host.Outcome State Fault Refusal := rawOp s 0x42 false c sl n bank

/-! ## RDOP and RDSC (R229, R230) -/

/-- RDOP (R229): a read stream into a buffer position; the tag lands with the last transfer. -/
def execRdop (d a b : Reg) (sl n : BitVec 6) (q : BitVec 2) (bind : Option Reg) (s : State) : Host.Outcome State Fault Refusal :=
  runVault s fun c t =>
    let h := a.toNat
    let e := t.ohe h
    let len := n.toNat + 1
    let lvl := recProt e.words
    let p := c.params
    let dest : StreamDest := .buffer d.toNat q.toNat (bitOf (recWord e.words 0) 48) (containerBits (recBits e.words 0 43 40) e.nib)
      (bind.map fun x => x.toNat)
    let tag := fun (t : Tile) => c.land t .cl (.tag d.toNat (bind.map fun x => x.toNat)) 0 (p.cl + n.toNat)
    match c.translate t h 0 (t.sreg b).toNat with
    | .null =>
      .done (.ok (tag (t.startNull { seq := 0, read := true, slot := sl.toNat, n := len, issue := c.now, first := c.now + p.cl, dest := dest, img := c.imgDue t .cl p.cl })))
    | .found pl =>
      match t.vault.checkColumn p c.sbmask pl.bank c.now pl.page lvl false true len [] with
      | some f => .refused { op := 0x09, bank := pl.bank, page := pl.page, slot := sl.toNat, cnt := n.toNat } f
      | none =>
        .done (.ok (tag (t.startStream p
          { seq := 0, read := true, bank := pl.bank, page := pl.page, lvl := lvl, slot := sl.toNat, n := len, issue := c.now
            first := c.now + p.cl, dest := dest, oh := h, brick := pl.n, img := c.imgDue t .cl p.cl } false)))
    | x => x.fail h 0

/-- What the translation of R230 comes to. -/
inductive ScaleRun where
  | trap (cause info : Nat)
  | null
  | run (bank page slot : Nat)
deriving DecidableEq, Repr

/-- The scale run of a data brick (R213, R230). -/
def Ctx.scaleRun (c : Ctx) (t : Tile) (h hc x : Nat) : ScaleRun :=
  let e := t.ohe h
  let k := t.ohe hc
  if e.est ≠ 1 then .trap causePin h
  else if k.est ≠ 1 then .trap causePin hc
  else match checkCoord e.words e.nib x with
    | .shape dim => .trap causeShape (h + dim * 16)
    | .null => .null
    | .ok cs clp =>
      let pl := c.placeOf e cs clp
      if pl.own ≠ c.pos then .trap causePermission (h + 3 * 16)
      else if !bitOf (recWord e.words 11) 32 || recBits e.words 11 15 0 != k.id || recBits e.words 11 31 16 != k.gen then
        .trap causePermission (h + 2 * 16)
      else if !bitOf (recWord k.words 0) 37 then .trap causePermission (hc + 2 * 16)
      else
        let m := pl.n / 16
        let bank := (recBits k.words 8 18 12 + m) % 128
        let page := (if recState k.words = 2 ∧ m < k.wm then recBits k.words 12 11 0 else recBits k.words 8 11 0) + m / 128
        let res := t.residency bank page
        if res = 1 ∨ res = 2 then .trap causeResidency (hc + m * 2 ^ 32)
        else .run bank page (2 * (pl.n % 16))

/-- RDSC (R230). -/
def execRdsc (d a b cr : Reg) (s : State) : Host.Outcome State Fault Refusal :=
  runVault s fun c t =>
    let p := c.params
    match c.scaleRun t a.toNat cr.toNat (t.sreg b).toNat with
    | .trap cause info => .done (.trap cause info)
    | .null =>
      let (t, slot) := t.scaleTarget d.toNat false
      .done (.ok (c.land t .cl (.scale d.toNat slot false) 0 (p.cl + 1)))
    | .run bank page sl =>
      match t.vault.checkColumn p c.sbmask bank c.now page 0 false true 2 [] with
      | some f => .refused { op := 0x0A, bank := bank, page := page, slot := sl, cnt := 1 } f
      | none =>
        let (t, slot) := t.scaleTarget d.toNat false
        let res := t.flow.seq
        let t := c.landPending t .cl (.scale d.toNat slot false) (p.cl + 1)
        .done (.ok (t.startStream p
          { seq := 0, read := true, bank := bank, page := page, slot := sl, n := 2, issue := c.now, first := c.now + p.cl, dest := .scale res
            oh := cr.toNat } false))

end Sys2Proof.Machine
end

