-- ==== Sys2Proof/Machine/Service.lean ====
section
/-!
DEFINITION. Machine/Service.lean: the service agents at the vaults (R36, R180 to R183): what they ask for, the window cycles in which their transfers are
made, and the wall time in which they proceed where no timetable cycle passes. The agents by their precedence: 1 segment fetch, 2 record loads,
3 sluice jobs, 4 collectives, 5 host accesses.
-/

namespace Sys2Proof.Machine

/-! ## The banks that agents may command (R180 to R182) -/

/-- Service agents may command a bank of a program: it is lent for so many cycles more, or its tile has halted, or no kernel runs on it. -/
def State.bankOpen (s : State) (t : TileId) (b left : Nat) : Bool :=
  match s.kernelOf t with
  | none => true
  | some (_, k) =>
    let x := (s.tile t).vault.bank b
    (s.tile t).flow.st == .halted || !(k.st == .running || k.st == .held || k.st == .replanning) ||
      (x.lend != 0 && x.st == .idle && (match x.lendEnd with
        | some e => decide (k.cycle + left ≤ e)
        | none => false))

/-- A bank is one of the service agents' for so many cycles more: a service bank, or one open to them (R181). -/
def State.agentBank (s : State) (t : TileId) (b left : Nat) : Bool :=
  (match s.kernelOf t with
    | some (_, k) => bitOf k.img.sbmask b
    | none => false) || s.bankOpen t b left

/-- The service agents may begin an access on a bank: it is theirs for 4,096 cycles (R182). -/
def State.mayBegin (s : State) (t : TileId) (b : Nat) : Bool := s.agentBank t b 4096

/-- A kernel passes cycles: it runs, no hold stands, and it has reached neither a horizon nor its yield cycle (R7, R124, R334); one that ends faulted passes what is left of its
present cycle, since its tiles stop at their next one (R325). -/
def Kernel.passes (k : Kernel) : Bool :=
  k.holds.isEmpty && k.holdFrom.isNone && k.reached.isNone && !k.saving && (if k.ending.isSome then !k.closed && k.phase != 0 else k.st == .running)

/-- The agents at a tile's vault proceed in wall time: its tile is held, stopped or trapped, or no kernel runs on it (R183). -/
def State.agentsInWall (s : State) (t : TileId) : Bool := match s.kernelOf t with
  | none => true
  | some (_, k) => !k.passes || !((s.tile t).flow.st == .running || (s.tile t).flow.st == .halted)

/-! ## Work waiting at a vault (R182) -/

/-- A piece of work stands before another: by agent, then by arrival. -/
def Work.before (a b : Work) : Bool := decide (a.agent < b.agent) || (a.agent == b.agent && decide (a.ask ≤ b.ask))

/-- A piece of work put in its place. -/
def insertWork (x : Work) : List Work → List Work
  | [] => [x]
  | y :: r => if y.before x then y :: insertWork x r else x :: y :: r

/-- An activate by the agents of a bank at a cycle keeps R165 among their own commands: tRC and tRP on the bank, tRRD and tFAW on its layer. -/
def Vault.agentMayAct (v : Vault) (p : VParams) (c b : Nat) : Bool :=
  let layer := v.agentActs.filter fun a => a.2 / 16 == b / 16
  decide (mapGet 0 v.agentShut b ≤ c) && (v.agentActs.all fun a => a.2 != b || decide (a.1 + p.tRC ≤ c)) &&
    (layer.all fun a => decide (a.1 + p.tRRD ≤ c)) && decide ((layer.filter fun a => decide (c < a.1 + p.tFAW)).length ≤ 3)

/-- The cycle from which a bank of the agents, activated at a cycle and with its last transfer's command at another, may be activated again: after tRAS
and after tWR, which is longer than tRTP (DESIGN CHOICE, log 16), and tRP (R165). -/
def shutCycle (p : VParams) (act c : Nat) : Nat := max (act + p.tRAS) (c + p.wl + p.tWR) + p.tRP

/-- The activates of the first cycle of a run (R180, R182): one on every layer, for a bank that may be commanded and that no other work has open; each
is good for 8 slots. -/
def openWork (c : Nat) (ok : Nat → Bool) (held : List Nat) : List Nat → List Work → List Work
  | _, [] => []
  | used, w :: r =>
    if w.slots = 0 && ok w.bank && !used.contains (w.bank / 16) && !held.contains w.bank then
      { w with slots := min 8 w.left, act := c } :: openWork c ok (w.bank :: held) ((w.bank / 16) :: used) r
    else w :: openWork c ok held used r

/-- One transfer of the first work that can make one, and that work. -/
def transferWork (can : Work → Bool) : List Work → List Work × Option Work
  | [] => ([], none)
  | w :: r =>
    if can w then (if w.left ≤ 1 then r else { w with left := w.left - 1, slots := w.slots - 1 } :: r, some w)
    else
      let p := transferWork can r
      (w :: p.1, p.2)

/-- A work's next transfer can be made at a cycle (R165, R182): its page is open and tRCD is over, and no other access's write data is too near on the
pseudo-channel. -/
def Vault.agentMayMove (v : Vault) (p : VParams) (c : Nat) (w : Work) : Bool :=
  w.slots != 0 && decide (w.act + p.tRCD ≤ c) && match mapFind v.agentData (w.bank % 4) with
    | some x => x.1 == w.ask || decide (x.2 + p.wl + p.tWTR ≤ c)
    | none => true

/-- A window cycle of a vault (R180, R182): a page that could not be idle within 4,096 cycles of its activate after one more transfer is closed; at the first
cycle of a run pages are opened; one transfer of the first agent that can make one. -/
def Vault.serve (v : Vault) (p : VParams) (c : Nat) (ok : Nat → Bool) (first : Bool) : Vault :=
  let kept := v.work.map fun w => if w.slots != 0 && decide (w.act + 4096 < shutCycle p w.act c) then { w with slots := 0 } else w
  let opened := if first then openWork c (fun b => ok b && v.agentMayAct p c b) ((kept.filter fun w => w.slots != 0).map Work.bank) [] kept else kept
  let acts := ((opened.filter fun w => w.slots != 0 && w.act == c).map fun w => (c, w.bank)) ++ v.agentActs.filter fun a => decide (c < a.1 + p.tRC)
  let shut := (opened.filter fun w => w.slots != 0 && w.act == c).foldl (fun m w => mapPut m w.bank (c + p.tRAS + p.tRP)) v.agentShut
  let x := transferWork (v.agentMayMove p c) opened
  match x.2 with
  | none => { v with work := x.1, agentActs := acts, agentShut := shut }
  | some w => { v with work := x.1, agentActs := acts, agentShut := mapPut shut w.bank (shutCycle p w.act c)
                       agentData := mapPut v.agentData (w.bank % 4) (w.ask, c) }

/-- The window cycles of a tile's vault at a cycle, and whether a run begins there (R180): those of svc bundles, and every cycle of a halted tile, in
which the model lets every cycle begin a run (log 16). -/
def Tile.windowAt (t : Tile) (c : Nat) : Option Bool :=
  if t.flow.st = .halted then some true
  else if t.vault.windows.contains c then some (c == 0 || !t.vault.windows.contains (c - 1))
  else none

/-! ## Asks -/

/-- The parts of an access: vault, bank and transfers. -/
abbrev Needs := List (TileId × Nat × Nat)

/-- An ask has no work left at a vault. -/
def State.askDone (s : State) (id : Nat) (t : TileId) : Bool := !((s.tile t).vault.work.any fun w => w.ask == id)

/-- The vaults of an ask. -/
def Ask.tiles (a : Ask) : List TileId := (a.needs.map Prod.fst).eraseDups

/-- The banks of an ask are all still the agents'. -/
def State.askOpen (s : State) (a : Ask) : Bool := a.needs.all fun n => s.agentBank n.1 n.2.1 1

/-- The work of an ask queued at its vaults. -/
def State.queueWork (s : State) (a : Ask) : State :=
  a.needs.foldl (fun (s : State) n => s.updTile n.1 fun t => { t with vault := { t.vault with
    work := insertWork { agent := a.agent, ask := a.id, bank := n.2.1, left := n.2.2 } t.vault.work } }) s

/-- The asks whose work is done at every vault: their rows run. One of whose banks the lend has ended meanwhile is done anew, since its row acts on all of
them at once (R211, R212, R307; log 16). -/
def State.grantAsks (s : State) : State :=
  let done := s.asks.filter fun a => a.tiles.all (s.askDone a.id)
  let given := done.filter s.askOpen
  let late := done.filter fun a => !s.askOpen a
  let s := if given.isEmpty then s else
    ({ s with asks := s.asks.filter fun a => !given.contains a } : State).push
      (given.map fun a => { i := a.row.i, arg := { a.row.arg with grant := .given } })
  late.foldl State.queueWork s

/-- The service agents of a kernel's vaults at a timetable cycle (R182). -/
def State.serveCycle (s : State) (k : Kernel) : State :=
  (((s.tilesOf k).filter fun t => !t.2.vault.work.isEmpty).foldl (fun (s : State) t =>
    match t.2.windowAt k.cycle with
    | some first => s.updTile t.1 fun x => { x with vault := x.vault.serve k.params k.cycle (s.mayBegin t.1) first }
    | none => s) s).grantAsks

/-- The work of an ask at a vault is the first there that may be done. -/
def State.askFirst (s : State) (id : Nat) (t : TileId) : Bool :=
  match (s.tile t).vault.work.find? (fun w => s.mayBegin t w.bank) with
  | some w => w.ask == id
  | none => false

/-- A row that asks again for its turn, some free wall time from now. -/
def State.pollAsk (s : State) (id : Nat) (row : Due) : State :=
  (s.at (s.wall + Config.freeNat s.free + 1) { i := row.i, arg := { row.arg with grant := .waits id } }).tickFree

/-- An agent asks for an access (R182): its work is queued at the vaults, and its row runs when it is done. -/
def State.ask (s : State) (agent : Nat) (row : Due) (needs : Needs) : State :=
  let a : Ask := { id := s.asked, agent := agent, row := row, needs := needs }
  let s := s.queueWork a
  ({ s with asks := s.asks ++ [a], asked := a.id + 1 } : State).pollAsk a.id row

/-- An ask looks whether it can proceed in wall time (R183): its work that is first at a vault with no cycles passing is done. -/
def State.proceed (s : State) (id : Nat) : State :=
  match s.asks.find? fun a => a.id == id with
  | none => s
  | some a =>
    let s := a.tiles.foldl (fun (s : State) t =>
      if s.agentsInWall t && s.askFirst id t then
        s.updTile t fun x => { x with vault := { x.vault with work := x.vault.work.filter fun w => !(w.ask == id && s.mayBegin t w.bank) } }
      else s) s
    let s := if a.tiles.all (s.askDone id) then s.grantAsks else s
    if s.asks.any fun a => a.id == id then s.pollAsk id a.row else s

/-- The row in hand of an agent: it asks for its accesses first, and acts when they are granted. An access of no vault needs no grant. -/
def State.served (s : State) (agent : Nat) (i : Instr) (needs : Needs) (act : State → State) : State :=
  match s.ev.grant with
  | .given => act s
  | .waits id => s.proceed id
  | .fresh => if needs.isEmpty then act s else s.ask agent { i := i, arg := s.ev } needs

/-- The service agents finish the accesses that they have asked for at a partition's vaults, and their rows run (R334); those on a bank that is not theirs
wait on (R211). -/
def State.finishAgents (s : State) (ts : List TileId) : State :=
  (ts.foldl (fun (s : State) t => if (s.tile t).vault.work.isEmpty then s
    else s.updTile t fun x => { x with vault := { x.vault with work := x.vault.work.filter fun w => !s.agentBank t w.bank 1 } }) s).grantAsks

/-- The ask that the row in hand looks after still stands; a fresh or a granted row looks after none. -/
def State.askStands (s : State) : Bool := match s.ev.grant with
  | .waits id => s.asks.any fun a => a.id == id
  | _ => true

/-- Asks withdrawn, with their work. -/
def State.dropAsks (s : State) (p : Due → Bool) : State :=
  let gone := (s.asks.filter fun a => p a.row)
  gone.foldl (fun (s : State) a => a.tiles.foldl (fun s t => s.updTile t fun x => { x with vault := { x.vault with work := x.vault.work.filter fun w => w.ask != a.id } }) s)
    { s with asks := s.asks.filter fun a => !p a.row }

/-! ## What accesses need -/

/-- Neighbouring parts of an access on one bank taken together. -/
def groupNeeds : Needs → Needs
  | [] => []
  | n :: r => match groupNeeds r with
    | [] => [n]
    | m :: r => if n.1 = m.1 ∧ n.2.1 = m.2.1 then (n.1, n.2.1, n.2.2 + m.2.2) :: r else n :: m :: r

/-- The transfers of n bytes from a byte offset of a vault on, bank by bank; a write of slots in part reads them first. -/
def vaultNeeds (t : TileId) (o n : Nat) (write : Bool) : Needs :=
  let times := if write && (o % 64 != 0 || n % 64 != 0) then 2 else 1
  (List.range ((o % 2048 + n + 2047) / 2048)).map fun i =>
    let lo := if i = 0 then o else o / 2048 * 2048 + 2048 * i
    let hi := min (o + n) (o / 2048 * 2048 + 2048 * (i + 1))
    (t, strongBank lo, times * ((hi + 63) / 64 - lo / 64))

/-- The transfers of n bytes of a system address of a context; host memory needs none, and an address that will fault asks for none. -/
def State.sysNeeds (s : State) (c a n : Nat) (write : Bool) : Needs :=
  match (s.ctx c).grain a with
  | none => []
  | some g => if g.kind ≤ 1 || !g.covers a n || n = 0 then [] else vaultNeeds ((s.ctx c).grainTile g) (g.offset a) n write

/-- The transfers of a record load (R200): the record, and the companion that its container names, from the copy of the tile's die. -/
def State.recordNeeds (s : State) (n die v : Nat) : Needs :=
  let c := s.ctx n
  let one := fun (id : Nat) => match c.tablePlace with
    | none => []
    | some (t, o) => vaultNeeds (sameSpot t die) (o + 128 * id) 128 false
  let id := v % 65536
  let r := mapGet [] c.objs id
  if c.objLen ≤ id ∨ 2 ^ 32 ≤ v then [] else one id ++ if bitOf (recWord r 11) 32 ∧ recBits r 11 15 0 < c.objLen then one (recBits r 11 15 0) else []

/-- The transfers of a write of n bytes at an offset of a context's table, into the copy of every die (R198). -/
def State.tableNeeds (s : State) (c o n : Nat) : Needs := match (s.ctx c).tablePlace with
  | none => []
  | some (t, base) => ((s.ctx c).tableTiles t).flatMap fun u => vaultNeeds u (base + o) n true

end Sys2Proof.Machine
end

