-- ==== Sys2Proof/Machine/VaultEvents.lean ====
section
/-!
DEFINITION. Machine/VaultEvents.lean: the events of a vault: bank states, lends, training, overdue refresh, transfers, retries and lane swaps
(R161, R170, R177, R181, R185 to R194). The event in hand names the tile, and its x a bank, a pseudo-channel or a stream; y is the cycle.
-/

namespace Sys2Proof.Machine

/-- A bank of the event's tile changed, where it is in a state. -/
def bankEvent (s : State) (when_ : Bank → Bool) (f : Bank → Bank) : Host.Outcome State Fault Refusal :=
  .next (s.updTile s.ev.tile fun t => t.updVault fun v =>
    let b := v.bank s.ev.x
    if when_ b then v.setBank s.ev.x (f b) else v)

/-- The parameters in use at a tile. -/
def State.paramsAt (s : State) (t : TileId) : VParams := match s.kernelOf t with
  | some (_, k) => k.params
  | none => vparams false 0

/-- BANK_ACTIVATION_COMPLETE (R161). -/
def execBankActivationComplete (s : State) : Host.Outcome State Fault Refusal :=
  bankEvent s (fun b => b.st == .activating) fun b => { b with st := .open }

/-- AUTO_PRECHARGE (R161): at its cycle the bank precharges. -/
def execAutoPrecharge (s : State) : Host.Outcome State Fault Refusal :=
  bankEvent s (fun b => b.ap.isSome) fun b => { b with st := .precharging, lastPre := b.ap, ap := none, lend := 0 }

/-- PRECHARGE_COMPLETE (R161, R181): the bank is idle, and a lend that its PRE carried begins. -/
def execPrechargeComplete (s : State) : Host.Outcome State Fault Refusal :=
  bankEvent s (fun b => b.st == .precharging) fun b =>
    { b with st := .idle, lendEnd := if b.lend = 0 then b.lendEnd else some (s.ev.y + 1024 * b.lend) }

/-- REFRESH_COMPLETE (R161). -/
def execRefreshComplete (s : State) : Host.Outcome State Fault Refusal :=
  bankEvent s (fun b => b.st == .refreshing) fun b => { b with st := .idle }

/-- LEND_END (R181): the deadline at the end of a lend. -/
def execLendEnd (s : State) : Host.Outcome State Fault Refusal :=
  bankEvent s (fun b => b.lend != 0) fun b => { b with lend := 0, deadline := s.ev.y + (s.paramsAt s.ev.tile).tREFB / 2 }

/-! ## Training (R175, R193, R194) -/

/-- 2 ms and 8 ms of wall time. -/
def retrainEvery : Nat := nsUnits 2000000
/-- How long a due retraining waits for a window (R194). -/
def retrainPatience : Nat := nsUnits 8000000

/-- The next retraining of a pseudo-channel awaited (R194). -/
def State.awaitRetraining (s : State) (t : TileId) (q : Nat) : State :=
  s.at (s.wall + retrainEvery) { i := .retrainingDue, arg := { tile := t, x := q } }

/-- TRAINING_WINDOW_START (R193): the window begins, and a retraining that is due runs in it (R194). -/
def execTrainingWindowStart (s : State) : Host.Outcome State Fault Refusal :=
  .next (
    let t := s.ev.tile
    let q := s.ev.x
    let stop := s.ev.y + (s.paramsAt t).tTRN
    if (mapFind (s.tile t).vault.trainDue q).isSome then
      (s.updTile t fun x => x.updVault fun v => v.train' q stop s.wall).awaitRetraining t q
    else s.updTile t fun x => x.updVault fun v => { v with train := mapPut v.train q stop })

/-- TRAINING_WINDOW_END (R161). -/
def execTrainingWindowEnd (s : State) : Host.Outcome State Fault Refusal :=
  .next (s.updTile s.ev.tile fun t => t.updVault fun v => { v with train := mapDel v.train s.ev.x })

/-- RETRAINING_DUE (R194): 2 ms after the last one; in a hold it runs at once, otherwise a window, a TRAIN or force must come. -/
def execRetrainingDue (s : State) : Host.Outcome State Fault Refusal :=
  .next (
    let t := s.ev.tile
    let q := s.ev.x
    match s.kernelOf t with
    | none => s
    | some (_, k) =>
      let v := (s.tile t).vault
      if s.wall < mapGet 0 v.lastTrain q + retrainEvery ∨ (mapFind v.trainDue q).isSome then s
      else if k.holdFrom.isSome then
        (s.updTile t fun x => x.updVault fun v => { v with lastTrain := mapPut v.lastTrain q s.wall }).awaitRetraining t q
      else
        (s.updTile t fun x => x.updVault fun v => { v with trainDue := mapPut v.trainDue q s.wall }).at (s.wall + retrainPatience)
          { i := .forcedRetraining, arg := { tile := t, x := q } })

/-- FORCED_RETRAINING (R194): the partition holds for tTRN wall cycles; y = 1 is the end of it. -/
def execForcedRetraining (s : State) : Host.Outcome State Fault Refusal :=
  .next (
    let t := s.ev.tile
    let q := s.ev.x
    match s.kernelOf t with
    | none => s
    | some (n, k) =>
      match mapFind (s.tile t).vault.trainDue q with
      | none => s
      | some due =>
        if s.ev.y = 1 then
          ((s.updTile t fun x => x.updVault fun v =>
            { v with lastTrain := mapPut v.lastTrain q s.wall, trainDue := mapDel v.trainDue q }).awaitRetraining t q).endHold n 3
        else if s.wall < due + retrainPatience then s
        else (s.beginHold n 3).at (s.wall + k.params.tTRN * k.period) { i := .forcedRetraining, arg := { tile := t, x := q, y := 1 } })

/-! ## Overdue refresh (R177) -/

/-- A trap raised at a cycle, kept until the cycle's landings are done (R117). -/
def Tile.addTrap (t : Tile) (cycle cause info : Nat) : Tile :=
  let l := t.flow.cycTraps
  { t with flow := { t.flow with
      cycTraps := (l.filter fun x => x.cycle ≤ cycle) ++ [{ cycle := cycle, cause := cause, info := info }] ++ l.filter fun x => cycle < x.cycle } }

/-- A mesh collision of the tile in a cycle, or the loss of flits of its own sends: one trap for all the collisions, and one for all the losses,
of the cycle, with the lowest address (R255, R256). -/
def Tile.addMesh (t : Tile) (loss : Bool) (cycle addr : Nat) : Tile :=
  let same := fun (x : CycTrap) => x.cause == causeMesh && x.loss == loss && x.cycle == cycle
  let l := t.flow.cycTraps
  if l.any same then { t with flow := { t.flow with cycTraps := l.map fun x => if same x then { x with info := min x.info addr } else x } }
  else { t with flow := { t.flow with
      cycTraps := (l.filter fun x => x.cycle ≤ cycle) ++ [{ cycle := cycle, cause := causeMesh, info := addr, loss := loss }] ++
        l.filter fun x => cycle < x.cycle } }

/-- REFRESH_OVERDUE (R177): the trap, and the new deadline of the bank that the controller refreshes in the stop. -/
def execRefreshOverdue (s : State) : Host.Outcome State Fault Refusal :=
  .next (s.updTile s.ev.tile fun t =>
    (t.updVault fun v => v.setBank s.ev.x { v.bank s.ev.x with deadline := s.ev.y + (s.paramsAt s.ev.tile).tREFB }).addTrap s.ev.y causeOverdue s.ev.x)

/-! ## Transfers (R170, R185 to R188, R229, R230) -/

/-- The stream that a number names. -/
def Vault.stream? (v : Vault) (seq : Nat) : Option Stream := v.streams.find? fun x => x.seq == seq

/-- A stream changed; one with every transfer made goes. -/
def Vault.updStream (v : Vault) (seq : Nat) (f : Stream → Stream) : Vault :=
  { v with streams := (v.streams.map fun x => if x.seq = seq then f x else x).filter fun x => decide (x.done < x.n) }

/-- One more transfer of a stream made. -/
def Vault.stepStream (v : Vault) (seq : Nat) : Vault := v.updStream seq fun x => { x with done := x.done + 1 }

/-- The buffer bytes of a slot in column order (R203, R223, R229): half byte k of slot s goes to the place of its logical row and column, and a row
beyond the strong brick goes nowhere. rows is the row count of the level, cont the container bits. -/
def transposeNibbles (cont rows slot base : Nat) : Nat → List Nat → Nat → Nat
  | _, [], x => x
  | k, nib :: r, x =>
    let c := brickCols cont
    let npe := cont / 4
    let e := (128 * slot + k) / npe
    let u := (128 * slot + k) % npe
    let col := e / rows
    let row := e % rows
    let at_ := (row * c + col) * npe + u
    transposeNibbles cont rows slot base (k + 1) r
      (if row < brickRows cont 0 then setField x (8 * base + 4 * at_) 4 nib else x)

/-- The half bytes of a slot. -/
def nibblesOf (bs : List Byte) : List Nat := bs.flatMap fun b => [b.toNat % 16, b.toNat / 16]

/-- A slot written into an operand buffer (R229). -/
def Tile.bufferSlot (t : Tile) (k q : Nat) (lay : Bool) (cont lvl slot : Nat) (bs : List Byte) : Tile :=
  let b := t.buf k
  let x := b.data.toNat
  let y := if lay then transposeNibbles cont (brickRows cont lvl) slot (2048 * q) 0 (nibblesOf bs) x
           else setField x (8 * (2048 * q + 64 * slot)) 512 (bytesNat bs)
  t.setBuf k { b with data := BitVec.ofNat 65536 y }

/-- Transfer j of a read stream delivered; the zeros of a null brick stand in column order in no buffer (R229). -/
def Tile.deliver (t : Tile) (x : Stream) (bs : List Byte) : Tile :=
  match x.dest with
  | .staging a => { t with staging := stagingPut t.staging (a + 64 * x.done) bs }
  | .buffer k q lay cont _ => t.bufferSlot k q (lay && !x.null) cont x.lvl (x.slot + x.done) bs
  | .scale res => { t with flight := t.flight.map fun r =>
      if r.seq = res then { r with val := setField r.val (512 * x.done) 512 (bytesNat bs), pend := decide (x.done + 1 < x.n) } else r }

/-- Transfer j of a read stream of a portable image: it is held until the image cycle from which it is readable (R315). The codes of an RDSC wait in
its result. -/
def Tile.holdSlot (t : Tile) (x : Stream) (bs : List Byte) : Tile :=
  let r : Result := { seq := 0, due := x.first + x.done, img := x.img + x.done, dst := .flagsOnly, back := x.first + x.done }
  match x.dest with
  | .staging a => t.launch { r with dst := .staging 6 false, bytes := wholeBytes (a + 64 * x.done) bs }
  | .buffer k q lay cont _ => t.launch { r with dst := .bufSlot k q (lay && !x.null) cont x.lvl (x.slot + x.done), val := bytesNat bs }
  | .scale _ => t.deliver x bs

/-- The partition of a tile has stopped in a faulted ending (R325). -/
def State.ending (s : State) (t : TileId) : Bool := match s.kernelOf t with
  | some (_, k) => k.closed
  | none => true

/-- A program transfer that fails: the trap at its cycle, none in a faulted ending; a stream of an operand buffer or of scales ends with it, and
what it was to stamp or to rename stays as it was (R186, R188, R229, R230). -/
def State.failTransfer (s : State) (id : TileId) (x : Stream) (cycle : Nat) : State :=
  let quiet := s.ending id
  s.updTile id fun t =>
    let t := t.updVault fun v => match x.dest with
      | .staging _ => v.stepStream x.seq
      | _ => { v with streams := v.streams.filter fun y => y.seq != x.seq }
    let t := match x.dest with
      | .staging _ => t
      | .buffer _ _ _ _ _ => { t with flight := t.flight.filter fun r => r.seq != x.seq + 1 }
      | .scale res => { t with flight := t.flight.filter fun r => r.seq != res }
    if quiet then t else t.addTrap cycle causeData (dataInfo x.bank x.page (x.slot + x.done))

/-- A transfer that meets a parity error (R187): its retries begin, and the partition holds. -/
def State.beginRetry (s : State) (id : TileId) (x : Stream) (grp fails lane : Nat) (bs : List Byte) : State :=
  let q := x.bank % 4
  let s := s.updTile id fun t => t.updVault fun v =>
    { v with retries := v.retries ++ [{ q := q, seq := x.seq, read := x.read, grp := grp, fails := fails, lane := lane, data := BitVec.ofNat 512 (bytesNat bs) }] }
  let s := match s.kernelOf id with
    | some (n, k) => if k.closed then s else s.beginHold n 2
    | none => s
  s.at (s.wall + nsUnits 40) { i := .busRetry, arg := { tile := id, x := q } }

/-- A transfer made: a read delivered, a write put into its slot with its check word, and the jobs that copy the brick told (R170, R174, R210). -/
def State.completeTransfer (s : State) (id : TileId) (x : Stream) (bs : List Byte) : State :=
  if x.read then
    let hit := match x.dest with
      | .staging a => s.struck id (x.first + x.done) ((a + 64 * x.done) % stagingSize)
      | _ => false
    s.updTile id fun t => ((if hit then t else if x.img = 0 then t.deliver x bs else t.holdSlot x bs).updVault fun v => v.stepStream x.seq).count 3 (b2n (!x.null))
  else
    let key := pageKey x.bank x.page
    let s := s.updTile id fun t => (t.updVault fun v =>
      let p := v.page key
      ((v.setPage key (if x.raw then pagePut p (64 * (x.slot + x.done)) bs else pageWrite p x.lvl (x.slot + x.done) bs)).touch key (x.slot + x.done)).stepStream
        x.seq).count 3 1
    if x.raw then s else s.noteDirty id x

/-- A transfer crosses the bus with its data: it is made, or it fails, or its retries begin. -/
def State.crossBus (s : State) (id : TileId) (x : Stream) (cycle : Nat) (bs : List Byte) : State :=
  let v := (s.tile id).vault
  let q := x.bank % 4
  match v.meets q x.read with
  | .nothing => s.completeTransfer id x bs
  | .failed g =>
    (s.updTile id fun t => t.updVault fun v => v.logBus (busWord q g x.read 2 0 0 0 x.bank x.page (x.slot + x.done)) cycle).failTransfer id x cycle
  | .parity => (s.beginRetry id x (field v.vinj.toNat 6 4) 0 0 bs).push [{ i := .vinjParityInject, arg := { tile := id } }]
  | .stuck => (s.beginRetry id x (field v.vinj.toNat 6 4) 3 (field v.vinj.toNat 11 7) bs).push [{ i := .vinjStuckLane, arg := { tile := id, x := q } }]
  | .fault f =>
    (s.updTile id fun t => t.updVault fun v => { v with nature := v.nature.erase f }).beginRetry id x f.grp f.tries f.lane bs

/-- VAULT_READ_TRANSFER (R163, R170, R185): the next transfer of a read stream. -/
def execVaultReadTransfer (s : State) : Host.Outcome State Fault Refusal :=
  .next (
    let id := s.ev.tile
    let t := s.tile id
    match t.vault.stream? s.ev.x with
    | none => s
    | some x =>
      let cycle := x.first + x.done
      if !x.read then s
      else if x.null then s.completeTransfer id x (List.replicate 64 0)
      else
        let key := pageKey x.bank x.page
        let slot := x.slot + x.done
        let p := t.vault.page key
        let f := if x.raw then .clean (pageBytes id key s.free p (64 * slot) 64) else pageRead id key s.free p x.lvl slot
        let s := s.tickFree.updTile id fun t =>
          (t.updVault fun v => v.logFinding f 0 x.lvl x.bank x.page slot cycle).count 8 (match f with
            | .corrected _ _ => 1
            | _ => 0)
        match f.data with
        | none => s.failTransfer id x cycle
        | some bs => s.crossBus id x cycle bs)

/-- VAULT_WRITE_TRANSFER (R163): y = 0 takes the next slot from staging, y = 1 writes the next one taken. -/
def execVaultWriteTransfer (s : State) : Host.Outcome State Fault Refusal :=
  .next (
    let id := s.ev.tile
    match (s.tile id).vault.stream? s.ev.x with
    | none => s
    | some x =>
      if x.read then s
      else if s.ev.y = 0 then
        s.updTile id fun t => t.updVault fun v => v.updStream x.seq fun y =>
          { y with taken := y.taken ++ [BitVec.ofNat 512 (bytesNat (stagingBytes t.staging (y.src + 64 * y.taken.length) 64))] }
      else match x.taken[x.done]? with
        | none => s
        | some d => s.crossBus id x (x.first + x.done) (natBytes 64 d.toNat))

/-! ## Retries and lane swaps (R187, R188, R192) -/

/-- VINJ_PARITY_INJECT (R192): the armed inversion has acted once, and en clears. -/
def execVinjParityInject (s : State) : Host.Outcome State Fault Refusal :=
  .next (s.updTile s.ev.tile fun t => t.updVault fun v => { v with vinj := v.vinj &&& ~~~1#64 })

/-- VINJ_STUCK_LANE (R192): the stuck lane acts on every transfer until it is swapped; the first failing try is the transfer itself, and where the
spare of the group is in use no swap will follow. -/
def execVinjStuckLane (s : State) : Host.Outcome State Fault Refusal :=
  .next (s.updTile s.ev.tile fun t => t.updVault fun v => { v with retries := v.retries.map fun r =>
    if r.q = s.ev.x then { r with fails := 3, lane := field v.vinj.toNat 11 7 } else r })

/-- A retry changed. -/
def Vault.updRetry (v : Vault) (q : Nat) (f : Retry → Retry) : Vault :=
  { v with retries := v.retries.map fun r => if r.q = q then f r else r }

/-- The outcome of a retried transfer is known: its log entry, the end of its part in the hold, and its end (R187, R188). -/
def State.endRetry (s : State) (id : TileId) (r : Retry) (ok : Bool) (tries : Nat) : State :=
  let s := match (s.tile id).vault.stream? r.seq with
  | none => s.updTile id fun t => t.updVault fun v => { v with retries := v.retries.filter fun y => y.q != r.q }
  | some x =>
    let cycle := x.first + x.done
    let out := if ok then (if r.swapped then 1 else 0) else 2
    let w := busWord r.q r.grp r.read out tries (if out = 1 then r.lane else 0) 0 x.bank x.page (x.slot + x.done)
    let s := s.updTile id fun t => t.updVault fun v =>
      let v := ({ v with retries := v.retries.filter fun y => y.q != r.q } : Vault).logBus w cycle
      if ok then v else { v with failed := mapPut v.failed r.q r.grp }
    if ok then s.completeTransfer id x (natBytes 64 r.data.toNat) else s.failTransfer id x cycle
  match s.kernelOf id with
  | some (n, _) => s.endHold n 2
  | none => s

/-- BUS_RETRY (R187, R188): one retry of 40 ns has come to its end. With x = 4 it is the end of an agent's retries in kernel y. -/
def execBusRetry (s : State) : Host.Outcome State Fault Refusal :=
  .next (
    let id := s.ev.tile
    let q := s.ev.x
    if q = 4 then s.endHold s.ev.y 2
    else
      let v := (s.tile id).vault
      match v.retries.find? fun r => r.q == q with
      | none => s
      | some r =>
        let s := s.updTile id fun t => t.count 9 1
        let tries := r.tries + 1
        let again : Due := { i := .busRetry, arg := { tile := id, x := q } }
        if r.fails = 0 then s.endRetry id r true tries
        else
          let s := s.updTile id fun t => t.updVault fun v => v.updRetry q fun r => { r with tries := tries, fails := r.fails - 1 }
          if tries = 3 then
            if (mapFind v.spare (8 * q + r.grp)).isSome then s.endRetry id r false 3
            else s.at (s.wall + nsUnits 2000) { i := .laneSwap, arg := { tile := id, x := q } }
          else if tries = 6 then s.endRetry id r false 6
          else s.at (s.wall + nsUnits 40) again)

/-- LANE_SWAP (R188): the failing lane moves to the group's spare, and the transfer is retried again. -/
def execLaneSwap (s : State) : Host.Outcome State Fault Refusal :=
  .next (
    let id := s.ev.tile
    let q := s.ev.x
    match (s.tile id).vault.retries.find? fun r => r.q == q with
    | none => s
    | some r =>
      let s := s.updTile id fun t => t.updVault fun v =>
        let x := v.vinj.toNat
        let hit := bitOf x 0 && bitOf x 1 && field x 3 2 == q && field x 6 4 == r.grp && field x 11 7 == r.lane
        ({ v with spare := mapPut v.spare (8 * q + r.grp) r.lane, vinj := if hit then v.vinj &&& ~~~1#64 else v.vinj } : Vault).updRetry q
          fun r => { r with swapped := true }
      s.at (s.wall + nsUnits 40) { i := .busRetry, arg := { tile := id, x := q } })

end Sys2Proof.Machine
end

