-- ==== Sys2Proof/Machine/System.lean ====
section
/-!
DEFINITION. Machine/System.lean: the landing queue (R123), the system registers and MFS and MTS (R101, R112, R156, R191, R247, R343, R369), the
landing of results (R56), and the counters (R343, R344).
-/

namespace Sys2Proof.Machine

/-! ## The landing queue (R119, R123) -/

/-- An entry of the landing queue: a captured result, or a pending format write (R95). -/
inductive LqEntry where
  | result (r : Result)
  | format (w : FmtWrite)
deriving DecidableEq, Repr

/-- Remaining cycles, or bundles, of an entry of a tile stopped at its stop cycle. -/
def LqEntry.rem (stop : Nat) : LqEntry → Nat
  | .result r => r.due - stop
  | .format w => w.left

/-- Its place in issue order. -/
def LqEntry.seq : LqEntry → Nat
  | .result r => r.seq
  | .format w => w.seq

/-- An entry put in its place: by remaining cycles, then by issue. -/
def lqInsert (stop : Nat) (e : LqEntry) : List LqEntry → List LqEntry
  | [] => [e]
  | x :: l => if e.rem stop < x.rem stop ∨ (e.rem stop = x.rem stop ∧ e.seq < x.seq) then e :: x :: l else x :: lqInsert stop e l

/-- The landing queue of a tile whose handler runs (R123). -/
def Tile.lq (t : Tile) : List LqEntry :=
  if t.flow.handler then
    let rs := (t.flight.filter fun r => r.dst.capturable && decide (t.flow.stopAt < r.due)).map LqEntry.result
    (rs ++ t.fmts.pend.map LqEntry.format).foldl (fun a e => lqInsert t.flow.stopAt e a) []
  else []

/-- The file and the register of a result (R123). -/
def Dest.file : Dest → Nat × Nat
  | .sreg n | .latch n => (0, n)
  | .vreg n => (1, n)
  | .mk n => (2, n)
  | .mstack d => (3, d)
  | .scale name _ _ => (4, name)
  | .fcsr => (8, 0)
  | .flagsOnly => (9, 0)
  | .sysreg _ | .jpPosted _ => (10, 0)
  | .staging code _ => (11, code)
  | _ => (0, 0)

/-- The least staging address that a result writes. -/
def lowestAddr (bs : List SByte) : Nat := match bs with
  | [] => 0
  | b :: r => r.foldl (fun a x => min a x.addr) b.addr

/-- The address field of a descriptor (R123): a staging address, or the number of a system register. -/
def Result.addrField (r : Result) : Nat := match r.dst with
  | .staging _ _ => lowestAddr r.bytes
  | .sysreg n => n
  | .jpPosted k => 0x160 + k
  | _ => 0

/-- An entry's value is still returning at a cycle (R122): a reply not yet back, or the codes of an RDSC whose transfers are frozen with the vault
controller (R244; DEDUCED, log 69). -/
def Result.pending (r : Result) (cycle : Nat) : Bool := match r.dst with
  | .latch _ => true
  | .scale _ _ _ => r.pend
  | _ => r.pend && decide (cycle < r.back)

/-- The descriptor of an entry (R123). -/
def LqEntry.desc (stop cycle : Nat) (e : LqEntry) : Nat :=
  let rem := e.rem stop
  let f := 1 + rem % 256 * 2 ^ 11 + rem / 256 % 4096 * 2 ^ 45
  match e with
  | .result r =>
    let (file, reg) := r.dst.file
    f + file * 2 + reg % 64 * 2 ^ 5 + b2n (r.pending cycle) * 2 ^ 20 + r.flags.toNat * 2 ^ 21 + r.addrField * 2 ^ 27
  | .format w =>
    let (file, reg) := if w.target = 16 then (5, 0) else if w.target = 17 then (7, 0) else (6, w.target)
    f + file * 2 + reg * 2 ^ 5 + 2 ^ 19 + w.flags.toNat * 2 ^ 21

/-- Words of the value of an entry's file (R123): 32 of a vector, 16 of a scale name, the bytes of a staging write, one otherwise. A paired VST or VSCAT
writes 512 bytes; words 32 to 63 of its entry are beyond lqsel's reach and land as captured (DESIGN CHOICE, log 70: R123 gives an entry 32). -/
def LqEntry.words : LqEntry → Nat
  | .result r => match r.dst with
    | .vreg _ => 32
    | .scale _ _ _ => 16
    | .staging _ _ => (r.bytes.length + 7) / 8
    | .flagsOnly => 0
    | _ => 1
  | .format _ => 1

/-- Word w of an entry's value; an inactive lane of a vector reads as the register holds it. -/
def Tile.lqWord (t : Tile) (cycle : Nat) (e : LqEntry) (w : Nat) : Nat :=
  if e.words ≤ w then 0
  else match e with
    | .result r =>
      if r.pending cycle then 0
      else match r.dst with
        | .staging _ _ => bytesNat (((r.bytes.drop (8 * w)).take 8).map SByte.val)
        | .vreg n =>
          let old := mapGet 0 t.regs.v n
          let lane := fun k => if laneOn r.keep k then laneOf old k else r.val / 2 ^ (32 * k) % 2 ^ 32
          lane (2 * w) + lane (2 * w + 1) * 2 ^ 32
        | _ => r.val / 2 ^ (64 * w) % 2 ^ 64
    | .format x => x.val

/-- The selected entry of the landing queue. -/
def Tile.lqSelected (t : Tile) : Option LqEntry := t.lq[field t.sys.lqsel.toNat 4 0]?

/-! ## Words that selectors name -/

/-- A word of the vector and mask view (R156). -/
def Tile.vwdat (t : Tile) : Nat :=
  let x := t.sys.vwsel.toNat
  let n := field x 6 2
  let w := field x 11 7
  match field x 1 0 with
  | 0 => (mapGet 0 t.regs.v n).toNat / 2 ^ (64 * w) % 2 ^ 64
  | 1 => if n < 8 then (mapGet 0 t.regs.msk n).toNat else 0
  | 2 => (t.regs.ms.reverse.getD n 0).toNat
  | _ => 0

/-- A word of the matrix view (R247). -/
def Tile.mwdat (t : Tile) : Nat :=
  let x := t.sys.mwsel.toNat
  let n := field x 8 2
  let w := field x 19 9
  match field x 1 0 with
  | 0 => if n < 4 ∧ w < 2048 then (t.acc n).elems.toNat / 2 ^ (64 * w) % 2 ^ 64 else 0
  | 1 =>
    if 8 ≤ n then 0
    else if w < 1024 then (t.buf n).data.toNat / 2 ^ (64 * w) % 2 ^ 64
    else if w = 1024 then let b := t.buf n; b.slot + b.gen * 2 ^ 7 + b2n b.valid * 2 ^ 11
    else 0
  | 2 =>
    if w < 16 then (t.scaleSlot n).codes.toNat / 2 ^ (64 * w) % 2 ^ 64
    else if w = 16 then (t.scaleSlot n).gen + b2n (t.slotLive n) * 16
    else 0
  | _ => if n < 32 ∧ w = 0 then t.slotOf n + (t.scaleSlot (t.slotOf n)).gen * 2 ^ 7 else 0

/-- mstat (R247). -/
def Tile.mstat (t : Tile) : Nat :=
  ((List.range 4).map fun k =>
    let a := t.acc k
    ((match a.st with
      | .empty => 0 | .accumulating => 1 | .retiring => 2 | .retired => 3) + b2n a.int * 4 + a.flags.toNat * 8) * 2 ^ (16 * k)).sum

/-- All ones for a time that never occurred (R191). -/
def timeWord (o : Option Nat) : Nat := o.getD (2 ^ 64 - 1)

/-- The last data cycle of a direction of a pseudo-channel. -/
def Vault.lastData (v : Vault) (q : Nat) (read : Bool) : Option Nat :=
  ((v.bus.filter fun u => u.q == q && u.read == read).map BusUse.last).max?

/-- A word of the bank view (R191). -/
def Vault.view (v : Vault) (mask sel now : Nat) : Nat :=
  let b := field sel 6 0
  let x := v.bank b
  match field sel 10 7 with
  | 0 => v.summary mask b now
  | 1 => timeWord x.lastAct
  | 2 => timeWord x.lastPre
  | 3 => timeWord x.lastRef
  | 4 => timeWord x.lastRd
  | 5 => timeWord x.lastWr
  | 6 => if bitOf mask b then 2 ^ 64 - 1 else x.deadline
  | 7 => timeWord x.lendEnd
  | 8 => timeWord (v.lastData (b % 4) true)
  | 9 => timeWord (v.lastData (b % 4) false)
  | _ => 0

/-- A word of the error logs (R191). -/
def Vault.logWord (v : Vault) (sel : Nat) : Nat :=
  let e := mapGet (0, 0) (if bitOf sel 0 then v.blog else v.alog) (field sel 6 1)
  if bitOf sel 7 then e.2 else e.1

/-- vlane (R191). -/
def Vault.lanes (v : Vault) : Nat := (v.spare.map fun x => 2 ^ x.1).sum + (v.failed.map fun x => 2 ^ (32 + x.1)).sum

/-- The loop entry at a level, the bottom first. -/
def Tile.loopAt (t : Tile) (l : Nat) : Option LoopEntry := t.flow.loops.reverse[l]?

/-- The capability register (R314): bits 0 to 11. -/
def cap0 : Nat := 0xFFF

/-! ## MFS (R101, R112) -/

/-- The cycle that the kernel of the tile has reached. -/
def Ctx.cycle (c : Ctx) : Nat := match c.kernel with
  | some (_, k) => k.cycle
  | none => c.now

/-- The value of a system register (R101, R156, R191, R247, R260, R276, R280, R343, R369). -/
def Ctx.readSys (c : Ctx) (t : Tile) (n : Nat) : Nat :=
  if n = 0x000 then c.pc.off % 65536 + c.pc.seg % 65536 * 65536
  else if n = 0x001 then c.now
  else if n = 0x002 then c.s.wclk
  else if n = 0x003 then t.fmts.fcsr.toNat
  else if n = 0x004 then t.fmts.efr.toNat
  else if n = 0x005 then t.ftsr
  else if n < 0x020 then (t.ftRow (n - 0x010)).toNat
  else if n < 0x026 then ((t.loopAt (n - 0x020)).map LoopEntry.i).getD 0
  else if n < 0x02E then ((t.loopAt (n - 0x028)).map LoopEntry.n).getD 0
  else if n = 0x030 then t.flow.loops.length
  else if n = 0x031 then stagePreds t.flow.loops
  else if n = 0x040 then tileX c.id + tileY c.id * 2 ^ 8 + c.id * 2 ^ 16
  else if n = 0x041 then b2n c.handler + b2n (match c.kernel with
      | some (_, k) => k.img.priv
      | none => false) * 2 + b2n (match c.kernel with
      | some (_, k) => k.img.portable
      | none => false) * 4
  else if n < 0x04C then (mapGet 0 t.sys.mbr (n - 0x048)).toNat
  else if n = 0x060 then cap0
  else if n = 0x061 then 0
  else if n = 0x100 then t.sys.xcause.toNat
  else if n = 0x101 then t.sys.xpc.toNat
  else if n = 0x102 then t.sys.xtgt.toNat
  else if n = 0x103 then t.sys.xnext.toNat
  else if n = 0x104 then t.sys.xcyc.toNat
  else if n = 0x105 then t.sys.xinfo.toNat
  else if n = 0x106 then b2n t.sys.ss + b2n t.sys.bpsk * 2
  else if n < 0x110 then (mapGet 0 t.sys.hsv (n - 0x108)).toNat
  else if n = 0x110 then t.lq.length
  else if n = 0x111 then t.sys.lqsel.toNat
  else if n = 0x112 then match t.lqSelected with
    | some e => e.desc t.flow.stopAt c.cycle
    | none => 0
  else if n = 0x113 then match t.lqSelected with
    | some e => t.lqWord c.cycle e (field t.sys.lqsel.toNat 9 5)
    | none => 0
  else if n < 0x124 then (mapGet 0 t.sys.bpa (n - 0x120)).toNat
  else if n = 0x130 then t.sys.vwsel.toNat
  else if n = 0x131 then t.vwdat
  else if n = 0x132 then t.regs.ms.length
  else if n = 0x140 then t.sys.vbsel.toNat
  else if n = 0x141 then t.vault.view c.sbmask t.sys.vbsel.toNat c.now
  else if n = 0x142 then t.sys.vtrap.toNat
  else if n = 0x143 then t.sys.vtearl.toNat
  else if n = 0x144 then t.sys.vlsel.toNat
  else if n = 0x145 then t.vault.logWord t.sys.vlsel.toNat
  else if n = 0x146 then t.vault.acount + t.vault.bcount * 2 ^ 32
  else if n = 0x147 then t.vault.vinj.toNat
  else if n = 0x148 then t.vault.lanes
  else if n = 0x150 then t.sys.mwsel.toNat
  else if n = 0x151 then t.mwdat
  else if n = 0x152 then t.mstat
  else if n = 0x153 then min (t.matrix.busy - c.now) 255
  else if n < 0x164 then (mapGet 0 t.sync.jp (n - 0x160)).toNat
  else if n = 0x164 then t.sync.wcfg.toNat
  else if n = 0x165 then b2n t.sync.latch
  else if n = 0x170 then c.s.ltime
  else if n = 0x171 then t.sys.lksel.toNat
  else if n = 0x172 then
    let l := c.s.link t.sys.lksel.toNat
    min l.fec (2 ^ 32 - 1) + min l.replays 65535 * 2 ^ 32 + b2n l.down * 2 ^ 48
  else if n = 0x173 then min c.s.host.refused (2 ^ 32 - 1) + min c.s.host.discarded (2 ^ 32 - 1) * 2 ^ 32
  else if n < 0x208 then (mapGet 0 t.perf.pcc (n - 0x200)).toNat
  else if n < 0x210 then
    mapGet 0 t.perf.pcv (n - 0x208) + b2n ((mapGet (0 : Word) t.perf.pcc (n - 0x208)).getLsbD 8) * 2 ^ 63
  else if n = 0x210 then t.sys.dlsel.toNat
  else if n = 0x211 then
    ((mapGet [] t.perf.dl (field t.sys.dlsel.toNat 5 0)).getD (field t.sys.dlsel.toNat 7 6) 0).toNat
  else if n = 0x212 then t.perf.dlcnt
  else if n = 0x213 then t.sys.dthr.toNat
  else t.sys.istp.toNat

/-- MFS (R112). A read of a count is remembered for the overflow rule of R344. -/
def execMfs (d : Reg) (n : BitVec 12) (s : State) : Host.Outcome State Fault Refusal :=
  runSlot 1 s fun c t =>
    let k := n.toNat
    if (sysAccess k).isNone then .trap causeEncoding 1
    else if sysPrivileged k && !c.privileged then .trap causePriv 1
    else
      let t' := c.land t .scalar (.sreg d.toNat) (c.readSys t k) 1
      .ok (if !c.handler && decide (0x208 ≤ k) && decide (k < 0x210) && d != 0 then
        { t' with perf := { t'.perf with reads := t'.perf.reads ++ [(k - 0x208, t.flow.seq)] } } else t')

/-- MTS (R112). -/
def execMts (a : Reg) (n : BitVec 12) (s : State) : Host.Outcome State Fault Refusal :=
  runSlot 1 s fun c t =>
    let k := n.toNat
    if !sysWritable k then .trap causeEncoding 1
    else if sysPrivileged k && !c.privileged then .trap causePriv 1
    else .ok (c.land t .scalar (if k = 0x003 then .fcsr else .sysreg k) (t.sreg a).toNat 1)

/-! ## The writing of system registers (R14, R112) -/

/-- A plain system register written, its reserved bits dropped; the registers that rows of their own write stay. -/
def Tile.writeSys (t : Tile) (n v : Nat) : Tile :=
  let w (k : Nat) : Word := BitVec.ofNat 64 (v % 2 ^ k)
  let sys := t.sys
  if n = 0x101 then
    { t with sys := { sys with xpc := BitVec.ofNat 64 (field v 15 0 + field sys.xpc.toNat 31 16 * 65536 + field v 33 32 * 2 ^ 32) } }
  else if n = 0x102 then { t with sys := { sys with xtgt := w 32 } }
  else if n = 0x106 then { t with sys := { sys with ss := bitOf v 0, bpsk := bitOf v 1 } }
  else if 0x108 ≤ n ∧ n < 0x110 then { t with sys := { sys with hsv := mapSet 0 sys.hsv (n - 0x108) (w 64) } }
  else if n = 0x111 then { t with sys := { sys with lqsel := w 10 } }
  else if 0x120 ≤ n ∧ n < 0x124 then
    { t with sys := { sys with bpa := mapSet 0 sys.bpa (n - 0x120) (bpaKept v) } }
  else if n = 0x130 then { t with sys := { sys with vwsel := w 12 } }
  else if n = 0x140 then { t with sys := { sys with vbsel := w 11 } }
  else if n = 0x144 then { t with sys := { sys with vlsel := w 8 } }
  else if n = 0x147 then t.updVault fun x => { x with vinj := w 13 }
  else if n = 0x150 then { t with sys := { sys with mwsel := w 20 } }
  else if 0x160 ≤ n ∧ n < 0x164 then
    -- posted is set only by JCBPOST (R260)
    let old := mapGet 0 t.sync.jp (n - 0x160)
    { t with sync := { t.sync with jp := mapSet 0 t.sync.jp (n - 0x160) (jpKept (v % 2 ^ 25 + b2n (bitOf v 25 && old.getLsbD 25) * 2 ^ 25)) } }
  else if n = 0x164 then { t with sync := { t.sync with wcfg := wcfgKept v } }
  else if n = 0x171 then { t with sys := { sys with lksel := w 5 } }
  else if 0x200 ≤ n ∧ n < 0x208 then
    -- ev, en and olog are written; ovf and the count by rows of their own (R343)
    let old := (mapGet (0 : Word) t.perf.pcc (n - 0x200)).toNat
    let new := pccKept (v % 2 ^ 7 + b2n (bitOf old 8) * 2 ^ 8 + b2n (bitOf v 9) * 2 ^ 9)
    { t with perf := { t.perf with pcc := mapSet 0 t.perf.pcc (n - 0x200) new } }
  else if n = 0x210 then { t with sys := { sys with dlsel := w 8 } }
  else if n = 0x213 then { t with sys := { sys with dthr := dthrKept v } }
  else if n = 0x214 then { t with sys := { sys with istp := istpKept v } }
  else t

/-- The rows that the write of a system register brings about: each carries the register's number in x, or the counter's, and the value in y. -/
def Tile.sysRows (t : Tile) (id : TileId) (n v : Nat) : List Due :=
  let row (i : Instr) : Due := { i := i, arg := { tile := id, x := n, y := v } }
  if n = 0x112 then [row (if bitOf v 0 then .lqFlagsWrite else .lqEntryDiscard)]
  else if n = 0x113 then [row .lqvWrite]
  else if n = 0x131 then [row .vwdatWrite]
  else if n = 0x146 then [row .vlcntWrite]
  else if n = 0x151 then [row .mwdatWrite]
  else if 0x200 ≤ n ∧ n < 0x208 then
    let old := (mapGet (0 : Word) t.perf.pcc (n - 0x200)).toNat
    let k : EvArg := { tile := id, x := n - 0x200, y := old }
    (if bitOf old 8 && !bitOf v 8 then [{ i := .pccOvfClear, arg := k }] else []) ++
    (if field old 6 0 ≠ field v 6 0 then [{ i := .pccReprogram, arg := k }]
     else if bitOf v 7 then [{ i := .pccClear, arg := k }] else [])
  else []

/-! ## RESULT_LANDING (R56, R74, R226, R239, R240) -/

/-- A lane-wise result over the register's lanes that it keeps (R134). -/
def keepLanes (keep : Mask) (old : VWord) (val : Nat) : VWord :=
  if keep = 0 then BitVec.ofNat 2048 val
  else BitVec.ofNat 2048 (packLanes ((List.range 64).map fun k => if laneOn keep k then laneOf old k else val / 2 ^ (32 * k) % 2 ^ 32))

/-- The accumulator after its retirement (R240): zero, and accumulating when a write issued after the ACCRET is in flight. -/
def Tile.retire (t : Tile) (k seq : Nat) : Tile :=
  let later := t.flight.any fun r => decide (seq < r.seq) && (match r.dst with
    | .acc j _ _ | .accRow j _ _ => j == k
    | _ => false)
  t.setAcc k { elems := 0, int := false, flags := 0, st := if later then .accumulating else .retired, retire := (t.acc k).retire }

/-- A result written where it lands, its flags aside. An MMA.Z clears its accumulator's flags where it lands, with the elements, so those of an earlier MMA that
lands between its issue and its landing are lost (R238, R239; DESIGN CHOICE, log 91). -/
def Tile.writeResult (t : Tile) (r : Result) : Tile :=
  match r.dst with
  | .sreg n => t.setS n (BitVec.ofNat 64 r.val)
  | .vreg n => t.setV n (keepLanes r.keep (mapGet 0 t.regs.v n) r.val)
  | .mk n => t.setMk n (BitVec.ofNat 64 r.val)
  | .mstack d =>
    { t with regs := { t.regs with ms := if d = 0 then [] else BitVec.ofNat 64 r.val :: t.regs.ms.drop (t.regs.ms.length - (d - 1)) } }
  | .scale name slot ip =>
    let x := t.scaleSlot slot
    if ip then t.setSlot slot { codes := BitVec.ofNat 1024 r.val, gen := (x.gen + 1) % 16 }
    else (t.setSlot slot { x with codes := BitVec.ofNat 1024 r.val }).mapName name slot
  | .flagsOnly => t
  | .fcsr => { t with fmts := { t.fmts with fcsr := fcsrKept r.val } }
  | .sysreg n => t.writeSys n r.val
  | .staging _ _ => { t with staging := putSBytes t.staging r.bytes }
  | .acc k int clear =>
    let a := t.acc k
    t.setAcc k { a with elems := BitVec.ofNat 131072 r.val, int := int, flags := (if clear then 0 else a.flags) ||| r.flags }
  | .accRow k row int =>
    let a := t.acc k
    t.setAcc k { a with elems := BitVec.ofNat 131072 (setField a.elems.toNat (2048 * row) 2048 r.val), int := int }
  | .accZero k => t.setAcc k { t.acc k with elems := 0, int := false, flags := 0 }
  | .accRetire k => t.retire k r.seq
  | .buffer k lo len =>
    let b := t.buf k
    t.setBuf k { b with data := BitVec.ofNat 65536 (setField b.data.toNat (8 * lo) (8 * len) r.val) }
  | .bufSlot k q lay cont lvl slot => t.bufferSlot k q lay cont lvl slot (natBytes 64 r.val)
  | .tag k name => t.stamp k name
  | .handle k =>
    match t.loads.find? fun l => l.seq == r.seq with
    | some l => { (match l.done with
        | some e => t.setOhe k e
        | none => t) with loads := t.loads.filter fun x => x.seq != r.seq }
    | none => t
  | .unpin k => t.setOhe k {}
  | .jpPosted k =>
    { t with sync := { t.sync with jp := mapSet 0 t.sync.jp k (mapGet 0 t.sync.jp k ||| 1#64 <<< 25) } }
  | .latch n => { t.setS n (BitVec.ofNat 64 (b2n t.sync.latch)) with sync := { t.sync with latch := false } }

/-- A landing: the value written, the flags ORed into fcsr, but those of an accumulator, and the result no longer in flight (R56, R239). -/
def Tile.landResult (t : Tile) (r : Result) : Tile :=
  let t := t.writeResult r
  let t := match r.dst with
    | .acc _ _ _ => t
    | _ => t.orFlags r.flags
  { t with flight := t.flight.filter fun x => x.seq != r.seq }

/-- A record load that has not come when its entry is to land (R200). -/
def Tile.loadMissing (t : Tile) (r : Result) : Bool := match r.dst with
  | .handle _ => t.loads.any fun l => l.seq == r.seq && l.done.isNone
  | _ => false

/-- A result lands in the present cycle (R56, R116). -/
def Tile.landsNow (t : Tile) (c : Nat) (r : Result) : Bool := decide (r.due ≤ c) && decide (r.img + t.flow.waits ≤ c + t.flow.ahead)

/-- RESULT_LANDING (R56): the result in flight that the event in hand names lands. An OBJPIN whose load is not complete holds the partition. -/
def execResultLanding (s : State) : Host.Outcome State Fault Refusal :=
  .next (
    let id := s.ev.tile
    let t := s.tile id
    match t.flight.find? fun r => r.seq == s.ev.x with
    | none => s
    | some r =>
      if t.loadMissing r then match s.kernelOf id with
        | some (n, k) => if k.holds.contains 5 then s else s.beginHold n 5
        | none => s
      else
        let rows := match r.dst with
          | .sysreg n => t.sysRows id n r.val
          | _ => []
        let hit := match r.dst with
          | .staging _ _ => !t.flow.handler && r.bytes.any fun b => s.struck id r.due b.addr
          | _ => false
        (s.setTile id (t.landResult (if hit then { r with bytes := [] } else r))).push rows)

/-- The transfers of the record load that the event in hand names. -/
def State.loadNeeds (s : State) : Needs :=
  match (s.tile s.ev.tile).loads.find? fun l => l.seq == s.ev.x, s.kernelOf s.ev.tile with
  | some l, some (_, k) => s.recordNeeds k.ctx (dieOf s.ev.tile) l.v
  | _, _ => []

/-- RECORD_LOAD_COMPLETE (R200): the record-load agent asks for its transfers; when they are made the load has its outcome, and a hold for record loads
ends when none is missing that is due to land (R323). -/
def execRecordLoadComplete (s : State) : Host.Outcome State Fault Refusal :=
  .next (s.served 2 .recordLoadComplete s.loadNeeds fun s =>
    let s := recordLoaded s
    match s.kernelOf s.ev.tile with
    | some (n, k) =>
      let awaited := (s.tilesOf k).any fun t => t.2.runs && t.2.flight.any fun r => t.2.landsNow k.cycle r && t.2.loadMissing r
      if k.holds.contains 5 && !awaited then s.endHold n 5 else s
    | none => s)

/-! ## Writes to the landing queue (R123) -/

/-- LQ_ENTRY_DISCARD (R123): the selected entry is gone, and the entries after it move down one index (DESIGN CHOICE, log 71). -/
def execLqEntryDiscard (s : State) : Host.Outcome State Fault Refusal :=
  .next (s.updTile s.ev.tile fun t => match t.lqSelected with
    | some (.result r) => { t with flight := t.flight.filter fun x => x.seq != r.seq }
    | some (.format w) => { t with fmts := { t.fmts with pend := t.fmts.pend.filter fun x => x.seq != w.seq } }
    | none => t)

/-- LQ_FLAGS_WRITE (R123): the flags that the selected entry will raise. -/
def execLqFlagsWrite (s : State) : Host.Outcome State Fault Refusal :=
  .next (s.updTile s.ev.tile fun t => match t.lqSelected with
    | some (.result r) =>
      { t with flight := t.flight.map fun x => if x.seq = r.seq then { x with flags := BitVec.ofNat 6 (field s.ev.y 26 21) } else x }
    | some (.format w) =>
      { t with fmts := { t.fmts with
          pend := t.fmts.pend.map fun x => if x.seq = w.seq then { x with flags := BitVec.ofNat 6 (field s.ev.y 26 21) } else x } }
    | none => t)

/-- Bytes of a captured staging write, eight of them from byte 8w on, replaced. -/
def putValues (bs : List SByte) (w : Nat) (v : Nat) : List SByte :=
  (List.zipIdx bs).map fun x => if 8 * w ≤ x.2 ∧ x.2 < 8 * w + 8 then { x.1 with val := BitVec.ofNat 8 (v / 2 ^ (8 * (x.2 - 8 * w)) % 256) } else x.1

/-- Word w of a result's value replaced. -/
def Result.setWord (r : Result) (w v : Nat) : Result :=
  match r.dst with
  | .staging _ _ => { r with bytes := putValues r.bytes w v }
  | .vreg _ => { r with val := setField r.val (64 * w) 64 v, keep := r.keep &&& ~~~(3#64 <<< (2 * w)) }
  | _ => { r with val := setField r.val (64 * w) 64 v }

/-- LQV_WRITE (R123): a word of the selected entry's value. -/
def execLqvWrite (s : State) : Host.Outcome State Fault Refusal :=
  .next (
    let id := s.ev.tile
    let cycle := s.agentCycle id
    s.updTile id fun t =>
      let w := field t.sys.lqsel.toNat 9 5
      match t.lqSelected with
      | none => t
      | some e =>
        if e.words ≤ w then t
        else match e with
          | .result r =>
            if r.pending cycle then t
            else { t with flight := t.flight.map fun x => if x.seq = r.seq then x.setWord w s.ev.y else x }
          | .format f =>
            let v := if f.target = 16 then (efrKept s.ev.y).toNat else if f.target = 17 then s.ev.y % 128 else (rowKept s.ev.y).toNat
            { t with fmts := { t.fmts with pend := t.fmts.pend.map fun x => if x.seq = f.seq then { x with val := v } else x } })

/-! ## Writes through the views -/

/-- VWDAT_WRITE (R156). -/
def execVwdatWrite (s : State) : Host.Outcome State Fault Refusal :=
  .next (s.updTile s.ev.tile fun t =>
    let x := t.sys.vwsel.toNat
    let n := field x 6 2
    let w := field x 11 7
    match field x 1 0 with
    | 0 => t.setV n (BitVec.ofNat 2048 (setField (mapGet 0 t.regs.v n).toNat (64 * w) 64 s.ev.y))
    | 1 => if n < 8 then t.setMk n (BitVec.ofNat 64 s.ev.y) else t
    | 2 => { t with regs := { t.regs with ms := (t.regs.ms.reverse.set n (BitVec.ofNat 64 s.ev.y)).reverse } }
    | _ => t)

/-- MWDAT_WRITE (R247): it changes neither state, kind, flags nor generations. -/
def execMwdatWrite (s : State) : Host.Outcome State Fault Refusal :=
  .next (s.updTile s.ev.tile fun t =>
    let x := t.sys.mwsel.toNat
    let n := field x 8 2
    let w := field x 19 9
    match field x 1 0 with
    | 0 => if n < 4 ∧ w < 2048 then
        t.setAcc n { t.acc n with elems := BitVec.ofNat 131072 (setField (t.acc n).elems.toNat (64 * w) 64 s.ev.y) } else t
    | 1 => if n < 8 ∧ w < 1024 then
        t.setBuf n { t.buf n with data := BitVec.ofNat 65536 (setField (t.buf n).data.toNat (64 * w) 64 s.ev.y) } else t
    | 2 => if w < 16 then
        t.setSlot n { t.scaleSlot n with codes := BitVec.ofNat 1024 (setField (t.scaleSlot n).codes.toNat (64 * w) 64 s.ev.y) } else t
    | _ => t)

/-- VLCNT_WRITE (R191): both logs are cleared. -/
def execVlcntWrite (s : State) : Host.Outcome State Fault Refusal :=
  .next (s.updTile s.ev.tile fun t => t.updVault fun v => { v with alog := [], blog := [], acount := 0, bcount := 0 })

/-! ## Counters (R343, R344) -/

/-- A counter's count set to 0, with a note for the end of the cycle: 2 for a reprogram, 3 + the count before for a clear. -/
def Tile.zeroCount (t : Tile) (k note : Nat) : Tile :=
  { t with perf := { t.perf with
      pcv := mapSet 0 t.perf.pcv k 0
      marks := if t.flow.handler then t.perf.marks else mapSet 0 t.perf.marks k note } }

/-- PCC_CLEAR (R343). -/
def execPccClear (s : State) : Host.Outcome State Fault Refusal :=
  .next (s.updTile s.ev.tile fun t => t.zeroCount s.ev.x (3 + mapGet 0 t.perf.pcv s.ev.x))

/-- PCC_REPROGRAM (R343): y is the control word that stood before; it and the count are kept to the cycle's end (R344). -/
def execPccReprogram (s : State) : Host.Outcome State Fault Refusal :=
  .next (s.updTile s.ev.tile fun t =>
    let u := t.zeroCount s.ev.x 2
    if t.flow.handler then u else { u with perf := { u.perf with before := mapPut u.perf.before s.ev.x (mapGet 0 t.perf.pcv s.ev.x, s.ev.y) } })

/-- PCC_OVF_CLEAR (R343). -/
def execPccOvfClear (s : State) : Host.Outcome State Fault Refusal :=
  .next (s.updTile s.ev.tile fun t =>
    { t with perf := { t.perf with pcc := mapSet 0 t.perf.pcc s.ev.x (mapGet 0 t.perf.pcc s.ev.x &&& ~~~(1#64 <<< 8)) } })

/-- The number of events of the present cycle that a counter with a control word adds (R343). -/
def Tile.adding (t : Tile) (c : Nat) : Nat :=
  let ev := field c 5 0
  if bitOf c 6 && ev != 0 then min (mapGet 0 t.perf.adds ev) 4 else 0

/-- The number of events of the present cycle that a counter adds (R343). -/
def Tile.increment (t : Tile) (k : Nat) : Nat := t.adding (mapGet (0 : Word) t.perf.pcc k).toNat

/-- The count that a counter's increment is added to: that before a clear of this cycle (R344); none where a reprogram drops it. -/
def Tile.countBase (t : Tile) (k : Nat) : Option Nat := match mapGet 0 t.perf.marks k with
  | 0 => some (mapGet 0 t.perf.pcv k)
  | 2 => none
  | m => some (m - 3)

/-- A counter overflows in the present cycle. -/
def Tile.overflows (t : Tile) (k : Nat) : Bool := match t.countBase k with
  | some b => decide (2 ^ 48 ≤ b + t.increment k)
  | none => false

/-- A counter that is reprogrammed in the present cycle would have overflowed in it (R344). -/
def Tile.lateOverflow (t : Tile) (k : Nat) : Bool := match mapFind t.perf.before k with
  | some (n, c) => decide (2 ^ 48 ≤ n + t.adding c)
  | none => false

/-- The tile's drift-log entry of a counter overflow: of the last bundle that issued, as it stood in its loops (R340). -/
def Tile.driftOverflow (t : Tile) (cycle k : Nat) : Tile :=
  { t with perf := (({ t with flow := { t.flow with loops := t.flow.lastLoops } } : Tile).drift 3 t.flow.lastPc cycle k 0).perf }

/-- COUNTER_OVERFLOW (R344): ovf, the drift-log entry, the MFS results of the cycle, and the count's wrap; of a counter reprogrammed in the cycle only ovf,
which stays as it was before it. -/
def execCounterOverflow (s : State) : Host.Outcome State Fault Refusal :=
  .next (
    let k := s.ev.x
    let cycle := s.agentCycle s.ev.tile
    s.updTile s.ev.tile fun t =>
      if t.lateOverflow k then
        let old := ((mapFind t.perf.before k).map Prod.snd).getD 0
        { t with perf := { t.perf with
            pcc := mapSet 0 t.perf.pcc k (BitVec.ofNat 64 (setField (mapGet (0 : Word) t.perf.pcc k).toNat 8 1 (field old 8 8))) } }
      else if !t.overflows k then t
      else
        let c := mapGet (0 : Word) t.perf.pcc k
        let hit := (t.perf.reads.filter fun x => x.1 == k).map Prod.snd
        let t := { t with
          perf := { t.perf with pcc := mapSet 0 t.perf.pcc k (c ||| 1#64 <<< 8) }
          flight := t.flight.map fun r => if hit.contains r.seq then { r with val := r.val % 2 ^ 63 + 2 ^ 63 } else r }
        if c.getLsbD 9 then t.driftOverflow cycle k else t)

/-- The end of a cycle: every counter's increment added, the cycle's events forgotten (R343). -/
def Tile.endCounts (t : Tile) : Tile :=
  if t.perf.adds = [] ∧ t.perf.marks = [] ∧ t.perf.reads = [] then t
  else
    let pcv := (List.range 8).foldl (fun m k => if mapGet 0 t.perf.marks k = 0 then
      mapSet 0 m k ((mapGet 0 m k + t.increment k) % 2 ^ 48) else m) t.perf.pcv
    { t with perf := { t.perf with pcv := pcv, adds := [], marks := [], before := [], reads := [] } }

end Sys2Proof.Machine
end

