-- ==== Sys2Proof/Machine/Mesh.lean ====
section
/-!
DEFINITION. Machine/Mesh.lean: the mesh (R252 to R258): sends, the links that flits use, link conflicts, arrivals and mesh collisions.
The event in hand names a flit by its number in x and its kernel's number in y, or a send by its tile and its place in issue order in x.
-/

namespace Sys2Proof.Machine

/-! ## Routes (R252, R253) -/

/-- The next tile of a route, along the row first, with the direction of the link (R252): 0 east, 1 west, 2 down, 3 up. -/
def nextHop (p d : TileId) : TileId × Nat :=
  if tileX p < tileX d then (p + 1, 0) else if tileX d < tileX p then (p - 1, 1)
  else if tileY p < tileY d then (p + 64, 2) else (p - 64, 3)

/-- The directed link, tile × 4 + direction, that a flit at a tile at a cycle uses at cycle c; a hop over a seam takes 13 cycles (R253). -/
def linkWalk (dst c : Nat) : Nat → TileId → Nat → Option Nat
  | 0, _, _ => none
  | fuel + 1, p, at_ =>
    if p = dst then none
    else if at_ = c then some (p * 4 + (nextHop p dst).2)
    else if c < at_ then none
    else
      let n := (nextHop p dst).1
      linkWalk dst c fuel n (at_ + if dieOf p = dieOf n then 1 else 13)

/-- What a flit uses at cycle c: a directed link, or, at its arrival, the link port that it goes to (R253, R358). -/
def Flit.usesAt (f : Flit) (c : Nat) : Option Nat :=
  match f.port with
  | some (l, _) => if f.arr = c then some (8192 + l) else linkWalk f.dst c 128 f.src (f.start + 3)
  | none => linkWalk f.dst c 128 f.src (f.start + 3)

/-- The flits of one send. -/
def Flit.sameSend (f g : Flit) : Bool := f.own == g.own && f.seq == g.seq

/-- A flit's send goes before another's in a link conflict (R256): issued earlier, or in the same cycle by the lower logical index. -/
def Flit.before (f g : Flit) : Bool := decide (f.issue < g.issue) || (f.issue == g.issue && decide (f.own < g.own))

/-- A flit stands in the mesh at cycle c, its own loss in that cycle aside. -/
def Flit.presentAt (f : Flit) (c : Nat) : Bool := match f.gone with
  | none => true
  | some g => decide (c ≤ g)

/-! ## MSEND, MSENDV, MCAST (R254, R258) -/

/-- The permission fault of a destination outside the partition (R118). -/
def permOutside : Nat := permSentinel 0xE

/-- The refusals and the start of a send (R258). -/
def meshSend (s : State) (n : Nat) (bad : Tile → Bool) (dests : Tile → List TileId) (src : Tile → Option Nat) (vec : Tile → List (BitVec 512))
    (b : Reg) : Host.Outcome State Fault Refusal :=
  runSlot 5 s fun c t =>
    let ds := dests t
    if bad t || ds.any (fun u => !c.inPart (dieOf u)) then .trap causePermission permOutside
    else if c.now < t.sync.portFree then (if c.portable then .wait 11 else .trap causeConflict 0xFFFC)
    else
      let x : Send := { seq := t.flow.seq, issue := c.now, n := n, start := c.id, src := src t, halves := vec t
                        addr := (t.sreg b).toNat % stagingSize / 64 * 64, dests := ds }
      let t := t.nextSeq
      .ok { t with sync := { t.sync with portFree := c.now + n, sends := t.sync.sends ++ [x] } }

/-- MSEND (R258). -/
def execMsend (a b cr : Reg) (n : BitVec 8) (s : State) : Host.Outcome State Fault Refusal :=
  meshSend s (n.toNat + 1) (fun _ => false) (fun t => [destTile (t.sreg cr).toNat]) (fun t => some (t.blockAddr a)) (fun _ => []) b

/-- MSENDV (R258): sixteen lanes a flit, read at issue. -/
def execMsendv (a b cr : Reg) (s : State) : Host.Outcome State Fault Refusal :=
  meshSend s 4 (fun _ => false) (fun t => [destTile (t.sreg cr).toNat]) (fun _ => none)
    (fun t => (List.range 4).map fun j => (t.vreg a).extractLsb' (512 * j) 512) b

/-- MCAST (R258). -/
def execMcast (a b cr : Reg) (n : BitVec 8) (s : State) : Host.Outcome State Fault Refusal :=
  meshSend s (n.toNat + 1) (fun t => let r := rectOf (t.sreg cr).toNat; decide (r.x1 < r.x0) || decide (r.y1 < r.y0))
    (fun t => rectTiles (rectOf (t.sreg cr).toNat)) (fun t => some (t.blockAddr a)) (fun _ => []) b

/-! ## MESH_FLIT_INJECT (R253, R258) -/

/-- Flit j of a send: one for each destination. -/
def Send.flits (x : Send) (own : TileId) (data : BitVec 512) : List Flit :=
  x.dests.map fun u =>
    { id := 0, own := own, seq := x.seq, issue := x.issue, num := x.next, src := x.start, dst := u
      addr := (x.addr + 64 * x.next) % stagingSize, start := x.issue + x.next, arr := x.issue + x.next + meshLat x.start u
      data := data, port := x.link }

/-- Flits put into the mesh, each with a number of its own. -/
def Kernel.addFlits (k : Kernel) (fs : List Flit) : Kernel :=
  fs.foldl (fun k f => { k with mesh := k.mesh ++ [{ f with id := k.nextFlit }], nextFlit := k.nextFlit + 1 }) k

/-- MESH_FLIT_INJECT (R258): the next flit of a send is read and enters the mesh. -/
def execMeshFlitInject (s : State) : Host.Outcome State Fault Refusal :=
  .next (
    let id := s.ev.tile
    let t := s.tile id
    match t.sync.sends.find? fun x => x.seq == s.ev.x with
    | none => s
    | some x =>
      let data : BitVec 512 := match x.src with
        | some a => BitVec.ofNat 512 (bytesNat (stagingBytes t.staging (a + 64 * x.next) 64))
        | none => x.halves.getD x.next 0
      let sends := t.sync.sends.filterMap fun y =>
        if y.seq = x.seq then (if y.next + 1 < y.n then some { y with next := y.next + 1 } else none) else some y
      let s := s.setTile id (({ t with sync := { t.sync with sends := sends } }).count 4 1)
      match s.kernelOf id with
      | some (n, k) => s.setKernel n (k.addFlits (x.flits id data))
      | none => s)

/-! ## MESH_FLIT_HOP (R253, R256) -/

/-- The losers of a conflict over one link at cycle c, of which a flit takes part: those flits not landed that another send's flit precedes. -/
def Kernel.losers (k : Kernel) (f : Flit) (c : Nat) : List Flit :=
  match f.usesAt c with
  | none => []
  | some l =>
    let us := k.mesh.filter fun g => g.presentAt c && g.usesAt c == some l
    us.filter fun g => !g.landed && us.any fun h => !h.sameSend g && h.before g

/-- A flit's loss takes with it the later flits of its send (R256). -/
def Flit.lostWith (g f : Flit) : Bool := g.sameSend f && (g.id == f.id || decide (f.num < g.num)) && !g.landed && g.gone.isNone

/-- The addresses of the flits of a send that are still to be injected. -/
def Send.toCome (x : Send) : List Nat := (List.range (x.n - x.next)).map fun j => (x.addr + 64 * (x.next + j)) % stagingSize

/-- A flit loses at cycle c: it and every later flit of its send leave the mesh, and those not yet injected never will be; the sender will trap. -/
def State.loseFlit (s : State) (n c : Nat) (f : Flit) : State :=
  match s.kernel? n with
  | none => s
  | some k =>
    let lost := k.mesh.filter fun g => g.lostWith f
    if lost.isEmpty then s
    else
      let s := s.setKernel n { k with mesh := k.mesh.map fun g => if g.lostWith f then { g with gone := some c } else g }
      s.updTile f.own fun t =>
        let later := (t.sync.sends.filter fun x => x.seq == f.seq).flatMap Send.toCome
        let t := { t with sync := { t.sync with sends := t.sync.sends.filter fun x => x.seq != f.seq } }
        t.addMesh true c ((lost.map Flit.addr ++ later).foldl min f.addr)

/-- MESH_FLIT_HOP (R256): a flit uses a link, or reaches a link port, in the present cycle; what loses to another send leaves the mesh. -/
def execMeshFlitHop (s : State) : Host.Outcome State Fault Refusal :=
  .next (
    let n := s.ev.y
    match s.kernel? n with
    | none => s
    | some k => match k.mesh.find? fun f => f.id == s.ev.x with
      | none => s
      | some f => (k.losers f k.cycle).foldl (fun s g => s.loseFlit n k.cycle g) s)

/-! ## MESH_FLIT_ARRIVAL (R255, R276) -/

/-- The bytes that a tile's own results write to staging at cycle c. -/
def Tile.ownBytes (t : Tile) (c : Nat) : List Nat :=
  t.flight.flatMap fun r => match r.dst with
    | .staging _ _ => if r.due = c then r.bytes.map SByte.addr else []
    | _ => []

/-- The staging blocks of 64 bytes that a tile's read streams write at cycle c: the next transfer of each, or a later one of a stream that a stop has
frozen (R170, R409). -/
def Tile.ownTransfers (t : Tile) (c : Nat) : List Nat :=
  t.vault.streams.filterMap fun x => match x.dest with
    | .staging a => if x.read ∧ x.first + x.done ≤ c ∧ c < x.first + x.n then some ((a + 64 * (c - x.first)) % stagingSize) else none
    | _ => none

/-- The lowest byte that an arrival at an address shares with writes of the tile's own. -/
def Tile.ownClash (t : Tile) (c addr : Nat) : Option Nat :=
  let hit := ((t.ownBytes c).filter fun a => addr ≤ a && a < addr + 64) ++ (if (t.ownTransfers c).contains addr then [addr] else [])
  hit.foldl (fun m a => match m with
    | some b => some (min a b)
    | none => some a) none

/-- wcfg as readable at cycle c: an MTS that lands in the cycle counts (R56, R276). -/
def Tile.wcfgAt (t : Tile) (c : Nat) : Nat :=
  match t.flight.find? fun r => r.dst == .sysreg 0x164 && r.due == c with
  | some r => if t.runs then r.val % 2 ^ 20 else t.sync.wcfg.toNat
  | none => t.sync.wcfg.toNat

/-- The byte decrement that a flit's write brings about (R276). -/
def Tile.decrement (t : Tile) (id : TileId) (k : Kernel) (c addr : Nat) : Tile :=
  let w := t.wcfgAt c
  if bitOf w 9 && inPartition k.die0 k.shape (field w 8 6) then
    let d : Decrement := { die := field w 8 6, byte := 0x7E00 + 8 * field w 5 0, due := c + 5 + cisternDist id (field w 8 6), addr := addr }
    { t with sync := { t.sync with decs := t.sync.decs ++ [d] } }
  else t

/-- Flits of the mesh marked. -/
def Kernel.markFlits (k : Kernel) (p : Flit → Bool) (f : Flit → Flit) : Kernel := { k with mesh := k.mesh.map fun g => if p g then f g else g }

/-- MESH_FLIT_ARRIVAL (R255): a flit's write to staging, or the mesh collision that it meets: another arrival's, or a write of the tile's own due in the
cycle, which a stop may have captured or frozen (R109, R409). A write that a re-run issues after the stop, for a cycle in which a flit has landed during it,
stands beside the flit's: neither is undone, and no trap follows (DESIGN CHOICE, log 94). -/
def execMeshFlitArrival (s : State) : Host.Outcome State Fault Refusal :=
  .next (
    let n := s.ev.y
    match s.kernel? n with
    | none => s
    | some k => match k.mesh.find? fun f => f.id == s.ev.x && f.gone.isNone && !f.landed with
      | none => s
      | some f =>
        let c := k.cycle
        let t := s.tile f.dst
        let others := k.mesh.any fun g => g.id != f.id && g.gone.isNone && g.port.isNone && g.dst == f.dst && g.arr == f.arr && g.addr == f.addr
        let own := t.ownClash c f.addr
        let k' := k.markFlits (fun g => g.id == f.id) fun g => { g with landed := true, void := others || own.isSome }
        let s := s.setKernel n k'
        if others || own.isSome then
          let again := k.mesh.any fun g => g.landed && g.void && g.dst == f.dst && g.arr == f.arr && g.addr == f.addr
          let info := if others then f.addr else own.getD f.addr
          if again then s else s.updTile f.dst fun t => t.addMesh false c info
        else s.updTile f.dst fun t =>
          ({ t with staging := stagingPut t.staging f.addr (natBytes 64 f.data.toNat) }).decrement f.dst k c f.addr)

end Sys2Proof.Machine
end

