-- ==== Sys2Proof/Machine/Cistern.lean ====
section
/-!
DEFINITION. Machine/Cistern.lean: cisterns, atomics, weirs, events, job control blocks and fences (R259 to R288).
A row of this file that acts on a request names its tile, and the place in issue order in y.
-/

namespace Sys2Proof.Machine

/-! ## Cistern words -/

/-- A word of a cistern, by byte address (R266). -/
def State.cword (s : State) (d byte : Nat) : Nat := (mapGet (0 : Word) (s.die d).cistern (byte / 8)).toNat
/-- A word of a cistern written; the reserved bits of a weir keep 0 (R274). -/
def State.setCword (s : State) (d byte v : Nat) : State :=
  s.updDie d fun x => { x with cistern := mapSet 0 x.cistern (byte / 8) (BitVec.ofNat 64 (if 0x7E00 ≤ byte then setField v 59 5 0 else v)) }

/-! ## The release check (R284, R360) -/

/-- A request that only samples (R268). -/
def ReqKind.sample : ReqKind → Bool
  | .wpoll | .wwait _ | .jcbwait => true
  | _ => false

/-- A request to a cistern, not a start at a sluice. -/
def ReqKind.toCistern : ReqKind → Bool
  | .start _ _ _ => false
  | _ => true

/-- A failed check: the bank of the earliest unmet write, or 0, and the earliest issue cycle at which the check passes, where one is known. -/
structure Unmet where
  bank  : Nat
  early : Option Nat
deriving DecidableEq, Repr

/-- The least cycle at which a request to die d, applied at issue + lag, follows an earlier request (R284, clause 2). -/
def Req.follows (r : Req) (die lag : Nat) : Nat :=
  if r.die = die ∧ !r.kind.sample then r.due - lag else r.due + 1 - lag

/-- The greatest of a list and a number. -/
def maxOf (x : Nat) (l : List Nat) : Nat := l.foldl max x

/-- A program write of a tile goes to a region bound to a sync object (R283): through a record that names it, or, a write through no record (WRRAW), to a
page of a grain that does (log 37). -/
def WriteMark.boundTo (m : WriteMark) (c : Context) (t : TileId) (x : Nat) : Bool := m.sync == some x || (m.obj.isNone && c.pageBound t m.bank m.page x)

/-- The check of a release on a sync object, if it has one, at issue cycle now, applied lag cycles later at a die, on the writes that a test admits
(R284): the writes at vis; the ST.IOs through a grain of the object at their sluice; the jobs with it in their footprint recorded; the requests
to the same cistern applied before in the order kept, in which those applied in a stop of the tile stand before the release (R270); the requests to another
cistern applied at an earlier cycle (log 37). -/
def Tile.releaseUnmet (t : Tile) (x : Option Nat) (on : WriteMark → Bool) (die lag now : Nat) : Option Unmet :=
  let late := t.vault.marks.filter fun m => on m && decide (now + lag < m.reached .vis)
  let io := t.sync.jobs.filter fun j => x.isSome && j.io == x && decide (now + lag < j.due)
  let jobs := t.sync.jobs.filter fun j => match x with
    | some y => j.syncs.contains y
    | none => false
  let reqs := (t.sync.past.filter (·.die != die) ++ t.sync.reqs).filter fun r => r.kind.toCistern && decide (now < r.follows die lag)
  if late.isEmpty && io.isEmpty && jobs.isEmpty && reqs.isEmpty then none
  else some { bank := (late.map WriteMark.bank).headD 0
              early := if jobs.isEmpty then
                some (maxOf (maxOf (maxOf 0 (late.map fun m => m.reached .vis - lag)) (io.map fun j => j.due - lag)) (reqs.map fun r => r.follows die lag))
                else none }

/-- The check of a release on a sync object (R284). -/
def Ctx.releaseUnmet (c : Ctx) (t : Tile) (x die lag : Nat) : Option Unmet :=
  t.releaseUnmet (some x) (·.boundTo (c.s.ctx c.ctxNo) c.id x) die lag c.now

/-- The conditions of FENCE.pkg at issue cycle now, or of the system release check (R286, R360). -/
def Tile.fenceUnmet (t : Tile) (sys : Bool) (now : Nat) : Option Unmet :=
  let late := t.vault.marks.filter fun m => decide (now < m.reached .vis)
  let reqs := (t.sync.past ++ t.sync.reqs).filter fun r => r.kind.toCistern && decide (now < r.due)
  let acc := sys && decide (now < t.sync.lsendAcc)
  let jobs := sys && !t.sync.jobs.isEmpty
  if late.isEmpty && reqs.isEmpty && !acc && !jobs then none
  else
    let e := maxOf (maxOf 0 (late.map fun m => m.reached .vis)) (reqs.map Req.due)
    some { bank := (late.map WriteMark.bank).headD 0
           early := if jobs then none else some (if sys then max e t.sync.lsendAcc else e) }

/-- The trap registers after a failed release check (R284): vtrap.op reads 0 and vtearl holds the earliest issue cycle. -/
def Sys.unmet (r : Sys) (u : Unmet) : Sys :=
  { r with
    vtrap := BitVec.ofNat 64 (u.bank * 2 ^ 8 + 15 * 2 ^ 39)
    vtearl := match u.early with
      | some e => BitVec.ofNat 64 e
      | none => BitVec.allOnes 64 }

/-- What a slot with a release check comes to. -/
inductive CheckRes where
  | done (r : SlotRes)
  | unmet (u : Unmet)

/-- A slot with a release check (R284): failed, its bundle traps with vault timing, code 15; in a portable image it waits. -/
def runChecked (part : Nat) (s : State) (f : Ctx → Tile → CheckRes) : Host.Outcome State Fault Refusal :=
  match f s.slotCtx (s.tile s.cur.tile) with
  | .done r => runSlot part s fun _ _ => r
  | .unmet u =>
    if s.slotCtx.portable then runSlot part s fun _ _ => .wait 12
    else
      let pre := s.cur.pre
      runSlot part { s with cur := { s.cur with pre := { pre with sys := pre.sys.unmet u } } } fun _ _ => .trap causeVault (u.bank + 15 * 256)

/-! ## Requests (R267) -/

/-- A request sent to a die, applied lag cycles after issue; in handler mode one to a cistern at once, since its reply lands before the next bundle (R129), and
a start at a sluice, which has no reply, at its own cycle (R110, R304). Its reply, where it has one, lands rlat cycles after issue. -/
def Ctx.request (c : Ctx) (t : Tile) (die byte lag : Nat) (kind : ReqKind) (dst : Option (Nat × LatClass × Nat)) : Tile :=
  let (t, res) := match dst with
    | some (d, cls, rlat) => (c.landPending t cls (.sreg d) rlat, if d = 0 then none else some t.flow.seq)
    | none => (t, none)
  let r : Req := { seq := t.flow.seq, die := die, byte := byte, due := if c.handler && kind.toCistern then c.now else c.now + lag, kind := kind, result := res }
  let t := t.nextSeq.count 5 1
  { t with sync := { t.sync with reqs := t.sync.reqs ++ [r] } }

/-- The lag of a request to a die (R267). -/
def Ctx.lag (c : Ctx) (die : Nat) : Nat := 5 + cisternDist c.id die

/-- The number of a cistern word as a sync object. -/
def syncAt (die byte : Nat) : Nat := die * 32768 + byte

/-! ## Atomics (R271 to R273) -/

/-- The value that an atomic leaves, and whether it writes. -/
def ReqKind.update (k : ReqKind) (old : Word) : Option Word :=
  match k with
  | .cas e n => if old = e then some n else none
  | .add v => some (old + v)
  | .swp v => some v
  | .min v => some (if old.slt v then old else v)
  | .max v => some (if old.slt v then v else old)
  | .and v => some (old &&& v)
  | .or v => some (old ||| v)
  | _ => none

/-- An order that releases (R284). -/
def orderReleases (o : Order) : Bool := o == .rel || o == .ar || o == .sc

/-- An atomic (R272, R273). -/
def amoOp (s : State) (o : Order) (d a : Reg) (kind : Tile → ReqKind) : Host.Outcome State Fault Refusal :=
  runChecked 1 s fun c t =>
    let x := (t.sreg a).toNat
    let own := bitOf x 20
    let die := field x 17 15
    let byte := field x 14 0
    if !own && !c.inPart die then .done (.trap causePermission permOutside)
    else if !own && decide (0x7E00 ≤ byte) && !c.privileged then .done (.trap causePermission permOutside)
    else if !own && decide (byte % 8 ≠ 0) then .done (.trap causeAlign byte)
    else if o = .sc ∧ c.now % 256 ≠ c.id / 8 then .done (if c.portable then .wait 13 else .trap causeWheel (c.now % 2048))
    else if own then
      let addr := stgAddr (t.sreg a) 8
      let old := BitVec.ofNat 64 (bytesNat (memRange t.staging addr 8))
      let t := match (kind t).update old with
        | some v => c.landStaging t 3 true (wholeBytes addr (natBytes 8 v.toNat)) 1
        | none => t
      .done (.ok (c.land t .other (.sreg d.toNat) old.toNat 6))
    else
      let lag := if o = .sc then 5 + hMax else c.lag die
      let rlat := if o = .sc then 10 + 2 * hMax else 10 + 2 * cisternDist c.id die
      match if orderReleases o then c.releaseUnmet t (syncAt die byte) die lag else none with
      | some u => .unmet u
      | none => .done (.ok (c.request t die byte lag (kind t) (some (d.toNat, .amo, rlat))))

/-- AMO_CAS (R272). -/
def execAmoCas (o : Order) (d a b c : Reg) (_fa : Bool) (s : State) : Host.Outcome State Fault Refusal :=
  amoOp s o d a fun t => .cas (t.sreg b) (t.sreg c)
/-- AMO_ADD (R272). -/
def execAmoAdd (o : Order) (d a : Reg) (b : Src) (s : State) : Host.Outcome State Fault Refusal := amoOp s o d a fun t => .add (t.bsrc b)
/-- AMO_SWP (R272). -/
def execAmoSwp (o : Order) (d a : Reg) (b : Src) (s : State) : Host.Outcome State Fault Refusal := amoOp s o d a fun t => .swp (t.bsrc b)
/-- AMO_MIN (R272). -/
def execAmoMin (o : Order) (d a : Reg) (b : Src) (s : State) : Host.Outcome State Fault Refusal := amoOp s o d a fun t => .min (t.bsrc b)
/-- AMO_MAX (R272). -/
def execAmoMax (o : Order) (d a : Reg) (b : Src) (s : State) : Host.Outcome State Fault Refusal := amoOp s o d a fun t => .max (t.bsrc b)
/-- AMO_AND (R272). -/
def execAmoAnd (o : Order) (d a : Reg) (b : Src) (s : State) : Host.Outcome State Fault Refusal := amoOp s o d a fun t => .and (t.bsrc b)
/-- AMO_OR (R272). -/
def execAmoOr (o : Order) (d a : Reg) (b : Src) (s : State) : Host.Outcome State Fault Refusal := amoOp s o d a fun t => .or (t.bsrc b)

/-! ## FENCE, SEV, WFE (R280, R281, R286) -/

/-- FENCE (R286). -/
def execFence (sc : Scope) (s : State) : Host.Outcome State Fault Refusal :=
  runChecked 1 s fun c t =>
    match (match sc with
      | .tile => none
      | .sys => t.fenceUnmet true c.now
      | .cluster | .die | .pkg => t.fenceUnmet false c.now) with
    | some u => .unmet u
    | none => .done (.ok t)

/-- SEV (R280). -/
def execSev (a : Reg) (s : State) : Host.Outcome State Fault Refusal :=
  runSlot 1 s fun c t =>
    let r := rectOf (t.sreg a).toNat
    let ts := rectTiles r
    if r.x1 < r.x0 ∨ r.y1 < r.y0 ∨ ts.any (fun u => !c.inPart (dieOf u)) then .trap causePermission permOutside
    else
      let sets := ts.map fun u => ({ tile := u, due := c.now + meshLat c.id u } : LatchSet)
      .ok { t with sync := { t.sync with sets := t.sync.sets ++ sets } }

/-- WFE (R281): its sample and clear of the latch are the landing. val keeps the issue cycle. -/
def execWfe (d : Reg) (s : State) : Host.Outcome State Fault Refusal :=
  runSlot 1 s fun c t =>
    if c.handler then .trap causeEncoding 1
    else .ok (t.launch { seq := 0, due := c.now + 1 + s.cur.gap, img := c.imgDue t .other (1 + s.cur.gap), dst := .latch d.toNat
                         val := c.now, pend := true, back := c.now + 1 + s.cur.gap })

/-- A result that a WFE has in flight. -/
def Result.isLatch (r : Result) : Bool := match r.dst with
  | .latch _ => true
  | _ => false

/-- The end of a WFE's wait at a cycle, in a portable image (R281): the next bundle and the landing come forward to it, and the image cycles
that the wait left out are counted. -/
def Tile.wake (t : Tile) (cycle : Nat) : Tile :=
  match t.flight.find? fun r => r.isLatch && decide (cycle < r.due) with
  | none => t
  | some r =>
    let k := r.due - cycle
    { t with
      flow := { t.flow with due := t.flow.due - k, ahead := t.flow.ahead + k }
      flight := t.flight.map fun x => if x.seq = r.seq then { x with due := cycle } else x }

/-- EVENT_LATCH_SET (R276, R280): the latch set that the event in hand dates y, on its way from tile x, reaches its tile. The latch has one bit: a set that
reaches a stopped tile after the landing cycle of a WFE that the stop has captured, but before the stop's horizon, is in it when that WFE samples on the
re-run, and the WFE returns and clears it (R281; DESIGN CHOICE, log 92). -/
def execEventLatchSet (s : State) : Host.Outcome State Fault Refusal :=
  .next (
    let set_ : LatchSet := { tile := s.ev.tile, due := s.ev.y }
    let s := s.updTile s.ev.x fun t => { t with sync := { t.sync with sets := t.sync.sets.erase set_ } }
    let portable := match s.kernelOf s.ev.tile with
      | some (_, k) => k.img.portable
      | none => false
    s.updTile s.ev.tile fun t =>
      let t := { t with sync := { t.sync with latch := true } }
      if portable && t.runs then t.wake s.ev.y else t)

/-! ## Weirs (R274 to R279) -/

/-- The state of a weir is draining (R274). -/
def weirDraining (w : Nat) : Bool := field w 57 56 == 1

/-- A weir's word with its err bit set. -/
def weirErr (w : Nat) : Nat := if bitOf w 58 then w else w + 2 ^ 58

/-- A release (R275): arr 0, the next phase, open. -/
def weirRelease (w : Nat) : Nat := setField (setField (setField w 12 12 0) 48 8 (field w 55 48 + 1)) 56 2 0

/-- An arrival at a weir (R275): its word after, and whether it releases. -/
def weirArrive (w : Nat) : Nat × Bool :=
  let w := setField w 59 5 0
  let exp := field w 11 0
  let arr := field w 23 12
  if weirDraining w ∨ exp = 0 then (weirErr w, false)
  else if arr + 1 < exp then (setField w 12 12 (arr + 1), false)
  else if field w 47 24 = 0 then (weirRelease w, true)
  else (setField (setField w 12 12 exp) 56 2 1, false)

/-- A WPEND of n bytes at a weir (R275). -/
def weirPend (w n : Nat) : Nat :=
  let w := setField w 59 5 0
  let p := field w 47 24 + n
  if 2 ^ 24 ≤ p then weirErr (setField w 24 24 (2 ^ 24 - 1)) else setField w 24 24 p

/-- A decrement of 64 at a weir (R275). -/
def weirDecrement (w : Nat) : Nat × Bool :=
  let w := setField w 59 5 0
  let p := field w 47 24
  let low := decide (p < 64)
  let w' := setField w 24 24 (p - 64)
  let w' := if low then weirErr w' else w'
  if weirDraining w ∧ p ≤ 64 then (weirRelease w', true) else (w', false)

/-- The tiles that a release of a weir wakes (R276): the latch of each is set h + 5 cycles later. -/
def State.weirWake (s : State) (k : Kernel) (die byte : Nat) : State :=
  k.tiles.foldl (fun s u =>
    let t := s.tile u
    let w := t.sync.wcfg.toNat
    if bitOf w 19 && field w 18 16 == die && 0x7E00 + 8 * field w 15 10 == byte then
      let set_ : LatchSet := { tile := u, due := k.cycle + 5 + cisternDist u die }
      s.setTile u { t with sync := { t.sync with sets := t.sync.sets ++ [set_] } }
    else s) s

/-- A weir changed, with what its release brings about. -/
def State.weirStep (s : State) (k : Kernel) (die byte : Nat) (f : Nat → Nat × Bool) : State :=
  let (w, rel) := f (s.cword die byte)
  let s := s.setCword die byte w
  if rel then s.weirWake k die byte else s

/-- The weir's byte address (R266). -/
def weirByte (w : Nat) : Nat := 0x7E00 + 8 * w

/-- A weir instruction: its permission check and its request (R278). -/
def weirOp (s : State) (d : Reg) (weir : BitVec 6) (die : BitVec 3) (extra : Nat) (pre : Ctx → Tile → Option CheckRes) (kind : Tile → ReqKind) :
    Host.Outcome State Fault Refusal :=
  runChecked 5 s fun c t =>
    let e := die.toNat
    if !c.inPart e then .done (.trap causePermission permOutside)
    else match pre c t with
      | some r => r
      | none => .done (.ok (c.request t e (weirByte weir.toNat) (c.lag e + extra) (kind t)
          (some (d.toNat, .other, 10 + 2 * cisternDist c.id e + extra))))

/-- WARR (R278). -/
def execWarr (d : Reg) (weir : BitVec 6) (die : BitVec 3) (s : State) : Host.Outcome State Fault Refusal :=
  weirOp s d weir die 0 (fun c t =>
    (c.releaseUnmet t (syncAt die.toNat (weirByte weir.toNat)) die.toNat (c.lag die.toNat)).map CheckRes.unmet) fun _ => .warr
/-- WWAIT (R278). -/
def execWwait (d b : Reg) (weir : BitVec 6) (die : BitVec 3) (w : BitVec 11) (s : State) : Host.Outcome State Fault Refusal :=
  weirOp s d weir die w.toNat (fun _ _ => none) fun t => .wwait ((t.sreg b).toNat % 256)
/-- WPOLL (R278). -/
def execWpoll (d : Reg) (weir : BitVec 6) (die : BitVec 3) (s : State) : Host.Outcome State Fault Refusal :=
  weirOp s d weir die 0 (fun _ _ => none) fun _ => .wpoll
/-- WPEND (R278). -/
def execWpend (d b : Reg) (weir : BitVec 6) (die : BitVec 3) (s : State) : Host.Outcome State Fault Refusal :=
  weirOp s d weir die 0 (fun _ t => if 2 ^ 24 ≤ (t.sreg b).toNat then some (.done (.trap causeWeir weir.toNat)) else none)
    fun t => .wpend (t.sreg b).toNat

/-- WEIR_BYTE_DECREMENT (R276): the decrement of the event's tile due in cycle x from staging address y. -/
def execWeirByteDecrement (s : State) : Host.Outcome State Fault Refusal :=
  .next (
    let t := s.tile s.ev.tile
    match t.sync.decs.find? fun d => d.due == s.ev.x && d.addr == s.ev.y, s.kernelOf s.ev.tile with
    | some d, some (_, k) =>
      (s.setTile s.ev.tile { t with sync := { t.sync with decs := t.sync.decs.erase d } }).weirStep k d.die d.byte weirDecrement
    | _, _ => s)

/-! ## Job control blocks (R259 to R264) -/

/-- The traps of a block address (R262, R263). -/
def Ctx.blockFault (c : Ctx) (addr die : Nat) : Option SlotRes :=
  if addr % 32 ≠ 0 then some (.trap causeAlign addr)
  else if !c.inPart die then some (.trap causePermission permOutside)
  else if 0x7E00 ≤ addr then some (.trap causePermission permOutside)
  else none

/-- The producer entry of a job-control instruction, or its traps (R262). -/
def Ctx.producer (c : Ctx) (t : Tile) (a : Reg) : Except SlotRes Nat :=
  let e := (mapGet (0 : Word) t.sync.jp a.toNat).toNat
  if !bitOf e 24 || bitOf e 25 then .error (.trap causeJcb (field e 14 0 / 8))
  else match c.blockFault (field e 14 0) (field e 17 15) with
    | some r => .error r
    | none => .ok e

/-- JCBRAISE (R262). -/
def execJcbraise (d a : Reg) (b : Src) (s : State) : Host.Outcome State Fault Refusal :=
  runSlot 5 s fun c t =>
    match c.producer t a with
    | .error r => r
    | .ok e =>
      let die := field e 17 15
      .ok (c.request t die (field e 14 0) (c.lag die) (.jcbraise (field e 23 18) ((t.zsrc b).toNat % 2 ^ 32))
        (some (d.toNat, .other, 10 + 2 * cisternDist c.id die)))

/-- JCBPOST (R262, R264): a release on the block, which also marks the entry posted at issue + 1. -/
def execJcbpost (d a : Reg) (b : Src) (s : State) : Host.Outcome State Fault Refusal :=
  runChecked 5 s fun c t =>
    match c.producer t a with
    | .error r => .done r
    | .ok e =>
      let die := field e 17 15
      match c.releaseUnmet t (syncAt die (field e 14 0)) die (c.lag die) with
      | some u => .unmet u
      | none =>
        let t := c.land t .other (.jpPosted a.toNat) 0 1
        .done (.ok (c.request t die (field e 14 0) (c.lag die) (.jcbpost (field e 23 18) ((t.zsrc b).toNat % 2 ^ 32))
          (some (d.toNat, .other, 10 + 2 * cisternDist c.id die))))

/-- JCBWAIT (R263). -/
def execJcbwait (d a : Reg) (w : BitVec 16) (s : State) : Host.Outcome State Fault Refusal :=
  runSlot 5 s fun c t =>
    let x := (t.sreg a).toNat
    let die := field x 17 15
    match c.blockFault (field x 14 0) die with
    | some r => r
    | none => .ok (c.request t die (field x 14 0) (c.lag die + w.toNat) .jcbwait (some (d.toNat, .other, 10 + 2 * cisternDist c.id die + w.toNat)))

/-- A raise or a post applied to the words 0 to 2 of a block (R262). -/
def jcbApply (post : Bool) (p n cycle w0 w1 w2 : Nat) : Nat × Nat × Nat :=
  let total := w0 % 2 ^ 32
  let posted := w0 / 2 ^ 32
  let is := bitOf w1 p
  let sum := if post then posted + n else total + n
  let err := bitOf w2 62 || !is || decide (2 ^ 32 ≤ sum)
  let v := min sum (2 ^ 32 - 1)
  let total' := if is && !post then v else total
  let posted' := if is && post then v else posted
  let w1' := if is && post then w1 - 2 ^ p else w1
  let w2' := setField w2 62 1 (b2n err)
  let w2' := if !bitOf w2 63 && posted' == total' && w1' == 0 then setField (setField w2' 0 48 cycle) 63 1 1 else w2'
  (total' + posted' * 2 ^ 32, w1', setField w2' 48 14 0)

/-- The sample of a block (R263). -/
def jcbSample (w0 w1 w2 : Nat) : Nat :=
  let total := w0 % 2 ^ 32
  let posted := w0 / 2 ^ 32
  b2n (bitOf w2 63) + b2n (bitOf w2 62) * 2 + b2n (decide (total < posted)) * 4 + popcOf 64 w1 * 8 + (total + 2 ^ 32 - posted) % 2 ^ 32 * 2 ^ 32

/-! ## CISTERN_REQUEST_APPLY (R268, R272, R278) -/

/-- A reply given to the result that awaits it. -/
def State.reply (s : State) (id : TileId) (r : Req) (v : Nat) : State :=
  match r.result with
  | none => s
  | some q => s.updTile id fun t => { t with flight := t.flight.map fun x => if x.seq = q then { x with val := v % 2 ^ 64 } else x }

/-- A raise or a post at its block. -/
def State.jcbStep (s : State) (k : Kernel) (r : Req) (post : Bool) (p n : Nat) : State :=
  let (w0, w1, w2) := jcbApply post p n k.cycle (s.cword r.die r.byte) (s.cword r.die (r.byte + 8)) (s.cword r.die (r.byte + 16))
  ((s.setCword r.die r.byte w0).setCword r.die (r.byte + 8) w1).setCword r.die (r.byte + 16) w2

/-- A request applied at its cistern, and its reply. -/
def State.applyReq (s : State) (id : TileId) (k : Kernel) (r : Req) : State :=
  let old := s.cword r.die r.byte
  match r.kind with
  | .start _ _ _ => s
  | .warr => (s.weirStep k r.die r.byte weirArrive).reply id r old
  | .wpend n => (s.weirStep k r.die r.byte fun w => (weirPend w n, false)).reply id r old
  | .wpoll => s.reply id r old
  | .wwait phase => s.reply id r (setField old 63 1 (b2n (field old 55 48 != phase)))
  | .jcbraise p n => (s.jcbStep k r false p n).reply id r old
  | .jcbpost p n => (s.jcbStep k r true p n).reply id r old
  | .jcbwait => s.reply id r (jcbSample old (s.cword r.die (r.byte + 8)) (s.cword r.die (r.byte + 16)))
  | kind => (match kind.update (BitVec.ofNat 64 old) with
    | some v => s.setCword r.die r.byte v.toNat
    | none => s).reply id r old

/-- A request no longer on its way. One applied while its tile is stopped stays known to the release checks of the cycles that the tile still
has before it (R284). -/
def Tile.applied (t : Tile) (r : Req) : Tile :=
  let past := if t.runs ∨ t.flow.st = .halted then t.sync.past else t.sync.past.filter (fun x => decide (t.flow.stopAt ≤ x.due)) ++ [r]
  { t with sync := { t.sync with reqs := t.sync.reqs.filter (fun x => x.seq != r.seq), past := past } }

/-- CISTERN_REQUEST_APPLY (R268): the request of the event's tile with place y in issue order takes effect. -/
def execCisternRequestApply (s : State) : Host.Outcome State Fault Refusal :=
  .next (
    let id := s.ev.tile
    let t := s.tile id
    match t.sync.reqs.find? fun r => r.seq == s.ev.y && r.kind.toCistern, s.kernelOf id with
    | some r, some (_, k) =>
      (s.setTile id (t.applied r)).applyReq id k r
    | _, _ => s)

end Sys2Proof.Machine
end

