-- ==== Sys2Proof/Machine/Vector.lean ====
section
/-!
DEFINITION. Machine/Vector.lean: the V-slot instructions of R135 to R151.
-/

namespace Sys2Proof.Machine

/-! ## Floating operations on one element (R138 to R144) -/

/-- What a floating operation reads beside its operands, at issue (R138). -/
structure FpEnv where
  mode : RMode
  sat  : Bool
  ftz  : Bool
  daz  : Bool
deriving DecidableEq, Repr

/-- The environment of a V-slot floating instruction (R138). -/
def Tile.fpEnv (t : Tile) (rm : Rm) : FpEnv := ⟨rmodeOf rm t.fmts.fcsr, t.fsat, t.ftz, t.daz⟩

/-- An element read as an operand (R77). -/
def FpEnv.read (v : FpEnv) (f : Fmt) (bits : Nat) : Num := dazNum f v.daz ((layoutOf f).value (bits % 2 ^ (layoutOf f).width))

/-- An exact result delivered (R138). -/
def FpEnv.deliver (v : FpEnv) (f : Fmt) (r : Num × FlagSet) : Nat × FlagSet :=
  let (bits, g) := rndFloat f v.mode v.sat v.ftz r.1
  (bits, r.2 ||| g)

/-- Addition (R139). -/
def FpEnv.add (v : FpEnv) (f : Fmt) (a b : Nat) : Nat × FlagSet := v.deliver f (numAdd v.mode (v.read f a) (v.read f b))
/-- Subtraction (R139). -/
def FpEnv.sub (v : FpEnv) (f : Fmt) (a b : Nat) : Nat × FlagSet := v.deliver f (numAdd v.mode (v.read f a) (v.read f b).neg)
/-- Multiplication (R139). -/
def FpEnv.mul (v : FpEnv) (f : Fmt) (a b : Nat) : Nat × FlagSet := v.deliver f (numMul (v.read f a) (v.read f b))
/-- a × b + c, with one rounding; negProd inverts the product, negAdd the addend (R139). -/
def FpEnv.fma (v : FpEnv) (f : Fmt) (negProd negAdd : Bool) (a b c : Nat) : Nat × FlagSet :=
  let z := v.read f c
  v.deliver f (numFma v.mode negProd (v.read f a) (v.read f b) (if negAdd then z.neg else z))
/-- Division (R139). -/
def FpEnv.div (v : FpEnv) (f : Fmt) (a b : Nat) : Nat × FlagSet := v.deliver f (numDiv (v.read f a) (v.read f b))
/-- Square root (R139). -/
def FpEnv.sqrt (v : FpEnv) (f : Fmt) (a : Nat) : Nat × FlagSet := v.deliver f (numSqrt (v.read f a))

/-- The bits of an operand as daz leaves them (R140). -/
def FpEnv.bits (v : FpEnv) (f : Fmt) (x : Nat) : Nat :=
  let l := layoutOf f
  let x := x % 2 ^ l.width
  if v.daz && x / 2 ^ l.m % 2 ^ l.e == 0 then x / 2 ^ (l.e + l.m) * 2 ^ (l.e + l.m) else x

/-- Minimum, or maximum (R140). -/
def FpEnv.pick (v : FpEnv) (f : Fmt) (mx : Bool) (a b : Nat) : Nat × FlagSet :=
  let x := v.read f a
  let y := v.read f b
  if x.isNan || y.isNan then ((layoutOf f).canonicalNaN, flagIf (x.isSig || y.isSig) flagNv)
  else
    let takeA := if mx then !numBefore x y else !numBefore y x
    (if takeA then v.bits f a else v.bits f b, 0)

/-- The sign bit cleared (R140). -/
def FpEnv.abs (v : FpEnv) (f : Fmt) (a : Nat) : Nat × FlagSet :=
  let l := layoutOf f
  (v.bits f a % 2 ^ (l.e + l.m), 0)
/-- The sign bit inverted (R140). -/
def FpEnv.neg (v : FpEnv) (f : Fmt) (a : Nat) : Nat × FlagSet :=
  let l := layoutOf f
  ((v.bits f a + 2 ^ (l.e + l.m)) % 2 ^ l.width, 0)

/-- A comparison (R141). -/
def FpEnv.cmp (v : FpEnv) (f : Fmt) (cc : FCond) (a b : Nat) : Bool × FlagSet :=
  let x := v.read f a
  let y := v.read f b
  let un := x.isNan || y.isNan
  let sig := flagIf (x.isSig || y.isSig) flagNv
  let anyNan := flagIf un flagNv
  let c := numCmp x y
  match cc with
  | .eq => (!un && c == 0, sig)
  | .ne => (un || c != 0, sig)
  | .un => (un, sig)
  | .or => (!un, sig)
  | .lt => (!un && decide (c < 0), anyNan)
  | .le => (!un && decide (c ≤ 0), anyNan)
  | .gt => (!un && decide (0 < c), anyNan)
  | .ge => (!un && decide (0 ≤ c), anyNan)

/-- Rounding to an integral value (R143). -/
def FpEnv.rint (v : FpEnv) (f : Fmt) (a : Nat) : Nat × FlagSet :=
  match v.read f a with
  | .nan s => ((layoutOf f).canonicalNaN, flagIf s flagNv)
  | .inf n => ((layoutOf f).infCode n, 0)
  | .fin n m e =>
    let (q, inx) := roundTo v.mode n m e 0
    ((rndFloat f v.mode false false (.fin n q 0)).1, flagIf inx flagNx)

/-- a × 2^n (R143); beyond 10,000 either way every n gives the same result. -/
def FpEnv.scalb (v : FpEnv) (f : Fmt) (a : Nat) (n : Int) : Nat × FlagSet :=
  let k := max (-10000) (min n 10000)
  match v.read f a with
  | .fin s m e => v.deliver f (.fin s m (e + k), 0)
  | .nan s => v.deliver f (.nan s, 0)
  | x => v.deliver f (x, 0)

/-- 2^a (R144). -/
def FpEnv.exp2 (v : FpEnv) (a : Nat) : Nat × FlagSet :=
  let v := { v with mode := .rtz }
  match v.read .f32 a with
  | .nan s => v.deliver .f32 (.nan s, 0)
  | .inf true => (0, 0)
  | .inf false => v.deliver .f32 (.inf false, 0)
  | .fin n m e => v.deliver .f32 (numExp2Fin n m e, 0)

/-- log2 a (R144). -/
def FpEnv.log2 (v : FpEnv) (a : Nat) : Nat × FlagSet :=
  let v := { v with mode := .rtz }
  match v.read .f32 a with
  | .nan s => v.deliver .f32 (.nan s, 0)
  | .inf true => v.deliver .f32 (.nan false, flagNv)
  | .inf false => v.deliver .f32 (.inf false, 0)
  | .fin _ 0 _ => v.deliver .f32 (.inf true, flagDz)
  | .fin true _ _ => v.deliver .f32 (.nan false, flagNv)
  | .fin false m e => v.deliver .f32 (numLog2Fin m e, 0)

/-- 1 / a (R144). -/
def FpEnv.rcp (v : FpEnv) (a : Nat) : Nat × FlagSet :=
  let v := { v with mode := .rtz }
  v.deliver .f32 (numDiv (.fin false 1 0) (v.read .f32 a))

/-- 1 / √a (R144). -/
def FpEnv.rsq (v : FpEnv) (a : Nat) : Nat × FlagSet :=
  let v := { v with mode := .rtz }
  match v.read .f32 a with
  | .nan s => v.deliver .f32 (.nan s, 0)
  | .inf true => v.deliver .f32 (.nan false, flagNv)
  | .inf false => (0, 0)
  | .fin n 0 _ => v.deliver .f32 (.inf n, flagDz)
  | .fin true _ _ => v.deliver .f32 (.nan false, flagNv)
  | .fin false m e => v.deliver .f32 (numRsqFin m e, 0)

/-- A conversion of one element (R142, R79 to R82). -/
def FpEnv.convert (v : FpEnv) (dst src : Fmt) (di si : IntSpec) (isat : Bool) (bits : Nat) : Nat × FlagSet :=
  let x := elemNum src si bits
  let x := if fmtIsInt src || src == .e8m0 then x else dazNum src v.daz x
  if fmtIsInt dst then
    let (r, g) := if fmtIsInt src then intToInt di isat (si.value bits) else numToInt di v.mode x
    (wrap r 32, g)
  else rndFloat dst v.mode v.sat v.ftz x

/-! ## Shapes of a V-slot instruction -/

/-- The lane-pair datapath is busy in the cycle after an f64 floating instruction of ops 0x01 to 0x10 (R137). -/
def Ctx.busyPair (c : Ctx) (t : Tile) (pair : Bool) : Tile :=
  if pair then { t with flow := { t.flow with pairBusy := some (c.now + 1) } } else t

/-- A floating instruction of one, two or three operands, element by element (R138). -/
def floatOp (s : State) (f : Fmt) (rm : Rm) (mt : Bool) (d : Reg) (cls : LatClass) (lat : Nat)
    (g : FpEnv → Tile → List (Nat × FlagSet)) : Host.Outcome State Fault Refusal :=
  runSlot 2 s fun c t =>
    let on := t.activeMask mt
    let r := g (t.fpEnv rm) t
    let flags := activeFlags (activeElems f on) (r.map Prod.snd)
    let lat := if f.isPair then lat + 1 else lat
    .ok (c.landElems (c.busyPair t f.isPair) cls f (t.efrInt f) d (r.map Prod.fst) on lat flags)

/-- Three lists taken together. -/
def zip3 (g : Nat → Nat → Nat → Nat × FlagSet) : List Nat → List Nat → List Nat → List (Nat × FlagSet)
  | a :: as, b :: bs, c :: cs => g a b c :: zip3 g as bs cs
  | _, _, _ => []

/-- VFADD (R139). -/
def execVfadd (f : Fmt) (rm : Rm) (mt : Bool) (d a : Reg) (b : Src) (s : State) : Host.Outcome State Fault Refusal :=
  floatOp s f rm mt d .vfloat 4 fun v t => List.zipWith (v.add f) (t.elems f a) (t.elemsB f b)
/-- VFSUB (R139). -/
def execVfsub (f : Fmt) (rm : Rm) (mt : Bool) (d a : Reg) (b : Src) (s : State) : Host.Outcome State Fault Refusal :=
  floatOp s f rm mt d .vfloat 4 fun v t => List.zipWith (v.sub f) (t.elems f a) (t.elemsB f b)
/-- VFMUL (R139). -/
def execVfmul (f : Fmt) (rm : Rm) (mt : Bool) (d a : Reg) (b : Src) (s : State) : Host.Outcome State Fault Refusal :=
  floatOp s f rm mt d .vfloat 4 fun v t => List.zipWith (v.mul f) (t.elems f a) (t.elemsB f b)
/-- VFMA (R139). -/
def execVfma (f : Fmt) (rm : Rm) (mt : Bool) (d a : Reg) (b : Src) (c : Reg) (s : State) : Host.Outcome State Fault Refusal :=
  floatOp s f rm mt d .vfloat 4 fun v t => zip3 (v.fma f false false) (t.elems f a) (t.elemsB f b) (t.elems f c)
/-- VFMS (R139). -/
def execVfms (f : Fmt) (rm : Rm) (mt : Bool) (d a : Reg) (b : Src) (c : Reg) (s : State) : Host.Outcome State Fault Refusal :=
  floatOp s f rm mt d .vfloat 4 fun v t => zip3 (v.fma f false true) (t.elems f a) (t.elemsB f b) (t.elems f c)
/-- VFNMA (R139). -/
def execVfnma (f : Fmt) (rm : Rm) (mt : Bool) (d a : Reg) (b : Src) (c : Reg) (s : State) : Host.Outcome State Fault Refusal :=
  floatOp s f rm mt d .vfloat 4 fun v t => zip3 (v.fma f true false) (t.elems f a) (t.elemsB f b) (t.elems f c)
/-- VFDIV (R139). -/
def execVfdiv (f : Fmt) (rm : Rm) (mt : Bool) (d a : Reg) (b : Src) (s : State) : Host.Outcome State Fault Refusal :=
  floatOp s f rm mt d .vdiv 14 fun v t => List.zipWith (v.div f) (t.elems f a) (t.elemsB f b)
/-- VFSQRT (R139). -/
def execVfsqrt (f : Fmt) (rm : Rm) (mt : Bool) (d a : Reg) (s : State) : Host.Outcome State Fault Refusal :=
  floatOp s f rm mt d .vdiv 14 fun v t => (t.elems f a).map (v.sqrt f)
/-- VFMIN (R140). -/
def execVfmin (f : Fmt) (mt : Bool) (d a : Reg) (b : Src) (s : State) : Host.Outcome State Fault Refusal :=
  floatOp s f .fcsr mt d .vfloat 4 fun v t => List.zipWith (v.pick f false) (t.elems f a) (t.elemsB f b)
/-- VFMAX (R140). -/
def execVfmax (f : Fmt) (mt : Bool) (d a : Reg) (b : Src) (s : State) : Host.Outcome State Fault Refusal :=
  floatOp s f .fcsr mt d .vfloat 4 fun v t => List.zipWith (v.pick f true) (t.elems f a) (t.elemsB f b)
/-- VFABS (R140). -/
def execVfabs (f : Fmt) (mt : Bool) (d a : Reg) (s : State) : Host.Outcome State Fault Refusal :=
  floatOp s f .fcsr mt d .vfloat 4 fun v t => (t.elems f a).map (v.abs f)
/-- VFNEG (R140). -/
def execVfneg (f : Fmt) (mt : Bool) (d a : Reg) (s : State) : Host.Outcome State Fault Refusal :=
  floatOp s f .fcsr mt d .vfloat 4 fun v t => (t.elems f a).map (v.neg f)
/-- VFRND (R143). -/
def execVfrnd (f : Fmt) (rm : Rm) (mt : Bool) (d a : Reg) (s : State) : Host.Outcome State Fault Refusal :=
  floatOp s f rm mt d .vfloat 4 fun v t => (t.elems f a).map (v.rint f)

/-- The exponents of VSCALB (R143): the immediate, or the signed lanes, or in the packed layout the signed halves, of vb. -/
def Tile.scalbN (t : Tile) (f : Fmt) : Src → List Int
  | .imm v => List.replicate 128 (Imm.simm v).toInt
  | .reg r =>
    if f.isPacked then (splitPairs 16 (lanesOf (t.vreg r))).map fun x => signed x 16
    else (lanesOf (t.vreg r)).map fun x => signed x 32

/-- VSCALB (R143). -/
def execVscalb (f : Fmt) (rm : Rm) (mt : Bool) (d a : Reg) (b : Src) (s : State) : Host.Outcome State Fault Refusal :=
  floatOp s f rm mt d .vfloat 4 fun v t => List.zipWith (v.scalb f) (t.elems f a) (t.scalbN f b)
/-- VEXP2 (R144). -/
def execVexp2 (mt : Bool) (d a : Reg) (s : State) : Host.Outcome State Fault Refusal :=
  floatOp s .f32 .fcsr mt d .vexp 8 fun v t => (t.elems .f32 a).map v.exp2
/-- VLOG2 (R144). -/
def execVlog2 (mt : Bool) (d a : Reg) (s : State) : Host.Outcome State Fault Refusal :=
  floatOp s .f32 .fcsr mt d .vexp 8 fun v t => (t.elems .f32 a).map v.log2
/-- VRCP (R144). -/
def execVrcp (mt : Bool) (d a : Reg) (s : State) : Host.Outcome State Fault Refusal :=
  floatOp s .f32 .fcsr mt d .vexp 8 fun v t => (t.elems .f32 a).map v.rcp
/-- VRSQ (R144). -/
def execVrsq (mt : Bool) (d a : Reg) (s : State) : Host.Outcome State Fault Refusal :=
  floatOp s .f32 .fcsr mt d .vexp 8 fun v t => (t.elems .f32 a).map v.rsq

/-- A mask of the elements that hold, with 0 in inactive lanes (R134). -/
def packBits : List Bool → Nat
  | [] => 0
  | b :: r => b2n b + 2 * packBits r

/-- VFCMP (R141). -/
def execVfcmp (f : Fmt) (cc : FCond) (mt : Bool) (d a : Reg) (b : Src) (s : State) : Host.Outcome State Fault Refusal :=
  runSlot 2 s fun c t =>
    let on := t.activeMask mt
    let r := List.zipWith ((t.fpEnv .fcsr).cmp f cc) (t.elems f a) (t.elemsB f b)
    let flags := activeFlags (activeElems f on) (r.map Prod.snd)
    let v := BitVec.ofNat 64 (packBits (r.map Prod.fst)) &&& on
    .ok (c.land (c.busyPair t f.isPair) .vfloat (.mk d.toNat) v.toNat (if f.isPair then 5 else 4) flags)

/-- VFCVT (R142). -/
def execVfcvt (dst src : Fmt) (rm : Rm) (mt : Bool) (d a b : Reg) (hi : Bool) (s : State) : Host.Outcome State Fault Refusal :=
  runSlot 2 s fun c t =>
    let on := t.activeMask mt
    let v := t.fpEnv rm
    let es :=
      if dst.isPacked && !src.isPacked then t.elems src a ++ t.elems src b
      else if src.isPacked && !dst.isPacked then ((t.elems src a).drop (if hi then 64 else 0)).take 64
      else t.elems src a
    let r := es.map (v.convert dst src (t.efrInt dst) (t.efrInt src) t.isat)
    let flags := activeFlags (activeElems dst on) (r.map Prod.snd)
    let wide := dst.isPair || src.isPair
    .ok (c.landElems (c.busyPair t wide) .vfloat dst (t.efrInt dst) d (r.map Prod.fst) on (if wide then 5 else 4) flags)

/-! ## Integer instructions (R145, R146) -/

/-- An integer instruction of two lane operands (R145). -/
def intOp (s : State) (mt : Bool) (d a : Reg) (b : Src) (g : BitVec 32 → BitVec 32 → BitVec 32) : Host.Outcome State Fault Refusal :=
  runSlot 2 s fun c t =>
    let r := List.zipWith (fun x y => (g (BitVec.ofNat 32 x) (BitVec.ofNat 32 y)).toNat) (lanesOf (t.vreg a)) (t.lanesB b)
    .ok (c.landLanes t .vint d.toNat r (t.activeMask mt) 2)

/-- An integer instruction of one lane operand (R145). -/
def intOp1 (s : State) (mt : Bool) (d a : Reg) (g : BitVec 32 → BitVec 32) : Host.Outcome State Fault Refusal :=
  runSlot 2 s fun c t =>
    let r := (lanesOf (t.vreg a)).map fun x => (g (BitVec.ofNat 32 x)).toNat
    .ok (c.landLanes t .vint d.toNat r (t.activeMask mt) 2)

/-- The shift amount b[4:0]. -/
def laneShift (b : BitVec 32) : Nat := b.toNat % 32

/-- VADD (R145). -/
def execVadd (mt : Bool) (d a : Reg) (b : Src) (s : State) : Host.Outcome State Fault Refusal :=
  intOp s mt d a b fun x y => x + y
/-- VSUB (R145). -/
def execVsub (mt : Bool) (d a : Reg) (b : Src) (s : State) : Host.Outcome State Fault Refusal :=
  intOp s mt d a b fun x y => x - y
/-- VMUL (R145). -/
def execVmul (mt : Bool) (d a : Reg) (b : Src) (s : State) : Host.Outcome State Fault Refusal :=
  intOp s mt d a b fun x y => x * y
/-- VMULH (R145). -/
def execVmulh (u : Bool) (mt : Bool) (d a : Reg) (b : Src) (s : State) : Host.Outcome State Fault Refusal :=
  intOp s mt d a b fun x y =>
    if u then BitVec.ofNat 32 (x.toNat * y.toNat / 2 ^ 32) else BitVec.ofInt 32 (x.toInt * y.toInt / 2 ^ 32)
/-- VMAD (R145). -/
def execVmad (mt : Bool) (d a : Reg) (b : Src) (c : Reg) (s : State) : Host.Outcome State Fault Refusal :=
  runSlot 2 s fun k t =>
    let p := List.zipWith (fun x y => x * y) (lanesOf (t.vreg a)) (t.lanesB b)
    let r := List.zipWith (fun x y => (x + y) % 2 ^ 32) p (lanesOf (t.vreg c))
    .ok (k.landLanes t .vint d.toNat r (t.activeMask mt) 2)
/-- VAND (R145). -/
def execVand (mt : Bool) (d a : Reg) (b : Src) (s : State) : Host.Outcome State Fault Refusal :=
  intOp s mt d a b fun x y => x &&& y
/-- VOR (R145). -/
def execVor (mt : Bool) (d a : Reg) (b : Src) (s : State) : Host.Outcome State Fault Refusal :=
  intOp s mt d a b fun x y => x ||| y
/-- VXOR (R145). -/
def execVxor (mt : Bool) (d a : Reg) (b : Src) (s : State) : Host.Outcome State Fault Refusal :=
  intOp s mt d a b fun x y => x ^^^ y
/-- VSHL (R145). -/
def execVshl (mt : Bool) (d a : Reg) (b : Src) (s : State) : Host.Outcome State Fault Refusal :=
  intOp s mt d a b fun x y => x <<< laneShift y
/-- VSHR (R145). -/
def execVshr (mt : Bool) (d a : Reg) (b : Src) (s : State) : Host.Outcome State Fault Refusal :=
  intOp s mt d a b fun x y => x >>> laneShift y
/-- VSAR (R145). -/
def execVsar (mt : Bool) (d a : Reg) (b : Src) (s : State) : Host.Outcome State Fault Refusal :=
  intOp s mt d a b fun x y => x.sshiftRight (laneShift y)
/-- VMIN (R145). -/
def execVmin (u : Bool) (mt : Bool) (d a : Reg) (b : Src) (s : State) : Host.Outcome State Fault Refusal :=
  intOp s mt d a b fun x y => if (if u then x.ule y else x.sle y) then x else y
/-- VMAX (R145). -/
def execVmax (u : Bool) (mt : Bool) (d a : Reg) (b : Src) (s : State) : Host.Outcome State Fault Refusal :=
  intOp s mt d a b fun x y => if (if u then y.ule x else y.sle x) then x else y
/-- VCMP (R145). -/
def execVcmp (cc : Cond) (mt : Bool) (d a : Reg) (b : Src) (s : State) : Host.Outcome State Fault Refusal :=
  runSlot 2 s fun c t =>
    let r := List.zipWith (fun x y => condHolds cc (BitVec.ofNat 32 x) (BitVec.ofNat 32 y)) (lanesOf (t.vreg a)) (t.lanesB b)
    .ok (c.land t .vint (.mk d.toNat) (BitVec.ofNat 64 (packBits r) &&& t.activeMask mt).toNat 2)
/-- VSEL (R145). -/
def execVsel (mt : Bool) (d a : Reg) (b : Src) (c : Reg) (s : State) : Host.Outcome State Fault Refusal :=
  runSlot 2 s fun k t =>
    let m := t.mreg c
    let r := List.zipWith (fun e (p : Nat × Nat) => if laneOn m e then p.1 else p.2) (List.range 64)
      (List.zip (lanesOf (t.vreg a)) (t.lanesB b))
    .ok (k.landLanes t .vint d.toNat r (t.activeMask mt) 2)
/-- VABS (R145). -/
def execVabs (mt : Bool) (d a : Reg) (s : State) : Host.Outcome State Fault Refusal :=
  intOp1 s mt d a fun x => if x.msb then -x else x
/-- VCLZ (R145). -/
def execVclz (mt : Bool) (d a : Reg) (s : State) : Host.Outcome State Fault Refusal :=
  intOp1 s mt d a fun x => BitVec.ofNat 32 (clzOf 32 x.toNat)
/-- VPOPC (R145). -/
def execVpopc (mt : Bool) (d a : Reg) (s : State) : Host.Outcome State Fault Refusal :=
  intOp1 s mt d a fun x => BitVec.ofNat 32 (popcOf 32 x.toNat)

/-- The carry-less product of two values of n bits (R146). -/
def clmul (n x y : Nat) : Nat :=
  (List.range n).foldl (fun a i => if bitOf y i then a ^^^ (x * 2 ^ i) else a) 0

/-- The mask in which an even bit governs its pair of lanes (R146). -/
def pairMask (m : Mask) : Mask :=
  BitVec.ofNat 64 (packBits ((List.range 64).map fun k => laneOn m (k / 2 * 2)))

/-- VCLMUL (R146): hi selects bits [127:64] of each product. -/
def clmulOp (s : State) (hi : Bool) (mt : Bool) (d a b : Reg) : Host.Outcome State Fault Refusal :=
  runSlot 2 s fun c t =>
    let r := List.zipWith (fun x y => let p := clmul 64 x y; if hi then p / 2 ^ 64 else p % 2 ^ 64)
      (joinPairs 32 (lanesOf (t.vreg a))) (joinPairs 32 (lanesOf (t.vreg b)))
    .ok (c.landLanes t .vint d.toNat (splitPairs 32 r) (pairMask (t.activeMask mt)) 2)

/-- VCLMUL.lo (R146). -/
def execVclmulLo (mt : Bool) (d a b : Reg) (s : State) : Host.Outcome State Fault Refusal := clmulOp s false mt d a b
/-- VCLMUL.hi (R146). -/
def execVclmulHi (mt : Bool) (d a b : Reg) (s : State) : Host.Outcome State Fault Refusal := clmulOp s true mt d a b

/-! ## Permutes and moves (R147) -/

/-- A permute: the lanes of its result, source lanes read at issue (R147). -/
def permOp (s : State) (mt : Bool) (d : Reg) (g : Tile → List Nat) : Host.Outcome State Fault Refusal :=
  runSlot 2 s fun c t => .ok (c.landLanes t .perm d.toNat (g t) (t.activeMask mt) 3)

/-- VPERM (R147). -/
def execVperm (mt : Bool) (d a b : Reg) (s : State) : Host.Outcome State Fault Refusal :=
  permOp s mt d fun t => (lanesOf (t.vreg b)).map fun j => laneOf (t.vreg a) (j % 64)
/-- VSHUF (R147). -/
def execVshuf (mt : Bool) (d a b c : Reg) (s : State) : Host.Outcome State Fault Refusal :=
  permOp s mt d fun t => (lanesOf (t.vreg c)).map fun x =>
    let j := x % 128
    if j < 64 then laneOf (t.vreg a) j else laneOf (t.vreg b) (j - 64)
/-- VBCAST (R147). -/
def execVbcast (mt : Bool) (d a : Reg) (lane : BitVec 6) (s : State) : Host.Outcome State Fault Refusal :=
  permOp s mt d fun t => List.replicate 64 (laneOf (t.vreg a) lane.toNat)
/-- VMOV (R147). -/
def execVmov (mt : Bool) (d a : Reg) (pair : Bool) (s : State) : Host.Outcome State Fault Refusal :=
  runSlot 2 s fun c t =>
    let on := t.activeMask mt
    let t' := c.landLanes t .perm d.toNat (lanesOf (t.vreg a)) on 3
    .ok (if pair then c.landLanes t' .perm (d.toNat + 1) (lanesOf (t.vreg (a + 1))) on 3 else t')
/-- VMOVS (R147). -/
def execVmovs (k : MovsForm) (mt : Bool) (d a : Reg) (s : State) : Host.Outcome State Fault Refusal :=
  runSlot 2 s fun c t =>
    let on := t.activeMask mt
    let v := (t.sreg a).toNat
    match k with
    | .single => .ok (c.landLanes t .perm d.toNat (List.replicate 64 v) on 3)
    | .iota => .ok (c.landLanes t .perm d.toNat ((List.range 64).map fun j => v + j) on 3)
    | .pair =>
      let t' := c.landLanes t .perm d.toNat (List.replicate 64 v) on 3
      .ok (c.landLanes t' .perm (d.toNat + 1) (List.replicate 64 (v / 2 ^ 32)) on 3)
/-- VEXT (R147). -/
def execVext (d a : Reg) (lane : BitVec 6) (sx pair : Bool) (s : State) : Host.Outcome State Fault Refusal :=
  runSlot 2 s fun c t =>
    let x := laneOf (t.vreg a) lane.toNat
    let v := if pair then x + 2 ^ 32 * laneOf (t.vreg (a + 1)) lane.toNat else if sx then wrap (signed x 32) 64 else x
    .ok (c.land t .perm (.sreg d.toNat) v 3)

/-! ## Reductions and ordering (R148 to R151) -/

/-- One level of the tree of R148. -/
def treeLevel (g : Nat → Nat → Nat × FlagSet) : List Nat → List Nat × FlagSet
  | x :: y :: r =>
    let (z, f) := g x y
    let (zs, fs) := treeLevel g r
    (z :: zs, f ||| fs)
  | l => (l, 0)

/-- Levels of the tree of R148. -/
def treeSum (g : Nat → Nat → Nat × FlagSet) : Nat → List Nat → List Nat × FlagSet
  | 0, l => (l, 0)
  | n + 1, l =>
    let (m, f) := treeLevel g l
    let (r, fs) := treeSum g n m
    (r, f ||| fs)

/-- An addition of R148 and R150: in RNE for the floating formats, wrapped for i32. -/
def FpEnv.sum (v : FpEnv) (f : Fmt) (x y : Nat) : Nat × FlagSet :=
  if fmtIsInt f then ((x + y) % 2 ^ 32, 0) else ({ v with mode := .rne, sat := false }).add f x y

/-- The identity of an addition (R148, R150). -/
def sumIdentity (f : Fmt) : Nat := if fmtIsInt f then 0 else if f.isPair then 2 ^ 63 else 2 ^ 31

/-- VREDADD (R148). -/
def execVredadd (f : Fmt) (mt : Bool) (d a : Reg) (s : State) : Host.Outcome State Fault Refusal :=
  runSlot 2 s fun c t =>
    let on := t.activeMask mt
    let xs := List.zipWith (fun e x => if laneOn on e then x else sumIdentity f) (List.range 64) (t.elems f a)
    let (r, flags) := treeSum ((t.fpEnv .fcsr).sum f) 6 xs
    .ok (c.landElems t .redadd f (t.efrInt f) d (List.replicate 64 (r.headD 0)) (BitVec.allOnes 64) (if f.isPair then 25 else 24) flags)

/-- The active elements of a register. -/
def activeLanes (on : Mask) (v : VWord) : List Nat :=
  ((List.range 64).filter (laneOn on)).map (laneOf v)

/-- VREDMAX, or VREDMIN (R149). -/
def redPick (s : State) (mx : Bool) (k : RedKind) (mt : Bool) (d a : Reg) : Host.Outcome State Fault Refusal :=
  runSlot 2 s fun c t =>
    let xs := activeLanes (t.activeMask mt) (t.vreg a)
    let (r, flags) := match k with
      | .i32 => (xs.foldl (fun m x => if (if mx then signed m 32 ≤ signed x 32 else signed x 32 ≤ signed m 32) then x else m)
          (if mx then 2 ^ 31 else 2 ^ 31 - 1), (0 : FlagSet))
      | .u32 => (xs.foldl (fun m x => if mx then max m x else min m x) (if mx then 0 else 2 ^ 32 - 1), 0)
      | .f32 => xs.foldl (fun (m : Nat × FlagSet) x =>
          let (z, f) := (t.fpEnv .fcsr).pick .f32 mx m.1 x
          (z, m.2 ||| f)) (if mx then 0xFF800000 else 0x7F800000, 0)
    .ok (c.landLanes t .redmax d.toNat (List.replicate 64 r) (BitVec.allOnes 64) 12 flags)

/-- VREDMAX (R149). -/
def execVredmax (k : RedKind) (mt : Bool) (d a : Reg) (s : State) : Host.Outcome State Fault Refusal := redPick s true k mt d a
/-- VREDMIN (R149). -/
def execVredmin (k : RedKind) (mt : Bool) (d a : Reg) (s : State) : Host.Outcome State Fault Refusal := redPick s false k mt d a

/-- The running sums of VSCAN (R150): what each lane is given, and the flags. -/
def scanSum (g : Nat → Nat → Nat × FlagSet) : Nat → List (Bool × Nat) → List Nat × FlagSet
  | _, [] => ([], 0)
  | run, (on, x) :: r =>
    if on then
      let (z, f) := g run x
      let (zs, fs) := scanSum g z r
      (z :: zs, f ||| fs)
    else
      let (zs, fs) := scanSum g run r
      (run :: zs, fs)

/-- VSCAN (R150). -/
def execVscan (k : ScanKind) (mt : Bool) (d a : Reg) (s : State) : Host.Outcome State Fault Refusal :=
  runSlot 2 s fun c t =>
    let on := t.activeMask mt
    let f : Fmt := match k with
      | .i32 => .i32
      | .f32 => .f32
    let (r, flags) := scanSum ((t.fpEnv .fcsr).sum f) (sumIdentity f) (List.zip ((List.range 64).map (laneOn on)) (lanesOf (t.vreg a)))
    .ok (c.landLanes t .redadd d.toNat r on 24 flags)

/-- The place of FP32 bits in IEEE 754 totalOrder (R151). -/
def totalKey (x : Nat) : Nat := if 2 ^ 31 ≤ x then 2 ^ 32 - 1 - x else x + 2 ^ 31

/-- A key and index put among those sorted before it: descending keys, then ascending indices, then the order of arrival (R151). -/
def topkInsert (k i : Nat) : List (Nat × Nat) → List (Nat × Nat)
  | [] => [(k, i)]
  | (k', i') :: r =>
    if totalKey k' < totalKey k ∨ (k' = k ∧ i < i') then (k, i) :: (k', i') :: r else (k', i') :: topkInsert k i r

/-- VTOPK (R151). -/
def execVtopk (mt : Bool) (d a b : Reg) (k : BitVec 7) (s : State) : Host.Outcome State Fault Refusal :=
  runSlot 2 s fun c t =>
    let on := t.activeMask mt
    let pairs := List.zip (activeLanes on (t.vreg a)) (activeLanes on (t.vreg b))
    let best := (pairs.foldl (fun l p => topkInsert p.1 p.2 l) []).take k.toNat
    let pad := List.replicate (64 - best.length) (2 ^ 32 - 1)
    let t' := c.landLanes t .topk d.toNat (best.map Prod.fst ++ pad) (BitVec.allOnes 64) 32
    .ok (c.landLanes t' .topk (d.toNat + 1) (best.map Prod.snd ++ pad) (BitVec.allOnes 64) 32)

/-! ## Masks (R135) -/

/-- A change of the mask stack on its way: the depth and the top after it (R135). -/
def Ctx.landStack (c : Ctx) (t : Tile) (depth : Nat) (top : Mask) : Tile := c.land t .other (.mstack depth) top.toNat 1

/-- MPUSH (R135). -/
def execMpush (a : Reg) (s : State) : Host.Outcome State Fault Refusal :=
  runSlot 2 s fun c t =>
    if 16 ≤ t.regs.ms.length then .trap causeEncoding 2
    else .ok (c.landStack t (t.regs.ms.length + 1) (t.mreg a &&& t.topMask))
/-- MINV (R135). -/
def execMinv (s : State) : Host.Outcome State Fault Refusal :=
  runSlot 2 s fun c t =>
    if t.regs.ms.length = 0 then .trap causeEncoding 2
    else .ok (c.landStack t t.regs.ms.length (t.parentMask &&& ~~~t.topMask))
/-- MPOP (R135). -/
def execMpop (s : State) : Host.Outcome State Fault Refusal :=
  runSlot 2 s fun c t =>
    if t.regs.ms.length = 0 then .trap causeEncoding 2
    else .ok (c.landStack t (t.regs.ms.length - 1) t.parentMask)
/-- MAND (R135). -/
def execMand (d a b : Reg) (s : State) : Host.Outcome State Fault Refusal :=
  runSlot 2 s fun c t => .ok (c.land t .other (.mk d.toNat) (t.mreg a &&& t.mreg b).toNat 1)
/-- MOR (R135). -/
def execMor (d a b : Reg) (s : State) : Host.Outcome State Fault Refusal :=
  runSlot 2 s fun c t => .ok (c.land t .other (.mk d.toNat) (t.mreg a ||| t.mreg b).toNat 1)
/-- MNOT (R135). -/
def execMnot (d a : Reg) (s : State) : Host.Outcome State Fault Refusal :=
  runSlot 2 s fun c t => .ok (c.land t .other (.mk d.toNat) (~~~(t.mreg a)).toNat 1)
/-- MCNT (R135). -/
def execMcnt (d a : Reg) (top : Bool) (s : State) : Host.Outcome State Fault Refusal :=
  runSlot 2 s fun c t =>
    .ok (c.land t .other (.sreg d.toNat) (popcOf 64 (if top then t.topMask else t.mreg a).toNat) 2)

/-! ## Staging moves (R152 to R154) -/

/-- A load's elements sent on their way: words, or pairs. -/
def Ctx.landMove (c : Ctx) (t : Tile) (d : Reg) (pair : Bool) (es : List Nat) (on : Mask) (lat : Nat) : Tile :=
  if pair then
    c.landLanes (c.landLanes t .other d.toNat (es.map fun x => x % 2 ^ 32) on lat) .other (d.toNat + 1) (es.map fun x => x / 2 ^ 32) on lat
  else c.landLanes t .other d.toNat es on lat

/-- VLD (R153). -/
def execVld (mt : Bool) (d a : Reg) (w : Width) (sx pair : Bool) (off : BitVec 16) (s : State) : Host.Outcome State Fault Refusal :=
  runSlot 5 s fun c t =>
    let nib := nibbles w pair
    let base := moveAlign (t.sreg a + off.signExtend 64).toNat nib
    let span := bytesNat (stagingBytes t.staging base (32 * nib))
    let es := (List.range 64).map fun e => moveExtend nib sx (span / 2 ^ (4 * nib * e) % 2 ^ (4 * nib))
    .ok (c.landMove t d pair es (t.activeMask mt) 6)

/-- VST (R153). With no active element it writes nothing, and no result is in flight: it takes no entry of the landing queue and no HALT waits for it
(DESIGN CHOICE, log 74). -/
def execVst (mt : Bool) (a b : Reg) (w : Width) (pair : Bool) (off : BitVec 16) (s : State) : Host.Outcome State Fault Refusal :=
  runSlot 5 s fun c t =>
    let nib := nibbles w pair
    let base := moveAlign (t.sreg a + off.signExtend 64).toNat nib
    let bytes := storeBytes (t.activeMask mt) nib (moveNibble base nib) 0 (t.moveData b pair)
    .ok (if bytes.isEmpty then t else c.landStaging t w.toNat true (inOrder (if nib = 1 then joinNibbles bytes else bytes)) 2)

/-- The half-byte address of element e of a gather or scatter (R154). -/
def Tile.gatherAt (t : Tile) (a b : Reg) (nib : Nat) (off : BitVec 16) (e : Nat) : Nat :=
  2 * moveAlign ((t.sreg a + off.signExtend 64).toNat + laneOf (t.vreg b) e * (nib / 2)) nib

/-- VGATH (R154). -/
def execVgath (mt : Bool) (d a b : Reg) (w : Width) (sx pair : Bool) (off : BitVec 16) (s : State) : Host.Outcome State Fault Refusal :=
  runSlot 5 s fun c t =>
    let nib := nibbles w pair
    let on := t.activeMask mt
    let es := (List.range 64).map fun e => if laneOn on e then moveExtend nib sx (t.moveRead (t.gatherAt a b nib off e) nib) else 0
    .ok (c.landMove t d pair es on 8)

/-- VSCAT (R154): ascending lanes, so that the higher lane's value stands; with no active element nothing is in flight, as for VST. -/
def execVscat (mt : Bool) (a b c : Reg) (w : Width) (pair : Bool) (off : BitVec 16) (s : State) : Host.Outcome State Fault Refusal :=
  runSlot 5 s fun k t =>
    let nib := nibbles w pair
    let bytes := storeBytes (t.activeMask mt) nib (t.gatherAt a b nib off) 0 (t.moveData c pair)
    .ok (if bytes.isEmpty then t else k.landStaging t w.toNat true (inOrder bytes) 4)

end Sys2Proof.Machine
end

