-- ==== Sys2Proof/Machine/Plan.lean ====
section
/-!
DEFINITION. Machine/Plan.lean: what the slots of a bundle name as destinations and when they land, what they read, which are privileged, and the
landing conflicts that these show before the bundle has any effect (R43, R57, R60, R115, R116, R119, R137, R155, R229, R243).
-/

namespace Sys2Proof.Machine

/-! ## Destinations (R43, R57) -/

/-- A scalar destination; s0 is none (R100). -/
def sKey (d : Reg) : List (Nat × Nat) := if d = 0 then [] else [(0, d.toNat)]
/-- A vector destination, or a pair of them. -/
def vKey (d : Reg) (pair : Bool) : List (Nat × Nat) := if pair then [(1, d.toNat), (1, d.toNat + 1)] else [(1, d.toNat)]
/-- An operand buffer (R243). -/
def bufKey (d : Nat) : Nat × Nat := (13 + d / 4, d % 4)

/-- Destinations that land after one latency. -/
def after (lat : Nat) (ks : List (Nat × Nat)) : List ((Nat × Nat) × Nat) := ks.map fun k => (k, lat)

/-- One cycle more for an f64 instruction (R137). -/
def fLat (f : Fmt) (lat : Nat) : Nat := lat + b2n f.isPair

/-- The latency of an atomic's result (R272). -/
def Ctx.amoLat (c : Ctx) (t : Tile) (o : Order) (a : Reg) : Nat :=
  let x := (t.sreg a).toNat
  if bitOf x 20 then 6 else if o = .sc then 10 + 2 * hMax else 10 + 2 * cisternDist c.id (field x 17 15)

/-- The latency of a reply from a die (R267). -/
def Ctx.replyLat (c : Ctx) (die : Nat) : Nat := 10 + 2 * cisternDist c.id die

/-- The latency of the result of a request to a cistern or a sluice, be it discarded for s0; none of another instruction. -/
def Ctx.requestLat (c : Ctx) (t : Tile) : Instr → Option Nat
  | .amoCas o _ a _ _ _ | .amoAdd o _ a _ | .amoSwp o _ a _ | .amoMin o _ a _ | .amoMax o _ a _ | .amoAnd o _ a _ | .amoOr o _ a _ => some (c.amoLat t o a)
  | .apst _ a _ => some (c.replyLat (field (((c.aperture (t.sreg a).toNat).map Prod.fst).getD 0) 11 9))
  | .warr _ _ die | .wpoll _ _ die | .wpend _ _ _ die => some (c.replyLat die.toNat)
  | .wwait _ _ _ die w => some (c.replyLat die.toNat + w.toNat)
  | .jcbraise _ a _ | .jcbpost _ a _ => some (c.replyLat (field (mapGet (0 : Word) t.sync.jp a.toNat).toNat 17 15))
  | .jcbwait _ a w => some (c.replyLat (field (t.sreg a).toNat 17 15) + w.toNat)
  | _ => none

/-- The registers that a slot instruction names as destinations, each with its latency (R58). -/
def Ctx.dests (c : Ctx) (t : Tile) (i : Instr) : List ((Nat × Nat) × Nat) :=
  let reply := (c.requestLat t i).getD 0
  match i with
  | .add d _ _ | .sub d _ _ | .and d _ _ | .or d _ _ | .xor d _ _ | .andn d _ _ | .shl d _ _ | .shr d _ _ | .sar d _ _ | .rot d _ _
  | .clz d _ | .ctz d _ | .popc d _ | .min d _ _ | .max d _ _ | .minu d _ _ | .maxu d _ _ | .sel d _ _ _ | .cmp _ d _ _ | .movi d _
  | .sext d _ _ | .zext d _ _ | .bfx d _ _ _ _ | .bfi d _ _ _ _ | .idx d _ _ _ | .mfs d _ | .call d _ => after 1 (sKey d)
  | .mul d _ _ | .mulh d _ _ | .mulhu d _ _ | .madd d _ _ _ => after 3 (sKey d)
  | .div d _ _ | .divu d _ _ | .rem d _ _ | .remu d _ _ => after 18 (sKey d)
  | .ld d _ _ _ _ => after 6 (sKey d)
  | .amoCas _ d _ _ _ _ | .amoAdd _ d _ _ | .amoSwp _ d _ _ | .amoMin _ d _ _ | .amoMax _ d _ _ | .amoAnd _ d _ _ | .amoOr _ d _ _
  | .apst d _ _ | .warr d _ _ | .wpoll d _ _ | .wpend d _ _ _ | .wwait d _ _ _ _ | .jcbraise d _ _ | .jcbwait d _ _ => after reply (sKey d)
  | .objpin d _ => [((15, d.toNat), 4096)]
  | .objunp d => [((15, d.toNat), 1)]
  | .objq d _ _ | .objchk d _ _ _ | .bstat d _ => after 2 (sKey d)
  | .mts _ n => [(if n = 3 then (8, 0) else (10, n.toNat), 1)]
  | .wfe d => after (1 + c.s.cur.gap) (sKey d)
  | .vfadd f _ _ d _ _ | .vfsub f _ _ d _ _ | .vfmul f _ _ d _ _ | .vfma f _ _ d _ _ _ | .vfms f _ _ d _ _ _ | .vfnma f _ _ d _ _ _
  | .vfmin f _ d _ _ | .vfmax f _ d _ _ | .vfabs f _ d _ | .vfneg f _ d _ | .vfrnd f _ _ d _ | .vscalb f _ _ d _ _ =>
    after (fLat f 4) (vKey d f.isPair)
  | .vfdiv f _ _ d _ _ | .vfsqrt f _ _ d _ => after (fLat f 14) (vKey d f.isPair)
  | .vfcmp f _ _ d _ _ => [((2, d.toNat), fLat f 4)]
  | .vfcvt dst src _ _ d _ _ _ => after (4 + b2n (dst.isPair || src.isPair)) (vKey d dst.isPair)
  | .vexp2 _ d _ | .vlog2 _ d _ | .vrcp _ d _ | .vrsq _ d _ => after 8 (vKey d false)
  | .vadd _ d _ _ | .vsub _ d _ _ | .vmul _ d _ _ | .vmulh _ _ d _ _ | .vmad _ d _ _ _ | .vand _ d _ _ | .vor _ d _ _ | .vxor _ d _ _
  | .vshl _ d _ _ | .vshr _ d _ _ | .vsar _ d _ _ | .vmin _ _ d _ _ | .vmax _ _ d _ _ | .vsel _ d _ _ _ | .vabs _ d _ | .vclz _ d _
  | .vpopc _ d _ | .vclmulLo _ d _ _ | .vclmulHi _ d _ _ => after 2 (vKey d false)
  | .vcmp _ _ d _ _ => [((2, d.toNat), 2)]
  | .vperm _ d _ _ | .vshuf _ d _ _ _ | .vbcast _ d _ _ => after 3 (vKey d false)
  | .vredadd f _ d _ => after (fLat f 24) (vKey d f.isPair)
  | .vredmax _ _ d _ | .vredmin _ _ d _ => after 12 (vKey d false)
  | .vscan _ _ d _ => after 24 (vKey d false)
  | .vtopk _ d _ _ _ => after 32 (vKey d true)
  | .mpush _ | .minv | .mpop => [((3, 0), 1)]
  | .mand d _ _ | .mor d _ _ | .mnot d _ => [((2, d.toNat), 1)]
  | .mcnt d _ _ => after 2 (sKey d)
  | .vmov _ d _ pair => after 3 (vKey d pair)
  | .vmovs k _ d _ => after 3 (vKey d (k == .pair))
  | .vext d _ _ _ _ => after 3 (sKey d)
  | .accrd d _ _ => after 4 (vKey d false)
  | .accretAmax d _ _ | .accretDerive d _ _ => [((4, d.toNat), 70)]
  | .opld d _ _ cnt _ => [(bufKey d.toNat, moveLat cnt)]
  | .opclr d | .scbind d _ | .screl d => [(bufKey d.toNat, 1)]
  | .rdop d _ _ _ n _ _ => [(bufKey d.toNat, c.params.cl + n.toNat)]
  | .scld d _ _ _ => [((4, d.toNat), 6)]
  | .scmov d _ _ | .scmul d _ _ _ | .scmax d _ _ _ | .scmin d _ _ _ | .scq d _ _ _ | .scset d _ _ => [((4, d.toNat), 2)]
  | .scgen d _ _ => [((4, d.toNat), 4)]
  | .fmt d _ => [(if d = 16 then (5, 0) else (6, d.toNat), 0)]
  | .ftsel _ _ => [((7, 0), 0)]
  | .rdsc d _ _ _ => [((4, d.toNat), c.params.cl + 1)]
  | .vld _ d _ _ _ pair _ => after 6 (vKey d pair)
  | .vgath _ d _ _ _ _ pair _ => after 8 (vKey d pair)
  | .jcbpost d a _ => ((10, 0x160 + a.toNat), 1) :: after reply (sKey d)
  | _ => []

/-- The first slot, after an earlier one, that names a destination again (R43). Of an MTS and a JCBPOST in one bundle that name one job pointer this makes an
illegal encoding (R261); those of two bundles meet in the landing conflict of R265 (log 28). -/
def Ctx.duplicate (c : Ctx) (t : Tile) : List (Nat × Nat) → List (Part × Instr) → Option Nat
  | _, [] => none
  | seen, (p, i) :: r =>
    let ks := (c.dests t i).map Prod.fst
    if ks.any seen.contains then some p.code else c.duplicate t (ks ++ seen) r

/-! ## Privilege (R115) -/

/-- A slot instruction that only privileged code may issue. -/
def needsPrivilege : Instr → Bool
  | .train _ | .actraw _ _ | .rdraw _ _ _ _ | .wrraw _ _ _ _ => true
  | .mfs _ n | .mts _ n => sysPrivileged n.toNat
  | _ => false

/-! ## Staging and buffer writes (R155, R229) -/

/-- A range of staging bytes written after a latency. -/
structure Span where
  lat : Nat
  lo  : Nat
  len : Nat
deriving DecidableEq, Repr

/-- A byte lies in a span, addresses modulo 2^18. -/
def Span.holds (x : Span) (a : Nat) : Bool := decide ((a + stagingSize - x.lo % stagingSize) % stagingSize < x.len)
/-- Two spans of one cycle share a byte. -/
def Span.meets (x y : Span) : Bool := x.lat == y.lat && decide (0 < x.len) && decide (0 < y.len) && (x.holds y.lo || y.holds x.lo)

/-- The staging write of an ACCRET (R242). -/
def Tile.retSpan (t : Tile) (a b : Reg) (mode : RetMode) : List Span :=
  match t.accretFmt a mode with
  | some o => [⟨70, t.blockAddr b, 512 * t.activeRow.bits o⟩]
  | none => []

/-- The staging writes of a slot instruction with their write code (R155). -/
def Ctx.spans (c : Ctx) (t : Tile) : Instr → Nat × List Span
  | .st a _ w off => (w.toNat, [⟨1, stgAddr (t.sreg a + off.signExtend 64) (2 ^ w.toNat), 2 ^ w.toNat⟩])
  | .amoCas _ _ a b _ _ =>
    let lo := stgAddr (t.sreg a) 8
    (3, if bitOf (t.sreg a).toNat 20 && BitVec.ofNat 64 (bytesNat (memRange t.staging lo 8)) == t.sreg b then [⟨1, lo, 8⟩] else [])
  | .amoAdd _ _ a _ | .amoSwp _ _ a _ | .amoMin _ _ a _ | .amoMax _ _ a _ | .amoAnd _ _ a _ | .amoOr _ _ a _ =>
    (3, if bitOf (t.sreg a).toNat 20 then [⟨1, stgAddr (t.sreg a) 8, 8⟩] else [])
  | .vst mt a b w pair off =>
    let nib := nibbles w pair
    let base := moveAlign (t.sreg a + off.signExtend 64).toNat nib
    (w.toNat, (storeBytes (t.activeMask mt) nib (moveNibble base nib) 0 (t.moveData b pair)).map fun x => ⟨2, x.addr, 1⟩)
  | .vscat mt a b x w pair off =>
    let nib := nibbles w pair
    (w.toNat, (storeBytes (t.activeMask mt) nib (t.gatherAt a b nib off) 0 (t.moveData x pair)).map fun x => ⟨4, x.addr, 1⟩)
  | .opst a _ _ cnt => (7, [⟨moveLat cnt, t.blockAddr a, 2048 * (cnt.toNat + 1)⟩])
  | .scst a _ off => (7, [⟨2, t.scaleAddr a off, 128⟩])
  | .accst _ b => (7, [⟨36, t.blockAddr b, 16384⟩])
  | .accret a b => (7, t.retSpan a b .plain)
  | .accretAmax _ a b => (7, t.retSpan a b .amax)
  | .accretApply a b _ => (7, t.retSpan a b .apply)
  | .accretDerive _ a b => (7, t.retSpan a b .derive')
  | .rd _ _ x _ n | .rda _ _ x _ n | .rdraw x _ n _ =>
    (6, (List.range (n.toNat + 1)).map fun j => ⟨c.params.cl + j, (t.blockAddr x + 64 * j) % stagingSize, 64⟩)
  | _ => (0, [])

/-- A span meets a staging write in flight, or a read transfer to come, of its cycle (R155). -/
def Tile.spanTaken (t : Tile) (now : Nat) (x : Span) : Bool :=
  (t.flight.any fun r => r.due == now + x.lat && (match r.dst with
    | .staging _ _ => r.bytes.any fun b => x.holds b.addr
    | _ => false)) ||
  t.vault.streams.any fun y => match y.dest with
    | .staging a => y.read && decide (y.first ≤ now + x.lat) && decide (now + x.lat < y.first + y.n) &&
        x.meets ⟨x.lat, (a + 64 * (now + x.lat - y.first)) % stagingSize, 64⟩
    | _ => false

/-- A write of operand-buffer bytes: the buffer, the latency, and a number with the bits of the bytes written set. -/
structure BufWrite where
  buf  : Nat
  lat  : Nat
  mask : Nat
deriving DecidableEq, Repr

/-- The bits of so many buffer bytes from one on. -/
def byteBits (lo len : Nat) : Nat := (2 ^ (8 * len) - 1) * 2 ^ (8 * lo)

/-- Half bytes filled up to the bytes that they lie in. -/
def wholeBits (x : Nat) : Nat :=
  let low := (2 ^ 65536 - 1) / 17
  (x &&& low) * 17 ||| (x &&& (low * 16)) ||| (x &&& (low * 16)) / 16

/-- The bits of the buffer bytes that a slot of a read stream is written to (R229). -/
def slotBits (q : Nat) (lay : Bool) (cont lvl slot : Nat) : Nat :=
  if lay then wholeBits (transposeNibbles cont (brickRows cont lvl) slot (2048 * q) 0 (List.replicate 128 15) 0)
  else byteBits (2048 * q + 64 * slot) 64

/-- Operand-buffer bytes that a slot instruction writes (R229, R232); the zeros of a null brick stand in column order in no buffer. -/
def Ctx.bufWrites (c : Ctx) (t : Tile) : Instr → List BufWrite
  | .opld d _ q cnt _ => [⟨d.toNat, moveLat cnt, byteBits (2048 * q.toNat) (2048 * (cnt.toNat + 1))⟩]
  | .opclr d => [⟨d.toNat, 1, byteBits 0 8192⟩]
  | .rdop d a b sl n q _ =>
    let e := t.ohe a.toNat
    let lay := bitOf (recWord e.words 0) 48 && checkCoord e.words e.nib (t.sreg b).toNat != .null
    (List.range (n.toNat + 1)).map fun j =>
      ⟨d.toNat, c.params.cl + j, slotBits q.toNat lay (containerBits (recBits e.words 0 43 40) e.nib)
        (recProt e.words) (sl.toNat + j)⟩
  | _ => []

/-- Two writes of one buffer in one cycle share a byte. -/
def BufWrite.meets (x y : BufWrite) : Bool := x.buf == y.buf && x.lat == y.lat && x.mask &&& y.mask != 0

/-- A buffer write in flight shares a byte with a new one (R229). -/
def Tile.bufTaken (t : Tile) (now : Nat) (x : BufWrite) : Bool :=
  (t.flight.any fun r => r.due == now + x.lat && (match r.dst with
    | .buffer j lo len => x.meets ⟨j, x.lat, byteBits lo len⟩
    | _ => false)) ||
  t.vault.streams.any fun y => match y.dest with
    | .buffer j q lay cont _ => j == x.buf && decide (y.first ≤ now + x.lat) && decide (now + x.lat < y.first + y.n) &&
        x.meets ⟨j, x.lat, slotBits q (lay && !y.null) cont y.lvl (y.slot + (now + x.lat - y.first))⟩
    | _ => false

/-! ## Landing conflicts (R57, R60, R119, R137, R243) -/

/-- xinfo of a landing conflict (R118): the register of files 0 to 4, 6 and of accumulators and buffers. -/
def conflictInfo (k : Nat × Nat) : Nat :=
  k.1 + (if k.1 = 5 ∨ k.1 = 7 ∨ k.1 = 8 ∨ k.1 = 10 then 0 else k.2 % 64) * 16

/-- A V-slot floating instruction, of ops 0x01 to 0x14. -/
def isFloatOp : Instr → Bool
  | .vfadd .. | .vfsub .. | .vfmul .. | .vfma .. | .vfms .. | .vfnma .. | .vfdiv .. | .vfsqrt .. | .vfmin .. | .vfmax .. | .vfabs ..
  | .vfneg .. | .vfcmp .. | .vfcvt .. | .vfrnd .. | .vscalb .. | .vexp2 .. | .vlog2 .. | .vrcp .. | .vrsq .. => true
  | _ => false

/-- The conflicts of a unit that an instruction would find in use (R137, R238, R243, R254). -/
def Ctx.unitConflict (c : Ctx) (t : Tile) (i : Instr) : Option Nat :=
  if isFloatOp i && t.flow.pairBusy == some c.now then some 0xFFFE
  else match i with
    | .mma d _ _ k | .mmaZ d _ _ k | .mmaN d _ _ k => c.mmaConflict t d k
    | .accz d => if t.accClash d.toNat c.now (c.now + 1) false then some (accConflict d.toNat) else none
    | .accwr d _ _ _ => if t.accClash d.toNat c.now (c.now + 2) false then some (accConflict d.toNat) else none
    | .accret a _ => retClash a .plain
    | .accretAmax _ a _ => retClash a .amax
    | .accretApply a _ _ => retClash a .apply
    | .accretDerive _ a _ => retClash a .derive'
    | .msend _ _ x _ | .msendv _ _ x => portBusy [destTile (t.sreg x).toNat]
    | .mcast _ _ x _ =>
      let r := rectOf (t.sreg x).toNat
      if r.x1 < r.x0 ∨ r.y1 < r.y0 then none else portBusy (rectTiles r)
    | _ => none
where
  /-- An ACCRET that an earlier write or retirement stands against. -/
  retClash (a : Reg) (mode : RetMode) : Option Nat :=
    if (t.accretFmt a mode).isSome && t.accClash a.toNat c.now (c.now + 70) true then some (accConflict a.toNat) else none
  /-- A send whose destinations stand but whose port is taken. -/
  portBusy (ds : List TileId) : Option Nat :=
    if decide (c.now < t.sync.portFree) && ds.all (fun u => c.inPart (dieOf u)) then some 0xFFFC else none

/-- A result with a register of its own lands at a cycle (R57). -/
def Tile.landsAt (t : Tile) (k : Nat × Nat) (cycle : Nat) : Bool := t.flight.any fun r => r.dst.key == some k && r.due == cycle

/-- The entries that a slot instruction adds to what a landing queue would hold (R119, R123). -/
def Ctx.captures (c : Ctx) (t : Tile) (i : Instr) : Nat :=
  ((c.dests t i).filter fun x => decide (x.1.1 ≤ 10)).length + (match i with
    | .st .. => 1
    | .vst .. | .vscat .. | .amoCas .. | .amoAdd .. | .amoSwp .. | .amoMin .. | .amoMax .. | .amoAnd .. | .amoOr .. => b2n !(c.spans t i).2.isEmpty
    | .accret .. | .accretAmax .. | .accretApply .. | .accretDerive .. => 1
    | _ => 0)

/-- The entries that a landing queue would hold. -/
def Tile.captured (t : Tile) : Nat := (t.flight.filter fun r => r.dst.capturable).length + t.fmts.pend.length

/-- What the earlier slots of a bundle have added. -/
structure Added where
  spans : List Span := []
  bufs  : List BufWrite := []
  capt  : Nat := 0
deriving DecidableEq, Repr

/-- The landing conflict of one slot: its xinfo. It is found before the slot runs, and so it comes before an illegal encoding that only the running of a slot
of the bundle shows (an ACCRET's row, output format or kind, the row of an MMA), as a privilege fault does; R60, R237 and R242 leave their rank open (DESIGN
CHOICE, log 90). -/
def Ctx.slotConflict (c : Ctx) (t : Tile) (add : Added) (i : Instr) : Option Nat :=
  let ds := c.dests t i
  let (code, sp) := c.spans t i
  match c.unitConflict t i with
  | some x => some x
  | none => match ds.find? fun x => decide (x.1.1 ≠ 5 ∧ x.1.1 ≠ 6 ∧ x.1.1 ≠ 7 ∧ x.1.1 ≠ 13 ∧ x.1.1 ≠ 14) && t.landsAt x.1 (c.now + x.2) with
    | some x => some (conflictInfo x.1)
    | none =>
      if sp.any (fun x => t.spanTaken c.now x || add.spans.any x.meets) then some (11 + code * 16)
      else match (c.bufWrites t i).find? fun x => t.bufTaken c.now x || add.bufs.any x.meets with
        | some x => some (conflictInfo (bufKey x.buf))
        | none => if decide (32 < t.captured + add.capt + c.captures t i) && c.captures t i != 0 then some 0xFFFF else none

/-- The first landing conflict of a bundle: the part and the xinfo (R60). -/
def Ctx.conflict (c : Ctx) (t : Tile) : Added → List (Part × Instr) → Option (Nat × Nat)
  | _, [] => none
  | add, (p, i) :: r =>
    match c.slotConflict t add i with
    | some x => some (p.code, x)
    | none => c.conflict t { spans := (c.spans t i).2 ++ add.spans, bufs := c.bufWrites t i ++ add.bufs, capt := add.capt + c.captures t i } r

/-! ## Operands (R116, R315) -/

/-- A scalar source. -/
def rS (r : Reg) : Nat × Nat := (0, r.toNat)
/-- A vector source. -/
def rV (r : Reg) : Nat × Nat := (1, r.toNat)
/-- A second source. -/
def rSrc (file : Nat) : Src → List (Nat × Nat)
  | .reg r => [(file, r.toNat)]
  | .imm _ => []
/-- A vector source of a format. -/
def rF (f : Fmt) (r : Reg) : List (Nat × Nat) := if f.isPair then [(1, r.toNat), (1, r.toNat + 1)] else [(1, r.toNat)]
/-- A vector second source of a format. -/
def rFs (f : Fmt) : Src → List (Nat × Nat)
  | .reg r => rF f r
  | .imm _ => []
/-- The top of the mask stack, where a slot is masked. -/
def rM (mt : Bool) : List (Nat × Nat) := if mt then [(3, 0)] else []

/-- The registers that a slot instruction reads at issue. -/
def operands : Instr → List (Nat × Nat)
  | .add _ a b | .sub _ a b | .mul _ a b | .mulh _ a b | .mulhu _ a b | .div _ a b | .divu _ a b | .rem _ a b | .remu _ a b | .and _ a b
  | .or _ a b | .xor _ a b | .andn _ a b | .shl _ a b | .shr _ a b | .sar _ a b | .rot _ a b | .min _ a b | .max _ a b | .minu _ a b
  | .maxu _ a b | .cmp _ _ a b | .apst _ a b => rS a :: rSrc 0 b
  | .sel _ a b x | .madd _ a b x => rS a :: rS x :: rSrc 0 b
  | .clz _ a | .ctz _ a | .popc _ a | .sext _ a _ | .zext _ a _ | .bfx _ a _ _ _ | .ret a | .loop a _ _ | .lbrk a _ | .ld _ a _ _ _
  | .objpin _ a | .sev a | .mark a _ | .mts a _ | .lsend a _ _ _ | .lrecv a _ _ _ | .jcbwait _ a _ => [rS a]
  | .bfi _ a b _ _ | .idx _ a b _ | .br _ a b _ | .st a b _ _ | .stIo a b _ => [rS a, rS b]
  | .brme _ => [(3, 0)]
  | .amoCas _ _ a b x _ => [rS a, rS b, rS x]
  | .amoAdd _ _ a b | .amoSwp _ _ a b | .amoMin _ _ a b | .amoMax _ _ a b | .amoAnd _ _ a b | .amoOr _ _ a b => rS a :: rSrc 0 b
  | .objq _ a _ => [(15, a.toNat)]
  | .objchk _ a b _ => [(15, a.toNat), rS b]
  | .mfs _ n => if n = 3 then [(8, 0)] else [(10, n.toNat)]
  | .vfadd f _ mt _ a b | .vfsub f _ mt _ a b | .vfmul f _ mt _ a b | .vfdiv f _ mt _ a b | .vfmin f mt _ a b | .vfmax f mt _ a b
  | .vfcmp f _ mt _ a b => rF f a ++ rFs f b ++ rM mt
  | .vfma f _ mt _ a b x | .vfms f _ mt _ a b x | .vfnma f _ mt _ a b x => rF f a ++ rFs f b ++ rF f x ++ rM mt
  | .vfsqrt f _ mt _ a | .vfabs f mt _ a | .vfneg f mt _ a | .vfrnd f _ mt _ a | .vredadd f mt _ a => rF f a ++ rM mt
  | .vfcvt dst src _ mt _ a b _ => rF src a ++ (if dst.isPacked && !src.isPacked then rF src b else []) ++ rM mt
  | .vscalb f _ mt _ a b => rF f a ++ rSrc 1 b ++ rM mt
  | .vexp2 mt _ a | .vlog2 mt _ a | .vrcp mt _ a | .vrsq mt _ a | .vabs mt _ a | .vclz mt _ a | .vpopc mt _ a | .vbcast mt _ a _
  | .vredmax _ mt _ a | .vredmin _ mt _ a | .vscan _ mt _ a => rV a :: rM mt
  | .vadd mt _ a b | .vsub mt _ a b | .vmul mt _ a b | .vmulh _ mt _ a b | .vand mt _ a b | .vor mt _ a b | .vxor mt _ a b | .vshl mt _ a b
  | .vshr mt _ a b | .vsar mt _ a b | .vmin _ mt _ a b | .vmax _ mt _ a b | .vcmp _ mt _ a b => rV a :: rSrc 1 b ++ rM mt
  | .vmad mt _ a b x => rV a :: rV x :: rSrc 1 b ++ rM mt
  | .vsel mt _ a b x => rV a :: (2, x.toNat) :: rSrc 1 b ++ rM mt
  | .vclmulLo mt _ a b | .vclmulHi mt _ a b | .vperm mt _ a b => rV a :: rV b :: rM mt
  | .vshuf mt _ a b x => rV a :: rV b :: rV x :: rM mt
  | .vtopk mt _ a b _ => rV a :: rV b :: rM mt
  | .mpush a => [(2, a.toNat), (3, 0)]
  | .minv | .mpop => [(3, 0)]
  | .mand _ a b | .mor _ a b => [(2, a.toNat), (2, b.toNat)]
  | .mnot _ a => [(2, a.toNat)]
  | .mcnt _ a top => if top then [(3, 0)] else [(2, a.toNat)]
  | .vmov mt _ a pair => vKey a pair ++ rM mt
  | .vmovs _ mt _ a => rS a :: rM mt
  | .vext _ a _ _ _ => [rV a]
  | .mma _ a b _ | .mmaZ _ a b _ | .mmaN _ a b _ => [(13, a.toNat), (14, b.toNat)]
  | .accret a b | .accretAmax _ a b => [(12, a.toNat), rS b]
  | .accretApply a b x => [(12, a.toNat), rS b, (4, x.toNat)]
  | .accretDerive _ a b => [(12, a.toNat), rS b]
  | .accrd _ a _ => [(12, a.toNat)]
  | .accwr _ b _ _ => [rV b]
  | .accst a b => [(12, a.toNat), rS b]
  | .opld _ a _ _ x => rS a :: (match x with
    | some r => [(4, r.toNat)]
    | none => [])
  | .opst a b _ _ => [rS a, bufKey b.toNat]
  | .scld _ a _ _ => [rS a]
  | .scst a b _ => [rS a, (4, b.toNat)]
  | .scmov _ a _ | .scq _ a _ _ | .scbind _ a => [(4, a.toNat)]
  | .scmul _ a b _ | .scmax _ a b _ | .scmin _ a b _ => [(4, a.toNat), (4, b.toNat)]
  | .scgen _ a _ => [rV a, (1, a.toNat + 1)]
  | .fmt _ b => rSrc 0 b
  | .act a b => [(15, a.toNat), rS b]
  | .rd a b x _ _ | .rda a b x _ _ | .wr a b x _ _ | .wra a b x _ _ => [(15, a.toNat), rS b, rS x]
  | .rdop _ a b _ _ _ _ => [(15, a.toNat), rS b]
  | .rdsc _ a b x => [(15, a.toNat), rS b, (15, x.toNat)]
  | .rdraw x _ _ _ | .wrraw x _ _ _ => [rS x]
  | .msend a b x _ | .mcast a b x _ => [rS a, rS b, rS x]
  | .msendv a b x => [rV a, rS b, rS x]
  | .vld mt _ a _ _ _ _ => rS a :: rM mt
  | .vst mt a b _ pair _ => rS a :: vKey b pair ++ rM mt
  | .vgath mt _ a b _ _ _ _ => rS a :: rV b :: rM mt
  | .vscat mt a b x _ pair _ => rS a :: rV b :: vKey x pair ++ rM mt
  | .wwait _ b _ _ _ | .wpend _ b _ _ => [rS b]
  | .jcbraise _ a b | .jcbpost _ a b => (10, 0x160 + a.toNat) :: rSrc 0 b
  | _ => []

/-- What a result in flight will write, for the waits of R116: registers, accumulators, buffers. -/
def Dest.writes : Dest → Option (Nat × Nat)
  | .acc k _ _ | .accRow k _ _ | .accZero k | .accRetire k => some (12, k)
  | .buffer k _ _ | .bufSlot k _ _ _ _ _ | .tag k _ => some (bufKey k)
  | d => d.key

/-- The image cycle of a tile (R315). -/
def Tile.imgCycle (t : Tile) (now : Nat) : Nat := now + t.flow.ahead - t.flow.waits

/-- n blocks of 64 bytes from an address on, each read one cycle after the one before (R163, R258, R358). -/
def blockReads (a n : Nat) : List Span := (List.range n).map fun j => ⟨j, (a + 64 * j) % stagingSize, 64⟩

/-- The staging bytes that a slot instruction reads, with how long after its issue it reads them (R109, R153, R154, R163, R170, R232, R258, R358). -/
def Tile.stagingReads (t : Tile) : Instr → List Span
  | .ld _ a w _ off => [⟨0, stgAddr (t.sreg a + off.signExtend 64) (2 ^ w.toNat), 2 ^ w.toNat⟩]
  | .amoCas _ _ a _ _ _ | .amoAdd _ _ a _ | .amoSwp _ _ a _ | .amoMin _ _ a _ | .amoMax _ _ a _ | .amoAnd _ _ a _ | .amoOr _ _ a _ =>
    if bitOf (t.sreg a).toNat 20 then [⟨0, stgAddr (t.sreg a) 8, 8⟩] else []
  | .vld _ _ a w _ pair off => [⟨0, moveAlign (t.sreg a + off.signExtend 64).toNat (nibbles w pair), 32 * nibbles w pair⟩]
  | .vgath mt _ a b w _ pair off => ((List.range 64).filter (laneOn (t.activeMask mt))).map fun e =>
      ⟨0, t.gatherAt a b (nibbles w pair) off e / 2, (nibbles w pair + 1) / 2⟩
  | .opld _ a _ cnt _ => [⟨0, t.blockAddr a, 2048 * (cnt.toNat + 1)⟩]
  | .scld _ a off _ => [⟨0, t.scaleAddr a off, 128⟩]
  | .wr _ _ x _ n | .wra _ _ x _ n | .wrraw x _ n _ => blockReads (t.blockAddr x) (n.toNat + 1)
  | .msend a _ _ n | .mcast a _ _ n => blockReads (t.blockAddr a) (n.toNat + 1)
  | .lsend a n _ _ => blockReads (t.blockAddr a) (2 * (n.toNat + 1))
  | _ => []

/-- A portable bundle must wait for an operand (R116, R315): a result, or a slot of a read stream, that the image takes to be readable when the bundle reads it
will not have landed then. That staging is waited for as a register is, by an instruction as a whole when it issues, is the model's reading (log 86). -/
def Tile.operandWait (t : Tile) (now : Nat) (is : List (Part × Instr)) : Bool :=
  let ks := is.flatMap fun x => operands x.2
  let bs := is.flatMap fun x => t.stagingReads x.2
  let img := t.imgCycle now
  (t.flight.any fun r => match r.dst, r.dst.writes with
    | .staging _ _, _ => bs.any fun x => decide (r.img ≤ img + x.lat) && decide (now + x.lat < r.due) && r.bytes.any fun b => x.holds b.addr
    | _, some k => decide (r.img ≤ img) && ks.contains k
    | _, none => false) ||
  t.vault.streams.any fun x => x.read && (match x.dest with
    | .buffer k _ _ _ _ => decide (x.img + x.done ≤ img) && ks.contains (bufKey k)
    | .staging a => (List.range (x.n - x.done)).any fun j => bs.any fun y => decide (x.img + x.done + j ≤ img + y.lat) &&
        decide (now + y.lat < x.first + x.done + j) && y.meets ⟨y.lat, (a + 64 * (x.done + j)) % stagingSize, 64⟩
    | .scale _ => false)

/-- A portable bundle that follows an ACCWAIT waits until no write of the accumulators is in flight; a retirement is none (R241). -/
def Tile.accHeld (t : Tile) : Bool := t.flow.accWait.any fun k => t.flight.any fun r => match r.dst with
  | .acc j _ _ | .accRow j _ _ | .accZero j => j == k
  | _ => false

end Sys2Proof.Machine
end

