-- ==== Sys2Proof/Machine/Issue.lean ====
section
/-!
DEFINITION. Machine/Issue.lean: the issue of a bundle and of a handler bundle (R31 to R44, R59, R60, R120, R129, R166), stops and release
(R124 to R127), traps taken at a cycle (R117, R409), halting (R114), and the copy of a segment (R36, R37).
BUNDLE_ISSUE runs three times for a bundle: y = 1 asks whether the partition must hold, y = 0 checks the bundle and puts its slots in the
to-do list, and y = 2, after them, moves the sequencer on. A bundle that traps or waits leaves the list empty and its tile as it was.
-/

namespace Sys2Proof.Machine

/-! ## The stream around a bundle (R33, R59, R107) -/

/-- The bundle at a position, whatever the window holds. -/
def Tile.peek (t : Tile) (variant : Nat) (pc : PC) : Option Bundle :=
  let l := t.segment variant pc.seg
  match l[pc.off]? with
  | none => none
  | some v =>
    if v = 0xFFFF then (if pc.off + 25 ≤ l.length then some (literalBundle ((l.drop (pc.off + 1)).take 24)) else none)
    else t.imem.dict[v.toNat]?

/-- A bundle holds a control instruction (R59): BR to LBRK, ERET or HALT in its C slot. -/
def holdsControl (b : Bundle) : Bool :=
  let op := (b.extractLsb' 88 8).toNat
  b.getLsbD 6 && (decide (0x40 ≤ op ∧ op ≤ 0x46) || op == 0xA1 || op == 0xA8)

/-- A bundle at a position is a hand-over bundle. -/
def Tile.handsOver (t : Tile) (variant : Nat) (pc : PC) : Bool := match t.peek variant pc with
  | some b => b.getLsbD 13
  | none => false

/-- An offset is one of the two stream successors of a bundle that holds a control instruction (R59), walking the segment from a position on:
left counts the successors still to come. -/
def Tile.shadeWalk (t : Tile) (variant seg target : Nat) : Nat → Nat → Nat → Bool
  | 0, _, _ => false
  | fuel + 1, off, left =>
    if target ≤ off then off == target && left != 0
    else
      let pc : PC := { seg := seg, off := off }
      let ctl := match t.peek variant pc with
        | some b => holdsControl b
        | none => false
      t.shadeWalk variant seg target fuel (t.successor variant pc).off (if ctl then 2 else left - 1)

/-- A position is in the shade of a control instruction (R59). -/
def Tile.shaded (t : Tile) (variant : Nat) (pc : PC) : Bool :=
  t.shadeWalk variant pc.seg pc.off ((t.segment variant pc.seg).length + 1) 0 0

/-- A control instruction may not stand at a position: in the shade of another that stands before it in the segment or has issued there (a transfer may
lead into the indices of an escape, R105), in or before a hand-over bundle, or at the end of a body on the
loop stack or within two bundles of it (R59, R107). -/
def Tile.controlBarred (t : Tile) (variant : Nat) (pc : PC) : Bool :=
  let s1 := t.successor variant pc
  let s2 := t.successor variant s1
  t.shaded variant pc || t.flow.shade.contains pc || t.handsOver variant pc || t.handsOver variant s1 || t.handsOver variant s2 ||
    t.flow.loops.any fun e => e.last == pc.off || e.last == s1.off || e.last == s2.off

/-- The segments of a variant (R36, R313): one where it has no segment table. -/
def Tile.segments (t : Tile) (variant : Nat) : Nat := max (t.imem.nseg.getD variant 0) 1

/-- The C slot of a bundle is illegal where it stands (R59, R107, R113, R115). -/
def Tile.contextIllegal (t : Tile) (variant : Nat) (h : Header) (b : Bundle) (is : List (Part × Instr)) : Bool :=
  (holdsControl b && t.controlBarred variant t.flow.pc) ||
  is.any fun x => match x.2 with
    | .yield => !h.yld
    | .eret | .eretSkip => true
    | _ => false

/-- A bundle's instructions, or the part of its first illegal encoding (R60, R37, R43): the header, then the C slot by its fields and by where it
stands, then the other slots by their fields, then the destinations. -/
def Ctx.readBundle (c : Ctx) (t : Tile) (b : Bundle) : Except Nat (Header × List (Part × Instr)) :=
  match decodeHeader b with
  | none => .error 0
  | some h =>
    if h.seg && decide (t.segments c.variant ≤ t.flow.pc.seg + 1) then .error 0
    else match decodeSlots h b (h.pres.filter (· == .c)) with
      | .error p => .error p
      | .ok cs =>
        if t.contextIllegal c.variant h b cs then .error 1
        else match decodeSlots h b h.pres with
          | .error p => .error p
          | .ok is => match c.duplicate t [] is with
            | some p => .error p
            | none => .ok (h, is)

/-! ## Before a bundle (R120, R342) -/

/-- The lowest-numbered enabled breakpoint register that names a PC (R120). -/
def Tile.breakpoint (t : Tile) (pc : PC) : Option Nat :=
  (List.range 4).find? fun k => let r := (mapGet (0 : Word) t.sys.bpa k).toNat; bitOf r 63 && r % 2 ^ 32 == pc.off % 65536 + pc.seg % 65536 * 65536

/-- The iteration stop matches the bundle due (R342). -/
def Tile.iterStop (t : Tile) : Bool :=
  let r := t.sys.istp.toNat
  t.flow.iterStart && !t.flow.resumed && bitOf r 63 && (match t.flow.loops with
    | e :: rest => rest.length == field r 2 0 && e.i % 2 ^ 32 == field r 34 3 &&
        (!bitOf r 35 || bitOf (stagePreds t.flow.loops) (field r 38 36))
    | [] => false)

/-- A trap before the bundle due: single step, an iteration stop, a breakpoint; with the tile that takes it. -/
def Tile.stopBefore (t : Tile) : Option (Tile × Nat × Nat × Bool) :=
  if t.flow.stepLeft = some 0 then some ({ t with flow := { t.flow with stepLeft := none } }, causeStep, 0, true)
  else if t.iterStop then some ({ t with sys := { t.sys with istp := t.sys.istp &&& ~~~(1#64 <<< 63) } }, causeBreak, 4, false)
  else if t.flow.resumed && t.sys.bpsk then none
  else match t.breakpoint t.flow.pc with
    | some k => some ({ t with sys := { t.sys with bpsk := true } }, causeBreak, k, false)
    | none => none

/-! ## The service-window check (R166, R180) -/

/-- The window cycles of a bundle with svc = 1: its issue cycle and its gap cycles (R44). -/
def svcCycles (c gap : Nat) : List Nat := (List.range (gap + 1)).map (c + ·)

/-- A stream whose data cycles meet a reserved data cycle of the windows (R180). -/
def Vault.svcStream (v : Vault) (p : VParams) (c gap : Nat) : Option BusUse :=
  v.bus.find? fun u => decide (u.first ≤ c + gap + p.cl + 1) && decide (c + p.cl - 1 ≤ u.last)

/-- A program activate less than tRRD before the first cycle of a service run (R166). -/
def Vault.svcActivate (v : Vault) (p : VParams) (c : Nat) : Option (Nat × Nat) :=
  if v.windows.contains (c - 1) && c != 0 then none
  else v.acts.find? fun a => a.2 != 128 && decide (c < a.1 + p.tRRD)

/-- The refusal of a bundle with svc = 1 (R166). Where several streams or activates are concerned, it reports the bank of the earliest issued (DESIGN CHOICE,
log 95). -/
def Vault.svcCheck (v : Vault) (p : VParams) (c gap : Nat) : Option VRefusal :=
  match v.svcStream p c gap with
  | some u => some ⟨7, u.bank, firstPass (fun c => (v.svcStream p c gap).isNone) (c + 1) lookAhead⟩
  | none => match v.svcActivate p c with
    | some a => some ⟨5, a.2, firstPass (fun c => (v.svcActivate p c).isNone) (c + 1) lookAhead⟩
    | none => none

/-- The windows of a bundle noted; a run that begins counts as an activate on every layer (R165, R180). -/
def Vault.openWindows (v : Vault) (c gap : Nat) : Vault :=
  let runs := !(v.windows.contains (c - 1) && c != 0)
  { v with
    windows := (v.windows.filter fun w => decide (c ≤ w + 64)) ++ svcCycles c gap
    acts := if runs then (v.acts.filter fun a => decide (c < a.1 + 64)) ++ [(c, 128)] else v.acts }

/-! ## Received flits (R359) -/

/-- The entry of the link table for a channel end of a tile (R355): dir 0 sends, 1 receives. -/
def ImageInfo.channel (img : ImageInfo) (pos ch dir : Nat) : Option (List Word) :=
  img.links.find? fun e => recBits e 0 10 0 == pos && recBits e 0 16 11 == ch && recBits e 0 17 17 == dir

/-- The link that a received channel of a tile comes over. -/
def Ctx.recvLink (c : Ctx) (ch : Nat) : Option Nat := match c.kernel with
  | some (_, k) => (k.img.channel c.pos ch 1).map fun e => recBits e 0 22 18
  | none => none

/-- Flits of a channel, as the receiver numbers it, in a link's receive queue. -/
def State.queued (s : State) (link ch : Nat) : List (BitVec 1024) := ((s.link link).queue.filter fun x => x.1 == ch).map Prod.snd

/-- The link, channel and number of flits that an LRECV of a bundle lacks. -/
def Ctx.lacks (c : Ctx) (is : List (Part × Instr)) : Option (Nat × Nat × Nat) :=
  is.findSome? fun x => match x.2 with
    | .lrecv _ n ch _ => match c.recvLink ch.toNat with
      | some l => if (c.s.queued l ch.toNat).length < n.toNat + 1 then some (l, ch.toNat, n.toNat + 1) else none
      | none => none
    | _ => none

/-! ## BUNDLE_ISSUE (R35, R60) -/

/-- The context in which the bundle due at a tile issues. -/
def State.issueCtx (s : State) (id : TileId) (c gap : Nat) : Ctx :=
  let t := s.tile id
  ({ s with cur := { tile := id, now := c, pc := t.flow.pc, gap := gap, handler := false, pre := t } } : State).slotCtx

/-- The instruction of a bundle's X slot, whatever else stands in the bundle. -/
def slotX (b : Bundle) : List (Part × Instr) := match decodeHeader b with
  | none => []
  | some h => match decodeSlots h b (h.pres.filter (· == .x)) with
    | .ok is => is
    | .error _ => []

/-- y = 1: the partition holds where the bundle's segment has not arrived (R37), or where its LRECV lacks flits, even if the tile traps in the same cycle,
for an illegal encoding beside it, a breakpoint, a single step or a trap at the cycle (R359). -/
def State.holdBefore (s : State) (id : TileId) (n c : Nat) : State :=
  let t := (s.tile id).popped
  if (mapFind t.imem.bad t.flow.pc.seg).isSome then s
  else
    let ctx := s.issueCtx id c 0
    match t.fetch ctx.variant t.flow.pc with
    | .absent => s.beginHold n 4
    | .illegal _ => s
    | .bundle b _ => match ctx.lacks (slotX b) with
      | some x => (s.beginHold n 1).updKernel n fun k => { k with recv := k.recv ++ [x] }
      | none => s

/-- A bundle's trap before any of its slots ran. -/
def State.bundleTrap (s : State) (id : TileId) (t : Tile) (cause part info c : Nat) : State :=
  ({ s with todo := [] } : State).takeTrap id t cause part info c 0 false

/-- A bundle that has passed the checks of its encoding: privilege, landing conflicts and interlock waits, the service-window check; then its slots
stand in the to-do list, with the end of the bundle after them. -/
def State.startBundle (s : State) (id : TileId) (c : Nat) (h : Header) (is : List (Part × Instr)) : State :=
  let pre := s.tile id
  let t := pre.popped
  let s := { s with cur := { tile := id, now := c, pc := t.flow.pc, gap := h.gap, handler := false, pre := pre } }
  let ctx := s.slotCtx
  match is.find? fun x => needsPrivilege x.2 && !ctx.privileged with
  | some x => s.bundleTrap id pre causePriv x.1.code x.1.code c
  | none =>
    if ctx.portable && t.operandWait c is then s.waitCycle 10
    else if ctx.portable && t.accHeld then s.waitCycle 14
    else match ctx.conflict t {} is with
      | some (p, info) => if ctx.portable then s.waitCycle 11 else s.bundleTrap id pre causeConflict p info c
      | none =>
        match if h.svc then t.vault.svcCheck ctx.params c h.gap else none with
        | some f =>
          if ctx.portable then s.waitCycle 12
          else s.bundleTrap id (pre.noteRefusal { op := 0, bank := f.bank } f) causeVault 0 (vaultInfo f) c
        | none =>
          (s.setTile id t).push (is.map (fun x => { i := x.2, arg := { tile := id } }) ++ [{ i := .bundleIssue, arg := { tile := id, y := 2 } }])

/-- y = 0: the bundle due at a tile; a tile in a segment that could not be read traps in its place (R186). -/
def State.issueBundle (s : State) (id : TileId) (c : Nat) : State :=
  let t := s.tile id
  match mapFind t.imem.bad t.flow.pc.seg with
  | some x => ({ s with todo := [] } : State).takeTrap id t causeData 0 x c 0 true
  | none => match t.stopBefore with
    | some (t', cause, info, cyc) => ({ s with todo := [] } : State).takeTrap id t' cause 0 info c 0 cyc
    | none =>
      let ctx := s.issueCtx id c 0
      match t.fetch ctx.variant t.flow.pc with
      | .absent => s
      | .illegal info => s.bundleTrap id t causeIndex 0 info c
      | .bundle b _ => match ctx.readBundle t.popped b with
        | .error p => s.bundleTrap id t causeEncoding p p c
        | .ok (h, is) => s.startBundle id c h is

/-! ### The end of a bundle -/

/-- The marker's drift (R42, R340), and the arming of drift tracing (R341). -/
def Tile.marker (t : Tile) (pc : PC) (c k : Nat) : Tile :=
  let d := signed ((c + 2 ^ 32 - k % 2 ^ 32) % 2 ^ 32) 32
  let thr := t.sys.dthr.toNat
  let t := (t.drift 0 pc c (wrap d 64) 0).count 10 1
  { t with perf := { t.perf with armed := decide (thr ≠ 0) && decide (thr < d.natAbs) } }

/-- The tile after its bundle: the header's marker and windows, the sequencer's move, the counts of R95 and R120. pre is the tile before it. -/
def Tile.endBundle (t pre : Tile) (variant c : Nat) (pc : PC) (h : Header) (k : Nat) : Tile :=
  let t := if h.svc then t.updVault fun v => v.openWindows c h.gap else t
  let t := if h.mkr then t.marker pc c k else t
  let skip := pre.flow.resumed && pre.sys.bpsk
  let t := (t.advance variant pc c h.gap h.seg).countFmt.count 1 1
  { t with
    flow := { t.flow with
      waiting := none
      lastPc := pc, lastLoops := pre.flow.loops
      stepLeft := pre.flow.stepLeft.map (· - 1)
      accWait := t.flow.accWait.take (t.flow.accWait.length - pre.flow.accWait.length)
      rpl := if h.rpl then some pc else t.flow.rpl
      yieldReq := false }
    sys := { t.sys with bpsk := t.sys.bpsk && !skip } }

/-- A request delivered 64 cycles before asks for a yield at a yield bundle that issues at cycle c (R333). -/
def Kernel.requested (k : Kernel) (c : Nat) : Bool := match k.request with
  | some r => decide (r + 64 ≤ c)
  | none => false

/-- What a bundle with yld = 1 or rpl = 1 does to its kernel (R322, R333): a yield point is reached, and the partition yields there when YIELD or a
request delivered 64 cycles before asks for it; a replan point is reached, unless a bundle has trapped at its issue cycle. A gang's members yield at the point of one index (R345): of the first that a
request would land at, or, as they agree, of one wait points later. -/
def Kernel.points (k : Kernel) (h : Header) (c : Nat) (asked : Bool) (wait : Nat) : Kernel :=
  let fresh := h.yld && (match k.lyield with
    | some l => decide (l < c)
    | none => true)
  let k := if fresh then { k with yields := k.yields + 1 } else k
  let k := if h.yld && k.requested c && k.agreed.isNone then { k with agreed := some (k.yields + wait) } else k
  let land := h.yld && (asked || (k.requested c && k.agreed == some k.yields))
  { k with
    lyield := if fresh then some c else k.lyield
    yieldAt := if land then some (c + 1 + h.gap, c) else k.yieldAt
    replanAt := if h.rpl && !k.stops.contains c then some (c + 1 + h.gap, c) else k.replanAt }

/-- The two stream successors of a bundle that holds a control instruction are in its shade (R59). -/
def Tile.castShade (t : Tile) (variant : Nat) (pc : PC) (b : Bundle) : Tile :=
  if holdsControl b then
    let s1 := t.successor variant pc
    { t with flow := { t.flow with shade := [s1, t.successor variant s1] } }
  else t

/-- Record loads begun: the record-load agent asks for each (R182, R200). -/
def State.awaitLoads (s : State) (id : TileId) (ls : List RecLoad) : State :=
  ls.foldl (fun s l => s.at s.wall { i := .recordLoadComplete, arg := { tile := id, x := l.seq } }) s

/-- y = 2: the bundle in hand has run its slots. -/
def State.finishBundle (s : State) (id : TileId) : State :=
  let pre := s.cur.pre
  let c := s.cur.now
  let ctx := s.slotCtx
  match pre.peek ctx.variant s.cur.pc with
  | none => s
  | some b => match decodeHeader b with
    | none => s
    | some h =>
      let t := s.tile id
      let asked := t.flow.yieldReq
      let t' := (t.endBundle pre ctx.variant c s.cur.pc h (bundleK b).toNat).castShade ctx.variant s.cur.pc b
      let t' := if ctx.portable && t'.sync.latch then t'.wake (c + 1) else t'
      let s := s.setTile id t'
      let s := s.awaitLoads id (t'.loads.filter fun l => decide (pre.flow.seq ≤ l.seq))
      let s := (List.range 4).foldl (fun s q =>
        if mapGet 0 t'.vault.lastTrain q = mapGet 0 pre.vault.lastTrain q then s else s.awaitRetraining id q) s
      let s := s.updDie (dieOf id) fun x => { x with tun := { x.tun with issued := bump x.tun.issued (min (s.cur.pc.off / 2 ^ x.tun.tsh) 255) 1 } }
      let s := if h.seg then s.handOver id ctx.variant s.cur.pc.seg else s
      let s := match ctx.kernel with
        | some (n, k) =>
          if h.yld || h.rpl then
            let gang := bitOf ((s.ctx k.ctx).descWord 8) 43
            (s.setKernel n (k.points h c asked (if gang then Config.freeNat s.free else 0))).tickFree
          else s
        | none => s
      s.push (t'.fmtRows id)

/-- BUNDLE_ISSUE (R35). -/
def execBundleIssue (s : State) : Host.Outcome State Fault Refusal :=
  .next (
    let id := s.ev.tile
    match s.kernelOf id with
    | none => s
    | some (n, k) =>
      if s.ev.y = 2 then s.finishBundle id
      else if s.ev.y = 1 then s.holdBefore id n k.cycle
      else if !k.holds.isEmpty then s
      else s.issueBundle id k.cycle)

/-! ## HANDLER_BUNDLE_ISSUE (R38, R129, R313) -/

/-- A handler bundle's C-slot instruction, or the part of its illegal encoding (R38, R59). -/
def Tile.readHandler (t : Tile) (h : Nat) (b : Bundle) : Except Nat (Option Instr) :=
  match decodeHeader b with
  | none => .error 0
  | some x =>
    if x.gap ≠ 0 ∨ x.yld ∨ x.rpl ∨ x.seg ∨ x.mkr ∨ x.svc ∨ x.pres.any (fun p => p != .c) then .error 0
    else match decodeSlots x b x.pres with
      | .error p => .error p
      | .ok is =>
        let near := (List.range 2).any fun j => decide (j < h) && (match t.imem.handlers[h - 1 - j]? with
          | some y => holdsControl y
          | none => false)
        if holdsControl b && near then .error 1
        else .ok ((is.map Prod.snd).head?)

/-- The latency of an instruction's results, the longest of them (R408). -/
def Ctx.longest (c : Ctx) (t : Tile) (i : Instr) : Nat := maxOf (maxOf 0 ((c.dests t i).map Prod.snd)) ((c.spans t i).2.map Span.lat)

/-- HANDLER_BUNDLE_ISSUE (R129): y = 0 issues the bundle at the handler's place; y = 1 follows it, and the next comes within 4 + L cycles (R408). -/
def execHandlerBundleIssue (s : State) : Host.Outcome State Fault Refusal :=
  .next (
    let id := s.ev.tile
    let t := s.tile id
    let h := t.flow.hpc
    match s.kernelOf id with
    | none => s
    | some (_, k) =>
      if !t.flow.handler then s
      else if s.ev.y = 1 then
        (s.at (s.wall + s.handlerTime k (4 + s.ev.x)) { i := .handlerBundleIssue, arg := { tile := id } }).tickFree
      else match t.imem.handlers[h]? with
        | none => s.bundleTrap id t causeIndex 0 (h % 65536) t.flow.stopAt
        | some b => match t.readHandler h b with
          | .error p => s.bundleTrap id t causeEncoding p p t.flow.stopAt
          | .ok i =>
            let t' := { t with flow := { t.flow with hpc := h + 1 } }
            let s := { s.setTile id t' with cur := { tile := id, now := t.flow.stopAt, pc := { off := h }, gap := 0, handler := true, pre := t } }
            let wait := match i with
              | some x => s.slotCtx.longest t' x
              | none => 0
            s.push ((match i with
              | some x => [{ i := x, arg := { tile := id } }]
              | none => []) ++ [{ i := .handlerBundleIssue, arg := { tile := id, x := wait, y := 1 } }]))

/-! ## Stops and release (R124, R127) -/

/-- A stopped partition can be released (R127): every tile is stopped or halted, no handler runs, and no other hold cause stands. -/
def State.canRelease (s : State) (k : Kernel) : Bool :=
  k.reached.isSome && k.ending.isNone && k.handlers == 0 && k.holds.all (· == 8) &&
    (s.tilesOf k).all fun t => t.2.flow.st == .stopped || t.2.flow.st == .halted

/-- STOP_HORIZON (R124): the tiles that still run stop at the horizon of kernel x; where the partition must wait there for its release, it holds with
cause long trap (R127, R323). -/
def execStopHorizon (s : State) : Host.Outcome State Fault Refusal :=
  .next (
    match s.kernel? s.ev.x with
    | none => s
    | some k =>
      let s := s.updTiles k.tiles fun t => if t.runs then { t with flow := { t.flow with st := .stopped, stopAt := k.cycle } } else t
      let k := { k with reached := some s.wall }
      let s := s.setKernel s.ev.x k
      if s.canRelease k then s else s.beginHold s.ev.x 8)

/-- The earliest stop cycle of the tiles that a release resumes (R127). -/
def State.earliestStop (s : State) (k : Kernel) : Nat :=
  let l := (k.tiles.map s.tile).filter fun t => t.flow.st == .stopped
  (l.map fun t => t.flow.stopAt).foldl min k.cycle

/-- The wall units from release to the first issue (R408): a free number of cycles up to 64, in which what self-refresh closed is opened again (R184). -/
def State.releaseTime (s : State) (k : Kernel) : Nat := max (s.reactivation k) (s.handlerTime k 64)

/-- PARTITION_RELEASE (R127, R408): the count restarts at the earliest stop cycle, and the hold that the wait at the horizon was part of is over. -/
def execPartitionRelease (s : State) : Host.Outcome State Fault Refusal :=
  .next (
    let n := s.ev.x
    match s.kernel? n with
    | none => s
    | some k =>
      let first := s.earliestStop k
      ((s.closeHold n (s.releaseTime k)).updKernel n fun k =>
        { k with holds := [], horizon := none, reached := none, cycle := first, phase := 0 }).tickFree)

/-! ## Traps at a cycle (R117, R409) -/

/-- A halted tile's event: its sequencer is faulted with no handler, as a counted trap (R409). -/
def State.haltedFault (s : State) (id : TileId) (x : CycTrap) : State :=
  let s := s.updTile id fun t => { (t.count 6 1) with flow := { t.flow with st := .faulted } }
  let s := s.updDie (dieOf id) fun d => { d with tun := { d.tun with traps := bump d.tun.traps x.cause 1 } }
  match s.kernelOf id with
  | none => s
  | some (n, k) =>
    let t := s.tile id
    let k := { k with nflt := min (k.nflt + 1) (2 ^ 32 - 1) }
    let k := k.noteFault { cycle := x.cycle, pos := posOfTile k.die0 k.shape id, cause := x.cause
                           pc := t.flow.pc.off % 65536 + t.flow.pc.seg % 65536 * 65536, info := x.info % 2 ^ 32 }
    s.setKernel n (k.endFaulted 2)

/-- DEFERRED_TRAP (R117, R409): the first trap raised at a cycle that the event's tile has reached; where the partition holds in that cycle the hold
comes first (R359). -/
def execDeferredTrap (s : State) : Host.Outcome State Fault Refusal :=
  .next (
    let id := s.ev.tile
    let t := s.tile id
    match t.flow.cycTraps, s.kernelOf id with
    | x :: rest, some (_, k) =>
      let t := { t with flow := { t.flow with cycTraps := rest } }
      if !k.holds.isEmpty then s
      else if t.flow.st = .halted then (s.setTile id t).haltedFault id x
      else if t.runs then
        ({ s with todo := [] } : State).takeTrap id t x.cause 0 x.info (max x.cycle k.cycle) (t.flow.due - k.cycle) true
      else s
    | _, _ => s)

/-! ## TILE_HALTED (R95, R114) -/

/-- TILE_HALTED (R114): the tile halts, its pending format writes take effect, and the controller closes the pages left open. -/
def execTileHalted (s : State) : Host.Outcome State Fault Refusal :=
  .next (
    let s := s.updTile s.ev.tile fun t =>
      let u := t.fmts.pend.foldl Tile.applyFmt t
      let t := { u with flow := { u.flow with st := .halted, haltBase := none }, fmts := { u.fmts with pend := [] } }
      t.updVault fun v => { v with banks := v.banks.map fun b => (b.1, { b.2 with st := .idle, ap := none }) }
    match s.kernelOf s.ev.tile with
    | some (n, k) => s.setKernel n { k with tend := s.wclk, tcyc := k.cycle }
    | none => s)

/-! ## SEGMENT_COPY_COMPLETE (R36, R37) -/

/-- The slots that a segment takes (R320): 2 bytes for each index. -/
def segmentSlots (l : List (BitVec 16)) : Nat := (2 * l.length + 63) / 64

/-- Where slot j of the copy of a segment stands: bank, page and slot (R181, R319). The loader puts the segments of a tile one after the other into the
service banks of its vault; from where on is a free value (log 14). -/
def Kernel.segmentSlot (k : Kernel) (id : TileId) (t : Tile) (key j : Nat) : Nat × Nat × Nat :=
  let svc := match (List.range 128).filter (bitOf k.img.sbmask) with
    | [] => List.range 128
    | l => l
  let before := ((t.imem.segs.filter fun e => decide (e.1 < key)).map fun e => segmentSlots e.2).sum
  let x := Config.segmentPlace id k.ctx 0 + before + j
  (svc.getD (x / 32 % svc.length) 0, x / 32 / svc.length % 4096, x % 32)

/-- The places of a segment's slots. -/
def Kernel.segmentPlaces (k : Kernel) (id : TileId) (t : Tile) (key : Nat) : List (Nat × Nat × Nat) :=
  (List.range (segmentSlots (mapGet [] t.imem.segs key))).map (k.segmentSlot id t key)

/-- The segments of a tile's image copied into its service banks by the loader (R319, step 2), each slot with its check word. -/
def State.placeSegments (s : State) (k : Kernel) (id : TileId) (t : Tile) : State :=
  t.imem.segs.foldl (fun (s : State) e =>
    let bs := e.2.flatMap fun h => natBytes 2 h.toNat
    (List.zipIdx (k.segmentPlaces id t e.1)).foldl (fun (s : State) p =>
      let key := pageKey p.1.1 p.1.2.1
      let d := (bs.drop (64 * p.2)).take 64
      s.updTile id fun t => t.updVault fun v => v.setPage key (pageWrite (v.page key) 0 p.1.2.2 (d ++ List.replicate (64 - d.length) 0))) s) s

/-- Slots of a vault read by the segment agent: their bytes, or the first that cannot be read, as xinfo names it (R118). -/
def State.readSlots (s : State) (t : TileId) : List (Nat × Nat × Nat) → State × Except Nat (List Byte)
  | [] => (s, .ok [])
  | (b, g, sl) :: r => match s.agentRead t 1 b g 0 sl with
    | (s, .error _) => (s, .error (dataInfo b g sl))
    | (s, .ok d) => match s.readSlots t r with
      | (s, .error e) => (s, .error e)
      | (s, .ok l) => (s, .ok (d ++ l))

/-- The indices that the bytes of a segment hold. -/
def indicesOf (n : Nat) (bs : List Byte) : List (BitVec 16) := (List.range n).map fun i => BitVec.ofNat 16 (bytesNat ((bs.drop (2 * i)).take 2))

/-- SEGMENT_COPY_COMPLETE (R36, R37): the segment agent asks for the transfers of segment x; when they are made it stands in the window, as its bytes in the
service banks read, and a hold that awaits it ends; a slot that could not be read is kept for the trap of R186. -/
def execSegmentCopyComplete (s : State) : Host.Outcome State Fault Refusal :=
  .next (
    let id := s.ev.tile
    let seg := s.ev.x
    match s.kernelOf id with
    | some (n, k) =>
      let t := s.tile id
      let key := k.variant * 65536 + seg
      if !t.imem.copying.contains seg then s
      else s.served 1 .segmentCopyComplete (groupNeeds ((k.segmentPlaces id t key).map fun p => (id, p.1, 1))) fun s =>
        let (s, got) := s.readSlots id (k.segmentPlaces id t key)
        let s := s.updTile id fun t => { t with imem := match got with
          | .ok bs => { t.imem with
              copying := t.imem.copying.erase seg, segs := mapSet [] t.imem.segs key (indicesOf (mapGet [] t.imem.segs key).length bs) }
          | .error x => { t.imem with copying := t.imem.copying.erase seg, bad := mapPut t.imem.bad seg x } }
        let t := s.tile id
        if k.holds.contains 4 && t.runs && decide (t.flow.due ≤ k.cycle) && t.flow.pc.seg == seg then s.endHold n 4 else s
    | none => s)

end Sys2Proof.Machine
end

