-- ==== Sys2Proof/Machine/Crypto.lean ====
section
/-!
DEFINITION. Machine/Crypto.lean: SHA-256 and the verification of ECDSA P-256 signatures, as their standards give them (log 12).
-/

namespace Sys2Proof.Machine

/-! ## SHA-256 -/

/-- A 32-bit word of the hash. -/
abbrev HashWord := BitVec 32

/-- The first n primes from a number on. -/
def primesFrom : Nat → Nat → Nat → List Nat
  | 0, _, _ => []
  | _, _, 0 => []
  | fuel + 1, k, n + 1 => if (List.range (k - 2)).all (fun j => k % (j + 2) != 0) then k :: primesFrom fuel (k + 1) n else primesFrom fuel (k + 1) (n + 1)

/-- The largest r with f r at most x, searched a bit at a time from bit n − 1 down. -/
def rootBelow (f : Nat → Nat) (x : Nat) : Nat → Nat → Nat
  | 0, r => r
  | n + 1, r => rootBelow f x n (if f (r + 2 ^ n) ≤ x then r + 2 ^ n else r)

/-- The first 32 bits of the fraction of a square root. -/
def sqrtFrac (p : Nat) : HashWord := BitVec.ofNat 32 (rootBelow (fun r => r * r) (p * 2 ^ 64) 40 0)
/-- The first 32 bits of the fraction of a cube root. -/
def cbrtFrac (p : Nat) : HashWord := BitVec.ofNat 32 (rootBelow (fun r => r * r * r) (p * 2 ^ 96) 40 0)

/-- The initial hash values. -/
def shaInit : List HashWord := (primesFrom 400 2 8).map sqrtFrac
/-- The round constants. -/
def shaRound : List HashWord := (primesFrom 400 2 64).map cbrtFrac

/-- The message schedule, its latest word first. -/
def shaExtend : Nat → List HashWord → List HashWord
  | 0, w => w
  | n + 1, w =>
    let x15 := w.getD 14 0
    let x2 := w.getD 1 0
    let s0 := x15.rotateRight 7 ^^^ x15.rotateRight 18 ^^^ (x15 >>> 3)
    let s1 := x2.rotateRight 17 ^^^ x2.rotateRight 19 ^^^ (x2 >>> 10)
    shaExtend n ((w.getD 15 0 + s0 + w.getD 6 0 + s1) :: w)

/-- The eight working variables after a round. -/
def shaStep (h : List HashWord) (kw : HashWord × HashWord) : List HashWord :=
  match h with
  | [a, b, c, d, e, f, g, hh] =>
    let s1 := e.rotateRight 6 ^^^ e.rotateRight 11 ^^^ e.rotateRight 25
    let ch := (e &&& f) ^^^ (~~~e &&& g)
    let t1 := hh + s1 + ch + kw.1 + kw.2
    let s0 := a.rotateRight 2 ^^^ a.rotateRight 13 ^^^ a.rotateRight 22
    let maj := (a &&& b) ^^^ (a &&& c) ^^^ (b &&& c)
    [t1 + s0 + maj, a, b, c, d + t1, e, f, g]
  | _ => h

/-- A big-endian value of bytes. -/
def bigEndian (bs : List Byte) : Nat := bs.foldl (fun a b => a * 256 + b.toNat) 0

/-- The hash after a block of 64 bytes. -/
def shaBlock (h : List HashWord) (block : List Byte) : List HashWord :=
  let w := (List.range 16).map fun i => BitVec.ofNat 32 (bigEndian ((block.drop (4 * i)).take 4))
  let ws := (shaExtend 48 w.reverse).reverse
  List.zipWith (· + ·) h ((shaRound.zip ws).foldl shaStep h)

/-- The padding of a message of n bytes. -/
def shaPad (n : Nat) : List Byte :=
  0x80 :: (List.replicate ((119 - n % 64) % 64) 0 ++ (natBytes 8 (8 * n)).reverse)

/-- The blocks of a message, hashed. -/
def shaBlocks : Nat → List HashWord → List Byte → List HashWord
  | 0, h, _ => h
  | n + 1, h, bs => shaBlocks n (shaBlock h (bs.take 64)) (bs.drop 64)

/-- SHA-256 of bytes: the digest as a number, its first byte the highest. -/
def sha256 (bs : List Byte) : BitVec 256 :=
  let m := bs ++ shaPad bs.length
  BitVec.ofNat 256 ((shaBlocks (m.length / 64) shaInit m).foldl (fun a w => a * 2 ^ 32 + w.toNat) 0)

/-- The bytes of a digest, its first byte first. -/
def digestBytes (d : BitVec 256) : List Byte := (natBytes 32 d.toNat).reverse
/-- The first 8 bytes of a digest, little-endian (R355, R364). -/
def digestWord (d : BitVec 256) : Nat := bytesNat ((digestBytes d).take 8)

/-! ## P-256 -/

/-- The field's prime. -/
def p256 : Nat := 2 ^ 256 - 2 ^ 224 + 2 ^ 192 + 2 ^ 96 - 1
/-- The curve's constant b. -/
def p256B : Nat := 0x5AC635D8AA3A93E7B3EBBD55769886BC651D06B0CC53B0F63BCE3C3E27D2604B
/-- The order of the base point. -/
def p256N : Nat := 0xFFFFFFFF00000000FFFFFFFFFFFFFFFFBCE6FAADA7179E84F3B9CAC2FC632551
/-- The base point. -/
def p256G : Nat × Nat :=
  (0x6B17D1F2E12C4247F8BCE6E563A440F277037D812DEB33A0F4A13945D898C296, 0x4FE342E2FE1A7F9B8EE7EB4A7C0F9E162BCE33576B315ECECBB6406837BF51F5)

/-- x^e modulo m, by the n bits of e. -/
def powMod (m : Nat) : Nat → Nat → Nat → Nat
  | 0, _, _ => 1
  | n + 1, x, e => let r := powMod m n (x * x % m) (e / 2); if e % 2 = 1 then r * x % m else r

/-- The inverse modulo a prime. -/
def invMod (m x : Nat) : Nat := powMod m 256 (x % m) (m - 2)

/-- A point of the curve; none the point at infinity. -/
abbrev Point := Option (Nat × Nat)

/-- The sum of two points. -/
def pointAdd (a b : Point) : Point :=
  match a, b with
  | none, b => b
  | a, none => a
  | some (x, y), some (u, v) =>
    if x = u ∧ (y + v) % p256 = 0 then none
    else
      let l := if x = u then 3 * (x * x + p256 - 1) * invMod p256 (2 * y) % p256
               else (v + p256 - y) * invMod p256 (u + p256 - x) % p256
      let z := (l * l + 2 * p256 - x - u) % p256
      some (z, (l * (x + p256 - z) + p256 - y) % p256)

/-- k times a point, by the n bits of k. -/
def pointMul : Nat → Nat → Point → Point
  | 0, _, _ => none
  | n + 1, k, a => let r := pointMul n (k / 2) (pointAdd a a); if k % 2 = 1 then pointAdd r a else r

/-- A key is a point of the curve. -/
def onCurve (x y : Nat) : Bool :=
  decide (x < p256) && decide (y < p256) && y * y % p256 == (x * x * x + (p256 - 3) * x + p256B) % p256

/-- A signature (r, s) over a digest verifies under a key (ECDSA). -/
def ecdsaVerify (digest : BitVec 256) (x y r s : Nat) : Bool :=
  onCurve x y && decide (0 < r) && decide (r < p256N) && decide (0 < s) && decide (s < p256N) &&
    (let w := invMod p256N s
     match pointAdd (pointMul 256 (digest.toNat * w % p256N) (some p256G)) (pointMul 256 (r * w % p256N) (some (x, y))) with
     | none => false
     | some (u, _) => u % p256N == r)

/-- The bytes of a public key: x then y, 32 bytes each, little-endian (R12, R25). -/
def keyBytes (x y : BitVec 256) : List Byte := natBytes 32 x.toNat ++ natBytes 32 y.toNat

/-- A signed command verifies under its own key. -/
def signedOk (c : Signed) : Bool := ecdsaVerify (sha256 c.body) c.keyX.toNat c.keyY.toNat c.sigR.toNat c.sigS.toNat
/-- The hash of its signer's key. -/
def signerOf (c : Signed) : BitVec 256 := sha256 (keyBytes c.keyX c.keyY)

end Sys2Proof.Machine
end

