-- ==== Sys2Proof/Machine/Sluice.lean ====
section
/-!
DEFINITION. Machine/Sluice.lean: the sluices (R303 to R311), with ST_IO and APST: starts, jobs and their units, residency and relocation
(R209 to R212), completion records and their rings, and token links (R302). An event names a die in its tile field and a channel in x.
-/

namespace Sys2Proof.Machine

/-! ## Token links (R302) -/

/-- Tokens added to a link: a link not in use drops them, a sum above 65,535 saturates and sets err. -/
def TokenLink.add (l : TokenLink) (n : Nat) : TokenLink :=
  if !l.val then l
  else if 65535 < l.count + n then { l with count := 65535, err := true } else { l with count := l.count + n }

/-- Tokens added to link n; the main interpreter, if free, looks for an entry that they make eligible (R300). -/
def State.addTokens (s : State) (l n : Nat) : State :=
  let q := s.qe
  let s := { s with qe := { q with tokens := mapSet {} q.tokens l ((mapGet {} q.tokens l).add n) } }
  if q.mainRun.isNone then s.push [{ i := .packetDispatch }] else s

/-! ## Event latches of a rectangle (R280, R294, R308, R326) -/

/-- The latches of a rectangle's tiles set at the first timetable cycle from now on. -/
def State.wakeRect (s : State) (rect : Nat) : State :=
  (rectTiles (rectOf rect)).foldl (fun s u => match s.kernelOf u with
    | some (_, k) => s.updTile u fun t => { t with sync := { t.sync with sets := t.sync.sets ++ [{ tile := u, due := k.cycle + 1 }] } }
    | none => s) s

/-! ## Footprints (R288, R307) -/

/-- One side of a template: an object's id and first global brick, or an address. -/
inductive Side where
  | object (id gen first : Nat)
  | grain (addr : Nat)
deriving DecidableEq, Repr

/-- The source (w = 1) or the destination (w = 2) of a template (R306). -/
def sideOf (tm : List Word) (w : Nat) : Side :=
  if bitOf (recWord tm 0) (3 + w) then .object (recBits tm w 15 0) (recBits tm w 31 16) (recBits tm w 63 32) else .grain (recBits tm w 56 0)

/-- The record of an object of a context. -/
def Context.record (c : Context) (id : Nat) : List Word := mapGet [] c.objs id

/-- The data bytes of a brick of a record (R159, R306). -/
def brickBytes (r : List Word) : Nat := levelSlots (recProt r) * 64

/-- The unit size U of a template (R306). -/
def Context.unitBytes (c : Context) (tm : List Word) : Nat :=
  match sideOf tm 1, sideOf tm 2 with
  | .object id _ _, _ | _, .object id _ _ => brickBytes (c.record id)
  | _, _ => 2048

/-- A region of a footprint: written, or only read. -/
structure Region where
  at_   : MemSpan
  write : Bool
deriving DecidableEq, Repr

/-- Units u to u + n − 1 of a side as a region; none where no grain holds them. -/
def Context.sideRegion (c : Context) (x : Side) (size u n : Nat) (write : Bool) : List Region := match x with
  | .object id _ first => [{ at_ := .bricks c.die0 c.shape (c.record id) (first + u) (first + u + n), write := write }]
  | .grain a => ((c.span (a + u * size) (n * size)).map fun y => { at_ := y, write := write : Region }).toList

/-- Bytes of a map at a system address as a written region. -/
def Context.mapRegion (c : Context) (a lo hi : Nat) : List Region :=
  ((c.span (a + lo) (hi - lo)).map fun y => { at_ := y, write := true : Region }).toList

/-- The footprint of units u to u + n − 1 of a template whose job begins at unit u0 (R307): what they read and write, the residency of the object
units in the map at rmap, the bits of a dirty map; all of the object for a relocate. -/
def Context.footprint (c : Context) (tm : List Word) (u0 u n : Nat) : List Region :=
  let kind := recBits tm 0 2 0
  let size := c.unitBytes tm
  let dmap := recBits tm 5 56 0
  let resid := fun (x : Side) => match x with
    | .object id _ first => c.mapRegion (recBits (c.record id) 9 56 0) ((first + u) / 4) ((first + u + n + 3) / 4)
    | .grain _ => []
  match kind, sideOf tm 1 with
  | 3, .object id _ _ =>
    let r := c.record id
    { at_ := .bricks c.die0 c.shape r 0 (gMax r false + 1), write := true } :: c.mapRegion (recBits r 9 56 0) 0 (gMax r false / 4 + 1) ++
      c.mapRegion dmap 0 (localMax r false / 8 + 1)
  | _, src =>
    c.sideRegion src size u n (kind == 2) ++ c.sideRegion (sideOf tm 2) size u n true ++
      (if kind = 1 then resid (sideOf tm 2) else if kind = 2 then resid src ++ c.mapRegion dmap ((u - u0) / 8) ((u - u0 + n + 7) / 8) else [])

/-- Two regions overlap, with a write on one side. -/
def Region.meets (a b : Region) : Bool := (a.write || b.write) && a.at_.overlaps b.at_

/-- A tile's write lies in a footprint (R304): the page that it goes to does. -/
def Ctx.inFootprint (c : Ctx) (fs : List Region) (m : WriteMark) : Bool := fs.any fun f => (pageSpan c.id m.bank m.page).overlaps f.at_

/-- The sync objects in a template's footprint (R283): those of its sides' records and grains. -/
def Context.footSyncs (c : Context) (tm : List Word) : List Nat :=
  [sideOf tm 1, sideOf tm 2].filterMap fun x => match x with
    | .object id _ _ => (recSync (c.record id)).map fun y => y.1 * 32768 + y.2
    | .grain a => (c.grain a).bind Grain.sync

/-! ## ST_IO and APST (R110, R304) -/

/-- A start by a sequencer: the aperture, the release check on its sync object and on the job's footprint, the start on its way. The address is all
64 bits that ST.IO and APST form: whether bits 63 to 57, which no system address has (R13), are ignored the spec does not say, and the model
compares them with the grains (log 80). -/
def Ctx.startJob (c : Ctx) (t : Tile) (addr : Nat) (data : Word) (dst : Option Reg) : CheckRes :=
  match c.aperture addr with
  | none => .done (.trap causePermission (permSentinel 0xF))
  | some (o, sync) =>
    let die := field o 11 9
    let x : Start := { ctx := c.ctxNo, data := data }
    let ctx := c.s.ctx c.ctxNo
    let tm := c.s.template x
    let fs := ctx.footprint tm (jobFirst tm x) (jobFirst tm x) (recBits tm 0 63 32)
    let on := fun (m : WriteMark) => (match sync with
      | some y => m.boundTo ctx c.id y
      | none => false) || c.inFootprint fs m
    match t.releaseUnmet sync on die (c.lag die) c.now with
    | some u => .unmet u
    | none =>
      let t := c.request t die 0 (c.lag die) (.start c.ctxNo (field o 8 3) data) (dst.map fun d => (d.toNat, .other, 10 + 2 * cisternDist c.id die))
      .done (.ok { t with sync := { t.sync with jobs := t.sync.jobs ++ [{
        die := die, seq := t.flow.seq - 1, due := c.now + c.lag die, io := if dst.isNone then sync else none, syncs := ctx.footSyncs tm }] } })

/-- ST_IO (R110). -/
def execStIo (a b : Reg) (off : BitVec 17) (s : State) : Host.Outcome State Fault Refusal :=
  runChecked 1 s fun c t => c.startJob t (t.sreg a + off.signExtend 64).toNat (t.sreg b) none

/-- APST (R304). -/
def execApst (d a : Reg) (b : Src) (s : State) : Host.Outcome State Fault Refusal :=
  runChecked 5 s fun c t => c.startJob t (t.sreg a).toNat (t.zsrc b) (some d)

/-! ## SLUICE_START_ARRIVAL (R305) -/

/-- A row of the sluice dated some free time from now on; y tells more of what it acts on. -/
def State.soon (s : State) (i : Instr) (d ch : Nat) (y : Nat := 0) : State :=
  (s.at (s.wall + Config.freeNat s.free + 1) { i := i, arg := { tile := d, x := ch, y := y } }).tickFree

/-- A start put on its channel, or refused where its queue is full: the state, and the accept word (R304, R305). -/
def State.putStart (s : State) (d ch : Nat) (x : Start) : State × Nat :=
  let c := s.chan d ch
  if 8 ≤ c.queue.length then
    ((s.setChan d ch { c with refused := c.refused ++ [(s.free, x)] }).soon .jobCompletionRecord d ch (s.free + 1), c.queue.length * 2)
  else
    let s := s.setChan d ch { c with queue := c.queue ++ [x] }
    (if c.job.isNone && c.queue.isEmpty && c.resume.isEmpty then s.soon .jobApply d ch else s, 1 + (c.queue.length + 1) * 2)

/-- SLUICE_START_ARRIVAL (R305): x = 0, the start that the event's tile sent with place y in issue order; x = 1, the start y of
queue engine or host reaches the die in the tile field in wall time, and while cycles pass there it waits for the starts of the sequencers in the next
one; x = 2, it is applied in its turn in a cycle. -/
def execSluiceStartArrival (s : State) : Host.Outcome State Fault Refusal :=
  .next (
    let id := s.ev.tile
    if s.ev.x = 0 then
      match (s.tile id).sync.reqs.find? fun r => r.seq == s.ev.y with
      | some r => match r.kind with
        | .start ctx ch data =>
          let s := s.updTile id fun t => { t with sync := { t.sync with reqs := t.sync.reqs.filter fun x => x.seq != r.seq } }
          let (s, w) := s.putStart r.die ch { ctx := ctx, data := data, tile := some { tile := id, seq := r.seq } }
          s.reply id r w
        | _ => s
      | none => s
    else match (s.die id).arrivals.find? fun a => a.id == s.ev.y with
      | none => s
      | some a =>
        let apply := fun (s : State) => ((s.updDie id fun d => { d with arrivals := d.arrivals.filter fun b => b.id != a.id }).putStart id a.ch a.start).1
        match s.ev.x, kernelOfDie s.kernels id with
        | 1, some (_, k) =>
          if k.passes then
            (s.updDie id fun d => { d with arrivals := d.arrivals.map fun b => if b.id = a.id then { b with here := true } else b }).at (s.wall + k.period)
              { i := .sluiceStartArrival, arg := { tile := id, x := 1, y := a.id } }
          else apply s
        | _, _ => apply s)

/-! ## The objects of a context, as the sluice writes them (R198, R212) -/

/-- A record put into the table, and into the copy of every die (R198). -/
def State.setRecord (s : State) (c id : Nat) (r : List Word) : State :=
  (s.updCtx c fun x => { x with objs := mapSet [] x.objs id r }).writeTable c (128 * id) (wordBytes r)

/-- The pinned copies of a record in the tiles of its context's kernel changed, those that are loaded and have not landed yet among them (R199, R211,
R212). -/
def State.editPinned (s : State) (c id gen : Nat) (f : TileId → OhEntry → OhEntry) : State :=
  match s.kernels.find? fun k => k.2.ctx == c with
  | none => s
  | some (_, k) => k.tiles.foldl (fun s u => s.updTile u fun t =>
      let g := fun (e : OhEntry) => if e.est = 1 ∧ e.id = id ∧ e.gen = gen then f u e else e
      { t with oh := t.oh.map fun e => (e.1, g e.2), loads := t.loads.map fun l => { l with done := l.done.map g } }) s

/-- The records of a context's table that a write of n bytes at an offset of it touched, read anew from memory (R198). -/
def State.refreshObjs (s : State) (c o n : Nat) : State :=
  let lo := o / 128
  let hi := min ((o + n + 127) / 128) (s.ctx c).objLen
  (List.range (hi - lo)).foldl (fun s i => match s.sysRead c 2 ((s.ctx c).recAddr (lo + i)) 128 with
    | (s, .ok bs) => s.updCtx c fun x => { x with objs := mapSet [] x.objs (lo + i) (wordsOf bs) }
    | (s, .error _) => s) s

/-- A part of an object table that a write touches: its context, the offset in the table, the length, and the place in the bytes written. -/
structure TablePart where
  ctx : Nat
  o   : Nat
  n   : Nat
  at_ : Nat
deriving DecidableEq, Repr

/-- The parts of object tables, of any context and at any die's copy, that n bytes at a system address of a context are (R198). -/
def State.tableParts (s : State) (c a n : Nat) : List TablePart := match (s.ctx c).span a n with
  | some (.vault t lo hi) => s.ctxs.filterMap fun x => match x.2.tablePlace with
    | some (u, base) =>
      let l := max lo base
      let h := min hi (base + 128 * x.2.objLen)
      if l < h ∧ (x.2.tableTiles u).contains t then some { ctx := x.1, o := l - base, n := h - l, at_ := l - lo } else none
    | none => none
  | _ => []

/-- Bytes that the sluice has written at a system address: those of an object table go into every copy, and its records are read anew (R198). -/
def State.tableWritten (s : State) (c a : Nat) (bs : List Byte) : State :=
  (s.tableParts c a bs.length).foldl (fun s p => (s.writeTable p.ctx p.o ((bs.drop p.at_).take p.n)).refreshObjs p.ctx p.o p.n) s

/-! ## Bricks (R206, R211, R212) -/

/-- A brick of an object by its global index: tile, local index, bank, and the pages of its two bases. -/
structure Brick where
  tile : TileId
  pos  : Nat
  n    : Nat
  bank : Nat
  page : Nat
  next : Nat
deriving DecidableEq, Repr

/-- The local brick n at a shard position. -/
def Context.localBrick (c : Context) (r : List Word) (k n : Nat) : Brick :=
  let pos := recBits r 7 10 0 + k
  { tile := tileOfPos c.die0 c.shape pos, pos := pos, n := n, bank := (recBits r 8 18 12 + n) % 128
    page := recBits r 8 11 0 + n / 128, next := recBits r 12 11 0 + n / 128 }

/-- The brick with a global index (R206). -/
def Context.brick (c : Context) (r : List Word) (g : Nat) : Brick :=
  let bk := g / recBeta r
  c.localBrick r (bk % recTiles r) (bk / recTiles r * recBeta r + g % recBeta r)

/-- The watermark that the vault at a partition position has for an object (R199). -/
def Context.wmOf (c : Context) (r : List Word) (id pos : Nat) : Nat := mapGet (recBits r 12 63 32) c.wmks (wmKey pos id)

/-- The page that a brick is found at (R206, R212). -/
def Context.brickPage (c : Context) (r : List Word) (id : Nat) (b : Brick) : Nat :=
  if recState r = 2 ∧ b.n < c.wmOf r id b.pos then b.next else b.page

/-- The slots of a brick read. -/
def State.brickRead (s : State) (t : TileId) (bank page lvl slot : Nat) : Nat → State × Except Nat (List Byte)
  | 0 => (s, .ok [])
  | n + 1 =>
    match s.agentRead t 2 bank page lvl slot with
    | (s, .error e) => (s, .error e)
    | (s, .ok d) => match s.brickRead t bank page lvl (slot + 1) n with
      | (s, .error e) => (s, .error e)
      | (s, .ok r) => (s, .ok (d ++ r))

/-- The slots of a brick written. -/
def State.brickWrite (s : State) (t : TileId) (bank page lvl slot : Nat) (bs : List Byte) : Nat → State × Except Nat Unit
  | 0 => (s, .ok ())
  | n + 1 =>
    match s.agentWrite t 2 bank page lvl slot (bs.take 64) with
    | (s, .error e) => (s, .error e)
    | (s, .ok ()) => s.brickWrite t bank page lvl (slot + 1) (bs.drop 64) n

/-- The residency of a page written (R209). -/
def State.setResidency (s : State) (t : TileId) (bank page v : Nat) : State :=
  s.updTile t fun x => x.updVault fun w => { w with resid := mapSet 0 w.resid (bank * 4096 + page) v }

/-- The residency of a global brick written in the store and in the map at rmap (R209). -/
def State.setBrickResidency (s : State) (c : Nat) (r : List Word) (id g v : Nat) : State :=
  let b := (s.ctx c).brick r g
  let s := s.setResidency b.tile b.bank ((s.ctx c).brickPage r id b) v
  let a := recBits r 9 56 0 + g / 4
  match s.sysRead c 2 a 1 with
  | (s, .ok [x]) => (s.sysWrite c 2 a [BitVec.ofNat 8 (setField x.toNat (g % 4 * 2) 2 v)]).1
  | (s, _) => s

/-! ## Units (R306 to R309) -/

/-- A unit read. -/
def State.sideRead (s : State) (c : Nat) (x : Side) (size u : Nat) : State × Except Nat (List Byte) := match x with
  | .object id _ first =>
    let ctx := s.ctx c
    let r := ctx.record id
    let b := ctx.brick r (first + u)
    let page := ctx.brickPage r id b
    let res := (s.tile b.tile).residency b.bank page
    if res = 1 ∨ res = 2 then (s, .error 3) else s.brickRead b.tile b.bank page (recProt r) 0 (levelSlots (recProt r))
  | .grain a => s.sysRead c 2 (a + u * size) size

/-- Bytes of a page that are no longer known: a read of them delivers free values (R309). -/
def pageForget (p : Mem) (lo n : Nat) : Mem := p.filter fun c => c.1 < lo || lo + n ≤ c.1

/-- A slot whose bytes and check word a write that failed has left undefined (R309). -/
def State.undefineSlot (s : State) (t : TileId) (bank page lvl slot : Nat) : State :=
  s.updTile t fun x => x.updVault fun v =>
    let p := pageForget (v.page (pageKey bank page)) (64 * slot) 64
    v.setPage (pageKey bank page) (pageForget p (checkAt lvl slot) (if lvl = 0 then 8 else if lvl = 1 then 3 else 0))

/-- The first n slots of a page left undefined. -/
def State.undefineBrick (s : State) (t : TileId) (bank page lvl n : Nat) : State :=
  (List.range n).foldl (fun s k => s.undefineSlot t bank page lvl k) s

/-- The slots of n bytes of a vault from a byte offset on left undefined. -/
def State.undefineBytes (s : State) (t : TileId) (o n : Nat) : State :=
  (List.range ((o % 64 + n + 63) / 64)).foldl (fun s k =>
    let a := o / 64 * 64 + 64 * k
    s.undefineSlot t (strongBank a) (strongPage a) 0 (strongSlot a)) s

/-- A unit written, or left undefined where the write fails (R309); fill says that the brick need not be resident. -/
def State.sideWrite (s : State) (c : Nat) (x : Side) (size u : Nat) (fill : Bool) (bs : List Byte) : State × Except Nat Unit := match x with
  | .object id _ first =>
    let ctx := s.ctx c
    let r := ctx.record id
    let b := ctx.brick r (first + u)
    let page := ctx.brickPage r id b
    let res := (s.tile b.tile).residency b.bank page
    if !fill && (res == 1 || res == 2) then (s, .error 3)
    else match s.brickWrite b.tile b.bank page (recProt r) 0 bs (levelSlots (recProt r)) with
      | (s, .ok ()) => (s, .ok ())
      | (s, .error e) => (s.undefineBrick b.tile b.bank page (recProt r) (levelSlots (recProt r)), .error e)
  | .grain a => match s.sysWrite c 2 (a + u * size) bs with
    | (s, .ok ()) => (s.tableWritten c (a + u * size) bs, .ok ())
    | (s, .error e) =>
      let ctx := s.ctx c
      match ctx.grain (a + u * size) with
      | some g => (if e = 2 then s.undefineBytes (ctx.grainTile g) (g.offset (a + u * size)) bs.length else s, .error e)
      | none => (s, .error e)

/-- A unit copied from source to destination: the whole of it read before any of it is written (R307). -/
def State.copyUnit (s : State) (c : Nat) (tm : List Word) (u : Nat) : State × Except Nat Unit :=
  let size := (s.ctx c).unitBytes tm
  match s.sideRead c (sideOf tm 1) size u with
  | (s, .error e) => (s, .error e)
  | (s, .ok bs) => s.sideWrite c (sideOf tm 2) size u (recBits tm 0 2 0 == 1) bs

/-- The transfers of a unit of a side. -/
def State.sideNeeds (s : State) (c : Nat) (x : Side) (size u : Nat) (write : Bool) : Needs := match x with
  | .object id _ first =>
    let r := (s.ctx c).record id
    let b := (s.ctx c).brick r (first + u)
    [(b.tile, b.bank, levelSlots (recProt r))]
  | .grain a => s.sysNeeds c (a + u * size) size write ++
    if write then (s.tableParts c (a + u * size) size).flatMap fun p => s.tableNeeds p.ctx p.o p.n else []

/-- The transfers of a change of a brick's residency in its map. -/
def State.residNeeds (s : State) (c : Nat) (x : Side) (u : Nat) : Needs := match x with
  | .object id _ first => s.sysNeeds c (recBits ((s.ctx c).record id) 9 56 0 + (first + u) / 4) 1 true
  | .grain _ => []

/-- The transfers of a change of a unit's bit in the dirty map. -/
def State.dmapNeeds (s : State) (tm : List Word) (x : Start) (u : Nat) : Needs := s.sysNeeds x.ctx (dirtyBit tm x u).1 1 true

/-- The job ends at a unit that fails (R309). -/
def State.jobFails (s : State) (d ch fault : Nat) : State :=
  (s.updJob d ch fun j => { j with ended := some (2, fault), begun := none, data := none, failing := none }).soon .jobCompletionRecord d ch

/-- The first of n units of a page-out from unit u on whose brick is moving (R309). -/
def State.movingUnit (s : State) (c : Nat) (tm : List Word) (u n : Nat) : Option Nat := match sideOf tm 1 with
  | .object id _ first =>
    let r := (s.ctx c).record id
    ((List.range n).map (u + ·)).find? fun v =>
      let b := (s.ctx c).brick r (first + v)
      (s.tile b.tile).residency b.bank ((s.ctx c).brickPage r id b) == 3
  | .grain _ => none

/-- A page-out that has failed: the bricks of its units from the failing one on that are moving return to resident, one by one, each in a lend of its bank
(R211, R309); then the job ends. -/
def State.unmove (s : State) (d ch c : Nat) (tm : List Word) (j : Job) (fault v : Nat) : State :=
  match s.movingUnit c tm v (jobFirst tm j.start + recBits tm 0 63 32 - v), sideOf tm 1 with
  | some w, .object id _ first =>
    ((s.setBrickResidency c ((s.ctx c).record id) id (first + w) 0).updJob d ch fun j => { j with failing := some (fault, w + 1) }).nextUnit d ch j.order 0
  | _, _ => s.jobFails d ch fault

/-- A unit done: the job goes on with the next one, or has ended. -/
def State.unitDone (s : State) (d ch c : Nat) (tm : List Word) (j : Job) : State :=
  let n := j.units + 1
  let all := n == recBits tm 0 63 32
  let s := s.updJob d ch fun j => { j with
    units := n, bytes := j.bytes + (s.ctx c).unitBytes tm, begun := none, data := none, ended := if all then some (1, 0) else none }
  if all then s.soon .jobCompletionRecord d ch else s.nextUnit d ch j.order 0

/-- A unit of a copy, a page-in or a host job (R306): it is read as a whole, in lends or window cycles of its source, and then written in those of its
destination (R307). -/
def State.plainUnit (s : State) (d ch c : Nat) (tm : List Word) (j : Job) (u : Nat) : State :=
  let size := (s.ctx c).unitBytes tm
  match j.data with
  | none => match s.sideRead c (sideOf tm 1) size u with
    | (s, .error e) => s.jobFails d ch e
    | (s, .ok bs) => (s.updJob d ch fun j => { j with data := some bs }).nextUnit d ch j.order 0
  | some bs => match s.sideWrite c (sideOf tm 2) size u (recBits tm 0 2 0 == 1) bs with
    | (s, .error e) => s.jobFails d ch e
    | (s, .ok ()) => (match sideOf tm 2 with
      | .object id _ first => if recBits tm 0 2 0 = 1 then s.setBrickResidency c ((s.ctx c).record id) id (first + u) 0 else s
      | .grain _ => s).unitDone d ch c tm j

/-- A unit of a page-out (R209, R210): its brick is moving from its first transfer on; then the copy, made after every write that the dirty map
tells of, and the commit. -/
def State.pageOutUnit (s : State) (d ch c : Nat) (tm : List Word) (j : Job) (u : Nat) : State :=
  match sideOf tm 1 with
  | .grain _ => s
  | .object id _ first =>
    let r := (s.ctx c).record id
    if j.begun ≠ some u then
      let b := (s.ctx c).brick r (first + u)
      let s := if (s.tile b.tile).residency b.bank ((s.ctx c).brickPage r id b) = 0 then s.setBrickResidency c r id (first + u) 3 else s
      (s.updJob d ch fun j => { j with begun := some u }).nextUnit d ch j.order 0
    else match s.copyUnit c tm u with
      | (s, .error e) => (s.updJob d ch fun j => { j with failing := some (e, u) }).nextUnit d ch j.order 0
      | (s, .ok ()) =>
        ((s.setBrickResidency c r id (first + u) (if bitOf (recWord tm 4) 12 then 1 else 2)).markJob d ch fun j => j.copied u).unitDone d ch c tm j

/-- The next brick that a relocate moves in the vault at a shard position, if one is left (R212). -/
def Context.toMove (c : Context) (r : List Word) (id k : Nat) : Option Brick :=
  let b := c.localBrick r k 0
  let wm := c.wmOf r id b.pos
  if wm < localBricks r false b.pos then some (c.localBrick r k wm) else none

/-- A watermark set, in the context and in the pinned entries of its vault (R199, R212). -/
def State.setWm (s : State) (c id gen : Nat) (b : Brick) (wm : Nat) : State :=
  (s.updCtx c fun x => { x with wmks := mapPut x.wmks (wmKey b.pos id) wm }).editPinned c id gen fun u e => if u = b.tile then { e with wm := wm } else e

/-- The record's wmk: the lowest watermark of the shard (R212). -/
def State.lowestWm (s : State) (c id : Nat) : State :=
  let ctx := s.ctx c
  let r := ctx.record id
  let ws := (List.range (recTiles r)).map fun k => ctx.wmOf r id (ctx.localBrick r k 0).pos
  s.setRecord c id (r.set 12 (BitVec.ofNat 64 (setField (recWord r 12) 32 32 ((ws.min?).getD 0))))

/-- A record with a state. -/
def withState (r : List Word) (st : Nat) : List Word := r.set 0 (BitVec.ofNat 64 (setField (recWord r 0) 32 3 st))

/-- A relocate has moved every brick: the object has its new page base and is valid again, in the table and in every pinned copy (R212). -/
def State.endRelocate (s : State) (d ch c id : Nat) : State :=
  let r := (s.ctx c).record id
  let f := fun (r : List Word) => withState (r.set 8 (BitVec.ofNat 64 (setField (recWord r 8) 0 12 (recBits r 12 11 0)))) 1
  let s := (s.setRecord c id (f r)).editPinned c id (recBits r 0 31 16) fun _ e => { e with words := f e.words, wm := 0 }
  ((s.updCtx c fun x => { x with wmks := x.wmks.filter fun w => w.1 % 65536 != id }).updJob d ch fun j => { j with ended := some (1, 0) }).soon
    .jobCompletionRecord d ch

/-- A step of a relocate in the vault at a shard position (R212): its next brick is copied, with every write that the dirty map tells of, the watermark
advances, and with the last brick of all the relocate ends, all of it within the lend. The new page takes the residency of the old one, and the bricks that
are absent or on the host are copied like the others: the spec does not say (DESIGN CHOICE, log 96). -/
def State.relocateBrick (s : State) (d ch c : Nat) (tm : List Word) (j : Job) (k : Nat) : State :=
  match sideOf tm 1 with
  | .grain _ => s
  | .object id _ _ =>
    let r := (s.ctx c).record id
    let done := fun (s : State) => (List.range (recTiles r)).all fun i => ((s.ctx c).toMove ((s.ctx c).record id) id i).isNone
    match (s.ctx c).toMove r id k with
    | none => if done s then s.endRelocate d ch c id else s
    | some b =>
      let n := levelSlots (recProt r)
      match s.brickRead b.tile b.bank b.page (recProt r) 0 n with
      | (s, .error e) => s.jobFails d ch e
      | (s, .ok data) => match s.brickWrite b.tile b.bank b.next (recProt r) 0 data n with
        | (s, .error e) => (s.undefineBrick b.tile b.bank b.next (recProt r) n).jobFails d ch e
        | (s, .ok ()) =>
          let u := b.pos * 2 ^ 32 + b.n
          let s := s.setResidency b.tile b.bank b.next ((s.tile b.tile).residency b.bank b.page)
          let s := (((s.setWm c id (recBits r 0 31 16) b (b.n + 1)).lowestWm c id).markJob d ch fun j => j.copied u).updJob d ch fun j =>
            { j with units := j.units + 1, bytes := j.bytes + brickBytes r }
          if done s then s.endRelocate d ch c id else s.nextUnit d ch j.order k

/-! ## JOB_APPLY, JOB_UNIT (R305 to R310) -/

/-- The kind of the grain at an address of a context. -/
def Context.grainKind (c : Context) (a : Nat) : Option Nat := (c.grain a).map Grain.kind

/-- The sides that a kind of job may have (R306). -/
def Context.sidesOk (c : Context) (tm : List Word) : Bool :=
  match recBits tm 0 2 0, sideOf tm 1, sideOf tm 2 with
  | 0, .object a _ _, .object b _ _ => brickBytes (c.record a) == brickBytes (c.record b)
  | 0, _, _ => true
  | 1, .grain a, .object _ _ _ => c.grainKind a == some 0
  | 2, .object _ _ _, .grain a => c.grainKind a == some 0
  | 3, .object a _ _, .object b _ _ => a == b
  | 4, .grain a, .grain b => (c.grainKind a == some 0 && c.grainKind b == some 5) || (c.grainKind a == some 5 && c.grainKind b == some 0)
  | _, _, _ => false

/-- The fault of a side before its first unit: a generation that is not the record's, or units that pass Gmax or the grain of the side's address (R308,
R309). -/
def Context.sideFault (c : Context) (x : Side) (size u n : Nat) : Option Nat := match x with
  | .object id gen first =>
    let r := c.record id
    if c.objLen ≤ id ∨ !(recState r == 1 || recState r == 2) ∨ recBits r 0 31 16 ≠ gen then some 6
    else if gMax r false < first + u + n - 1 then some 5 else none
  | .grain a => match c.grain a with
    | none => some 4
    | some g => if g.covers (a + u * size) (n * size) then none else some 5

/-- The end that a job comes to at once (R309, R310): status and fault. -/
def Context.jobRefused (c : Context) (tm : List Word) (x : Start) : Option (Nat × Nat) :=
  let n := recBits tm 0 63 32
  let size := c.unitBytes tm
  if c.st = .destroyed then some (4, 8)
  else if !bitOf (recWord tm 0) 3 || n == 0 || !c.sidesOk tm then some (5, 0)
  else match c.sideFault (sideOf tm 1) size (jobFirst tm x) n with
    | some f => some (2, f)
    | none => if recBits tm 0 2 0 = 3 then none else (c.sideFault (sideOf tm 2) size (jobFirst tm x) n).map fun f => (2, f)

/-- A relocate that begins puts its record in state relocating, with its new base, in the table and in every pinned copy (R212); one started again
goes on from its watermarks (R309). -/
def State.beginRelocate (s : State) (c : Nat) (tm : List Word) : State :=
  match sideOf tm 1 with
  | .grain _ => s
  | .object id _ _ =>
    let r := (s.ctx c).record id
    if recState r = 2 then s
    else
      let base := fun (r : List Word) (wmk : Nat) => withState (r.set 12 (BitVec.ofNat 64 (recBits tm 4 11 0 + wmk * 2 ^ 32))) 2
      let s := s.updCtx c fun x => { x with wmks := x.wmks.filter fun w => w.1 % 65536 != id }
      let s := (s.setRecord c id (base r 0)).editPinned c id (recBits r 0 31 16) fun _ e =>
        { e with words := base e.words (recBits e.words 12 63 32), wm := 0 }
      s.updCtx c fun x => { x with wmks := (List.range (recTiles r)).foldl (fun m k => mapPut m (wmKey (recBits r 7 10 0 + k) id) 0) x.wmks }

/-- The vaults of the shard of a relocate ask for their turns side by side (R307). -/
def State.startVaults (s : State) (d ch : Nat) (tm : List Word) (j : Job) : State := match sideOf tm 1 with
  | .object id _ _ => (List.range (recTiles ((s.ctx j.start.ctx).record id))).foldl (fun s k => s.nextUnit d ch j.order (k + 1)) s
  | .grain _ => s

/-- The context of a job is saved, or is stopping for its save: its jobs wait (R310). -/
def State.jobsStop (s : State) (c : Nat) : Bool := (s.ctx c).st == .saved || (s.ctx c).st == .yielding

/-- A job goes on with its units and with the bits of its dirty map. -/
def State.startJob (s : State) (d ch : Nat) (j : Job) : State :=
  let s := if j.writes.isEmpty then s else s.nextUnit d ch j.order 4095
  if j.ended.isSome then s.soon .jobCompletionRecord d ch else s.nextUnit d ch j.order 0

/-- JOB_APPLY (R305): a job of a restored context goes on from its progress (R310), or the first start of the channel's queue begins to run. A start of a
saved context waits behind the context's saved jobs until its restore (R310). -/
def execJobApply (s : State) : Host.Outcome State Fault Refusal :=
  .next (
    let d := s.ev.tile
    let ch := s.ev.x
    let c := s.chan d ch
    match c.job, c.resume, c.queue.find? fun x => !s.jobsStop x.ctx with
    | none, j :: rest, _ => (s.setChan d ch { c with resume := rest, job := some j }).startJob d ch j
    | none, [], some x =>
      let j : Job := { start := x, order := s.free, ended := (s.ctx x.ctx).jobRefused (s.template x) x }
      (s.setChan d ch { c with queue := c.queue.erase x, job := some j }).tickFree.startJob d ch j
    | _, _, _ => s)

/-- The bytes of a collective's element (R362). -/
def collectiveWidth (w : List Word) : Nat := if recBits w 0 1 0 = 3 then 8 else if recBits w 0 5 2 = 2 then 2 else 4

/-- The footprint of a collective (R364): its input read, its output written. -/
def Context.collectiveFootprint (c : Context) (w : List Word) : List Region :=
  let size := collectiveWidth w * recBits w 1 23 0
  let outs := if recBits w 0 1 0 = 3 then 8 * recBits w 0 12 6 else size
  ((c.span (recBits w 3 56 0) (size * recBits w 1 40 24)).map fun y => { at_ := y, write := false : Region }).toList ++
    c.mapRegion (recBits w 4 56 0) 0 outs

/-- An earlier job or collective of a context, not yet recorded, overlaps a footprint with a write (R288). -/
def State.earlierMeets (s : State) (ctx order : Nat) (fs : List Region) : Bool :=
  (List.range 8).any fun d =>
    ((s.die d).chans.any fun c => (c.2.job.toList ++ c.2.resume).any fun i =>
      let tm := s.template i.start
      i.start.ctx == ctx && decide (i.order < order) &&
        ((s.ctx ctx).footprint tm (jobFirst tm i.start) (jobFirst tm i.start) (recBits tm 0 63 32)).any fun a => fs.any a.meets) ||
    ((s.die d).coll.any fun x => x.ctx == ctx && decide (x.order < order) && ((s.ctx ctx).collectiveFootprint x.words).any fun a => fs.any a.meets)

/-- A unit of a job is under way: a page-out's brick moves, a unit is read and not yet written, a failed page-out's bricks return. -/
def Job.mid (j : Job) : Bool := j.begun.isSome || j.data.isSome || j.failing.isSome

/-- What the unit u of a job, or the next brick of a relocate's vault, still needs of the vaults (R182, R211). -/
def State.unitNeeds (s : State) (c : Nat) (tm : List Word) (j : Job) (u k : Nat) : Needs :=
  let size := (s.ctx c).unitBytes tm
  let src := sideOf tm 1
  let moving := fun (u : Nat) => (s.sideNeeds c src size u false).map (fun n => (n.1, n.2.1, 1)) ++ s.residNeeds c src u
  match recBits tm 0 2 0, src with
  | 3, .object id _ _ =>
    let r := (s.ctx c).record id
    if k = 0 then s.tableNeeds c (128 * id) 128
    else match (s.ctx c).toMove r id (k - 1) with
      | some b => (b.tile, b.bank, 2 * levelSlots (recProt r)) :: s.tableNeeds c (128 * id) 128
      | none =>
        let b := (s.ctx c).localBrick r (k - 1) 0
        (b.tile, b.bank, 1) :: s.tableNeeds c (128 * id) 128
  | 2, _ => match j.failing with
    | some (_, v) => match s.movingUnit c tm v (jobFirst tm j.start + recBits tm 0 63 32 - v) with
      | some w => moving w
      | none => []
    | none => if j.begun ≠ some u then moving u else s.sideNeeds c src size u false ++ s.sideNeeds c (sideOf tm 2) size u true ++ s.residNeeds c src u
  | kind, _ =>
    if j.data.isNone then s.sideNeeds c src size u false
    else s.sideNeeds c (sideOf tm 2) size u true ++ if kind = 1 then s.residNeeds c (sideOf tm 2) u else []

/-- The footprint of the unit, or the brick, in hand. -/
def State.unitFootprint (s : State) (c : Nat) (tm : List Word) (j : Job) (u k : Nat) : List Region :=
  match recBits tm 0 2 0, sideOf tm 1 with
  | 3, .object id _ _ => match if k = 0 then none else (s.ctx c).toMove ((s.ctx c).record id) id (k - 1) with
    | some b => [{ at_ := pageSpan b.tile b.bank b.page, write := true }, { at_ := pageSpan b.tile b.bank b.next, write := true }]
    | none => []
  | _, _ => (s.ctx c).footprint tm (jobFirst tm j.start) u 1

/-- A unit's bit in the dirty map written by the sluice (R210, R212, R307): the first of those still to be written. -/
def State.writeDmap (s : State) (d ch : Nat) (tm : List Word) (j : Job) : State := match j.writes with
  | [] => s
  | u :: rest =>
    let s := (s.markDmap tm j.start u (j.bitSet tm u)).updJob d ch fun j => { j with writes := rest }
    if rest.isEmpty then s else s.nextUnit d ch j.order 4095

/-- JOB_UNIT (R307): the next unit of the job of the event's channel, or the next brick of a vault of a relocate, asks for its accesses and is done when
they are granted; so is the begin of a relocate, and a bit of the dirty map. While the context stops for its save no new unit begins; one that has begun is
finished (R310). -/
def execJobUnit (s : State) : Host.Outcome State Fault Refusal :=
  .next (
    let d := s.ev.tile
    let ch := s.ev.x
    match (s.chan d ch).job with
    | none => s
    | some j =>
      let c := j.start.ctx
      let tm := s.template j.start
      let k := s.ev.y % 4096
      let u := jobFirst tm j.start + j.units
      if j.order != s.ev.y / 4096 then s
      else if k = 4095 then s.served 3 .jobUnit ((j.writes.take 1).flatMap fun u => s.dmapNeeds tm j.start u) fun s => s.writeDmap d ch tm j
      else if j.ended.isSome then s
      else if s.ev.grant = .fresh ∧ !j.mid ∧ (s.jobsStop c ∨ s.earlierMeets c j.order (s.unitFootprint c tm j u k)) then s.soon .jobUnit d ch s.ev.y
      else s.served 3 .jobUnit (s.unitNeeds c tm j u k) fun s =>
        if recBits tm 0 2 0 = 3 then (if k = 0 then (s.beginRelocate c tm).startVaults d ch tm j else s.relocateBrick d ch c tm j (k - 1))
        else if let some f := j.failing then s.unmove d ch c tm j f.1 f.2
        else if recBits tm 0 2 0 = 2 then s.pageOutUnit d ch c tm j u
        else s.plainUnit d ch c tm j u)

/-! ## JOB_COMPLETION_RECORD (R308) -/

/-- A ring of a context, with cseq as software last wrote it in the ring's descriptor (log 17). -/
def State.ringNow (s : State) (c n : Nat) : State × Ring :=
  let x := s.ctx c
  let r := mapGet {} x.rings n
  match s.sysRead c 2 (field (x.descWord 6) 56 0 + 32 * n + 12) 4 with
  | (s, .ok bs) => (s, { r with cseq := bytesNat bs })
  | (s, .error _) => (s, r)

/-- The HDM offsets of the lines that a slot of a vault is for the host (R366): of grains of kind 5 with ghv, and of host-visible objects. -/
def Context.hostLines (c : Context) (t : TileId) (key slot : Nat) : List Nat :=
  let bank := key / 4096
  let page := key % 4096
  let o := page * 262144 + bank * 2048 + 64 * slot
  if 32 ≤ slot then []
  else
    (c.grains.filterMap grainOf).filterMap (fun g =>
      if g.kind = 5 ∧ g.hv ∧ c.grainTile g = t ∧ g.offset g.gva ≤ o ∧ o < g.offset g.gva + g.cnt * g.size then some (g.gva + (o - g.offset g.gva)) else none) ++
    c.objs.filterMap fun x =>
      let r := x.2
      let base := if recState r = 2 ∧ recBits r 12 11 0 ≤ page ∧ !brickOnPage c.die0 c.shape (withState r 1) 0 32768 t bank page then recBits r 12 11 0 else recBits r 8 11 0
      let g := globalBrick r (posOfTile c.die0 c.shape t) ((page - base) * 128 + (bank + 128 - recBits r 8 18 12) % 128)
      if bitOf (recWord r 0) 38 ∧ recProt r = 0 ∧ brickOnPage c.die0 c.shape r 0 (min 32768 (gMax r false + 1)) t bank page then
        some (2 ^ 42 + x.1 * 2 ^ 26 + g * 2048 + 64 * slot) else none

/-- The host's lines that the device wrote since the last completion record are invalidated (R367); only the CXL 3.1 mode does so (R368). -/
def State.backInvalidate (s : State) : State :=
  let lines := match s.host.ctx, s.host.mode with
    | some c, .cxl3 => (s.tiles.flatMap fun t => t.2.vault.touched.flatMap fun x => (s.ctx c).hostLines t.1 x.1 x.2).eraseDups
    | _, _ => []
  { s with tiles := s.tiles.map fun t => (t.1, { t.2 with vault := { t.2.vault with touched := [] } })
           host := { s.host with backInv := s.host.backInv ++ lines } }

/-- A ring's size is one that R308 gives. -/
def Ring.ok (r : Ring) : Bool := decide (r.lsz ≤ 12)

/-- A ring has no free slot (R308). -/
def Ring.full (r : Ring) : Bool := (r.wseq + 2 ^ 32 - r.cseq) % 2 ^ 32 == 16 * 2 ^ r.lsz

/-- The transfers of a record written into a ring: its slot, and wseq and cseq in the ring's descriptor. -/
def State.ringNeeds (s : State) (c n : Nat) : Needs :=
  let r := (s.ringNow c n).2
  s.sysNeeds c (r.base + 32 * (r.wseq % (16 * 2 ^ r.lsz))) 32 true ++ s.sysNeeds c (field ((s.ctx c).descWord 6) 56 0 + 32 * n + 8) 8 true

/-- A record written into a ring as a release, the host's lines invalidated before it, its sequence number counted, the host's vector raised (R308,
R367); none while the ring is full. A ring whose base lies in no grain of kind 0 or 2, or whose size R308 does not give, takes no record. -/
def State.writeRecord (s : State) (c n : Nat) (w0 w1 p : Nat) (wake : Bool) : Option State :=
  let (s, r) := s.ringNow c n
  if r.full then none
  else
    let s := s.backInvalidate
    let bs := natBytes 8 w0 ++ natBytes 8 w1 ++ natBytes 4 p ++ natBytes 4 r.wseq ++ natBytes 8 s.wclk
    let kind := (s.ctx c).grainKind r.base
    let s := if (kind = some 0 ∨ kind = some 2) ∧ r.ok then (s.sysWrite c 2 (r.base + 32 * (r.wseq % (16 * 2 ^ r.lsz))) bs).1 else s
    let next := (r.wseq + 1) % 2 ^ 32
    let s := s.updCtx c fun x => { x with rings := mapSet {} x.rings n { r with wseq := next } }
    let s := (s.sysWrite c 2 (field ((s.ctx c).descWord 6) 56 0 + 32 * n + 8) (natBytes 4 next)).1
    let s := { s with host := { s.host with irqs := s.host.irqs ++ [r.vec] } }
    some (if wake then s.wakeRect r.rect else s)

/-- Words 0 and 1 of a job's record (R308). -/
def recordWords (x : Start) (d ch status fault bytes : Nat) : Nat × Nat :=
  (status + fault * 2 ^ 8 + ch * 2 ^ 16 + d * 2 ^ 22 + field x.data.toNat 7 0 * 2 ^ 32 + field x.data.toNat 31 8 * 2 ^ 40, bytes % 2 ^ 48)

/-- The tile that started a job no longer waits for its record (R286). -/
def State.jobRecorded (s : State) (d : Nat) (x : Start) : State := match x.tile with
  | some k => s.updTile k.tile fun t => { t with sync := { t.sync with jobs := t.sync.jobs.filter fun j => !(j.die == d && j.seq == k.seq) } }
  | none => s

/-- A record of a start on a channel with its status, fault, bytes and progress, when its ring has room and its transfers are made; then what follows. -/
def State.recordStart (s : State) (d ch : Nat) (x : Start) (status fault bytes p : Nat) (after : State → State) : State :=
  let tm := s.template x
  let ring := recBits tm 0 11 8
  let again := fun (s : State) => s.soon .jobCompletionRecord d ch s.ev.y
  if s.ev.grant = .fresh ∧ (s.ringNow x.ctx ring).2.full then again s
  else s.served 3 .jobCompletionRecord (s.ringNeeds x.ctx ring) fun s =>
    let (w0, w1) := recordWords x d ch status fault bytes
    match s.writeRecord x.ctx ring w0 w1 p (bitOf (recWord tm 0) 6) with
    | none => again s
    | some s => after (s.jobRecorded d x)

/-- JOB_COMPLETION_RECORD (R308): y = 0, the record of the channel's ended job once its dirty map is written, which then frees the channel; else that of the
refused start y − 1. -/
def execJobCompletionRecord (s : State) : Host.Outcome State Fault Refusal :=
  .next (
    let d := s.ev.tile
    let ch := s.ev.x
    if s.ev.y ≠ 0 then
      match (s.chan d ch).refused.find? fun x => x.1 + 1 == s.ev.y with
      | none => s
      | some x => s.recordStart d ch x.2 3 0 0 0 fun s => s.setChan d ch (let c := s.chan d ch; { c with refused := c.refused.filter fun y => y.1 != x.1 })
    else match (s.chan d ch).job with
      | none => s
      | some j => match j.ended with
        | none => s
        | some (status, fault) => if !j.writes.isEmpty then s.soon .jobCompletionRecord d ch else s.recordStart d ch j.start status fault j.bytes j.units fun s =>
          let tm := s.template j.start
          let s := if status = 1 && bitOf (recWord tm 0) 20 then s.addTokens (recBits tm 0 19 12) 1 else s
          let c := s.chan d ch
          let s := s.setChan d ch { c with job := none }
          if c.queue.isEmpty && c.resume.isEmpty then s else s.soon .jobApply d ch)

end Sys2Proof.Machine
end

