-- ==== Sys2Proof/Machine/Queues.lean ====
section
/-!
DEFINITION. Machine/Queues.lean: the queue engine (R290 to R302): descriptors and their service, packets, program checks, the interpreters,
dispatch. An event names a queue in x.
-/

namespace Sys2Proof.Machine

/-! ## Who is served (R21, R22) -/

/-- The loader serves system software (R21, R22): firmware runs, in a state that runs tenants. A returned device accepts the transitions of R20 and
attestation alone, and a halted, blank or scrapped one serves no program, queue or context. -/
def Security.serves (x : Security) : Bool := x.boot == .running && (x.lfst == .provisioned || x.lfst == .owned || x.lfst == .debugUnlocked)

/-! ## Parts of the engine -/

/-- A queue. -/
def State.queue (s : State) (q : Nat) : Queue := mapGet {} s.qe.queues q
/-- A queue written. -/
def State.setQueue (s : State) (q : Nat) (x : Queue) : State := { s with qe := { s.qe with queues := mapSet {} s.qe.queues q x } }
/-- Packets that a ring holds (R290). -/
def Queue.size (q : Queue) : Nat := 2 ^ (q.lsz + 4)
/-- The program in a slot. -/
def State.program (s : State) (n : Nat) : Option Program := mapFind s.qe.progs n
/-- The host context while the loader serves (R21, R366): that which the host window is bound to. -/
def State.hostCtx (s : State) : Option Nat := if s.sec.serves then s.host.ctx else none

/-! ## Program checks (R295) -/

/-- An op belongs to a kind of program (R294). -/
def opFits (k : ProgKind) : Instr → Bool
  | .ivStw _ _ _ _ | .ivTokadd _ _ | .ivJob _ _ _ | .ivLaunch _ | .ivEvt _ | .ivDone | .ivDrop => k == .main
  | .ivRank _ | .ivNeed _ _ => k == .rank
  | _ => true

/-- The skip that an op makes. -/
def skipOf : Instr → Option Nat
  | .ivBeq _ _ n | .ivBne _ _ n | .ivBltu _ _ n | .ivJf n => some n.toNat
  | _ => none

/-- The longest path from an op on: ops and NEEDs on a path that reaches the end of the stretch, and on one that ends the program before. -/
structure PathCost where
  reach : Option (Nat × Nat) := none
  stop  : Option (Nat × Nat) := none
deriving DecidableEq, Repr

/-- The greater of two costs, part by part. -/
def joinCost (a b : Option (Nat × Nat)) : Option (Nat × Nat) := match a, b with
  | none, b => b
  | a, none => a
  | some (x, y), some (u, v) => some (max x u, max y v)

/-- A cost added to another. -/
def addCost (n m : Nat) (a : Option (Nat × Nat)) : Option (Nat × Nat) := a.map fun x => (x.1 + n, x.2 + m)

/-- A step of n ops and m NEEDs before a path. -/
def PathCost.after (p : PathCost) (n m : Nat) : PathCost := { reach := addCost n m p.reach, stop := addCost n m p.stop }

/-- Either of two paths. -/
def PathCost.or (a b : PathCost) : PathCost := { reach := joinCost a.reach b.reach, stop := joinCost a.stop b.stop }

/-- A loop of at most m runs of a body before a path (R295). -/
def PathCost.loop (body rest : PathCost) (m : Nat) : PathCost :=
  let ended := match body.reach with
    | some (n, k) => { stop := addCost ((m - 1) * n) ((m - 1) * k) body.stop : PathCost }
    | none => { stop := body.stop : PathCost }
  let whole := match body.reach with
    | some (n, k) => rest.after (m * n) (m * k)
    | none => {}
  ((ended.or whole).or rest).after 1 0

/-- The paths of an op at the head of those after it; none where it is no lawful op there. -/
def opPaths (body : Nat → Nat → Option PathCost) (i : Nat) (op : Option Instr) (tl : List (Option PathCost)) : Option PathCost :=
  let skip (n : Nat) : Option PathCost := (tl[n]?).getD none
  match op with
  | none => none
  | some .ivDone | some .ivDrop | some (.ivRank _) => some { stop := some (1, 0) }
  | some (.ivNeed _ _) => (skip 0).map fun p => p.after 1 1
  | some (.ivJf n) => (skip n.toNat).map fun p => p.after 1 0
  | some (.ivLoop _ len m) => match body (i + 1 + len.toNat) len.toNat, skip len.toNat with
    | some b, some r => some (b.loop r m.toNat)
    | _, _ => none
  | some o => match skipOf o with
    | some n => match skip 0, skip n with
      | some a, some b => some ((a.or b).after 1 0)
      | _, _ => none
    | none => (skip 0).map fun p => p.after 1 0

/-- The paths of the n ops before an end, the first of them first; no path runs into a loop's body from outside it. -/
def pathTable (body : Nat → Nat → Option PathCost) (code : List (Option Instr)) (stop : Nat) : Nat → List (Option PathCost)
  | 0 => [some { reach := some (0, 0) }]
  | n + 1 =>
    let tl := pathTable body code stop n
    let i := stop - (n + 1)
    let op := (code[i]?).getD none
    let tl' := match op with
      | some (.ivLoop _ len _) => List.replicate (min len.toNat n) none ++ tl.drop len.toNat
      | _ => tl
    opPaths body i op tl :: tl'

/-- The paths of a loop body of len ops that ends at an op, with d loops allowed in it. -/
def bodyPaths (code : List (Option Instr)) : Nat → Nat → Nat → Option PathCost
  | 0, _, _ => none
  | d + 1, stop, len => ((pathTable (bodyPaths code d) code stop len).head?).getD none

/-- The longest path of a program is within its budget, and every path ends as its kind must end (R295). -/
def pathsOk (k : ProgKind) (code : List (Option Instr)) : Bool :=
  match ((pathTable (bodyPaths code 2) code code.length code.length).head?).getD none with
  | some p => p.reach.isNone && (match p.stop with
    | some (n, m) => decide (n ≤ if k = .main then 512 else 64) && decide (m ≤ 4)
    | none => false)
  | none => false

/-- The bodies of a program's loops: the first op, and the op past the last. -/
def loopBodies (code : List (Option Instr)) : List (Nat × Nat) := (List.zipIdx code).filterMap fun x => match x.1 with
  | some (.ivLoop _ len _) => some (x.2 + 1, x.2 + 1 + len.toNat)
  | _ => none

/-- The loop bodies that hold an op. -/
def bodiesOf (bodies : List (Nat × Nat)) (i : Nat) : List (Nat × Nat) := bodies.filter fun b => decide (b.1 ≤ i) && decide (i < b.2)

/-- No skip enters or leaves a loop body, a loop within a body ends within it, and loops nest at most two deep, be the ops reached or not (R295). -/
def nestOk (code : List (Option Instr)) : Bool :=
  let bodies := loopBodies code
  (List.zipIdx code).all fun x =>
    let around := bodiesOf bodies x.2
    match x.1 with
    | none => true
    | some o => (match skipOf o with
        | some n =>
          let t := x.2 + 1 + n
          bodies.all fun b => if around.contains b then decide (t ≤ b.2) else !(decide (b.1 ≤ t) && decide (t < b.2))
        | none => true) && (match o with
        | .ivLoop _ len _ => decide (around.length ≤ 1) && around.all fun b => decide (x.2 + 1 + len.toNat ≤ b.2)
        | _ => true)

/-- Every op is lawful and of the program's kind, every skip and loop body lies within it (R295). -/
def opsOk (k : ProgKind) (code : List (Option Instr)) : Bool :=
  (List.zipIdx code).all fun x => match x.1 with
    | none => false
    | some o => o.wf && opFits k o && (match skipOf o with
      | some n => decide (x.2 + 1 + n < code.length)
      | none => true) && (match o with
      | .ivLoop _ len _ => decide (x.2 + 1 + len.toNat ≤ code.length)
      | _ => true)

/-- What an op asks of a queue that names its program (R295). -/
def State.opSuits (s : State) (n : Nat) (q : Queue) (o : Instr) : Bool :=
  let link := fun (l : BitVec 8) => mapGet ({} : TokenLink) s.qe.tokens l.toNat
  match o with
  | .ivLdw _ _ w _ => decide (w.toNat < q.nwin)
  | .ivStw _ _ w _ => decide (w.toNat < q.nwin) && mapGet false q.wen w.toNat
  | .ivTokadd l _ => (link l).prod == n
  | .ivNeed l _ => (link l).cons == n
  | .ivJob _ die _ => inPartition (s.ctx q.ctx).die0 (s.ctx q.ctx).shape die.toNat
  | _ => true

/-- A program suits queue n. -/
def State.codeSuits (s : State) (n : Nat) (q : Queue) (code : List (Option Instr)) : Bool := code.all fun o => match o with
  | some o => s.opSuits n q o
  | none => false

/-- An address lies in a grain of kind 0 or 2 of a context (R290). -/
def State.queueAddr (s : State) (c a : Nat) : Bool := match (s.ctx c).grain a with
  | some g => g.kind == 0 || g.kind == 2
  | none => false

/-- The addresses that a descriptor names lie in grains as R290 asks; a word never written names none, until the queue is enabled. -/
def State.queueAddrsOk (s : State) (q : Queue) (whole : Bool) : Bool :=
  ((!whole && q.rbase == 0) || s.queueAddr q.ctx q.rbase) &&
    (List.range 4).all fun w => let b := mapGet 0 q.wbase w
      (b == 0 && (!whole || mapGet 0 q.wlen w == 0 || decide (q.nwin ≤ w))) || s.queueAddr q.ctx b

/-- A queue with both its programs installed, each of its kind and fit for it, and its addresses lawful (R290, R291, R295). -/
def State.queueReady (s : State) (n : Nat) (q : Queue) : Bool :=
  s.queueAddrsOk q true &&
  match s.program q.prog, s.program q.rprog with
  | some p, some r => p.kind == .main && r.kind == .rank && s.codeSuits n q (p.code.map decodeIvloha) && s.codeSuits n q (r.code.map decodeIvloha)
  | _, _ => false

/-! ## QUEUE_SERVICE_WRITE, QUEUE_ENABLE, QUEUE_DISABLE (R290, R291, R302) -/

/-- A word of a descriptor as the queue service reads it (R290): reserved fields read zero. A read is answered by the loader, and changes nothing. -/
def Queue.word (q : Queue) (word : Nat) : Nat :=
  match word with
  | 0 => q.rbase + q.lsz * 2 ^ 57 + b2n q.en * 2 ^ 61 + b2n q.dev * 2 ^ 62
  | 1 => q.hseq + q.drops * 2 ^ 32
  | 2 => q.prog + q.rprog * 2 ^ 6 + q.ctx * 2 ^ 12 + q.nwin * 2 ^ 20
  | 3 => q.qfault + q.fpc * 2 ^ 8 + q.fseq * 2 ^ 32
  | w => if 4 ≤ w ∧ w < 12 then
      (if w % 2 = 0 then mapGet 0 q.wbase ((w - 4) / 2) + b2n (mapGet false q.wen ((w - 4) / 2)) * 2 ^ 63 else mapGet 0 q.wlen ((w - 4) / 2))
    else 0

/-- A descriptor with one of its words written, what the hardware writes kept (R290). A write of word 3 changes nothing: qfault, fpc and fseq are the
engine's (DESIGN CHOICE, log 98). -/
def Queue.write (q : Queue) (word : Nat) (v : Nat) : Queue :=
  if word = 0 then { q with rbase := field v 56 0, lsz := field v 60 57, dev := bitOf v 62 }
  else if word = 1 then { q with hseq := field v 31 0, drops := field v 63 32 }
  else if word = 2 then { q with prog := field v 5 0, rprog := field v 11 6, ctx := field v 19 12, nwin := field v 22 20 }
  else if 4 ≤ word ∧ word < 12 then
    let w := (word - 4) / 2
    if word % 2 = 0 then { q with wbase := mapSet 0 q.wbase w (field v 56 0), wen := mapSet false q.wen w (bitOf v 63) }
    else { q with wlen := mapSet 0 q.wlen w (field v 31 0) }
  else q

/-- The fields of a descriptor are lawful (R290). -/
def Queue.lawful (q : Queue) : Bool :=
  decide (q.rbase % (64 * q.size) = 0) && decide (q.nwin ≤ 4) &&
    (List.range 4).all fun w => decide (mapGet 0 q.wbase w % 8 = 0) && decide (mapGet 0 q.wlen w % 8 = 0)

/-- The address that a written word names lies in a grain as R290 asks, and so do those of the other words. -/
def State.wordAddrOk (s : State) (q : Queue) (word v : Nat) : Bool :=
  s.queueAddrsOk q false && (if word = 0 ∨ (4 ≤ word ∧ word < 12 ∧ word % 2 = 0) then s.queueAddr q.ctx (field v 56 0) else true)

/-- Every enabled queue still suits its programs (R290, R295). -/
def State.queuesReady (s : State) : Bool := s.qe.queues.all fun x => !x.2.en || s.queueReady x.1 x.2

/-- A read of a queue's slot dated some wall units from now; y is its fetch path. -/
def State.pollAt (s : State) (q w : Nat) : State := s.at (s.wall + w) { i := .packetFetch, arg := { x := q, y := b2n (s.queue q).dev } }

/-- A queue polls: its fetch path is read from it on, if it is not being read already (R293). -/
def State.beginPoll (s : State) (n : Nat) : State :=
  let path := b2n (s.queue n).dev
  if s.qe.polling.contains path then s else ({ s with qe := { s.qe with polling := path :: s.qe.polling } } : State).pollAt n 1

/-- QUEUE_SERVICE_WRITE (R290, R302): a write of system software, checked and applied; a refused one changes nothing. One after which an enabled queue
would not suit its programs is refused (R295). An enabled queue polls by the path that it now names. -/
def execQueueServiceWrite (w : QueueWrite) (s : State) : Host.Outcome State Fault Refusal :=
  .next (match w with
    | .descriptor n word v =>
      let q := (s.queue n).write word v.toNat
      if s.sec.serves ∧ n < 64 ∧ word < 16 ∧ q.lawful ∧ s.wordAddrOk q word v.toNat ∧ (s.setQueue n q).queuesReady then
        (if q.en ∧ q.qfault = 0 ∧ q.dev ≠ (s.queue n).dev then (s.setQueue n q).beginPoll n else s.setQueue n q) else s
    | .tokenLink l v =>
      let x := v.toNat
      let link : TokenLink := { prod := field x 5 0, cons := field x 11 6, val := bitOf x 12, err := bitOf x 13, count := field x 31 16 }
      let t := { s with qe := { s.qe with tokens := mapSet {} s.qe.tokens l link } }
      if s.sec.serves ∧ l < 256 ∧ t.queuesReady then
        let s := t
        if s.qe.mainRun.isNone then s.push [{ i := .packetDispatch }] else s
      else s)

/-- QUEUE_ENABLE (R291): a queue with both programs polls its ring; a faulted one polls again. -/
def execQueueEnable (n : Nat) (s : State) : Host.Outcome State Fault Refusal :=
  .next (
    let q := s.queue n
    if s.sec.serves ∧ n < 64 ∧ (!q.en ∨ q.qfault ≠ 0) ∧ s.queueReady n q then (s.setQueue n { q with en := true, qfault := 0, snap := none }).beginPoll n else s)

/-- A queue disabled, its waiting entries discarded, and the packets that have yet to become entries with them (R291). -/
def State.disableQueue (s : State) (n fault : Nat) : State :=
  let q := s.queue n
  let s := s.setQueue n { q with en := false, qfault := if fault = 0 then q.qfault else fault }
  { s with qe := { s.qe with pifo := s.qe.pifo.filter fun e => e.queue != n, fetched := s.qe.fetched.filter fun r => r.queue != n } }

/-- QUEUE_DISABLE (R291). -/
def execQueueDisable (n : Nat) (s : State) : Host.Outcome State Fault Refusal := .next (if s.sec.serves ∧ n < 64 then s.disableQueue n 0 else s)

/-! ## PROGRAM_INSTALL (R295, R296) -/

/-- A measurement register extended with a digest (R23). -/
def Security.extend (x : Security) (i : Nat) (d : BitVec 256) : Security :=
  { x with meas := mapSet 0 x.meas i (sha256 (digestBytes (mapGet 0 x.meas i) ++ digestBytes d)) }

/-- The unrevoked fused hashes of a life-cycle state that accept a signature (R22): the vendor's, and the owner's where it stands. -/
def Security.accepted (x : Security) (owner : Bool) : List (BitVec 256) :=
  ((x.vendor.map Prod.snd).filter fun h => !h.revoked).map KeyHash.hash ++
    (if owner then (match x.owner with
      | some h => if h.revoked then [] else [h.hash]
      | none => []) else [])

/-- A signed body is accepted under a set of key hashes. -/
def signedBy (c : Signed) (hs : List (BitVec 256)) : Bool := hs.contains (signerOf c) && signedOk c

/-- The queues whose descriptors, as written, name a program slot, enabled or not, with their numbers. -/
def State.namers (s : State) (slot : Nat) (k : ProgKind) : List (Nat × Queue) :=
  s.qe.queues.filter fun x => (if k = .main then x.2.prog else x.2.rprog) == slot

/-- The bytes of a program's ops. -/
def codeBytes (code : List (BitVec 32)) : List Byte := code.flatMap fun w => natBytes 4 w.toNat

/-- PROGRAM_INSTALL (R295, R296): a checked program takes its slot; a signed one must verify over its ops and extends meas3. -/
def execProgramInstall (slot : Nat) (kind : ProgKind) (code : List (BitVec 32)) (sig : Option Signed) (s : State) : Host.Outcome State Fault Refusal :=
  .next (
    let ops := code.map decodeIvloha
    let ok := s.sec.serves && decide (slot < 64) && decide (1 ≤ code.length) && decide (code.length ≤ 1024) && opsOk kind ops && nestOk ops && pathsOk kind ops &&
      (s.namers slot kind).all (fun x => s.codeSuits x.1 x.2 ops)
    let put := { s with qe := { s.qe with progs := mapPut s.qe.progs slot { kind := kind, code := code } } }
    match sig with
    | none => if ok then put else s
    | some c =>
      if ok && c.body == codeBytes code && signedBy c (s.sec.accepted true) then { put with sec := s.sec.extend 3 (sha256 (codeBytes code)) } else s)

/-! ## PACKET_FETCH (R292, R293, R299) -/

/-- A snapshot is a valid packet for a sequence number (R293). -/
def packetValid (p : List Word) (hseq : Nat) : Bool :=
  recBits p 0 39 32 == 0xC7 && recBits p 0 31 0 == hseq && recBits p 7 31 0 == hseq

/-- The start of an interpreter's run on a packet (R294): q1 holds its sequence number. -/
def newRun (queue : Nat) (packet : List Word) : Run := { queue := queue, packet := packet, regs := mapSet 0 [] 1 (BitVec.ofNat 64 (recBits packet 0 31 0)) }

/-- A cycle of the queue engine (R297): one of the running clock of the kernel on die 0, where it sits, or of 1.3 GHz. -/
def State.opPeriod (s : State) : Nat := match kernelOfDie s.kernels 0 with
  | some (_, k) => k.period
  | none => 30

/-- The queues of a fetch path that are read: enabled ones that are not faulted, while the loader serves (R21). -/
def State.polled (s : State) (path : Nat) : List Nat :=
  if !s.sec.serves then [] else (s.qe.queues.filter fun x => x.2.en && x.2.qfault == 0 && b2n x.2.dev == path).map Prod.fst

/-- The path goes on from a queue (R293): to the next queue above it at once, or, after the last, to the first: at once where this round has shown a valid
slot, else no more than 2 µs later; with no queue to read it rests. -/
def State.pollNext (s : State) (path n : Nat) : State :=
  match (s.polled path).filter (n < ·), s.polled path with
  | m :: _, _ => s.push [{ i := .packetFetch, arg := { x := m, y := path } }]
  | [], m :: _ =>
    if s.qe.again.contains path then ({ s with qe := { s.qe with again := s.qe.again.erase path } } : State).pollAt m 1
    else (s.pollAt m (Config.freeNat s.free % nsUnits 2000 + 1)).tickFree
  | [], [] => { s with qe := { s.qe with polling := s.qe.polling.erase path } }

/-- The slot of a queue that is read next (R292). -/
def Queue.slotAddr (q : Queue) : Nat := q.rbase + 64 * (q.hseq % q.size)

/-- A snapshot is acted on: a valid slot; of a PCIe-only host, a slot read twice with the same bytes, the second read being the one in hand (R293, R368). -/
def Queue.acts (q : Queue) (mode : HostMode) (p : List Word) : Bool :=
  packetValid p q.hseq && (q.dev || mode != .pcie || q.snap == some p)

/-- The round in hand of a path has shown a valid slot: its next one follows at once. -/
def State.pollAgain (s : State) (path : Nat) : State := { s with qe := { s.qe with again := path :: s.qe.again.erase path } }

/-- The rank interpreter, where it is free, begins on the first of the packets fetched (R297, R299). -/
def State.startRank (s : State) : State := match s.qe.rankRun, s.qe.fetched with
  | none, r :: rest => { s with qe := { s.qe with rankRun := some { r with due := s.wall + s.opPeriod }, fetched := rest } }
  | _, _ => s

/-- The entries that are in the push-in first-out queue or on their way to it (R299): a packet fetched holds its place there (DESIGN CHOICE, log 46). -/
def QueueEngine.entries (x : QueueEngine) : Nat := x.pifo.length + x.fetched.length + b2n x.rankRun.isSome

/-- A valid packet of a queue taken (R291, R293): it goes to the rank interpreter, hseq counts it, and the consumer word is written. -/
def State.takePacket (s : State) (n : Nat) (p : List Word) : State :=
  let q := s.queue n
  let next := (q.hseq + 1) % 2 ^ 32
  let s := ((s.setQueue n { q with hseq := next, snap := none }).sysWrite q.ctx 1 (q.rbase + 64 * q.size) (natBytes 8 next)).1
  ({ s with qe := { s.qe with arrival := s.qe.arrival + 1, fetched := s.qe.fetched ++ [{ newRun n p with arrival := s.qe.arrival }] } } : State).startRank

/-- PACKET_FETCH (R293): the queue x of the fetch path y is read; a valid packet is taken, and the path goes on to the queues above, of which a round
reads each once. The ring must be where the path leads: host memory, or device memory, whose transfers take service windows behind those of the agents of
R182 (log 82). A row that waits for an access looks after it alone; one whose queue is read no more withdraws it. -/
def execPacketFetch (s : State) : Host.Outcome State Fault Refusal :=
  .next (
    let n := s.ev.x
    let path := s.ev.y
    let q := s.queue n
    let needs := s.sysNeeds q.ctx q.slotAddr 64 false ++ s.sysNeeds q.ctx (q.rbase + 64 * q.size) 8 true
    if !s.askStands then s
    else if !(s.polled path).contains n ∨ (s.ctx q.ctx).grainKind q.rbase ≠ some (2 * path) then
      (s.dropAsks fun d => d.i == .packetFetch && d.arg.y == path).pollNext path n
    else if 1024 ≤ s.qe.entries ∧ !s.ev.grant.waiting then s.pollAt n (nsUnits 1)
    else s.served 6 .packetFetch needs fun s =>
      match s.sysRead q.ctx 1 q.slotAddr 64 with
      | (s, .error _) => (s.setQueue n { q with snap := none }).pollNext path n
      | (s, .ok bs) =>
        let p := wordsOf bs
        if q.acts s.host.mode p then ((s.takePacket n p).pollAgain path).pollNext path n
        else if packetValid p q.hseq ∧ q.snap.isNone then ((s.setQueue n { q with snap := some p }).pollAgain path).pollNext path n
        else (s.setQueue n { q with snap := none }).pollNext path n)

/-! ## PACKET_DISPATCH (R300, R301) -/

/-- The tokens that an entry needs of a link, its NEEDs of that link joined. -/
def Entry.needOf (e : Entry) (l : Nat) : Nat := ((e.needs.filter fun y => y.1 == l).map Prod.snd).sum

/-- An entry is eligible (R300). -/
def State.eligible (s : State) (e : Entry) : Bool := e.needs.all fun x => decide (e.needOf x.1 ≤ (mapGet ({} : TokenLink) s.qe.tokens x.1).count)

/-- An entry goes before another: the lesser rank, then the earlier arrival. -/
def Entry.before (a b : Entry) : Bool := decide (a.rank < b.rank) || (a.rank == b.rank && decide (a.arrival < b.arrival))

/-- The first of the eligible entries. -/
def firstEntry : List Entry → Option Entry
  | [] => none
  | e :: r => match firstEntry r with
    | some x => some (if x.before e then x else e)
    | none => some e

/-- The partitions that a context is assigned to, by their first dies: that of its descriptor, then the others (R329). -/
def Context.homes (c : Context) : List Nat := c.die0 :: c.places.filter (· != c.die0)

/-- The kernels that an eligible entry of another context of their partition pre-empts (R301), where no request stands yet. -/
def State.preempted (s : State) : List Nat :=
  (s.kernels.filter fun k => k.2.request.isNone && k.2.st != .yielded && s.qe.pifo.any fun e =>
    let c := (s.queue e.queue).ctx
    s.eligible e && c != k.2.ctx && decide (e.rank < k.2.launch.rank) && (s.ctx c).homes.any (inPartition k.2.die0 k.2.shape)).map Prod.fst

/-- The tokens that an entry needs taken from their links (R300). -/
def takeTokens (m : Map TokenLink) (needs : List (Nat × Nat)) : Map TokenLink :=
  needs.foldl (fun m x => let l := mapGet {} m x.1; mapSet {} m x.1 { l with count := l.count - x.2 }) m

/-- PACKET_DISPATCH (R300): when the main interpreter is free, the first eligible entry takes its tokens and its main program starts. -/
def execPacketDispatch (s : State) : Host.Outcome State Fault Refusal :=
  .next (
    let s := s.push (s.preempted.map fun k => { i := .preemptionRequest k })
    if s.qe.mainRun.isSome then s
    else match firstEntry (s.qe.pifo.filter s.eligible) with
      | none => s
      | some e => { s with qe := { s.qe with
          pifo := s.qe.pifo.erase e, tokens := takeTokens s.qe.tokens e.needs
          mainRun := some { newRun e.queue e.packet with rank := e.rank, due := s.wall + s.opPeriod } } })

/-! ## The ops (R294, R298) -/

/-- The run that the op in hand belongs to: the main interpreter's or the rank interpreter's (R297). -/
def State.run? (s : State) : Option Run := if s.qe.rankTurn then s.qe.rankRun else s.qe.mainRun

/-- The run of the op in hand put in place, or ended. -/
def State.putRun (s : State) (r : Option Run) : State :=
  if s.qe.rankTurn then { s with qe := { s.qe with rankRun := r } } else { s with qe := { s.qe with mainRun := r } }

/-- The run of the op in hand goes on: its next op comes one cycle later (R297). -/
def State.setRun (s : State) (r : Run) : State := s.putRun (some { r with due := s.wall + s.opPeriod, waits := false })

/-- Register i of a run; q0 reads zero. -/
def Run.reg (r : Run) (i : BitVec 4) : Word := if i = 0 then 0 else mapGet 0 r.regs i.toNat
/-- A register written; q0 ignores writes. -/
def Run.setReg (r : Run) (i : BitVec 4) (v : Word) : Run := if i = 0 then r else { r with regs := mapSet 0 r.regs i.toNat v }

/-- Ends of loop bodies at a run's op: another run of the body, or the loop left (R294). -/
def loopBack (pc : Nat) : List (Nat × Nat × Nat) → Nat × List (Nat × Nat × Nat)
  | [] => (pc, [])
  | (first, last, left) :: rest =>
    if pc = last then (if 1 < left then (first, (first, last, left - 1) :: rest) else loopBack pc rest) else (pc, (first, last, left) :: rest)

/-- The run moved to an op. -/
def Run.goto (r : Run) (pc : Nat) : Run := let (pc, loops) := loopBack pc r.loops; { r with pc := pc, loops := loops }
/-- The run moved past the op in hand and n more. -/
def Run.next (r : Run) (n : Nat := 0) : Run := r.goto (r.pc + 1 + n)

/-- An op that changes its run alone. -/
def runOp (s : State) (f : Run → Run) : Host.Outcome State Fault Refusal :=
  .next (match s.run? with
    | some r => s.setRun (f r)
    | none => s)

/-- The main interpreter is free: its run ends, and the next entry is looked for. -/
def State.endMain (s : State) : State := ({ s with qe := { s.qe with mainRun := none } } : State).push [{ i := .packetDispatch }]

/-- A fault of an op (R298): the queue is faulted, and the run ends with none of its TOKADDs. -/
def State.opFault (s : State) (r : Run) (code : Nat) : State :=
  let s := s.setQueue r.queue { s.queue r.queue with qfault := code, fpc := r.pc, fseq := recBits r.packet 0 31 0 }
  if s.qe.rankTurn then ({ s with qe := { s.qe with rankRun := none } } : State).startRank else s.endMain

/-- The address of a window's byte, where 8 bytes lie inside the window's length (R294, R298). -/
def Queue.windowAddr (q : Queue) (w x : Nat) : Option Nat := if x + 8 ≤ mapGet 0 q.wlen w then some (mapGet 0 q.wbase w + x) else none

/-- The byte that an LDW or an STW names. -/
def Run.windowByte (r : Run) (a : BitVec 4) (o : BitVec 14) : Nat := 8 * ((r.reg a).toNat % 2 ^ 32 + o.toNat)

/-- IVLOHA_LDP (R294). -/
def execIvLdp (d : BitVec 4) (w : BitVec 3) (s : State) : Host.Outcome State Fault Refusal :=
  runOp s fun r => (r.setReg d (r.packet.getD w.toNat 0)).next

/-- An op that waits for its memory access (R297): of device memory, a transfer in a service window behind those of the agents of R182 (log 82). x of its
row tells whose op it is. -/
def State.accessOp (s : State) (i : Instr) (c a : Nat) (write : Bool) (r : Run) (act : State → State) : State :=
  match s.ev.grant with
  | .fresh =>
    let needs := s.sysNeeds c a 8 write
    if needs.isEmpty then act s else (s.putRun (some { r with waits := true })).ask 6 { i := i, arg := { x := b2n s.qe.rankTurn } } needs
  | .waits id => s.proceed id
  | .given => act s

/-- The op of a row whose access is granted is in hand again. -/
def State.takeTurn (s : State) : State := if s.ev.grant = .fresh then s else { s with qe := { s.qe with rankTurn := s.ev.x == 1 } }

/-- IVLOHA_LDW (R294, R298). -/
def execIvLdw (d a : BitVec 4) (win : BitVec 2) (o : BitVec 14) (s : State) : Host.Outcome State Fault Refusal :=
  .next (
    let s := s.takeTurn
    match s.run? with
    | none => s
    | some r =>
      let q := s.queue r.queue
      match q.windowAddr win.toNat (r.windowByte a o) with
      | none => s.opFault r 1
      | some x => s.accessOp (.ivLdw d a win o) q.ctx x false r fun s => match s.sysRead q.ctx 1 x 8 with
        | (s, .error _) => s.opFault r 2
        | (s, .ok bs) => s.setRun (r.setReg d (BitVec.ofNat 64 (bytesNat bs))).next)

/-- IVLOHA_STW (R294, R298). -/
def execIvStw (d a : BitVec 4) (win : BitVec 2) (o : BitVec 14) (s : State) : Host.Outcome State Fault Refusal :=
  .next (
    let s := s.takeTurn
    match s.run? with
    | none => s
    | some r =>
      let q := s.queue r.queue
      match q.windowAddr win.toNat (r.windowByte a o) with
      | none => s.opFault r 1
      | some x => s.accessOp (.ivStw d a win o) q.ctx x true r fun s => ((s.sysWrite q.ctx 1 x (natBytes 8 (r.reg d).toNat)).1).setRun r.next)

/-- IVLOHA_MOVI (R294). -/
def execIvMovi (d : BitVec 4) (i : BitVec 16) (s : State) : Host.Outcome State Fault Refusal :=
  runOp s fun r => (r.setReg d (i.signExtend 64)).next
/-- IVLOHA_MOVH (R294). -/
def execIvMovh (d : BitVec 4) (i : BitVec 16) (s : State) : Host.Outcome State Fault Refusal :=
  runOp s fun r => (r.setReg d ((r.reg d <<< 16) + i.setWidth 64)).next

/-- X of R294: qa + sext(imm, 16). -/
def Run.x (r : Run) (a : BitVec 4) (i : BitVec 16) : Word := r.reg a + i.signExtend 64
/-- An op of qd and X. -/
def arithOp (s : State) (d a : BitVec 4) (i : BitVec 16) (f : Word → Word → Word) : Host.Outcome State Fault Refusal :=
  runOp s fun r => (r.setReg d (f (r.reg d) (r.x a i))).next

/-- IVLOHA_ADD (R294). -/
def execIvAdd (d a : BitVec 4) (i : BitVec 16) (s : State) : Host.Outcome State Fault Refusal := arithOp s d a i fun x y => x + y
/-- IVLOHA_SUB (R294). -/
def execIvSub (d a : BitVec 4) (i : BitVec 16) (s : State) : Host.Outcome State Fault Refusal := arithOp s d a i fun x y => x - y
/-- IVLOHA_AND (R294). -/
def execIvAnd (d a : BitVec 4) (i : BitVec 16) (s : State) : Host.Outcome State Fault Refusal := arithOp s d a i fun x y => x &&& y
/-- IVLOHA_OR (R294). -/
def execIvOr (d a : BitVec 4) (i : BitVec 16) (s : State) : Host.Outcome State Fault Refusal := arithOp s d a i fun x y => x ||| y
/-- IVLOHA_XOR (R294). -/
def execIvXor (d a : BitVec 4) (i : BitVec 16) (s : State) : Host.Outcome State Fault Refusal := arithOp s d a i fun x y => x ^^^ y
/-- IVLOHA_SHL (R294). -/
def execIvShl (d a : BitVec 4) (i : BitVec 16) (s : State) : Host.Outcome State Fault Refusal := arithOp s d a i fun x y => x <<< (y.toNat % 64)
/-- IVLOHA_SHR (R294). -/
def execIvShr (d a : BitVec 4) (i : BitVec 16) (s : State) : Host.Outcome State Fault Refusal := arithOp s d a i fun x y => x >>> (y.toNat % 64)

/-- A skip of n ops where a test holds. -/
def skipOp (s : State) (n : BitVec 16) (test : Run → Bool) : Host.Outcome State Fault Refusal :=
  runOp s fun r => r.next (if test r then n.toNat else 0)

/-- IVLOHA_BEQ (R294). -/
def execIvBeq (d a : BitVec 4) (n : BitVec 16) (s : State) : Host.Outcome State Fault Refusal := skipOp s n fun r => r.reg d == r.reg a
/-- IVLOHA_BNE (R294). -/
def execIvBne (d a : BitVec 4) (n : BitVec 16) (s : State) : Host.Outcome State Fault Refusal := skipOp s n fun r => r.reg d != r.reg a
/-- IVLOHA_BLTU (R294). -/
def execIvBltu (d a : BitVec 4) (n : BitVec 16) (s : State) : Host.Outcome State Fault Refusal := skipOp s n fun r => (r.reg d).ult (r.reg a)
/-- IVLOHA_JF (R294). -/
def execIvJf (n : BitVec 16) (s : State) : Host.Outcome State Fault Refusal := skipOp s n fun _ => true

/-- IVLOHA_LOOP (R294). -/
def execIvLoop (a : BitVec 4) (len m : BitVec 8) (s : State) : Host.Outcome State Fault Refusal :=
  runOp s fun r =>
    let n := min ((r.reg a).toNat % 2 ^ 32) m.toNat
    if n = 0 then r.next len.toNat
    else { r with loops := (r.pc + 1, r.pc + 1 + len.toNat, n) :: r.loops, pc := r.pc + 1 }

/-- IVLOHA_RANK (R294, R299): the rank program ends, and its packet enters the push-in first-out queue. -/
def execIvRank (a : BitVec 4) (s : State) : Host.Outcome State Fault Refusal :=
  .next (match s.qe.rankRun with
    | some r =>
      let e : Entry := { rank := (r.reg a).toNat % 2 ^ 32, arrival := r.arrival, queue := r.queue, packet := r.packet, needs := r.needs }
      let keep := (s.queue r.queue).en
      ({ s with qe := { s.qe with rankRun := none, pifo := if keep then s.qe.pifo ++ [e] else s.qe.pifo } } : State).startRank.push [{ i := .packetDispatch }]
    | none => s)

/-- IVLOHA_NEED (R294). -/
def execIvNeed (link cnt : BitVec 8) (s : State) : Host.Outcome State Fault Refusal :=
  runOp s fun r => { r with needs := r.needs ++ [(link.toNat, cnt.toNat)] }.next

/-- IVLOHA_TOKADD (R294): the tokens are added at DONE. -/
def execIvTokadd (link cnt : BitVec 8) (s : State) : Host.Outcome State Fault Refusal :=
  runOp s fun r => { r with tokens := r.tokens ++ [(link.toNat, cnt.toNat)] }.next

/-- The start that a queue-engine or host store makes (R303, R305): on its way to its sluice, or discarded and counted. -/
def State.outerStart (s : State) (host : Bool) (c die ch : Nat) (data : Word) : State :=
  if inPartition (s.ctx c).die0 (s.ctx c).shape die then
    ((s.updDie die fun x => { x with arrivals := x.arrivals ++ [{ id := s.free, host := host, ch := ch, start := { ctx := c, data := data } }] }).at
      (s.wall + Config.freeNat s.free + 1) { i := .sluiceStartArrival, arg := { tile := die, x := 1, y := s.free } }).tickFree
  else { s with host := { s.host with discarded := min (s.host.discarded + 1) (2 ^ 32 - 1) } }

/-- IVLOHA_JOB (R294). -/
def execIvJob (a : BitVec 4) (die : BitVec 3) (ch : BitVec 6) (s : State) : Host.Outcome State Fault Refusal :=
  .next (match s.run? with
    | none => s
    | some r => (s.outerStart false (s.queue r.queue).ctx die.toNat ch.toNat (r.reg a)).setRun r.next)

/-- IVLOHA_LAUNCH (R317): the launch block is read, and the request waits in its context for the loader, which serves none where
R21 and R22 leave it none to serve. -/
def execIvLaunch (a : BitVec 4) (s : State) : Host.Outcome State Fault Refusal :=
  .next (match s.run? with
    | none => s
    | some r =>
      let c := (s.queue r.queue).ctx
      let s := s.setRun r.next
      let x := field (r.reg a).toNat 56 0
      if !s.sec.serves ∨ !s.queueAddr c x then s
      else match s.sysRead c 1 x 64 with
        | (s, .error _) => s
        | (s, .ok bs) =>
          let w := wordsOf bs
          let l : Launch := { image := recBits w 0 56 0, recAt := recBits w 1 56 0, rect := recWord w 2, wake := bitOf (recWord w 3) 0
                              irq := bitOf (recWord w 3) 1, rank := r.rank }
          ((s.updCtx c fun y => { y with launches := y.launches ++ [l] }).at (s.wall + Config.freeNat s.free + 1)
            { i := .kernelLoad, arg := { x := c } }).tickFree)

/-- IVLOHA_EVT (R294). -/
def execIvEvt (a : BitVec 4) (s : State) : Host.Outcome State Fault Refusal :=
  .next (match s.run? with
    | none => s
    | some r => (s.wakeRect (r.reg a).toNat).setRun r.next)

/-- IVLOHA_DONE (R294): the program ends, and its TOKADDs take effect. -/
def execIvDone (s : State) : Host.Outcome State Fault Refusal :=
  .next (match s.qe.mainRun with
    | none => s
    | some r =>
      let tokens := r.tokens.foldl (fun m x => mapSet {} m x.1 ((mapGet ({} : TokenLink) m x.1).add x.2)) s.qe.tokens
      ({ s with qe := { s.qe with tokens := tokens } } : State).endMain)

/-- IVLOHA_DROP (R294). -/
def execIvDrop (s : State) : Host.Outcome State Fault Refusal :=
  .next (match s.qe.mainRun with
    | none => s
    | some r =>
      let q := s.queue r.queue
      (s.setQueue r.queue { q with drops := min (q.drops + 1) (2 ^ 32 - 1) }).endMain)

end Sys2Proof.Machine
end

