-- ==== Sys2Proof/Machine/Links.lean ====
section
/-!
DEFINITION. Machine/Links.lean: links and link flits (R351 to R361), collectives (R362 to R364), and the host (R365 to R368).
-/

namespace Sys2Proof.Machine

/-- The edge tile of a link (R351). -/
def edgeTile (l : Nat) : TileId := tileAt (16 * (l / 4 % 4) + 4 * (l % 4) + 2) (if l < 16 then 0 else 31)

/-! ## LSEND and LRECV (R357 to R360) -/

/-- The link that an LSEND of a channel goes to (R358). -/
def Ctx.sendLink (c : Ctx) (ch : Nat) : Option Nat :=
  if ch = 63 then some (4 * dieOf c.id)
  else match c.kernel with
    | some (_, k) => (k.img.channel c.pos ch 0).map fun e => recBits e 0 22 18
    | none => none

/-- The permission fault of a channel without an entry (R358, R359). -/
def permChannel : Nat := permSentinel 0xD

/-- LSEND (R358): each link flit is two mesh flits to the edge tile's port. -/
def execLsend (a : Reg) (n : BitVec 8) (ch : BitVec 6) (rel : Bool) (s : State) : Host.Outcome State Fault Refusal :=
  runChecked 5 s fun c t =>
    match c.sendLink ch.toNat with
    | none => .done (.trap causePermission permChannel)
    | some l =>
      if c.now < t.sync.portFree then .done (if c.portable then .wait 11 else .trap causeConflict 0xFFFC)
      else match if rel || ch == 63 then t.fenceUnmet true c.now else none with
        | some u => .unmet u
        | none =>
          let k := 2 * (n.toNat + 1)
          let e := edgeTile l
          let x : Send := { seq := t.flow.seq, issue := c.now, n := k, start := c.id, src := some (t.blockAddr a), addr := t.blockAddr a
                            dests := [e], link := some (l, ch.toNat) }
          let t := t.nextSeq
          .done (.ok { t with sync := { t.sync with
            portFree := c.now + k, sends := t.sync.sends ++ [x], lsendAcc := max t.sync.lsendAcc (c.now + k - 1 + meshLat c.id e) } })

/-- The halves of a link flit, the first its lower 64 bytes. -/
def flitHalves (p : BitVec 1024) : List (BitVec 512) := [p.extractLsb' 0 512, p.extractLsb' 512 512]

/-- The first n flits of a channel taken from a receive queue. -/
def takeFlits (ch : Nat) : Nat → List (Nat × BitVec 1024) → List (BitVec 1024) × List (Nat × BitVec 1024)
  | _, [] => ([], [])
  | 0, q => ([], q)
  | n + 1, x :: q =>
    if x.1 = ch then let (got, rest) := takeFlits ch n q; (x.2 :: got, rest)
    else let (got, rest) := takeFlits ch (n + 1) q; (got, x :: rest)

/-- What an LRECV comes to: a slot result, a hold of the partition on a link, or its send with the link's state after it. -/
inductive RecvRes where
  | done (r : SlotRes)
  | short (link need : Nat)
  | go (t : Tile) (link : Nat) (l : Link)

/-- LRECV's effect (R359). -/
def Ctx.recv (c : Ctx) (t : Tile) (a : Reg) (n : Nat) (ch : Nat) : RecvRes :=
  match c.recvLink ch with
  | none => .done (.trap causePermission permChannel)
  | some l =>
    if (c.s.queued l ch).length < n then .short l n
    else
      let x := c.s.link l
      if c.now < x.busy then .done (if c.portable then .wait 11 else .trap causeConflict 0xFFFB)
      else
        let (got, rest) := takeFlits ch n x.queue
        let send : Send := { seq := t.flow.seq, issue := c.now, n := 2 * n, start := edgeTile l, halves := got.flatMap flitHalves
                             addr := t.blockAddr a, dests := [c.id] }
        let t := t.nextSeq
        .go { t with sync := { t.sync with sends := t.sync.sends ++ [send] } } l { x with queue := rest, busy := c.now + 2 * n, granted := x.granted + n }

/-- LRECV (R359): the flits leave the queue, their credits return to the peer, and they cross the mesh to the tile; while they are short the partition
holds, and the bundle is due again when it goes on. -/
def execLrecv (a : Reg) (n : BitVec 8) (ch : BitVec 6) (_acq : Bool) (s : State) : Host.Outcome State Fault Refusal :=
  match s.slotCtx.recv (s.tile s.cur.tile) a (n.toNat + 1) ch.toNat with
  | .done r => runSlot 5 s fun _ _ => r
  | .short l need =>
    .next (
      let s := ({ s with todo := [] } : State).setTile s.cur.tile s.cur.pre
      match s.kernelOf s.cur.tile with
      | some (k, _) => (s.beginHold k 1).updKernel k fun x => { x with recv := x.recv ++ [(l, ch.toNat, need)] }
      | none => s)
  | .go t l x => runSlot 5 (s.updLink l fun _ => x) fun _ _ => .ok t

/-! ## Link flits (R351 to R354, R358, R361) -/

/-- A flit sent over a link: it takes a credit, and it leaves at the present link time (R353, R354). -/
def Link.send (l : Link) (lt ch wall : Nat) (p : BitVec 1024) : Link :=
  { l with credits := l.credits - 1, sent := l.sent ++ [(lt, ch, p)], seen := wall }

/-- The peer's number of a channel of a tile (R355). -/
def Kernel.peerChannel (k : Kernel) (t : TileId) (ch : Nat) : Nat :=
  ((k.img.channel (posOfTile k.die0 k.shape t) ch 0).map fun e => recBits e 0 46 41).getD ch

/-- LINK_FLIT_ACCEPT (R354, R358): the second half of a link flit, flit x of kernel y, is at its port; without a credit the partition holds. A flit
of channel 63 goes to the die's collective engine. -/
def execLinkFlitAccept (s : State) : Host.Outcome State Fault Refusal :=
  .next (
    let n := s.ev.y
    match s.kernel? n with
    | none => s
    | some k => match k.mesh.find? fun f => f.id == s.ev.x && f.gone.isNone && !f.landed with
      | none => s
      | some f => match f.port, k.mesh.find? fun g => g.sameSend f && g.num + 1 == f.num && g.gone.isNone with
        | some (l, ch), some g =>
          let s := s.setKernel n (k.markFlits (fun h => h.id == f.id || h.id == g.id) fun h => { h with landed := true })
          let p : BitVec 1024 := f.data ++ g.data
          if ch = 63 then s.push [{ i := .collectiveStart, arg := { tile := f.own, x := field p.toNat 127 0, y := k.ctx } }]
          else
            let pch := k.peerChannel f.own ch
            if 0 < (s.link l).credits then s.updLink l fun x => x.send s.ltime pch s.wall p
            else (s.updLink l fun x => { x with waiting := x.waiting ++ [(pch, p)] }).beginHold n 1
        | _, _ => s)

/-- The kernel whose partition holds a link's die. -/
def State.linkKernel (s : State) (l : Nat) : Option Nat := (kernelOfDie s.kernels (l / 4)).map Prod.fst

/-- CREDIT_RETURN (R354): n credits come back; flits that wait for one go, and their holds end. -/
def execCreditReturn (l n : Nat) (s : State) : Host.Outcome State Fault Refusal :=
  .next (
    let x := s.link l
    let go := x.waiting.take n
    let x := { x with credits := min (x.credits + n) 2048, waiting := x.waiting.drop n }
    let s := s.updLink l fun _ => go.foldl (fun x w => x.send s.ltime w.1 s.wall w.2) x
    match s.linkKernel l with
    | some k => go.foldl (fun s _ => s.endHold k 1) s
    | none => s)

/-- The LRECVs that a link now has the flits for go on (R359). -/
def State.recvReady (s : State) (n : Nat) : State :=
  match s.kernel? n with
  | none => s
  | some k =>
    let ready := k.recv.filter fun r => decide (r.2.2 ≤ (s.queued r.1 r.2.1).length)
    let s := s.setKernel n { k with recv := k.recv.filter fun r => !(decide (r.2.2 ≤ (s.queued r.1 r.2.1).length)) }
    ready.foldl (fun s _ => s.endHold n 1) s

/-- Link time has come to a flit's entry: its acceptance by the peer's link plus the padded latency; a link time before the acceptance has not. -/
def padOver (lt padded accepted : Nat) : Bool :=
  let d := (lt + 2 ^ 64 - accepted) % 2 ^ 64
  decide (d < 2 ^ 63) && decide (padded ≤ d)

/-- A flit on its way enters now (R353): its padded latency is over, and it has arrived, be it later after a replay. -/
def State.entersNow (s : State) (l : Link) (x : Transit) : Bool := padOver s.ltime l.padded x.accepted && decide (x.arrive ≤ s.wall)

/-- A row of a link's entry, dated at a wall time. -/
def State.entryAt (s : State) (l w : Nat) : State := s.at w { i := .linkFlitEnqueue l 0 0, arg := { x := 1 } }

/-- When the first flit on its way is due, as link time runs now: at least one wall unit from now. -/
def State.entryDue (s : State) (l : Link) (x : Transit) : Nat :=
  let left := (x.accepted + l.padded + 2 ^ 64 - s.ltime) % 2 ^ 64
  max (s.wall + 1) (max x.arrive (if left < 2 ^ 63 then s.wall + nsUnits left else 0))

/-- The flits of a link that enter now take their places, in sending order; the next one is dated. -/
def State.enterFlits (s : State) (l : Nat) : State :=
  let x := s.link l
  let now := x.transit.takeWhile (s.entersNow x)
  let rest := x.transit.drop now.length
  let s := s.updLink l fun x => { x with queue := x.queue ++ now.map fun y => (y.ch, y.payload), transit := rest }
  match rest with
  | [] => s
  | y :: _ => s.entryAt l (s.entryDue x y)

/-- LINK_FLIT_ENQUEUE (R353): the event's x = 0, the peer's link has accepted a flit at the present link time; it takes one of the places that the peer
has credits for, it is on its way for a free time that the measured worst path bounds, and whether FEC must correct it is a free value. x = 1: the flits
whose padded latency is over enter the receive queue, and the LRECV holds that await them end. A link that is down delivers nothing (R361). -/
def execLinkFlitEnqueue (l ch : Nat) (p : BitVec 1024) (s : State) : Host.Outcome State Fault Refusal :=
  .next (
    let x := s.link l
    if x.down then s
    else if s.ev.x = 1 then
      let s := s.enterFlits l
      match s.linkKernel l with
      | some n => s.recvReady n
      | none => s
    else if 2048 ≤ x.queue.length + x.transit.length then s
    else
      let fec := min (x.fec + b2n (Config.freeBool s.free)) (2 ^ 32 - 1)
      let path := nsUnits (Config.freeNat (s.free + 1) % (max x.worst 1 + 1))
      let arrive := max (s.wall + path) ((x.transit.getLast?.map Transit.arrive).getD 0)
      let y : Transit := { ch := ch, payload := p, accepted := s.ltime, arrive := arrive }
      let s := s.tickFree.tickFree.updLink l fun x => { x with transit := x.transit ++ [y], seen := s.wall, fec := fec }
      if x.transit.isEmpty then s.entryAt l (s.entryDue x y) else s)

/-- The flits from the first that is still on the wire on, delayed (R351): the sender's buffer replays that one, and those behind it keep their order. -/
def delayFrom (wall by_ : Nat) : List Transit → List Transit
  | [] => []
  | x :: r =>
    if x.arrive ≤ wall then x :: delayFrom wall by_ r
    else { x with arrive := x.arrive + by_ } :: r.map fun y => { y with arrive := max y.arrive (x.arrive + by_) }

/-- FLIT_REPLAY (R351): a flit on its way is replayed from the sender's buffer, which takes a free time of at most 200 ns more, and it is counted (R369). -/
def execFlitReplay (l : Nat) (s : State) : Host.Outcome State Fault Refusal :=
  .next (s.tickFree.updLink l fun x =>
    { x with replays := min (x.replays + 1) 65535, transit := delayFrom s.wall (Config.freeNat s.free % (nsUnits 200 + 1)) x.transit })

/-- The wall time after which a silent link is down (R351). -/
def linkSilence : Nat := nsUnits 100000

/-- LINK_DOWN (R351): a link that has passed no flit or beacon for 100 µs is down; another that was heard is asked again. -/
def execLinkDown (l : Nat) (s : State) : Host.Outcome State Fault Refusal :=
  .next (
    let x := s.link l
    if x.down then s
    else if x.seen + linkSilence ≤ s.wall then s.updLink l fun x => { x with down := true }
    else s.at (x.seen + linkSilence) { i := .linkDown l })

/-- LINK_TRAINING (R353): the link trains, and its worst path is measured; the padded latency that the loader sets before a slice is at least that. -/
def execLinkTraining (l worst : Nat) (s : State) : Host.Outcome State Fault Refusal :=
  .next (
    if l < 32 then
      (s.updLink l fun x => { x with trained := true, down := false, worst := worst, seen := s.wall }).at (s.wall + linkSilence) { i := .linkDown l }
    else s)

/-- The start of the slice that a kernel waits for, and its abort 500 µs later, dated by link time as it runs now (R345, R346, R352). -/
def State.dateSlice (s : State) (n start : Nat) : State :=
  let mine := fun (d : Due) => (d.i == .sliceStartTimeReached || d.i == .gangSliceAbort) && d.arg.x == n
  (({ s with agenda := s.agenda.filter fun a => !mine a.2 } : State).at (s.wall + nsUnits (start - s.ltime)) { i := .sliceStartTimeReached, arg := { x := n } }).at
    (s.wall + nsUnits (start + 500000 - s.ltime)) { i := .gangSliceAbort, arg := { x := n } }

/-- LINK_BEACON (R352): the package's link time follows the beacon, which every trained link passes; the flits on their way look at it again, and so do
the slices that wait for their start (R345, R346). -/
def execLinkBeacon (time : Nat) (s : State) : Host.Outcome State Fault Refusal :=
  .next (
    let links := s.links.map fun l => (l.1, if l.2.trained && !l.2.down then { l.2 with seen := s.wall } else l.2)
    let s := { s with ltBase := (time + 2 ^ 64 - s.wclk % 2 ^ 64) % 2 ^ 64, links := links }
    let s := s.kernels.foldl (fun (s : State) k => match k.2.slice with
      | some start => s.dateSlice k.1 start
      | none => s) s
    s.push ((s.links.filter fun l => !l.2.transit.isEmpty && !l.2.down).map fun l => { i := .linkFlitEnqueue l.1 0 0, arg := { x := 1 } }))

/-- A flit sent on the reserved channels of a die's first link (log 81). -/
def State.sendReserved (s : State) (d : Nat) (x : PeerFlit) : State :=
  s.updLink (4 * d) fun l => { l with reserved := l.reserved ++ [(s.ltime, x)], seen := s.wall }

/-- A flit that comes on the reserved channels of a die's first link (log 81): the link has passed one (R351), and a link that is down delivers nothing
(R361). -/
def State.hearReserved (s : State) (d : Nat) (f : State → State) : State :=
  if (s.link (4 * d)).down then s else f (s.updLink (4 * d) fun l => { l with seen := s.wall })

/-- The gang of a context. -/
def Context.gang (c : Context) : Nat := field (c.descWord 8) 15 0

/-- A member sends its abort flit to the others of its gang (R346). -/
def State.sendAbort (s : State) (n : Nat) : State :=
  let c := s.ctx n
  if bitOf (c.descWord 8) 43 then s.sendReserved c.die0 (.abort c.gang c.gangRank) else s

/-- LINK_RECEIVE_TIMEOUT (R361): a hold of cause link receive of kernel x has stood since wall time y, for 500 µs: the slice ends on every member, with
status 4. -/
def execLinkReceiveTimeout (s : State) : Host.Outcome State Fault Refusal :=
  .next (match s.kernel? s.ev.x with
    | none => s
    | some k => match k.linkFrom with
      | some w =>
        if k.holds.contains 1 && decide (w ≤ s.ev.y) && k.ending.isNone then (s.setKernel s.ev.x (k.endFaulted 4)).sendAbort k.ctx else s
      | none => s)

/-! ## Collectives (R362 to R364) -/

/-- n bytes at an address lie in a grain of kind 0 or 5 (R362). -/
def Context.dataIn (c : Context) (a n : Nat) : Bool := match c.grain a with
  | some g => (g.kind == 0 || g.kind == 5) && g.covers a n
  | none => false

/-- The bytes of a collective's output (R362). -/
def collectiveBytes (w : List Word) : Nat := if recBits w 0 1 0 = 3 then 8 * recBits w 0 12 6 else collectiveWidth w * recBits w 1 23 0

/-- The fields of a request block are in range (R362); its reserved fields are not looked at (R14). -/
def crbOk (c : Context) (w : List Word) : Bool :=
  let op := recBits w 0 1 0
  let f := recBits w 0 5 2
  let k := recBits w 0 12 6
  let e := recBits w 1 23 0
  let ns := recBits w 1 40 24
  (f == 1 || f == 2 || f == 0xB) && (op != 3 || (f == 1 && decide (1 ≤ k) && decide (k ≤ 64) && decide (e ≤ k))) &&
    decide (1 ≤ ns) && decide (ns ≤ 65536) && c.dataIn (recBits w 4 56 0) (collectiveBytes w)

/-- The nodes of a tree, lowest first (R362): a leaf with its shard, or two children. -/
def treeOk (ns : Nat) (nodes : List Nat) : Bool :=
  nodes.length == 2 * ns - 1 &&
  ((List.zipIdx nodes).all fun x => field x.1 63 35 == 0 &&
    (if bitOf x.1 0 then decide (field x.1 17 1 < ns) else decide (field x.1 17 1 < x.2) && decide (field x.1 34 18 < x.2))) &&
  (List.range ns).all fun k => (nodes.filter fun x => bitOf x 0 && field x 17 1 == k).length == 1

/-- The environment of a collective's arithmetic: RNE, nothing flushed (R363). -/
def collectiveEnv : FpEnv := ⟨.rne, false, false, false⟩

/-- One element of two node values combined, left first, with its flags (R363). -/
def combineElem (op f x y : Nat) : Nat × FlagSet :=
  if f = 0xB then
    (if op = 0 then (x + y) % 2 ^ 32
     else if (op == 1) == decide (signed y 32 ≤ signed x 32) then x else y, 0)
  else
    let fm : Fmt := if f = 2 then .bf16 else .f32
    if op = 0 then collectiveEnv.add fm x y else collectiveEnv.pick fm (op == 1) x y

/-- Pairs of a top-k value put in the order of R151, the absent ones left out. -/
def topkMerge (k : Nat) (vs : List Nat) : List Nat :=
  let pairs := (vs.filter fun v => v != 2 ^ 64 - 1).map fun v => (v % 2 ^ 32, v / 2 ^ 32)
  ((pairs.foldl (fun l p => topkInsert p.1 p.2 l) []).take k).map fun p => p.1 + p.2 * 2 ^ 32

/-- combine(left, right) of R363. -/
def combineNodes (w : List Word) (l r : List Nat) : List Nat × FlagSet :=
  let op := recBits w 0 1 0
  if op = 3 then (topkMerge (recBits w 0 12 6) (l ++ r), 0)
  else
    let rs := List.zipWith (combineElem op (recBits w 0 5 2)) l r
    (rs.map Prod.fst, rs.foldl (fun a x => a ||| x.2) 0)

/-- Elements of n bytes read as numbers. -/
def elemsOf (n : Nat) (bs : List Byte) : List Nat := (List.range (bs.length / n)).map fun i => bytesNat ((bs.drop (n * i)).take n)

/-- The node values from the lowest node on: own leaves, combinations of what is known, and what peers sent; with the flags. -/
def Collective.nodeValues (x : Collective) : List Nat → List (Option (List Nat)) → FlagSet → List (Option (List Nat)) × FlagSet
  | [], vs, fl => (vs, fl)
  | nd :: rest, vs, fl =>
    let sent := (mapFind x.values vs.length).map fun v => v.map BitVec.toNat
    if bitOf nd 0 then
      let own := (mapFind x.leaves (field nd 17 1)).map fun v => v.map BitVec.toNat
      x.nodeValues rest (vs ++ [own.or sent]) fl
    else match (vs[field nd 17 1]?).join, (vs[field nd 34 18]?).join with
      | some l, some r => let (v, f) := combineNodes x.words l r; x.nodeValues rest (vs ++ [some v]) (fl ||| f)
      | _, _ => x.nodeValues rest (vs ++ [sent]) fl

/-- The ranks that hold a shard under each node, from the lowest node on. -/
def holdersOf (ranks : List Nat) : List Nat → List (List Nat) → List (List Nat)
  | [], hs => hs
  | nd :: rest, hs =>
    let h := if bitOf nd 0 then [ranks.getD (field nd 17 1) 0] else (hs.getD (field nd 17 1) [] ++ hs.getD (field nd 34 18) []).eraseDups
    holdersOf ranks rest (hs ++ [h])

/-- A peer needs the value of node n, which it does not compute (R363): it computes a parent of n, or n is the root. -/
def peerNeeds (size own : Nat) (nodes : List Nat) (hs : List (List Nat)) (n : Nat) : Bool :=
  (List.range size).any fun r => r != own && !(hs.getD n []).contains r && (n + 1 == nodes.length ||
    (List.zipIdx nodes).any fun p => !bitOf p.1 0 && (field p.1 17 1 == n || field p.1 34 18 == n) && (hs.getD p.2 []).contains r)

/-- The hash of a collective's tree (R364): the first 8 bytes of SHA-256 over words 0 and 1 and the nodes. -/
def treeHash (w : List Word) (nodes : List Byte) : Nat := digestWord (sha256 (wordBytes (w.take 2) ++ nodes))

/-- The running hash of a kernel after a collective (R327). -/
def chainHash (prev : BitVec 64) (h : Nat) : BitVec 64 := BitVec.ofNat 64 (digestWord (sha256 (natBytes 8 prev.toNat ++ natBytes 8 h)))

/-- The hash of a collective that has read its tree. -/
def Collective.hash (x : Collective) : Nat := treeHash x.words (wordBytes x.tree)

/-- A collective of a die's engine changed, by its order. -/
def State.updColl (s : State) (d order : Nat) (f : Collective → Collective) : State :=
  s.updDie d fun y => { y with coll := y.coll.map fun x => if x.order = order then f x else x }

/-- The collective in hand of a die: the first whose context is not stopped for a save (R310, R364). -/
def State.collInHand (s : State) (d : Nat) : Option Collective := (s.die d).coll.find? fun x => !s.jobsStop x.ctx

/-- A row of the collective engine of a die for the collective with an order, some free time from now: y = 0 works on it, y = 1 ends it. -/
def State.collectiveSoon (s : State) (d order : Nat) (y : Nat := 0) : State := s.soon .collectiveComplete d order y

/-- The collective in hand of a die has its turn. -/
def State.nextCollective (s : State) (d : Nat) : State := match s.collInHand d with
  | some x => s.collectiveSoon d x.order
  | none => s

/-- A collective's record written, and the collective gone; none while its ring is full. -/
def State.recordCollective (s : State) (d : Nat) (x : Collective) (status fault bytes p : Nat) : Option State :=
  let w0 := status + fault * 2 ^ 8 + 63 * 2 ^ 16 + d * 2 ^ 22 + 0xFF * 2 ^ 32 + recBits x.words 0 63 32 % 2 ^ 24 * 2 ^ 40
  (s.writeRecord x.ctx (recBits x.words 7 3 0) w0 (bytes % 2 ^ 48) p true).map fun s =>
    (s.updDie d fun y => { y with coll := y.coll.filter (fun z => z.order != x.order), past := some x }).nextCollective d

/-- A collective with its root known ends (R364): the hash written and chained into thash of the running kernel, the output, the absent pairs of a top-k
skipped (R370), the flags, the record. -/
def State.endCollective (s : State) (d : Nat) (x : Collective) (root : List Nat) (fl : FlagSet) : Option State :=
  let w := x.words
  let pairs := root.filter (· != 2 ^ 64 - 1)
  let vs := if recBits w 0 1 0 = 3 then pairs ++ List.replicate (recBits w 0 12 6 - pairs.length) (2 ^ 64 - 1) else root
  let bs := vs.flatMap (natBytes (collectiveWidth w))
  let s := (s.sysWrite x.ctx 2 (x.addr + 48) (natBytes 8 x.hash)).1
  let s := { s with kernels := s.kernels.map fun (k : Nat × Kernel) => (k.1, if k.2.ctx = x.ctx then { k.2 with thash := chainHash k.2.thash x.hash } else k.2) }
  let s := (s.sysWrite x.ctx 2 (recBits w 4 56 0) bs).1
  let flags := (recBits w 7 9 4) ||| (fl ||| x.flags).toNat
  let s := (s.sysWrite x.ctx 2 (x.addr + 56) (natBytes 8 (setField (recWord w 7) 4 6 flags))).1
  s.recordCollective d x 1 0 bs.length (recBits w 1 40 24)

/-- The transfers that write a collective's output, its words 6 and 7, and its record. -/
def State.collectiveOut (s : State) (x : Collective) (output : Bool) : Needs :=
  (if output then s.sysNeeds x.ctx (recBits x.words 4 56 0) (collectiveBytes x.words) true ++ s.sysNeeds x.ctx (x.addr + 48) 16 true else []) ++
    s.ringNeeds x.ctx (recBits x.words 7 3 0)

/-- The shards that a member with a rank holds, by a shard map. -/
def ownShards (rank : Nat) (ranks : List Nat) : List Nat := ((List.zipIdx ranks).filter fun p => p.1 == rank).map Prod.snd

/-- The shard map in memory. -/
def State.shardMap (s : State) (x : Collective) : State × Except Nat (List Nat) :=
  match s.sysRead x.ctx 2 (recBits x.words 2 56 0) (2 * recBits x.words 1 40 24) with
  | (s, .ok bs) => (s, .ok (elemsOf 2 bs))
  | (s, .error e) => (s, .error e)

/-- The bytes of a shard (R362). -/
def shardBytes (w : List Word) : Nat := recBits w 1 23 0 * collectiveWidth w

/-- The transfers that read a collective's tree, its map and its own shards. -/
def State.collectiveIn (s : State) (x : Collective) : Needs :=
  let w := x.words
  s.sysNeeds x.ctx (recBits w 5 56 0) (8 * (2 * recBits w 1 40 24 - 1)) false ++ s.sysNeeds x.ctx (recBits w 2 56 0) (2 * recBits w 1 40 24) false ++
    (match (s.shardMap x).2 with
      | .ok ranks => (ownShards (s.ctx x.ctx).gangRank ranks).flatMap fun k => s.sysNeeds x.ctx (recBits w 3 56 0 + k * shardBytes w) (shardBytes w) false
      | .error _ => [])

/-- The shards of a member read, each in a grain of kind 0 or 5; none where one cannot be read. -/
def State.readShards (s : State) (x : Collective) : List Nat → State × Option (Map (List Word))
  | [] => (s, some [])
  | k :: r =>
    let a := recBits x.words 3 56 0 + k * shardBytes x.words
    if !(s.ctx x.ctx).dataIn a (shardBytes x.words) then (s, none)
    else match s.sysRead x.ctx 2 a (shardBytes x.words) with
      | (s, .error _) => (s, none)
      | (s, .ok bs) => match s.readShards x r with
        | (s, none) => (s, none)
        | (s, some m) => (s, some (mapPut m k ((elemsOf (collectiveWidth x.words) bs).map (BitVec.ofNat 64))))

/-- A collective reads its tree, its map and its shards; what is at fault in them makes it a failed one (R364). -/
def State.readCollective (s : State) (d : Nat) (x : Collective) : State :=
  let fail := fun (s : State) => s.updColl d x.order fun y => { y with failed := true }
  match s.sysRead x.ctx 2 (recBits x.words 5 56 0) (8 * (2 * recBits x.words 1 40 24 - 1)) with
  | (s, .error _) => fail s
  | (s, .ok tree) => match s.shardMap x with
    | (s, .error _) => fail s
    | (s, .ok ranks) => match s.readShards x (ownShards (s.ctx x.ctx).gangRank ranks) with
      | (s, none) => fail s
      | (s, some leaves) =>
        if !treeOk (recBits x.words 1 40 24) (elemsOf 8 tree) then fail s
        else s.updColl d x.order fun y => { y with hasRead := true, tree := wordsOf tree, ranks := ranks, leaves := leaves }

/-- A member at fault tells its peers (R364), and ends. -/
def State.failCollective (s : State) (d : Nat) (x : Collective) : State :=
  ((s.updColl d x.order fun y => { y with failed := true }).sendReserved d (.hash x.num (s.ctx x.ctx).gangRank none false)).collectiveSoon d x.order 1

/-- The nodes of a collective whose values a member knows and its peers need, which it has not sent (R363). -/
def Collective.toSend (x : Collective) (rank size : Nat) : List Nat :=
  let nodes := x.tree.map BitVec.toNat
  let vs := (x.nodeValues nodes [] 0).1
  let hs := holdersOf x.ranks nodes []
  (List.range nodes.length).filter fun n =>
    (vs[n]?).join.isSome && !x.sent.contains n && (hs.getD n []).contains rank && peerNeeds size rank nodes hs n

/-- A member's tree hash, where it is still to be sent, and the values of nodes, sent to its peers (R363, R364). -/
def State.sendColl (s : State) (d : Nat) (x : Collective) (send : List Nat) (again : Bool) : State :=
  let c := s.ctx x.ctx
  let (vs, fl) := x.nodeValues (x.tree.map BitVec.toNat) [] 0
  let s := if x.sent.contains (2 ^ 17 - 1) ∨ c.gangSize = 1 then s else s.sendReserved d (.hash x.num c.gangRank (some (BitVec.ofNat 64 x.hash)) again)
  send.foldl (fun (s : State) n => s.sendReserved d (.node x.num n (((vs[n]?).join.getD []).map (BitVec.ofNat 64)) (fl ||| x.flags))) s

/-- A flit of a peer for a collective: the hash of a member, by its rank, or the value of a node. -/
def Collective.hear (x : Collective) (node : Nat) (value : List Word) (flags : BitVec 6) : Collective :=
  if node = 2 ^ 17 - 1 then { x with hashes := mapPut x.hashes (value.headD 0).toNat value[1]? }
  else { x with values := mapPut x.values node value, flags := x.flags ||| flags }

/-- A member's hash that has come before and is not part of a replay asks for one: the member has been released, and has missed what its peers sent (R364). -/
def Collective.asksReplay (x : Collective) (node : Nat) (value : List Word) (flags : BitVec 6) : Bool :=
  node == 2 ^ 17 - 1 && !flags.getLsbD 0 && (mapFind x.hashes (value.headD 0).toNat).isSome

/-- What a member has sent for a collective sent again (R364). -/
def State.replayColl (s : State) (d : Nat) (x : Collective) : State :=
  let y := { x with sent := [] }
  s.sendColl d y (y.toSend (s.ctx x.ctx).gangRank (s.ctx x.ctx).gangSize) true

/-- A collective works with what it knows (R363, R364): it sends its peers its tree hash, once, and the node values that they need, and comes to its end when
every other member's hash agrees and the root is known; a member whose hash differs, or that is at fault, makes it fail. -/
def State.workCollective (s : State) (d : Nat) (x : Collective) : State :=
  let rank := (s.ctx x.ctx).gangRank
  let size := (s.ctx x.ctx).gangSize
  let send := x.toSend rank size
  let s := (s.sendColl d x send false).updColl d x.order fun y =>
    { y with sent := y.sent ++ send ++ if y.sent.contains (2 ^ 17 - 1) then [] else [2 ^ 17 - 1] }
  let others := (List.range size).filter (· != rank)
  if x.hashes.any fun h => h.2 != some (BitVec.ofNat 64 x.hash) then s.failCollective d x
  else if (x.nodeValues (x.tree.map BitVec.toNat) [] 0).1.getLast?.join.isSome && others.all fun r => (mapFind x.hashes r).isSome then s.collectiveSoon d x.order 1
  else s

/-- COLLECTIVE_START (R362): the request block at the address that x holds, of context y, from a tile of the die that the engine is on; the address is the
flit's first 16 bytes, whose bits from 57 on are zero. What peers have sent for it before is heard. -/
def execCollectiveStart (s : State) : Host.Outcome State Fault Refusal :=
  .next (
    let d := dieOf s.ev.tile
    let c := s.ev.y
    let a := field s.ev.x 56 0
    let bad := s.ev.x != a || (s.ctx c).grainKind a != some 2
    s.served 4 .collectiveStart (s.sysNeeds c a 64 false) fun s =>
      let (s, w) := match s.sysRead c 2 a 64 with
        | (s, .ok bs) => (s, wordsOf bs)
        | (s, .error _) => (s, [])
      let pos := d - (s.ctx c).die0
      let num := mapGet 0 (s.ctx c).begun pos
      let x : Collective := { ctx := c, addr := a, words := w, failed := bad || w.isEmpty || !crbOk (s.ctx c) w, order := s.free, num := num }
      let x := ((s.die d).early.filter fun f => f.1 / 2 ^ 17 == num).foldl (fun x f => x.hear (f.1 % 2 ^ 17) f.2.1 f.2.2) x
      let first := (s.collInHand d).isNone
      let s := (s.tickFree.updDie d fun y => { y with coll := y.coll ++ [x], early := y.early.filter fun f => f.1 / 2 ^ 17 != num }).updCtx c fun y =>
        { y with begun := mapSet 0 y.begun pos (num + 1) }
      if first then s.collectiveSoon d x.order else s)

/-- The entries of a link table, four words each (R355). -/
def linkEntries (ws : List Word) : List (List Word) := (List.range (ws.length / 4)).map fun i => (ws.drop (4 * i)).take 4

/-- COLLECTIVE_NODE_VALUE (R363, R364): what a peer sends on a reserved channel for the collective of a die with the number node / 2^17 among those of its
context: a node's value with its flags, or, as node 131,071, which is no node's number, a member's rank and its tree hash, no hash of a member at fault, the
lowest flag set in a replay; or, as node 131,071 with more than two words, a member's rank and its link table (R356; log 81). A member that asks for a
replay gets it, of the last collective that ended too; what comes before its collective begins is kept for it. -/
def execCollectiveNodeValue (d node : Nat) (value : List Word) (flags : BitVec 6) (s : State) : Host.Outcome State Fault Refusal :=
  .next (s.hearReserved d fun s =>
    let n := node % 2 ^ 17
    let early := fun (s : State) => s.updDie d fun y => { y with early := y.early ++ [(node, value, flags)] }
    if n = 2 ^ 17 - 1 ∧ 2 < value.length then
      s.updDie d fun y => { y with peers := mapPut y.peers (value.headD 0).toNat (linkEntries value.tail) }
    else match (s.die d).coll.find? fun x => x.num == node / 2 ^ 17 with
      | some x =>
        let s := if x.asksReplay n value flags then s.replayColl d x else s
        (s.updColl d x.order fun x => x.hear n value flags).collectiveSoon d x.order
      | none => match (s.die d).past with
        | some x => if x.num ≠ node / 2 ^ 17 then early s else if x.asksReplay n value flags then s.replayColl d x else s
        | none => early s)

/-- COLLECTIVE_COMPLETE (R364): the collective in hand of the event's die, with order x. y = 0: it reads what it needs, and works with what it knows. y = 1:
it ends, one at fault with fault 5 and no output, one of a destroyed context as its jobs do (R310). -/
def execCollectiveComplete (s : State) : Host.Outcome State Fault Refusal :=
  .next (
    let d := s.ev.tile
    match s.collInHand d with
    | none => s
    | some x =>
      let again := fun (s : State) => s.collectiveSoon d x.order s.ev.y
      let ends := fun (s : State) (o : Option State) => match o with
        | some t => t
        | none => again s
      if x.order ≠ s.ev.x then s
      else if s.ev.y = 1 then
        if s.ev.grant = .fresh ∧ (s.ringNow x.ctx (recBits x.words 7 3 0)).2.full then again s
        else s.served 4 .collectiveComplete (s.collectiveOut x (!x.failed && !x.aborted)) fun s =>
          if x.aborted then ends s (s.recordCollective d x 4 8 0 0)
          else if x.failed then ends s (s.recordCollective d x 2 5 0 0)
          else
            let (vs, fl) := x.nodeValues (x.tree.map BitVec.toNat) [] 0
            ends s (s.endCollective d x (vs.getLast?.join.getD []) fl)
      else if x.aborted then s.collectiveSoon d x.order 1
      else if x.failed then s.failCollective d x
      else if x.hasRead then s.workCollective d x
      else if s.ev.grant = .fresh ∧ s.earlierMeets x.ctx x.order ((s.ctx x.ctx).collectiveFootprint x.words) then again s
      else s.served 4 .collectiveComplete (s.collectiveIn x) fun s => (s.readCollective d x).collectiveSoon d x.order)

/-! ## The host (R365 to R368) -/

/-- What a host access names (R366): bytes of a grain, or a slot of an object's brick; none where it is not permitted. -/
inductive HostPlace where
  | grain (c addr : Nat)
  | slot (tile : TileId) (bank page slot : Nat)
deriving DecidableEq, Repr

/-- The place of a host access at offset o of the window (R366); a PCIe-only host has no device memory (R368). -/
def State.hostPlace (s : State) (o : Nat) (write : Bool) : Option HostPlace :=
  match s.hostCtx, s.host.mode with
  | none, _ => none
  | _, .pcie => none
  | some c, _ =>
    let ctx := s.ctx c
    if o < 2 ^ 42 then match ctx.grain o with
      | some g => if g.kind = 5 ∧ g.hv ∧ g.covers o 64 ∧ (if write then g.wr else g.rd) then some (.grain c o) else none
      | none => none
    else
      let r := ctx.record (field o 41 26)
      let g := field o 25 0 / 2048
      let b := ctx.brick r g
      let page := ctx.brickPage r (field o 41 26) b
      if (recState r == 1 || recState r == 2) && bitOf (recWord r 0) 38 && recProt r == 0 && decide (field o 41 26 < ctx.objLen) &&
          decide (g ≤ gMax r false) && (s.tile b.tile).residency b.bank page == 0 then
        some (.slot b.tile b.bank page (field o 25 0 % 2048 / 64))
      else none

/-- The tile that a place is above. -/
def State.placeTile (s : State) : HostPlace → TileId
  | .slot t _ _ _ => t
  | .grain c a => match (s.ctx c).grain a with
    | some g => (s.ctx c).grainTile g
    | none => 0

/-- The transfers of a host access to a place (R366). -/
def State.hostNeeds (s : State) (write : Bool) : HostPlace → Needs
  | .slot t b _ _ => [(t, b, 1)]
  | .grain c a => s.sysNeeds c a 64 write

/-- A refused host access counted (R366, R369). -/
def State.hostRefused (s : State) : State := { s with host := { s.host with refused := min (s.host.refused + 1) (2 ^ 32 - 1) } }
/-- A host read answered. -/
def State.hostReply (s : State) (o : Nat) (line : BitVec 512) (poison : Bool) : State :=
  { s with host := { s.host with replies := s.host.replies ++ [{ o := o, line := line, poison := poison }] } }

/-- A permitted access served (R366). -/
def State.hostServe (s : State) (p : HostPlace) (x : HostAccess) : State :=
  let bs := natBytes 64 x.line.toNat
  if x.write then
    match p with
    | .grain c a => (s.sysWrite c 3 a bs).1
    | .slot t b pg k => (s.agentWrite t 3 b pg 0 k bs).1
  else match (match p with
    | .grain c a => s.sysRead c 3 a 64
    | .slot t b pg k => s.agentRead t 3 b pg 0 k) with
    | (s, .ok d) => s.hostReply x.o (BitVec.ofNat 512 (bytesNat d)) false
    | (s, .error _) => s.hostRefused.hostReply x.o 0 true

/-- A host-service hold ends when every access that waited at its start has been served (R323). -/
def State.hostHoldsEnd (s : State) : State :=
  s.kernels.foldl (fun (s : State) (k : Nat × Kernel) =>
    if k.2.holds.contains 7 && !(s.host.waiting.any fun x => match s.hostPlace x.o x.write with
      | some p => (s.kernelOf (s.placeTile p)).map Prod.fst == some k.1 && decide (x.since ≤ k.2.hostFrom.getD 0)
      | none => false) then s.endHold k.1 7 else s) s

/-- A host access (R366): when it comes it waits, for at most 50 µs without a hold (R323), until the host agent has its transfer; then it is served. One that
is not permitted is refused at once. y holds the wall time at which it came, plus one. -/
def State.hostAccess (s : State) (i : Instr) (write : Bool) (o : Nat) (line : BitVec 512) : State :=
  let o := o / 64 * 64
  let x : HostAccess := { write := write, o := o, line := line, since := if s.ev.grant = .fresh then s.wall else s.ev.y - 1 }
  match s.hostPlace o write with
  | none =>
    let s := ({ s with host := { s.host with waiting := s.host.waiting.erase x } } : State)
    (if write then s.hostRefused else s.hostRefused.hostReply o 0 true).hostHoldsEnd
  | some p =>
    let s := if s.ev.grant = .fresh then
      ({ s with ev := { s.ev with y := s.wall + 1 }, host := { s.host with waiting := s.host.waiting ++ [x] } } : State).at (s.wall + nsUnits 50000)
        { i := .hostServiceTimeout, arg := { x := o, y := s.wall } } else s
    s.served 5 i (s.hostNeeds write p) fun s =>
      (({ s with host := { s.host with waiting := s.host.waiting.erase x } } : State).hostServe p x).hostHoldsEnd

/-- HOST_MEM_READ (R366). -/
def execHostMemRead (o : Nat) (s : State) : Host.Outcome State Fault Refusal := .next (s.hostAccess (.hostMemRead o) false o 0)
/-- HOST_MEM_WRITE (R366). -/
def execHostMemWrite (o : Nat) (line : BitVec 512) (s : State) : Host.Outcome State Fault Refusal :=
  .next (s.hostAccess (.hostMemWrite o line) true o line)

/-- HOST_SERVICE_TIMEOUT (R323): the access at offset x that came at wall time y still waits after 50 µs: its partition holds, and one that already holds
for host service does so for the accesses that wait now. -/
def execHostServiceTimeout (s : State) : Host.Outcome State Fault Refusal :=
  .next (match s.host.waiting.find? fun a => a.o == s.ev.x && a.since == s.ev.y with
    | none => s
    | some a => match s.hostPlace a.o a.write with
      | none => s
      | some p => match s.kernelOf (s.placeTile p) with
        | some (n, k) => if k.holds.contains 7 then s.updKernel n fun k => { k with hostFrom := some s.wall } else s.beginHold n 7
        | none => s)

/-- HOST_APERTURE_START (R303, R368): an 8-byte write to the aperture window of the host context; another width or a bad offset is discarded. -/
def execHostApertureStart (o width : Nat) (data : Word) (s : State) : Host.Outcome State Fault Refusal :=
  .next (match s.hostCtx with
    | some c =>
      if width = 8 ∧ o % 8 = 0 ∧ o / 4096 = 0 then s.outerStart true c (field o 11 9) (field o 8 3) data
      else { s with host := { s.host with discarded := min (s.host.discarded + 1) (2 ^ 32 - 1) } }
    | none => { s with host := { s.host with discarded := min (s.host.discarded + 1) (2 ^ 32 - 1) } })

/-- HOST_SNOOP (R365): every snoop is answered RspIHitI. -/
def execHostSnoop (_addr : Nat) (s : State) : Host.Outcome State Fault Refusal :=
  .next { s with host := { s.host with snoops := s.host.snoops + 1 } }

end Sys2Proof.Machine
end

