-- ==== Sys2Proof/Machine/Images.lean ====
section
/-!
DEFINITION. Machine/Images.lean: kernel images, what their fields say, and the tiles that they launch (R179, R225, R249, R250, R312, R313, R315, R319, R320).
-/

namespace Sys2Proof.Machine

/-! ## Images (R312, R313) -/

/-- n bytes of an image from an offset on, little-endian. -/
def le (img : List Byte) (o n : Nat) : Nat := bytesNat ((img.drop o).take n)

/-- n bytes of an image are zero. -/
def zeros (img : List Byte) (o n : Nat) : Bool := ((img.drop o).take n).all (· == 0)

/-- A tile directory entry (R313): dictionary size, segment counts, offset and length of the section. -/
structure DirEntry where
  d    : Nat
  segs : List Nat
  off  : Nat
  len  : Nat
  ok   : Bool
deriving DecidableEq, Repr

/-- The directory entry at an offset. -/
def dirEntry (img : List Byte) (o : Nat) : DirEntry :=
  { d := le img o 2, segs := (List.range 4).map fun v => le img (o + 4 + 2 * v) 2, off := le img (o + 16) 8, len := le img (o + 24) 8
    ok := zeros img (o + 2) 2 && zeros img (o + 12) 4 && zeros img (o + 32) 32 }

/-- Tiles of a shape that an image names; none where the shape is refused (R312). -/
def imageTiles (hdr : List Byte) : Nat := if le hdr 7 1 < 4 then 256 * shapeDies (le hdr 7 1) else 0

/-- The directory of an image. -/
def directory (img : List Byte) (tiles at0 : Nat) : List DirEntry := (List.range tiles).map fun p => dirEntry img (at0 + 64 * p)

/-- The directory of an image that has been read. -/
def imageDir (img : List Byte) : List DirEntry := directory img (imageTiles img) (le img 0x100 8)

/-- The end of an image: that of the last part that its header and its directory name (log 18). -/
def imageEnd (hdr : List Byte) (dir : List DirEntry) : Nat :=
  maxOf (maxOf 0x1000 [le hdr 0x100 8 + 64 * dir.length, le hdr 0x108 8 + 128 * le hdr 0x110 4, le hdr 0x118 8 + 16 * le hdr 0x114 4,
    le hdr 0x120 8 + 32 * le hdr 0x128 4]) (dir.map fun e => e.off + e.len)

/-- What the loader keeps of a header (R312, R315, R355). -/
def imageInfo (img : List Byte) (addr : Nat) : ImageInfo :=
  { addr := addr, portable := bitOf (le img 6 1) 0, priv := bitOf (le img 6 1) 1, shape := le img 7 1, svcf := le img 0x18 1
    vmask := le img 0x19 1, nrpl := le img 0x1A 2, yint := (List.range 4).map fun v => le img (0x20 + 4 * v) 4, sbmask := le img 0x30 16
    trwin := (List.range 16).map fun i => (le img (0x40 + 8 * i) 4, le img (0x44 + 8 * i) 4)
    plat := (List.range 16).map fun i => le img (0xC0 + 2 * i) 2
    links := (List.range (le img 0x128 4)).map fun i => wordsOf ((img.drop (le img 0x120 8 + 32 * i)).take 32) }

/-- The image of a launch read from memory by the loader: its bytes, and its directory; none where it cannot be read. -/
def State.readImage (s : State) (c addr : Nat) : State × Option (List Byte × List DirEntry) :=
  let kind3 := match (s.ctx c).grain addr with
    | some g => g.kind == 3
    | none => false
  match s.sysRead c 1 addr 0x1000 with
  | (s, .error _) => (s, none)
  | (s, .ok hdr) =>
    let n := imageTiles hdr
    match s.sysRead c 1 (addr + le hdr 0x100 8) (64 * n) with
    | (s, .error _) => (s, none)
    | (s, .ok d) =>
      let dir := directory d n 0
      match s.sysRead c 1 addr (imageEnd hdr dir) with
      | (s, .error _) => (s, none)
      | (s, .ok img) => (s, if kind3 then some (img, dir) else none)

/-! ## The loader's checks (R314, R318) -/


/-- An entry of the cistern launch list: byte address, die of the partition, value; none where it is refused (R312). -/
def cisternEntry (img : List Byte) (o dies : Nat) : Option (Nat × Nat × Nat) :=
  let a := le img o 2
  let d := le img (o + 2) 1
  if a < 2 ^ 15 ∧ a % 8 = 0 ∧ d < 8 ∧ d < dies ∧ zeros img (o + 3) 5 then some (a, d, le img (o + 8) 8) else none

/-- The cistern launch list. -/
def cisternList (img : List Byte) : List (Option (Nat × Nat × Nat)) :=
  (List.range (le img 0x114 4)).map fun i => cisternEntry img (le img 0x118 8 + 16 * i) (shapeDies (le img 7 1))

/-- The staging extents of a section (R313), n of them: the staging they give, and the offset past them. -/
def extents (img : List Byte) : Nat → Nat → Mem → Nat × Mem
  | 0, o, m => (o, m)
  | n + 1, o, m =>
    let h := le img o 8
    let len := field h 36 18
    extents img n (o + 8 + (len + 7) / 8 * 8) (stagingPut m (field h 17 0) ((img.drop (o + 8)).take len))

/-- The offset of the pin list of a section; after it stand the formats, the scalar and the vector registers, and the handler (R313). -/
def DirEntry.pinsAt (e : DirEntry) : Nat := e.off + 48 * e.d
/-- The offset of the handler of a section. -/
def DirEntry.handlerAt (e : DirEntry) : Nat := e.pinsAt + 64 + 144 + 512 + 8196
/-- The staging launch data of a section, and the offset of its segment table. -/
def DirEntry.launchData (e : DirEntry) (img : List Byte) : Nat × Mem :=
  let p := e.handlerAt + 8 + 48 * le img e.handlerAt 8
  extents img (le img p 8) (p + 8) []

/-- A section has a segment table for a variant (R36, R313). -/
def DirEntry.table (e : DirEntry) (v : Nat) : Bool := e.segs.getD v 0 != 0
/-- Entries of the segment table that a variant has: its segments, or, of a variant with count 0, which has no segment table (R36), one entry that gives the
place and the length of its one stream, which the spec puts nowhere else (DESIGN CHOICE, log 89). -/
def segEntries (e : DirEntry) (vmask v : Nat) : Nat := if bitOf vmask v then max (e.segs.getD v 0) 1 else 0
/-- The segments of a section, in the order of its table: variant and number. -/
def DirEntry.allSegs (e : DirEntry) (vmask : Nat) : List (Nat × Nat) :=
  (List.range 4).flatMap fun v => (List.range (segEntries e vmask v)).map fun k => (v, k)

/-- The offset of the replan table of a section (R313). -/
def DirEntry.replanAt (e : DirEntry) (img : List Byte) (vmask : Nat) : Nat := (e.launchData img).1 + 16 * (e.allSegs vmask).length
/-- The variants present. -/
def variantsOf (vmask : Nat) : List Nat := (List.range 4).filter (bitOf vmask)
/-- The last words of the replan table's entries for replan point i, one for each variant present (R322). -/
def DirEntry.depthWords (e : DirEntry) (img : List Byte) (vmask i : Nat) : List Nat :=
  let n := (variantsOf vmask).length
  (List.range n).map fun v => le img (e.replanAt img vmask + 32 * (i * n + v) + 28) 4

/-- The reserved fields of a section are zero: those of its segment table and of its replan table. A handler fits its memory (R38, R313). -/
def sectionOk (img : List Byte) (e : DirEntry) : Bool :=
  let vmask := le img 0x19 1
  decide (le img e.handlerAt 8 ≤ 341) &&
    ((List.range (e.allSegs vmask).length).all fun i => zeros img ((e.launchData img).1 + 16 * i + 12) 4) &&
    (List.range (le img 0x1A 2)).all fun i => (e.depthWords img vmask i).all fun w => decide (w < 8)

/-- Reserved fields of the link table are zero (R355). -/
def linksOk (img : List Byte) : Bool :=
  (List.range (le img 0x128 4)).all fun i =>
    let o := le img 0x120 8 + 32 * i
    field (le img o 8) 63 47 == 0 && zeros img (o + 12) 4 && zeros img (o + 28) 4

/-- Reserved fields are zero and counts in range, variant 0 is present, and magic, version and digest hold (R312, R318 reason 1; log 14). -/
def headerOk (img : List Byte) (dir : List DirEntry) : Bool :=
  le img 0 4 == 0x4F484B49 && le img 4 2 == 1 && field (le img 6 1) 7 2 == 0 && field (le img 0x19 1) 7 4 == 0 && bitOf (le img 0x19 1) 0 &&
    zeros img 0x1E 2 && zeros img 0xE0 32 && zeros img 0x12C 3764 && decide (le img 0x110 4 ≤ 65536) && linksOk img &&
    (img.drop 0xFE0).take 32 == digestBytes (sha256 (img.drop 0x1000)) && dir.all fun e => e.ok && sectionOk img e

/-- Dictionary and segment sizes (R32, R36; check 11), of a section within the image. -/
def sizesOk (img : List Byte) (e : DirEntry) : Bool :=
  decide (1 ≤ e.d) && decide (e.d ≤ 4096) && decide (e.off + e.len ≤ img.length) &&
    (List.zipIdx (e.allSegs (le img 0x19 1))).all fun x =>
      decide (le img ((e.launchData img).1 + 16 * x.2 + 8) 4 ≤ if e.table x.1.1 then 16384 else 32768)

/-- Cycles in 100 µs at the clock of a variant (R4, R318). -/
def yieldLimit (v : Nat) : Nat := if v = 3 then 97500 else 130000

/-- What the fields of an image decide of a schedule check (R30, R180, R193, R318, R322): it fails. -/
def fieldsFail (img : List Byte) (dir : List DirEntry) (n : Nat) : Bool :=
  let vmask := le img 0x19 1
  let vs := variantsOf vmask
  match n with
  | 1 => le img 0x18 1 == 0 || decide (32 < le img 0x18 1)
  | 2 => vs.any fun v => (List.range 4).any fun q => decide ((if v = 3 then 975000 else 1300000) < le img (0x44 + 32 * v + 8 * q) 4)
  | 4 => decide (4096 < le img 0x1A 2) || dir.any fun e => (List.range (le img 0x1A 2)).any fun i =>
      let w := e.depthWords img vmask i
      w.any (· != w.headD 0)
  | 5 => vs.any fun v => decide (yieldLimit v < le img (0x20 + 4 * v) 4)
  | 11 => !dir.all (sizesOk img)
  | 12 => (cisternList img).any Option.isNone
  | _ => false

/-! ## A tile at launch (R179, R225, R249, R250, R313, R319, R320) -/

/-- What a tile section gives a tile. -/
structure TileImage where
  imem    : IMem
  pins    : List Nat
  efr     : Nat
  ftsr    : Nat
  ft      : List Nat
  sregs   : List (Nat × Nat)
  vregs   : List (Nat × Nat)
  staging : Mem
deriving DecidableEq, Repr

/-- The segments of the variants, from entry i of the table on. -/
def segmentMap (img : List Byte) (base table : Nat) : List (Nat × Nat) → Nat → Map (List (BitVec 16)) → Map (List (BitVec 16))
  | [], _, m => m
  | (v, k) :: rest, i, m =>
    let off := le img (table + 16 * i) 8
    let len := le img (table + 16 * i + 8) 4
    segmentMap img base table rest (i + 1) (mapPut m (v * 65536 + k) ((List.range len).map fun j => BitVec.ofNat 16 (le img (base + off + 2 * j) 2)))

/-- A tile section (R313). -/
def tileSection (img : List Byte) (e : DirEntry) (vmask nrpl : Nat) : TileImage :=
  let p1 := e.pinsAt
  let p2 := p1 + 64
  let p3 := p2 + 144
  let p4 := p3 + 512
  let p5 := e.handlerAt
  let (p7, staging) := e.launchData img
  let segs := e.allSegs vmask
  let p8 := p7 + 16 * segs.length
  let vars := (variantsOf vmask).length
  let bundles := fun (o n : Nat) => (List.range n).map fun i => BitVec.ofNat 384 (le img (o + 48 * i) 48)
  { imem := { dict := bundles e.off e.d, table := e.table 0, nseg := e.segs, segs := segmentMap img e.off p7 segs 0 []
              win := if e.table 0 then (if 1 < e.segs.getD 0 0 then [(0, 0), (1, 1)] else [(0, 0)]) else []
              handlers := bundles (p5 + 8) (le img p5 8)
              replans := (List.range nrpl).map fun i => (List.range vars).map fun v => (List.range 8).map fun j => le img (p8 + 32 * (i * vars + v) + 4 * j) 4 }
    pins := (List.range 16).map fun k => le img (p1 + 4 * k) 4
    efr := le img p2 8, ftsr := le img (p2 + 8) 8, ft := (List.range 16).map fun k => le img (p2 + 16 + 8 * k) 8
    sregs := ((List.range 63).filter fun i => bitOf (le img p3 8) (i + 1)).map fun i => (i + 1, le img (p3 + 8 + 8 * i) 8)
    vregs := ((List.range 32).filter fun n => bitOf (le img p4 4) n).map fun n => (n, le img (p4 + 4 + 256 * n) 256)
    staging := staging }

/-- A membership register (R250). -/
def memberWord (dom idx count : Nat) : Word := BitVec.ofNat 64 (idx % 2 ^ 24 + (count - 1) % 2 ^ 24 * 2 ^ 24 + dom % 2 ^ 16 * 2 ^ 48)

/-- mbr0 to mbr3 of a tile of a context's partition (R249). -/
def Context.membership (c : Context) (pkg die0 : Nat) (t : TileId) : Map Word :=
  let x := tileX t
  let y := tileY t
  let tiles := 256 * shapeDies c.shape
  let pos := posOfTile die0 c.shape t
  let d := c.descWord 8
  let on := bitOf d 43
  let rank := if on then field d 28 16 else 0
  let size := if on then field d 42 29 else 1
  [(0, memberWord (y / 4 * 16 + x / 4) (y % 4 * 4 + x % 4) 16), (1, memberWord (dieOf t) (y % 16 * 16 + x % 16) 256),
   (2, memberWord pkg pos tiles), (3, memberWord (if on then field d 15 0 else 0) (rank * tiles + pos) (size * tiles))].foldl
    (fun m e => mapSet 0 m e.1 e.2) []

/-- The vault of a tile at launch or restore (R179, R320): every bank idle with a deadline, no recorded time, both logs empty; what describes the
vault's hardware and its contents kept, and the management controller's copies of the logs. The spec does not say when the first retraining of a
kernel falls due: the model counts its 2 ms from the launch or restore (R194, log 77). -/
def Vault.launched (v : Vault) (deadline : Nat) (wall : Nat) : Vault :=
  { pages := v.pages, resid := v.resid, vinj := v.vinj, spare := v.spare, failed := v.failed, nature := v.nature, agentBusy := v.agentBusy, work := v.work.map fun w => { w with slots := 0 }, touched := v.touched
    keptArray := v.keptArray, keptBus := v.keptBus
    banks := (List.range 128).map fun b => (b, { deadline := deadline : Bank })
    lastTrain := (List.range 4).map fun q => (q, wall) }

/-- A numbered list of 64-bit values as a map. -/
def wordMap (l : List (Nat × Nat)) : Map Word := l.foldl (fun m e => mapSet 0 m e.1 (BitVec.ofNat 64 e.2)) []

/-- The tile at launch (R319, R320): the image's state, the launch values of the rest; the base row is active, as no loop stands (R92). What the spec leaves undefined until the first trap reads as
at reset (log 2). -/
def TileImage.tile (x : TileImage) (old : Tile) (mbr : Map Word) (oh : Map OhEntry) (deadline wall : Nat) : Tile :=
  let t : Tile := {
    flow := { st := .ready, seq := old.flow.seq }
    regs := { s := wordMap x.sregs, v := x.vregs.foldl (fun m e => mapSet 0 m e.1 (BitVec.ofNat 2048 e.2)) [] }
    fmts := ({ efr := efrKept x.efr, ft := wordMap ((List.range 16).map fun k => (k, (rowKept (x.ft.getD k 0)).toNat)) } : Formats).withSelection
      (field x.ftsr 3 0) (field x.ftsr 6 4) (field x.ftsr 3 0)
    sys := { mbr := mbr }
    imem := x.imem, staging := x.staging, oh := oh, vault := old.vault.launched deadline wall }
  { t with flow := { t.flow with due := t.escapedAt 0 {} } }

/-! ## The object list and the launch pins (R200, R313, R319) -/

/-- The records of an image's object list. -/
def objectList (img : List Byte) : List (List Word) :=
  (List.range (le img 0x110 4)).map fun i => wordsOf ((img.drop (le img 0x108 8 + 128 * i)).take 128)

/-- The object list can be installed (R318, reason 7). -/
def Context.canInstall (c : Context) (l : List (List Word)) : Bool :=
  l.all fun r => decide (recBits r 0 15 0 < c.objLen) && recState (c.record (recBits r 0 15 0)) == 0

/-- The launch pins of a tile of context n (R200, R313). -/
def State.launchPins (s : State) (n : Nat) (t : TileId) (x : TileImage) : State × Map OhEntry :=
  (List.zipIdx x.pins).foldl (fun (m : State × Map OhEntry) p =>
    if p.1 = 0xFFFFFFFF then m
    else
      let q := m.1.pin n t (256 * shapeDies (s.ctx n).shape) p.1 (nibOf (BitVec.ofNat 64 x.efr))
      (q.1, mapSet {} m.2 p.2 q.2)) (s, [])

/-- The launch pins of tiles, in their order. -/
def State.allPins (s : State) (n : Nat) : List (TileId × TileImage) → State × List (Map OhEntry)
  | [] => (s, [])
  | x :: r =>
    let p := s.launchPins n x.1 x.2
    let q := p.1.allPins n r
    (q.1, p.2 :: q.2)

/-- The lowest partition position with a launch pin that failed (R318, reason 8). -/
def badPin (pins : List (Map OhEntry)) : Option Nat := pins.findIdx? fun m => m.any fun e => e.2.est == 2

/-- The tile images of an image, by tile of a partition. -/
def tileImages (die0 shape : Nat) (info : ImageInfo) (img : List Byte) (dir : List DirEntry) : List (TileId × TileImage) :=
  (partTiles die0 shape).zip (dir.map fun e => tileSection img e info.vmask info.nrpl)

end Sys2Proof.Machine
end

