-- ==== Sys2Proof/Machine/Schedule.lean ====
section
/-!
DEFINITION. Machine/Schedule.lean: the loader's checks of an image (R318, reasons 1 to 6), with the schedule checks of R30, R125, R178, R180, R193, R245,
R256, R322, R333 and R356. The static schedule of a tile is walked from the launch values of its registers; registers that it does not show, such as one
loaded from staging, are kept apart, and the walk ends at a transfer that hangs on one. What the walks do not show fails no check (log 14).
-/

namespace Sys2Proof.Machine

/-! ## What the static schedule shows -/

/-- Whether a check fails: some true, it does; some false, it does not; none, the static schedule does not show it all, and shows no failure. -/
abbrev Verdict := Option Bool

/-- A check of several parts fails with any of them. -/
def worst (l : List Verdict) : Verdict := if l.contains (some true) then some true else if l.contains none then none else some false

/-- A system register whose value the schedule shows: the position of the bundle, the tile, the formats, the loops, the memberships. -/
def shownSys (n : Nat) : Bool :=
  n == 0 || n == 1 || n == 4 || n == 5 || decide (0x010 ≤ n ∧ n ≤ 0x041) || decide (0x048 ≤ n ∧ n ≤ 0x04B) || n == 0x060 || n == 0x061

/-- The meaning of a slot instruction whose effect the static schedule follows. -/
def shownMeaning : Instr → Option (State → Host.Outcome State Fault Refusal)
  | .add d a b => some (execAdd d a b) | .sub d a b => some (execSub d a b) | .mul d a b => some (execMul d a b)
  | .mulh d a b => some (execMulh d a b) | .mulhu d a b => some (execMulhu d a b) | .div d a b => some (execDiv d a b)
  | .divu d a b => some (execDivu d a b) | .rem d a b => some (execRem d a b) | .remu d a b => some (execRemu d a b)
  | .and d a b => some (execAnd d a b) | .or d a b => some (execOr d a b) | .xor d a b => some (execXor d a b)
  | .andn d a b => some (execAndn d a b) | .shl d a b => some (execShl d a b) | .shr d a b => some (execShr d a b)
  | .sar d a b => some (execSar d a b) | .rot d a b => some (execRot d a b) | .clz d a => some (execClz d a)
  | .ctz d a => some (execCtz d a) | .popc d a => some (execPopc d a) | .min d a b => some (execMin d a b)
  | .max d a b => some (execMax d a b) | .minu d a b => some (execMinu d a b) | .maxu d a b => some (execMaxu d a b)
  | .sel d a b x => some (execSel d a b x) | .cmp cc d a b => some (execCmp cc d a b) | .movi d v => some (execMovi d v)
  | .sext d a n => some (execSext d a n) | .zext d a n => some (execZext d a n) | .bfx d a p l sx => some (execBfx d a p l sx)
  | .bfi d a b p l => some (execBfi d a b p l) | .idx d a b sh => some (execIdx d a b sh) | .madd d a b x => some (execMadd d a b x)
  | .br cc a b off => some (execBr cc a b off) | .j off => some (execJ off) | .call d off => some (execCall d off) | .ret a => some (execRet a)
  | .brme off => some (execBrme off) | .loop a l n => some (execLoop a l n) | .lbrk a al => some (execLbrk a al) | .halt => some execHalt
  | .mfs d n => if shownSys n.toNat then some (execMfs d n) else none
  | .objq d a sel => some (execObjq d a sel) | .objchk d a b acc => some (execObjchk d a b acc)
  | .fmt d b => some (execFmt d b) | .ftsel l b => some (execFtsel l b)
  | .msend a b x n => some (execMsend a b x n) | .msendv a b x => some (execMsendv a b x) | .mcast a b x n => some (execMcast a b x n)
  | .lsend a n ch rel => some (execLsend a n ch rel)
  | _ => none

/-- A slot instruction whose operands must be shown for the walk to go on: transfers, loops, and writes of the formats. -/
def steers : Instr → Bool
  | .br .. | .ret _ | .brme _ | .loop .. | .lbrk .. | .fmt .. => true
  | _ => false

/-- A slot instruction that sends over the mesh. -/
def sendsMesh : Instr → Bool
  | .msend .. | .msendv .. | .mcast .. | .lsend .. | .lrecv .. => true
  | _ => false

/-- A slot instruction that reads staging. -/
def readsStaging : Instr → Bool
  | .ld .. | .vld .. | .vgath .. | .opld .. | .scld .. | .wr .. | .wra .. | .wrraw .. | .msend .. | .mcast .. | .lsend ..
  | .amoCas .. | .amoAdd .. | .amoSwp .. | .amoMin .. | .amoMax .. | .amoAnd .. | .amoOr .. => true
  | _ => false

/-- A bundle of the static schedule: its context, its tile before its slots, its header and instructions, the registers not shown, the sends that it makes;
moving: it is a delay bundle, or followed by a pending transfer; formats: a write of the formats is pending after it. -/
structure Shown where
  ctx     : Ctx
  t       : Tile
  hdr     : Header
  is      : List Instr
  dim     : List (Nat × Nat)
  sends   : List Send
  moving  : Bool
  formats : Bool

/-- The cycle after a bundle's gap: that of a yield point or of a switch (R322, R333). -/
def Shown.y (x : Shown) : Nat := x.ctx.now + 1 + x.hdr.gap

/-- Every operand of a slot instruction is shown. -/
def Shown.clear (x : Shown) (i : Instr) : Bool := (operands i).all fun k => !x.dim.contains k

/-- The operands of a slot instruction are shown, but for vectors, which no transfer or send depends on. -/
def scalarsClear (dim : List (Nat × Nat)) (i : Instr) : Bool := (operands i).all fun k => k.1 == 1 || !dim.contains k

/-- The static schedule of a tile in a variant; whole: it is shown to its HALT. -/
structure Static where
  tile    : TileId
  variant : Nat
  shown   : List Shown
  whole   : Bool

/-! ## The walk -/

/-- The effect of one instruction in the walk. -/
def State.showSlot (s : State) (i : Instr) : State := match shownMeaning i with
  | none => s
  | some f => match f s with
    | .next s' => s'
    | _ => s

/-- The sends that an LRECV makes (R359). -/
def Ctx.recvSends (c : Ctx) (t : Tile) : Instr → List Send
  | .lrecv a n ch _ => match c.recvLink ch.toNat with
    | some l => [{ seq := 0, issue := c.now, n := 2 * (n.toNat + 1), start := edgeTile l, addr := t.blockAddr a, dests := [c.id] }]
    | none => []
  | _ => []

/-- Registers not shown, by the landings that have come. -/
def landDim (c : Nat) (dim : List (Nat × Nat)) (pend : List (Nat × (Nat × Nat) × Bool)) : List (Nat × Nat) :=
  (pend.filter fun p => decide (p.1 ≤ c)).foldl (fun d p => if p.2.2 then p.2.1 :: d else d.filter (· != p.2.1)) dim

/-- A pending transfer, push or halt. -/
def Tile.moving (t : Tile) : Bool := t.flow.transfer.isSome || t.flow.push.isSome || t.flow.haltLeft.isSome

/-- The static schedule of a tile, as far as it is shown, from the tile as it stands in s: fuel bounds the bundles; dim are the registers not shown, and pend
the landings to come with whether they are shown. -/
def State.walk (s : State) (id : TileId) : Nat → List (Nat × Nat) → List (Nat × (Nat × Nat) × Bool) → List Shown × Bool
  | 0, _, _ => ([], false)
  | fuel + 1, dim, pend =>
    let t0 := s.tile id
    let c := t0.flow.due
    let t := ((sortByDue (t0.flight.filter fun r => decide (r.due ≤ c))).foldl Tile.landResult t0).popped
    let s := s.setTile id t
    let dim := landDim c dim pend
    let variant := (s.issueCtx id c 0).variant
    if t0.flow.haltBase.isSome then ([], true)
    else match t.peek variant t.flow.pc with
      | none => ([], false)
      | some b => match (s.issueCtx id c 0).readBundle t b with
        | .error _ => ([], false)
        | .ok (h, is) =>
          let s := { s with todo := [], cur := { tile := id, now := c, pc := t.flow.pc, gap := h.gap, handler := false, pre := t } }
          let ctx := s.slotCtx
          let is := is.map Prod.snd
          let after := ((is.filter (scalarsClear dim)).foldl State.showSlot s)
          let t1 := after.tile id
          if t1.flow.st ≠ .running ∨ is.any (fun i => steers i && !scalarsClear dim i) ∨ is.any (fun i => match i with
              | .trap _ => true
              | _ => false) then ([], false)
          else
            let t2 := t1.endBundle t variant c t.flow.pc h (bundleK b).toNat
            let x : Shown := { ctx := ctx, t := t, hdr := h, is := is, dim := dim
                               sends := t1.sync.sends ++ (is.filter (scalarsClear dim)).flatMap (ctx.recvSends t)
                               moving := t.moving || t2.moving, formats := !t2.fmts.pend.isEmpty }
            let lands := is.flatMap fun i =>
              let shown := scalarsClear dim i && (shownMeaning i).isSome
              (ctx.dests t i).flatMap fun d => (if shown then [] else [(c, d.1, true)]) ++ [(c + d.2, d.1, !shown)]
            let pend := lands.foldl (fun p l => insertDated l.1 l.2 p) (pend.filter fun p => decide (c < p.1))
            let r := (after.setTile id { t2 with sync := { t2.sync with sends := [] } }).walk id fuel dim pend
            (x :: r.1, r.2)

/-- The static schedules of an image, for every variant present and every tile of the context's first partition. -/
def State.statics (s : State) (c : Nat) (img : List Byte) (dir : List DirEntry) : List Static :=
  let x := s.ctx c
  let info := imageInfo img 0
  let objs := objectList img
  let s := if x.canInstall objs then objs.foldl (fun s r => s.setRecord c (recBits r 0 15 0) r) s else s
  (variantsOf info.vmask).flatMap fun v => (tileImages x.die0 x.shape info img dir).map fun e =>
    let t := e.2.tile (s.tile e.1) (x.membership s.pkg x.die0 e.1) (s.launchPins c e.1 e.2).2 0 s.wall
    let t := { t with flow := { t.flow with st := .running, due := t.escapedAt v {} } }
    let k : Kernel := { ctx := c, die0 := x.die0, shape := x.shape, st := .running, img := info, variant := v, slow := v == 3
                        launch := { image := 0, recAt := 0, rect := 0, wake := false, irq := false } }
    let r := (({ s with kernels := [(x.die0, k)] } : State).setTile e.1 t).walk e.1 (2 ^ 48) [] []
    { tile := e.1, variant := v, shown := r.1, whole := r.2 }

/-! ## When what a bundle starts has landed -/

/-- The latency of an MMA's result (R58, R238). -/
def Tile.mmaLat (t : Tile) (k : BitVec 4) : Nat := match t.activeRow.valid with
  | some (fa, fb) => match mmaK fa fb k with
    | some n => 6 + t.activeRow.occupancy fb n
    | none => 0
  | none => 0

/-- The cycles from its issue until what a slot instruction starts, sends aside, has landed (R58, R163); none where that is not shown. -/
def Shown.lat (x : Shown) (i : Instr) : Option Nat :=
  let p := x.ctx.params
  match i with
  | .st .. => some 1
  | .vst .. | .scst .. | .accwr .. => some 2
  | .vscat .. => some 4
  | .accz _ => some 1
  | .accst .. => some 36
  | .accret .. | .accretAmax .. | .accretApply .. | .accretDerive .. => some 70
  | .opst _ _ _ cnt => some (moveLat cnt)
  | .mma _ _ _ k | .mmaZ _ _ _ k | .mmaN _ _ _ k => some (x.t.mmaLat k)
  | .rd _ _ _ _ n | .rda _ _ _ _ n | .rdraw _ _ n _ => some (p.cl + n.toNat)
  | .wr _ _ _ _ n | .wra _ _ _ _ n | .wrraw _ _ n _ => some (p.wl + n.toNat)
  | .amoCas .. | .amoAdd .. | .amoSwp .. | .amoMin .. | .amoMax .. | .amoAnd .. | .amoOr .. | .apst .. | .jcbraise .. | .jcbpost .. | .jcbwait .. =>
    if x.clear i then x.ctx.requestLat x.t i else none
  | _ => some (maxOf ((x.ctx.requestLat x.t i).getD 0) ((x.ctx.dests x.t i).map Prod.snd))

/-- The flits of a send (R258). -/
def Send.allFlits (x : Send) (own : TileId) : List Flit := (List.range x.n).flatMap fun j => ({ x with next := j } : Send).flits own 0

/-- The cycle by which everything that a bundle starts has landed; none where that is not shown. -/
def Shown.landed (x : Shown) : Option Nat :=
  let lats := x.is.map x.lat
  if lats.contains none ∨ x.is.any (fun i => sendsMesh i && !scalarsClear x.dim i) then none
  else some (maxOf x.ctx.now (lats.filterMap (fun l => l.map (x.ctx.now + ·)) ++ x.sends.flatMap fun n => (n.allFlits x.ctx.id).map Flit.arr))

/-- Something that bundles started has not landed by a cycle. -/
def inFlight (l : List Shown) (y : Nat) : Verdict :=
  worst (l.flatMap fun x => (x.is.map fun i => if sendsMesh i && !scalarsClear x.dim i then none else (x.lat i).map fun k => decide (y < x.ctx.now + k)) ++
    x.sends.flatMap fun n => (n.allFlits x.ctx.id).map fun f => some (decide (y < f.arr)))

/-- The cycle at which a tile is halted (R114). -/
def Static.halted (x : Static) : Option Nat :=
  let ends := x.shown.map Shown.landed
  if !x.whole ∨ ends.contains none then none else some (maxOf ((x.shown.getLast?.map Shown.y).getD 0) (ends.filterMap id))

/-- A check of a tile's bundles, which holds only where they are shown to the end. -/
def Static.over (x : Static) (l : List Verdict) : Verdict := worst ((if x.whole then some false else none) :: l)

/-- The points of a tile's schedule, bundles with yld = 1 or rpl = 1, each with the bundles up to it. -/
def Static.points (x : Static) (p : Header → Bool) : List (Shown × List Shown) :=
  ((List.zipIdx x.shown).filter fun b => p b.1.hdr).map fun b => (b.1, x.shown.take (b.2 + 1))

/-! ## The checks -/

/-- Check 1 (R180): every 1,024 cycles hold 1,024 / F window cycles; from its halt on a tile has no other cycles. -/
def Static.windows (x : Static) (f : Nat) : Verdict :=
  let ws := x.shown.flatMap fun b => if b.hdr.svc then svcCycles b.ctx.now b.hdr.gap else []
  let short := fun (a h : Nat) => decide (f * ((ws.filter fun w => decide (a ≤ w ∧ w < a + 1024 ∧ w < h)).length + (a + 1024 - max a h)) < 1024)
  let starts := 0 :: ws.map (· + 1)
  match x.halted with
  | some h => some ((starts.filter fun a => decide (a < h)).any fun a => short a h)
  | none =>
    let h := (x.shown.getLast?.map Shown.y).getD 0
    if (starts.filter fun a => decide (a + 1024 ≤ h)).any fun a => short a h then some true else none

/-- A command of the static schedule to a bank, none where the bank is not shown: an activation, a precharge, a refresh, or a column command with its last
data cycle and whether it carries auto-precharge (R161, R163). -/
inductive BankCmd where
  | act | pre | ref
  | col (read : Bool) (first last : Nat) (auto : Bool)
deriving DecidableEq, Repr

/-- The bank of a brick of a record that stands pinned at launch (R206). -/
def Shown.bankOf (x : Shown) (i : Instr) (h a : Reg) (acc : Nat) : Option Nat :=
  if !x.clear i then none
  else match x.ctx.translate x.t h.toNat acc (x.t.sreg a).toNat with
    | .found p => some p.bank
    | _ => none

/-- The commands of a bundle, each with its cycle and its bank. A PREA names every bank. -/
def Shown.cmds (x : Shown) : List (Nat × Option Nat × BankCmd) :=
  let c := x.ctx.now
  let p := x.ctx.params
  let col := fun (read : Bool) (n : BitVec 6) (auto : Bool) => let f := c + (if read then p.cl else p.wl); BankCmd.col read f (f + n.toNat) auto
  x.is.flatMap fun i => match i with
    | .act a b => [(c, x.bankOf i a b 0, .act)]
    | .actraw bank _ => [(c, some bank.toNat, .act)]
    | .pre bank _ => [(c, some bank.toNat, .pre)]
    | .prea => (List.range 128).map fun b => (c, some b, .pre)
    | .ref bank => [(c, some bank.toNat, .ref)]
    | .rd a b _ _ n => [(c, x.bankOf i a b 0, col true n false)]
    | .rda a b _ _ n => [(c, x.bankOf i a b 0, col true n true)]
    | .wr a b _ _ n => [(c, x.bankOf i a b 1, col false n false)]
    | .wra a b _ _ n => [(c, x.bankOf i a b 1, col false n true)]
    | .rdop _ a b _ n _ _ => [(c, x.bankOf i a b 0, col true n false)]
    | .rdsc _ _ _ _ => [(c, none, col true 1 false)]
    | .rdraw _ _ n bank => [(c, some bank.toNat, col true n false)]
    | .wrraw _ _ n bank => [(c, some bank.toNat, col false n false)]
    | _ => []

/-- The spans in which a bank is not idle: from its activation, until it is precharged and then idle; with no end where it stays open (R161). act is the
activation of the bank where it is open. -/
def bankSpans (p : VParams) : Option Nat → List (Nat × BankCmd) → List (Nat × Option (Nat × Nat))
  | none, [] => []
  | some a, [] => [(a, none)]
  | none, (c, .act) :: r => bankSpans p (some c) r
  | none, (c, .ref) :: r => (c, some (c, c + p.tRFC)) :: bankSpans p none r
  | some a, (c, .pre) :: r => (a, some (c, c + p.tRP)) :: bankSpans p none r
  | some a, (c, .col read _ last true) :: r =>
    let ap := max (a + p.tRAS) (if read then last - p.cl + p.tRTP else last + p.tWR)
    (a, some (ap, ap + p.tRP)) :: bankSpans p (if ap < c then some a else none) r
  | o, _ :: r => bankSpans p o r

/-- The bank spans of a tile's schedule up to some bundles, by bank. -/
def spansOf (l : List Shown) : List (Nat × Nat × Option (Nat × Nat)) :=
  let cmds := l.flatMap Shown.cmds
  let p := (l.head?.map fun x => x.ctx.params).getD (vparams false 0)
  (cmds.filterMap fun x => x.2.1).eraseDups.flatMap fun b =>
    (bankSpans p none ((cmds.filter fun x => x.2.1 == some b).map fun x => (x.1, x.2.2))).map fun s => (b, s)

/-- Commands to banks that are not shown. -/
def dimBanks (l : List Shown) : Verdict :=
  if l.any fun x => x.cmds.any fun y => y.2.1.isNone && (match y.2.2 with
    | .act | .col _ _ _ true => true
    | _ => false) then none else some false

/-- The span of cycles from lo to hi meets a training window of a first cycle f and a period w (R193). -/
def meetsWindow (f w len lo hi : Nat) : Bool :=
  if lo < f + len then decide (f < hi) else decide (0 < w) && decide (f + ((lo - f - len) / w + 1) * w < hi)

/-- The training windows of a variant's pseudo-channels: first cycle and period (R193, R312). -/
def windowsOf (trwin : List (Nat × Nat)) (v : Nat) : List (Nat × Nat) := (trwin.drop (4 * v)).take 4

/-- Check 2 (R193): in the training windows of a pseudo-channel its banks are idle, and no stream has data cycles. -/
def Static.training (x : Static) (trwin : List (Nat × Nat)) : Verdict :=
  let spans := spansOf x.shown
  let cols := (x.shown.flatMap Shown.cmds).filterMap fun y => match y.2.2 with
    | .col _ first last _ => some (y.2.1, first, last)
    | _ => none
  let stop := (x.shown.getLast?.map Shown.y).getD 0
  let p := (x.shown.head?.map fun y => y.ctx.params).getD (vparams false 0)
  x.over ((List.range 4).map fun q =>
    let (f, w) := (windowsOf trwin x.variant).getD q (0, 0)
    worst [dimBanks x.shown, if cols.any fun y => y.1.isNone then none else some false,
      some (spans.any fun y => y.1 % 4 == q && meetsWindow f w p.tTRN y.2.1 (match y.2.2 with
        | some e => e.2
        | none => max stop (y.2.1 + 1))),
      some (cols.any fun y => (match y.1 with
        | some b => b % 4 == q
        | none => false) && meetsWindow f w p.tTRN y.2.1 (y.2.2 + 1))])

/-- Every program bank is idle, precharging or refreshing at cycle y (R178, R333), as the commands up to then and the training windows show. -/
def banksClosed (ws : List (Nat × Nat)) (l : List Shown) (y : Nat) : Verdict :=
  let len := ((l.head?.map fun x => x.ctx.params).getD (vparams false 0)).tTRN
  let train := l.any fun x => x.is.any fun i => match i with
    | .train _ => decide (y < x.ctx.now + x.ctx.params.tTRN)
    | _ => false
  worst [dimBanks l, some train, some (ws.any fun w => meetsWindow w.1 w.2 len y (y + 1)), some ((spansOf l).any fun s => decide (s.2.1 ≤ y) && (match s.2.2 with
    | some e => decide (y < e.1)
    | none => true))]

/-- No stream is in flight at cycle y (R178). -/
def streamsDone (l : List Shown) (y : Nat) : Verdict := some ((l.flatMap Shown.cmds).any fun x => match x.2.2 with
  | .col _ _ last _ => decide (y < last)
  | _ => false)

/-- Check 3 (R178, R333): the banks at replan and yield points, and no stream in flight at a replan point. -/
def Static.bankStates (x : Static) (trwin : List (Nat × Nat)) : Verdict :=
  let ws := windowsOf trwin x.variant
  x.over ((x.points Header.rpl).flatMap (fun b => [banksClosed ws b.2 b.1.y, streamsDone b.2 b.1.y]) ++
    (x.points Header.yld).map fun b => banksClosed ws b.2 b.1.y)

/-- The distances between rising cycles, from 0 on. -/
def gaps : Nat → List Nat → List Nat
  | _, [] => []
  | a, b :: r => (b - a) :: gaps b r

/-- A list of cycles agrees with another's as far as both are shown. -/
def agree (a b : List Nat × Bool) : Verdict :=
  let n := min a.1.length b.1.length
  if a.1.take n ≠ b.1.take n ∨ (a.2 ∧ a.1.length < b.1.length) ∨ (b.2 ∧ b.1.length < a.1.length) then some true
  else if a.2 ∧ b.2 then some false else none

/-- The cycles of a tile's points of a kind agree with another tile's, in all variants. -/
def samePoints (l : List Static) (p : Header → Bool) : Verdict :=
  let cs := fun (x : Static) => ((x.points p).map fun b => b.1.y, x.whole)
  match l with
  | [] => some false
  | x :: r => worst (r.map fun z => agree (cs x) (cs z))

/-- Cycles in 10 ms at the clock of a variant (R4, R30). -/
def replanLimit (v : Nat) : Nat := if v = 3 then 9750000 else 13000000

/-- Check 4 (R30, R322): the replan points of every tile at the same cycles in every variant, no longer stretch without one than 10 ms, and none in a delay
bundle or before a pending transfer. -/
def replanCheck (l : List Static) : Verdict :=
  worst (samePoints l Header.rpl :: l.map fun x => x.over [
    some ((x.points Header.rpl).any fun b => b.1.moving),
    some ((gaps 0 ((x.points Header.rpl).map (fun b => b.1.y) ++ (x.shown.getLast?.map fun b => b.ctx.now).toList)).any fun d =>
      decide (replanLimit x.variant < d))])

/-- Check 5 (R333): the largest distance between T0, the yield cycles and the kernel's last cycle. -/
def yieldCheck (l : List Static) : Verdict :=
  worst (l.map fun x =>
    let ys := (x.points Header.yld).map fun b => b.1.y
    let mates := (l.filter fun z => z.variant == x.variant).map Static.halted
    let long := fun (c : List Nat) => (gaps 0 c).any fun d => decide (yieldLimit x.variant < d)
    if mates.contains none then (if long (ys ++ (x.shown.getLast?.map Shown.y).toList) then some true else none)
    else some (long (ys ++ [maxOf 0 (mates.filterMap id)])))

/-- The states of the accumulators after bundles, as their instructions leave them (R240): with, where one is retiring, the cycle at which it is retired and
whether a write follows the ACCRET. -/
def accStates (l : List Shown) : Map (AccState × Nat × Bool) :=
  let get := fun (m : Map (AccState × Nat × Bool)) k => mapGet (.empty, 0, false) m k
  let settle := fun (c : Nat) (a : AccState × Nat × Bool) =>
    if a.1 = .retiring ∧ a.2.1 ≤ c then (if a.2.2 then .accumulating else .retired, 0, false) else a
  let write := fun (m : Map (AccState × Nat × Bool)) (c : Nat) (d : Reg) =>
    let a := settle c (get m d.toNat)
    mapPut m d.toNat (if a.1 = .retiring then (a.1, a.2.1, true) else (.accumulating, 0, false))
  l.foldl (fun m x => x.is.foldl (fun m i => match i with
    | .mma d .. | .mmaZ d .. | .mmaN d .. | .accwr d .. => write m x.ctx.now d
    | .accz d => mapPut m d.toNat (.empty, 0, false)
    | .accret a _ | .accretAmax _ a _ | .accretApply a _ _ | .accretDerive _ a _ => mapPut m a.toNat (.retiring, x.ctx.now + 70, false)
    | _ => m) m) []

/-- Check 6 (R245): no accumulator is accumulating or retiring at a yield point. -/
def Static.accumulators (x : Static) : Verdict :=
  x.over ((x.points Header.yld).map fun b => some ((accStates b.2).any fun a => match a.2.1 with
    | .accumulating => true
    | .retiring => a.2.2.2 || decide (b.1.y < a.2.2.1)
    | _ => false))

/-- The flits of the schedules of a variant. -/
def flitsOf (l : List Static) : List Flit :=
  (List.zipIdx l).flatMap fun x => (List.zipIdx x.1.shown).flatMap fun b => b.1.sends.flatMap fun n =>
    ({ n with seq := b.2 } : Send).allFlits x.1.tile

/-- Every send of the schedules is shown. -/
def sendsShown (l : List Static) : Verdict :=
  if l.all fun x => x.whole && x.shown.all fun b => b.is.all fun i => !sendsMesh i || scalarsClear b.dim i then some false else none

/-- Two runs of staging bytes share one. -/
def runsMeet (a n b m : Nat) : Bool := Span.meets ⟨0, a, n⟩ ⟨0, b, m⟩

/-- Check 7 (R125): no mesh arrival overwrites bytes that the tile has read in the 40 cycles before it. -/
def readThenArrival (l : List Static) : Verdict :=
  let fs := (flitsOf l).filter fun f => f.port.isNone
  worst (sendsShown l :: l.flatMap fun x => x.shown.flatMap fun b => (b.is.filter readsStaging).map fun i =>
    if !b.clear i then none
    else some ((b.t.stagingReads i).any fun r => fs.any fun f =>
      f.dst == x.tile && decide (b.ctx.now + r.lat < f.arr) && decide (f.arr ≤ b.ctx.now + r.lat + 40) && runsMeet r.lo r.len f.addr 64))

/-- Check 8 (R255, R256): no two flits arrive at common bytes of a tile in one cycle, or use one link in one cycle, and none arrives where the tile writes
staging itself. -/
def meshCheck (l : List Static) : Verdict :=
  let fs := flitsOf l
  let pairs := fun (p : Flit → Flit → Bool) => (List.zipIdx fs).any fun f => (fs.drop (f.2 + 1)).any fun g => p f.1 g
  let own := l.flatMap fun x => x.shown.flatMap fun b => b.is.flatMap fun i => ((b.ctx.spans b.t i).2.filter fun _ => b.clear i).map fun y =>
    (x.tile, b.ctx.now + y.lat, y.lo, y.len)
  let hidden := l.any fun x => x.shown.any fun b => b.is.any fun i => !b.clear i && (match i with
    | .st .. | .vst .. | .vscat .. | .opst .. | .scst .. | .accst .. | .accret .. | .accretAmax .. | .accretApply .. | .accretDerive ..
    | .rd .. | .rda .. | .rdraw .. | .amoCas .. | .amoAdd .. | .amoSwp .. | .amoMin .. | .amoMax .. | .amoAnd .. | .amoOr .. => true
    | _ => false)
  worst [sendsShown l, if hidden ∧ fs ≠ [] then none else some false,
    some (pairs fun f g => f.port.isNone && g.port.isNone && f.dst == g.dst && f.arr == g.arr && f.addr == g.addr),
    some (pairs fun f g => !f.sameSend g && (List.range (f.arr + 1 - f.start)).any fun j =>
      (f.usesAt (f.start + j)).isSome && f.usesAt (f.start + j) == g.usesAt (f.start + j)),
    some (fs.any fun f => f.port.isNone && own.any fun o => f.dst == o.1 && f.arr == o.2.1 && runsMeet o.2.2.1 o.2.2.2 f.addr 64)]

/-- The link flits of a channel of a tile in its static issue order, of LSENDs or of LRECVs. -/
def Static.carried (x : Static) (ch dir : Nat) : List Nat :=
  x.shown.flatMap fun b => b.is.filterMap fun i => match i with
    | .lsend _ n c _ => if dir = 0 ∧ c.toNat = ch then some (n.toNat + 1) else none
    | .lrecv _ n c _ => if dir = 1 ∧ c.toNat = ch then some (n.toNat + 1) else none
    | _ => none

/-- The channels that a tile names, with their directions. -/
def Static.channels (x : Static) : List (Nat × Nat) :=
  (x.shown.flatMap fun b => b.is.filterMap fun i => match i with
    | .lsend _ _ c _ => if c = 63 then none else some (c.toNat, 0)
    | .lrecv _ _ c _ => some (c.toNat, 1)
    | _ => none).eraseDups

/-- An entry of the link table stands for a channel of the partition: a tile of it, a channel that a tile can name, a link of one of its dies, and a padded
latency that a link can have (R353, R355). -/
def linkEntryOk (die0 shape : Nat) (e : List Word) : Bool :=
  decide (recBits e 0 10 0 < 256 * shapeDies shape) && decide (recBits e 0 16 11 < 63) && inPartition die0 shape (recBits e 0 22 18 / 4) &&
    decide (recBits e 3 31 0 ≤ 20000)

/-- An entry of a member's link table is named back by an entry of opposite direction with the same count and signature in the table of its peer (R356). -/
def namedBack (tables : Map (List (List Word))) (rank : Nat) (e : List Word) : Bool :=
  ((mapFind tables (recBits e 0 35 23)).getD []).any fun p =>
    recBits p 0 35 23 == rank && recBits p 0 17 17 != recBits e 0 17 17 && recBits p 0 22 18 == recBits e 0 40 36 && recBits p 0 40 36 == recBits e 0 22 18 &&
      recBits p 0 16 11 == recBits e 0 46 41 && recBits p 0 46 41 == recBits e 0 16 11 && recBits p 1 31 0 == recBits e 1 31 0 && recWord p 2 == recWord e 2

/-- Cycles of a clock in ns, rounded up (R4, R352). -/
def nsCycles (v ns : Nat) : Nat := if v = 3 then (975 * ns + 999) / 1000 else (1300 * ns + 999) / 1000

/-- The link condition at a yield cycle (R333): no flit that the tile has sent over a link is on its way, from its LSEND to its entry at the peer, one padded
latency after its acceptance. -/
def linksQuiet (links : List (List Word)) (die0 shape v : Nat) (l : List Shown) (y : Nat) : Verdict :=
  worst (l.flatMap fun x => x.is.map fun i => match i with
    | .lsend _ _ c _ => if c = 63 then some false else
      let lam := maxOf 0 ((links.filter fun e => recBits e 0 10 0 == posOfTile die0 shape x.ctx.id && recBits e 0 16 11 == c.toNat && recBits e 0 17 17 == 0).map fun e => recBits e 3 31 0)
      if !scalarsClear x.dim i then none
      else some (x.sends.any fun n => (n.allFlits x.ctx.id).any fun f => decide (y < f.arr + nsCycles v lam))
    | _ => some false)

/-- The part of check 9 that the image itself decides (R355, R356): every channel named has an entry, and an entry's count and signature are those of the
tile's LSENDs or LRECVs in variant 0; and, of a gang, the link condition at yield points (R333). -/
def linkCheck (die0 shape : Nat) (gang : Bool) (links : List (List Word)) (l : List Static) : Verdict :=
  let pos := fun (x : Static) => posOfTile die0 shape x.tile
  let entry := fun (p ch dir : Nat) => links.any fun e => recBits e 0 10 0 == p && recBits e 0 16 11 == ch && recBits e 0 17 17 == dir
  worst (some (links.any fun e => !linkEntryOk die0 shape e) :: (l.map fun x => x.over [some (x.channels.any fun c => !entry (pos x) c.1 c.2)]) ++
    (if gang then l.flatMap fun x => (x.points Header.yld).map fun b => linksQuiet links die0 shape x.variant b.2 b.1.y else []) ++
    links.flatMap fun e => (l.filter fun x => x.variant == 0 && pos x == recBits e 0 10 0).map fun x =>
      let ns := x.carried (recBits e 0 16 11) (recBits e 0 17 17)
      if !x.whole then none
      else some (ns.foldl (· + ·) 0 != recBits e 1 31 0 || natBytes 8 (recWord e 2) != (digestBytes (sha256 (ns.flatMap (natBytes 2)))).take 8))

/-- A yield point stands at an iteration boundary (R333): at the end of the top loop entry's body, or in no body. -/
def Shown.boundary (x : Shown) : Bool :=
  let o := x.t.flow.pc.off
  match x.t.flow.loops with
  | [] => true
  | e :: r => e.last == o || (e :: r).all fun l => decide (o < l.start) || decide (l.last < o)

/-- Check 10 (R322, R333): nothing is in flight at a yield or replan point; and what R333 asks of a yield point otherwise, which it names no check for: the
yield cycles of every tile agree, and the bundle is no delay bundle, before no pending transfer, and at an iteration boundary (log 14). -/
def landedCheck (l : List Static) : Verdict :=
  worst (samePoints l Header.yld :: l.map fun x => x.over (
    ((x.points fun h => h.yld || h.rpl).flatMap fun b => [some b.1.formats, inFlight b.2 b.1.y]) ++
    (x.points Header.yld).map fun b => some (b.1.moving || !b.1.boundary)))

/-- The part of check 9 that hangs on the tables of every member of the gang (R356): every entry of each is named back by its peer's. -/
def peerCheck (rank : Nat) (links : List (List Word)) (peers : Map (List (List Word))) : Bool :=
  let tables := mapPut peers rank links
  tables.any fun t => t.2.any fun e => !namedBack tables t.1 e

/-- What the static schedules show of schedule check n (R318). -/
def State.shownCheck (s : State) (c : Nat) (img : List Byte) (l : List Static) (n : Nat) : Verdict :=
  let info := imageInfo img 0
  let x := s.ctx c
  let byVariant := fun (f : List Static → Verdict) => worst ((variantsOf info.vmask).map fun v => f (l.filter fun z => z.variant == v))
  match n with
  | 1 => worst (l.map fun z => z.windows info.svcf)
  | 2 => worst (l.map fun z => z.training info.trwin)
  | 3 => worst (l.map fun z => z.bankStates info.trwin)
  | 4 => replanCheck l
  | 5 => yieldCheck l
  | 6 => worst (l.map Static.accumulators)
  | 7 => byVariant readThenArrival
  | 8 => byVariant meshCheck
  | 9 => linkCheck x.die0 x.shape (bitOf (x.descWord 8) 43) info.links l
  | 10 => landedCheck l
  | _ => some false

/-- Check 9 against the gang's other members (R356): none of their tables, before they have come; then that the entries of all name each other, and what
hangs on the peers' schedules besides, the nominal times of the flits and the occupancy of the queues, which the tables do not hold: a free verdict (log 14). -/
def peersFail (rank : Nat) (links : List (List Word)) (digest : BitVec 256) : Option (Map (List (List Word))) → Bool
  | none => false
  | some peers => peerCheck rank links peers || (!links.isEmpty && Config.scheduleFails 9 digest)

/-- The first schedule check that fails (R318, reason 6): on the image's fields, or on its static schedules, where these show it (R125, R318; log 14). peers:
the link tables of a gang's other members. -/
def State.scheduleCheck (s : State) (c : Nat) (img : List Byte) (dir : List DirEntry) (peers : Option (Map (List (List Word)))) : Option Nat :=
  let x := s.ctx c
  let portable := bitOf (le img 6 1) 0
  let l := s.statics c img dir
  (List.range 12).findSome? fun i =>
    let n := i + 1
    let asked := if n = 11 ∨ n = 12 ∨ n = 9 then true else !portable && (n != 5 || bitOf (x.descWord 0) 13)
    let fails := fieldsFail img dir n || s.shownCheck c img l n == some true || (n == 9 && peersFail x.gangRank (imageInfo img 0).links (sha256 img) peers)
    if asked && fails then some n else none

/-- The first reason of 1 to 6 that an image of context cno fails for, with its detail (R318). -/
def State.imageFault (s : State) (cno : Nat) (img : List Byte) (dir : List DirEntry) (peers : Option (Map (List (List Word)))) : Option (Nat × Nat) :=
  let c := s.ctx cno
  if !headerOk img dir then some (1, 0)
  else if le img 8 16 / 2 ^ 12 ≠ 0 then some (2, 0)
  else if 4 ≤ le img 7 1 ∨ le img 7 1 ≠ c.shape then some (3, 0)
  else if bitOf (le img 6 1) 1 ∧ cno ≠ 0 then some (4, 0)
  else if !bitOf (le img 6 1) 0 ∧ le img 0x1C 2 ≠ 1 then some (5, 0)
  else (s.scheduleCheck cno img dir peers).map fun d => (6, d)

end Sys2Proof.Machine
end

