-- ==== Sys2Proof/Machine/Kernels.lean ====
section
/-!
DEFINITION. Machine/Kernels.lean: launches, binding and the state at launch (R316 to R320), the start of the timetable, replan switches (R27 to R29, R178, R321, R322), and completion (R325 to R328).
An event names a kernel, by the first die of its partition, or a context in x.
-/

namespace Sys2Proof.Machine

/-! ## Completion records (R326 to R328) -/

/-- A kernel's record written as a release, the host's lines invalidated before it (R367), with its wake and its interrupt (R326): none of it where the
address is not valid (R328). -/
def State.kernelRecord (s : State) (c : Nat) (l : Launch) (ws : List Nat) : State :=
  if l.recAt % 64 = 0 ∧ s.queueAddr c l.recAt then
    let s := (s.backInvalidate.sysWrite c 1 l.recAt (ws.flatMap (natBytes 8))).1
    let s := { s with host := { s.host with irqs := if l.irq then s.host.irqs ++ [c] else s.host.irqs } }
    if l.wake then s.wakeRect l.rect else s
  else s

/-- The record of a launch that fails (R327, R328). The detail has eight bits; of a partition position above 255 they hold the low eight (DESIGN CHOICE,
log 73). -/
def State.launchFailed (s : State) (c : Nat) (l : Launch) (reason detail : Nat) : State :=
  s.kernelRecord c l [6, reason % 256 * 2 ^ 32 + detail % 256 * 2 ^ 40, 0, 0, 0, 0, 0, 0]

/-- The loader looks again at a context's launches, some free time from now. -/
def State.loaderSoon (s : State) (i : Instr) (c : Nat) : State :=
  (s.at (s.wall + Config.freeNat s.free + 1) { i := i, arg := { x := c } }).tickFree

/-- A context runs a kernel, or is saved with one. -/
def State.hasKernel (s : State) (c : Nat) : Bool := (s.ctx c).kernel.isSome || s.kernels.any fun k => k.2.ctx == c

/-! ## KERNEL_LOAD (R316 to R318) -/

/-- A kernel that is loaded (R316): its launch and its image as the loader has read it, on the partition of its context's descriptor. -/
def loadedKernel (c : Nat) (x : Context) (l : Launch) (img : List Byte) (peers : Map (List (List Word))) : Kernel :=
  { ctx := c, die0 := x.die0, shape := x.shape, st := .loaded, img := imageInfo img l.image, image := img, launch := l, peers := peers }

/-- A gang member sends its image's link table to the others (R356). -/
def State.sendTable (s : State) (c : Nat) (links : List (List Word)) : State :=
  let x := s.ctx c
  if bitOf (x.descWord 8) 43 then s.sendReserved x.die0 (.table x.gang x.gangRank links) else s

/-- A load waits for its peers' tables, its own sent to them once (R356). -/
def State.awaitTables (s : State) (c : Nat) (l : Launch) (rest : List Launch) (links : List (List Word)) : State :=
  let s := if l.tabled then s else (s.sendTable c links).updCtx c fun x => { x with launches := { l with tabled := true } :: rest }
  s.loaderSoon .kernelLoad c

/-- The link tables of the gang's other members that have come to a context's die, by rank; none while one of them is missing (R356). -/
def State.peerTables (s : State) (c : Nat) : Option (Map (List (List Word))) :=
  let x := s.ctx c
  let l := (s.die x.die0).peers.filter fun p => p.1 != x.gangRank
  if (List.range x.gangSize).all fun r => r == x.gangRank || (mapFind l r).isSome then some l else none

/-- KERNEL_LOAD (R318): the first launch of context x that waits is read and verified; one of a context with a kernel waits on (R317). A gang's loaders
exchange the link tables of their images meanwhile, and the load waits for all of them (R356). -/
def execKernelLoad (s : State) : Host.Outcome State Fault Refusal :=
  .next (
    let c := s.ev.x
    let x := s.ctx c
    match x.launches, x.loaded with
    | l :: rest, none =>
      if x.st ≠ .loaded ∨ s.hasKernel c then s
      else
        let failed := fun (s : State) (r : Nat × Nat) =>
          let s := (s.updCtx c fun x => { x with launches := rest }).launchFailed c l r.1 r.2
          if rest.isEmpty then s else s.loaderSoon .kernelLoad c
        let tables := s.peerTables c
        match s.readImage c l.image with
        | (s, none) => failed s (1, 0)
        | (s, some (img, dir)) =>
          let used := fun (s : State) => if bitOf (x.descWord 8) 43 then s.updDie x.die0 fun d => { d with peers := [] } else s
          match s.imageFault c img dir tables, tables with
          | some r, some _ => failed (used s) r
          | some (6, d), none => if d < 9 then failed s (6, d) else s.awaitTables c l rest (imageInfo img l.image).links
          | some r, none => failed s r
          | none, none => s.awaitTables c l rest (imageInfo img l.image).links
          | none, some peers =>
            let s := if l.tabled then s else s.sendTable c (imageInfo img l.image).links
            ((used s).updCtx c fun x =>
              { x with launches := rest, loaded := some (loadedKernel c x l img peers) }).loaderSoon .kernelBind c
    | _, _ => s)

/-! ## KERNEL_BIND (R316, R319) -/

/-- The partition of a context is idle (R316). -/
def State.partitionIdle (s : State) (die0 shape : Nat) : Bool :=
  s.kernels.all fun k => (List.range (shapeDies shape)).all fun d => !inPartition k.2.die0 k.2.shape (die0 + d)

/-- The dies of a partition before a launch or a restore: cisterns at zero, aggregates empty with the PC buckets' shift as the loader sets it, a free
value of 0 to 15 (R341), link ports free. -/
def State.clearDies (s : State) (die0 shape : Nat) : State :=
  let tsh := Config.freeNat s.free % 16
  let s := (List.range (shapeDies shape)).foldl (fun (s : State) d =>
    s.updDie (die0 + d) fun x => { x with cistern := [], tun := { tsh := tsh } }) s.tickFree
  (List.range (4 * shapeDies shape)).foldl (fun (s : State) l => s.updLink (4 * die0 + l) fun x => { x with busy := 0 }) s

/-- The loader sets Λ of a partition's links before a slice (R353): the least value that is the default at least, and no less than the worst path measured
and than what the tables of the gang's images name: its own, and those that the other members have sent. Up to 20 µs. -/
def State.padLinks (s : State) (die0 shape rank : Nat) (img : ImageInfo) (tables : Map (List (List Word))) : State :=
  let peers := tables.flatMap fun p => p.2.filter fun e => recBits e 0 35 23 == rank
  (List.range (4 * shapeDies shape)).foldl (fun s i => s.updLink (4 * die0 + i) fun x =>
    let own := img.links.filter fun e => recBits e 0 22 18 == 4 * die0 + i
    let theirs := peers.filter fun e => recBits e 0 40 36 == 4 * die0 + i
    { x with padded := min 20000 (maxOf (max 1600 x.worst) ((own ++ theirs).map fun e => recBits e 3 31 0)) }) s

/-- A launch that failed is over: the context's next one is looked at. -/
def State.launchOver (s : State) (c : Nat) : State :=
  let s := s.updCtx c fun x => { x with loaded := none }
  if (s.ctx c).launches.isEmpty then s else s.loaderSoon .kernelLoad c

/-- A descriptor with another first die. -/
def Context.movedTo (c : Context) (die0 : Nat) : Context :=
  { c with desc := c.desc.set 0 (BitVec.ofNat 64 (setField (c.descWord 0) 10 3 die0)), places := (c.die0 :: c.places).eraseDups.filter (· != die0) }

/-- The link table of an image on a partition with another first die: each link is the one of the same place on the die of the same place (R355, log 83). -/
def ImageInfo.movedTo (info : ImageInfo) (old die0 : Nat) : ImageInfo :=
  { info with links := info.links.map fun e => e.set 0 (BitVec.ofNat 64 (setField (recWord e 0) 18 5 (recBits e 0 22 18 + 4 * die0 - 4 * old))) }

/-- The contexts whose kernel is loaded and waits for a partition are looked at (R316). -/
def State.bindWaiting (s : State) : State := s.ctxs.foldl (fun s c => if c.2.loaded.isSome then s.loaderSoon .kernelBind c.1 else s) s

/-- A kernel's partition is idle again (R316). -/
def State.leavePartition (s : State) (n : Nat) : State := (s.delKernel n).bindWaiting

/-- The tiles of a kernel's image (R313, R319). -/
def Kernel.tileImages (k : Kernel) : List (TileId × TileImage) := Machine.tileImages k.die0 k.shape k.img k.image (imageDir k.image)

/-- A kernel bound to an idle partition (R316, R319, steps 1 and 2): the object list is installed, and every segment is copied into the service banks of
its tile's vault; or the failure that ends the launch. -/
def State.bind (s : State) (c : Nat) (k : Kernel) : State :=
  let objs := objectList k.image
  if !(s.ctx c).canInstall objs then (s.launchFailed c k.launch 7 0).launchOver c
  else
    let s := objs.foldl (fun s r => s.setRecord c (recBits r 0 15 0) r) s
    let k := { k with die0 := (s.ctx c).die0, st := .bound, img := k.img.movedTo k.die0 (s.ctx c).die0 }
    let s := k.tileImages.foldl (fun s e => s.placeSegments k e.1 { imem := e.2.imem }) s
    ((s.setKernel k.die0 k).updCtx c fun x => { x with loaded := none }).loaderSoon .kernelBind c

/-- The tiles of a bound kernel installed (R316, R319, steps 2 to 6), or the failure of a launch pin, which ends the launch and frees the partition. -/
def State.install (s : State) (c n : Nat) (k : Kernel) : State :=
  let tiles := k.tileImages
  let (s, pins) := s.allPins c tiles
  match badPin pins with
  | some p => ((s.launchFailed c k.launch 8 p).leavePartition n).launchOver c
  | none =>
    let s := s.clearDies k.die0 k.shape
    let s := (cisternList k.image).foldl (fun s e => match e with
      | some (a, d, v) => s.setCword (k.die0 + d) a v
      | none => s) s
    let s := (tiles.zip pins).foldl (fun s e => s.setTile e.1.1 (e.1.2.tile (s.tile e.1.1) ((s.ctx c).membership s.pkg k.die0 e.1.1) e.2
      (vparams false 0).tREFB s.wall)) s
    let s := ((s.padLinks k.die0 k.shape (s.ctx c).gangRank k.img k.peers).setKernel n { k with st := .launched, image := [], begun := (s.ctx c).begun }).updCtx c fun x => { x with st := .running }
    s.loaderSoon .timetableStart n

/-- The kernel of a context that is bound, with its number. -/
def State.boundOf (s : State) (c : Nat) : Option (Nat × Kernel) := s.kernels.find? fun k => k.2.ctx == c && k.2.st == .bound

/-- KERNEL_BIND (R316, R319): the loaded kernel of context x is bound when one of the context's partitions is idle, and otherwise waits for one; the bound
kernel's tiles are installed. -/
def execKernelBind (s : State) : Host.Outcome State Fault Refusal :=
  .next (
    let c := s.ev.x
    let x := s.ctx c
    match s.boundOf c, x.loaded with
    | some (n, k), _ => s.install c n k
    | none, some k =>
      if x.st ≠ .loaded ∨ s.hasKernel c then s
      else match x.homes.find? fun d => s.partitionIdle d x.shape with
        | none => s
        | some d => (s.setCtx c (if d = x.die0 then x else x.movedTo d)).bind c k
    | none, none => s)

/-! ## What calls for a variant (R27 to R30) -/

/-- The hottest DRAM layer reading of a partition's dies (R26, R27), in steps of 0.125 °C. -/
def Health.hottest (h : Health) (die0 shape : Nat) : Int :=
  ((List.range (shapeDies shape)).flatMap fun d => ((h.now.dies[die0 + d]?).map fun x => x.layers.toList.map BitVec.toInt).getD []).foldl max (-2048)

/-- The variant that R27 selects for a kernel that runs one. -/
def Health.select (h : Health) (die0 shape used : Nat) : Nat :=
  let t := h.hottest die0 shape
  if h.upper.lost.isSome ∨ h.lower.lost.isSome then 3
  else if 8 * 95 < t ∨ (used = 2 ∧ 8 * 90 < t) then 2
  else if 8 * 85 < t ∨ ((used = 1 ∨ used = 2) ∧ 8 * 80 < t) then 1
  else 0

/-- A loop found fit is in use again (R29). -/
def CoolingLoop.takeBack (x : CoolingLoop) : CoolingLoop := if x.back.isSome then { x with lost := none, good := none, back := none } else x

/-- A restored loop is taken back into use at a replan point, after its 1 s (R29). -/
def Health.takeBack (h : Health) : Health := { h with upper := h.upper.takeBack, lower := h.lower.takeBack }

/-- The conditions of R27 and R28 that call for another variant than the one in use: 0 to 2, the row of R27's table that the layers meet; 3 the
upper loop lost, 4 the lower. -/
def Health.calls (h : Health) (k : Kernel) : List Nat :=
  let v := h.select k.die0 k.shape k.variant
  if v = k.variant then []
  else if v = 3 then (if h.upper.lost.isSome then [3] else []) ++ (if h.lower.lost.isSome then [4] else [])
  else [v]

/-- A kernel's cycles pass, or would but for a hold. -/
def Kernel.timed (k : Kernel) : Bool := k.ending.isNone && (k.st == .running || k.st == .held || k.st == .replanning)

/-- The conditions that call for another variant of kernel n are timed from the moment each arises, and one that has cleared is no longer (R30). -/
def State.timeCall (s : State) (n : Nat) : State :=
  match s.kernel? n with
  | none => s
  | some k =>
    if !k.timed then s
    else
      let calls := s.health.calls k
      let keep := k.callFrom.filter fun c => calls.contains c.1
      let fresh := calls.filter fun c => !keep.any fun x => x.1 == c
      fresh.foldl (fun (s : State) c => s.at (s.wall + nsUnits 10000000) { i := .variantWaitTimeout, arg := { tile := c, x := n, y := s.wall } })
        (s.setKernel n { k with callFrom := keep ++ fresh.map fun c => (c, s.wall) })

/-- Those of every kernel. -/
def State.timeCalls (s : State) : State := (s.kernels.map Prod.fst).foldl State.timeCall s

/-! ## TIMETABLE_START (R98, R316, R319, R345) -/

/-- The retrainings of a partition's vaults awaited (R194). -/
def State.awaitAll (s : State) (k : Kernel) : State :=
  k.tiles.foldl (fun s t => (List.range 4).foldl (fun s q => s.awaitRetraining t q) s) s

/-- A gang member sends its entry flit to every other member, and its partition holds before its first bundle until the slice may start (R345). S is agreed
outside the device, before or after the member is ready: a free link time. -/
def State.sliceHold (s : State) (n : Nat) : State :=
  match s.kernel? n with
  | none => s
  | some k =>
    let c := s.ctx k.ctx
    if bitOf (c.descWord 8) 43 then
      let start := s.ltime + Config.freeNat s.free - Config.freeNat (s.free + 1)
      let s := ((s.setKernel n { k with slice := some start }).openHold n 1).tickFree.tickFree
      (s.sendReserved k.die0 (.entry c.gang c.gangRank)).dateSlice n start
    else s

/-- TIMETABLE_START (R319): every tile of kernel x starts at one cycle; a member whose slice was aborted before does not, and sends its abort flit (R346). -/
def execTimetableStart (s : State) : Host.Outcome State Fault Refusal :=
  .next (
    let n := s.ev.x
    match s.kernel? n with
    | none => s
    | some k =>
      if k.st ≠ .launched then s
      else
        let s := s.updTiles k.tiles fun t => if t.flow.st = .ready then { t with flow := { t.flow with st := .running } } else t
        let s := s.setKernel n { k with st := .running, nextWall := s.wall, phase := 0, tstart := if k.restored then k.tstart else s.wclk }
        let s := s.awaitAll k
        if (s.ctx k.ctx).aborted then
          ((s.updKernel n fun k => k.endFaulted 4).updCtx k.ctx fun x => { x with aborted := false }).sendAbort k.ctx
        else (s.sliceHold n).timeCall n)

/-! ## Variants and replan switches (R27 to R30, R178, R321, R322) -/

/-- The variant that the loader switches to: the one selected, or the next hotter one that the image has; none where it needs variant 3 and the
image has none (R28), and the one in use where no hotter one stands in the image (log 19). -/
def Kernel.nextVariant (k : Kernel) (sel : Nat) : Option Nat :=
  if bitOf k.img.vmask sel then some sel
  else if sel = 3 then none
  else some (((List.range 3).find? fun v => sel < v && bitOf k.img.vmask v).getD k.variant)

/-- A bank's deadline rebased at a switch at cycle c (R178). -/
def rebase (c oldPeriod newPeriod tREFB deadline : Nat) : Nat := c + min ((deadline - c) * oldPeriod / newPeriod) tREFB

/-- The place of a variant among those present. -/
def variantIndex (vmask v : Nat) : Nat := ((List.range v).filter (bitOf vmask)).length

/-- The index window with a segment of a variant in it, and the one after it (R319, R322, R338). -/
def IMem.windowAt (m : IMem) (variant seg : Nat) : IMem :=
  { m with table := m.nseg.getD variant 0 != 0, copying := [], bad := []
           win := if m.nseg.getD variant 0 = 0 then [] else if seg + 1 < m.nseg.getD variant 0 then mapPut [(seg % 2, seg)] ((seg + 1) % 2) (seg + 1)
             else [(seg % 2, seg)] }

/-- A vault at a switch of variant: its deadlines are rebased by a function (R178), and the cap on writes counts from the switch on (R29). -/
def Vault.replan (v : Vault) (f : Nat → Nat) : Vault :=
  { v with banks := v.banks.map fun b => (b.1, { b.2 with deadline := f b.2.deadline }), wcap := [] }

/-- A tile switched from a variant to another at cycle c (R321, R322): no bundle of the new variant has issued, so no shade stands (R59). -/
def Tile.replan (t : Tile) (vmask old new c : Nat) : Tile :=
  let pc := t.flow.rpl.getD t.flow.pc
  let word := pc.off % 65536 + pc.seg * 65536
  let row := t.imem.replans.find? fun r => (r.getD (variantIndex vmask old) []).getD 0 0 == word
  match row with
  | none => t
  | some r =>
    let e := r.getD (variantIndex vmask new) []
    let at_ : PC := { seg := e.getD 0 0 / 65536, off := e.getD 0 0 % 65536 }
    let loops := (List.zipIdx t.flow.loops.reverse).map fun x =>
      { x.1 with start := field (e.getD (x.2 + 1) 0) 15 0, last := field (e.getD (x.2 + 1) 0) 31 16 : LoopEntry }
    let rep := t.flow.iterStart
    let succ : PC := if t.handsOver new at_ then { seg := at_.seg + 1, off := 0 } else t.successor new at_
    let next : PC := match loops.reverse with
      | l :: _ => if rep then { succ with off := l.start } else succ
      | [] => succ
    { t with
      flow := { t.flow with pc := next, loops := loops.reverse, due := c + t.escapedAt new next, rpl := none, shade := [] }
      imem := t.imem.windowAt new next.seg }

/-- A tile has stopped where its partition stops: it runs or has halted. -/
def Tile.atPoint (t : Tile) : Bool := t.flow.st == .running || t.flow.st == .halted

/-- A hold that never ends, with which a kernel ends for thermal overrun (R27, R28, R30, R323). -/
def State.thermalOverrun (s : State) (n : Nat) : State :=
  match s.kernel? n with
  | none => s
  | some k =>
    if k.ending.isSome then s
    else
      let s := s.beginHold n 9
      (s.updTiles k.tiles fun t => { t with vault := { t.vault with selfRef := true } }).updKernel n fun k => k.endFaulted 3

/-- The switch of kernel x to variant v (R322). -/
def State.switchVariant (s : State) (n : Nat) (k : Kernel) (v : Nat) : State :=
  let new := { k with variant := v, slow := v == 3 }
  let f := rebase k.cycle k.period new.period new.params.tREFB
  let s := s.updTiles k.tiles fun t => (if t.runs then t.replan k.img.vmask k.variant v k.cycle else t).updVault fun x => x.replan f
  ((s.setKernel n { new with st := .held }).endHold n 6).timeCall n

/-- REPLAN_SWITCH (R322): y = 0, at the replan point the loader selects a variant, and holds the partition to switch; y = 1 ends the switch, to the
variant that stands in the event's tile field. A loop taken back there clears the call for variant 3 of every kernel (R29, R30). A replan point at whose
cycle c′ a tile stands in a stop is cancelled (DESIGN CHOICE, log 88). -/
def execReplanSwitch (s : State) : Host.Outcome State Fault Refusal :=
  .next (
    let n := s.ev.x
    match s.kernel? n with
    | none => s
    | some k =>
      if s.ev.y = 1 then (if k.st = .replanning then s.switchVariant n k s.ev.tile else s)
      else
        let due := k.replanAt.isNone || (s.tilesOf k).all fun t => t.2.atPoint
        let s := s.setKernel n { k with replanAt := none }
        if !due then s else
        let s := (({ s with health := s.health.takeBack } : State).timeCalls).updKernel n fun k => { k with callFrom := [] }
        match k.nextVariant (s.health.select k.die0 k.shape k.variant) with
        | none => s.thermalOverrun n
        | some v =>
          if v = k.variant then s.timeCall n
          else
            let s := (s.beginHold n 6).updKernel n fun k => { k with st := .replanning }
            (s.at (s.wall + Config.freeNat s.free % nsUnits 20000 + 1) { i := .replanSwitch, arg := { tile := v, x := n, y := 1 } }).tickFree)

/-! ## KERNEL_COMPLETE (R325 to R327, R331) -/

/-- The rows that land the stamps of a tile's buffer stream, which belong to its last transfer (R229). -/
def Tile.stampRows (t : Tile) (id : TileId) (x : Stream) : List Due :=
  let mine := fun (r : Result) => match x.dest, r.dst with
    | .buffer k _ _ _ _, .tag k' _ => k == k' && r.due + 1 == x.first + x.n
    | _, _ => false
  (t.flight.filter mine).map fun r => { i := .resultLanding, arg := { tile := id, x := r.seq } }

/-- The row that goes on with a tile's first stream, one transfer at a time, since a transfer that fails is retried before what follows it (R187, R325):
the slots of a write are taken from staging first, and the last transfer of a read brings the stamps of its buffer. -/
def Tile.streamRow (t : Tile) (id : TileId) : Option (List Due) :=
  t.vault.streams.head?.map fun x =>
    if x.read then { i := .vaultReadTransfer, arg := { tile := id, x := x.seq } } :: if x.done + 1 = x.n then t.stampRows id x else []
    else [{ i := .vaultWriteTransfer, arg := { tile := id, x := x.seq, y := if x.taken.length < x.n then 0 else 1 } }]

/-- The rows that apply a tile's requests and event sets still on their way (R326). -/
def Tile.requestRows (t : Tile) (id : TileId) : List Due :=
  (t.sync.reqs.map fun r => if r.kind.toCistern then { i := .cisternRequestApply, arg := { tile := id, x := r.die, y := r.seq } }
    else { i := .sluiceStartArrival, arg := { tile := id, y := r.seq } }) ++
  t.sync.sets.map fun x => { i := .eventLatchSet, arg := { tile := x.tile, x := id, y := x.due } }

/-- The rows that land the flits still on their way to a tile. -/
def Kernel.flitRows (k : Kernel) (n : Nat) : List Due :=
  (k.mesh.filter fun f => f.gone.isNone && !f.landed && f.port.isNone).map fun f => { i := .meshFlitArrival, arg := { tile := f.dst, x := f.id, y := n } }

/-- The rows of the byte decrements on their way to the weirs. -/
def Tile.decRows (t : Tile) (id : TileId) : List Due :=
  t.sync.decs.map fun d => { i := .weirByteDecrement, arg := { tile := id, x := d.due, y := d.addr } }

/-- A faulted ending stops the partition (R325): the tiles stop, the flits land, the requests are applied, the hold interval ends; the streams finish
before the kernel's record is written. -/
def State.closeKernel (s : State) (n : Nat) (k : Kernel) : State :=
  let rows := k.flitRows n ++ k.tiles.flatMap fun t => (s.tile t).requestRows t
  let s := match k.holdFrom with
    | some w => s.recordHold n w k.holdMask
    | none => s
  let s := s.updTiles k.tiles fun t =>
    if t.runs then { t with flow := { t.flow with st := .stopped, stopAt := k.cycle } } else t
  (s.updKernel n fun k => { k with closed := true, holds := [], holdMask := 0, holdFrom := none, linkFrom := none, hostFrom := none, recv := []
                                   horizon := none, reached := none, tend := s.wclk, tcyc := k.cycle }).push
    (rows ++ [{ i := .kernelComplete, arg := { x := n } }])

/-- The completion record of a kernel (R327). -/
def Kernel.record (k : Kernel) (status : Nat) : List Nat :=
  let f := k.first
  let tcyc := match status, f with
    | 1, _ | _, none => k.tcyc
    | _, some f => f.cycle
  [status + k.variant * 2 ^ 4 + (f.map FirstFault.cause).getD 0 * 2 ^ 8 + (f.map FirstFault.pos).getD 0 * 2 ^ 16 + k.nflt * 2 ^ 32,
   (f.map FirstFault.pc).getD 0 + (f.map FirstFault.info).getD 0 * 2 ^ 32, k.tstart % 2 ^ 64, k.tend % 2 ^ 64, k.holdSum,
   tcyc % 2 ^ 48, (k.lyield.getD (2 ^ 48 - 1)) % 2 ^ 48 + min k.nhold 65535 * 2 ^ 48, k.thash.toNat]

/-- A row that acts for a kernel and means nothing after it. -/
def ofKernel : Instr → Bool
  | .handlerBundleIssue | .resultLanding | .busRetry | .laneSwap | .segmentCopyComplete | .recordLoadComplete | .retrainingDue
  | .forcedRetraining => true
  | _ => false

/-- A row that names a kernel in x. -/
def namesKernel : Instr → Bool
  | .selfRefreshEntry | .replanSwitch | .linkReceiveTimeout | .variantWaitTimeout | .gangSliceAbort | .sliceStartTimeReached | .timetableStart
  | .kernelComplete | .contextSaveComplete => true
  | _ => false

/-- A row that means nothing after kernel n. -/
def Kernel.owns (k : Kernel) (n : Nat) (d : Due) : Bool :=
  (ofKernel d.i && inPartition k.die0 k.shape (dieOf d.arg.tile)) || (namesKernel d.i && d.arg.x == n)

/-- The partition of kernel n freed: its banks closed, its rows and its agents' asks dropped, and the contexts that wait for a partition looked at again. A
handler that had not ended, and its landing queue, stay as they stand (R347). -/
def State.freePartition (s : State) (n : Nat) (k : Kernel) : State :=
  let s := ({ s with agenda := s.agenda.filter fun a => !k.owns n a.2 } : State).dropAsks (k.owns n)
  let s := s.updTiles k.tiles fun t =>
    ({ t with flow := { t.flow with st := if t.flow.st = .yielded then .yielded else .idle }
              flight := if t.flow.handler then t.flight.filter (fun r => r.dst.capturable) else [], loads := [], sync := { t.sync with reqs := [], past := [], sends := [], sets := [], decs := [] } } : Tile).updVault fun v =>
      { v with banks := v.banks.map (fun b => (b.1, { b.2 with st := .idle, ap := none, lend := 0 })), streams := [], retries := [], selfRef := false }
  s.leavePartition n

/-- What the context of a kernel becomes at the kernel's end with a status (R331, R346). -/
def Context.afterKernel (c : Context) (k : Kernel) (status : Nat) : Context :=
  if c.st = .destroyed then { c with kernel := none }
  else if status = 1 then { c with st := .loaded, kernel := none }
  else if status = 4 then
    let c := { c with begun := k.begun, colls := c.colls.filter fun x => decide (x.2.num < mapGet 0 k.begun x.1) }
    if k.restored then { c with st := .saved } else { c with st := .loaded, kernel := none }
  else { c with st := .faulted, kernel := none }

/-- A channel's part of a context, to be saved with it (R310): the job that runs, which has finished its unit, goes on first at restore. -/
def Channel.partOf (x : Channel) (c : Nat) : Channel :=
  { queue := x.queue.filter fun y => y.ctx == c, refused := x.refused.filter fun y => y.2.ctx == c
    resume := ((x.job.toList ++ x.resume).filter fun j => j.start.ctx == c).map fun j => { j with begun := none } }
/-- What stays of a channel when a context is saved. -/
def Channel.without (x : Channel) (c : Nat) : Channel :=
  { queue := x.queue.filter fun y => y.ctx != c, refused := x.refused.filter fun y => y.2.ctx != c
    resume := x.resume.filter fun j => j.start.ctx != c, job := x.job.filter fun j => j.start.ctx != c }

/-- The sluice channels and the collectives of a context taken from its dies, by their place in the partition (R310, R364); what stays goes on. -/
def State.takeChans (s : State) (c die0 shape : Nat) : State :=
  let dies := List.range (shapeDies shape)
  let got := dies.flatMap fun d => (s.die (die0 + d)).chans.filterMap fun x =>
    let p := x.2.partOf c
    if p = {} then none else some (64 * d + x.1, p)
  let colls := dies.flatMap fun d => ((s.die (die0 + d)).coll.filter fun x => x.ctx == c).map fun x => (d, { x with sent := [] })
  let s := s.dropAsks fun d => (d.i = .jobUnit ∨ d.i = .jobCompletionRecord) ∧ inPartition die0 shape d.arg.tile ∧
    ((s.chan d.arg.tile d.arg.x).job.any fun j => j.start.ctx == c)
  let s := s.dropAsks fun d => d.i = .collectiveComplete ∧ inPartition die0 shape d.arg.tile ∧ colls.any fun x => x.2.order == d.arg.x
  let s := dies.foldl (fun (s : State) d =>
    let e := die0 + d
    let idle := (s.die e).chans.filter fun x => (x.2.job.any fun j => j.start.ctx == c) && !((x.2.without c).queue.isEmpty && (x.2.without c).resume.isEmpty)
    let s := s.updDie e fun x => { x with
      chans := (x.chans.map fun y => (y.1, y.2.without c)).filter fun y => y.2 != {}
      coll := x.coll.filter fun y => y.ctx != c }
    (idle.foldl (fun (s : State) x => s.soon .jobApply e x.1) s).nextCollective e) s
  s.updCtx c fun x => { x with chans := got, colls := colls }

/-- The end of a kernel with its record written (R316, R325, R331): its context is what R331 makes of it, and its partition is idle. -/
def State.endKernel (s : State) (n : Nat) (k : Kernel) : State :=
  let status := k.ending.getD 1
  let s := if status = 4 ∧ k.restored then s.takeChans k.ctx k.die0 k.shape else s
  let s := (s.updCtx k.ctx fun c => c.afterKernel k status).freePartition n k
  if (s.ctx k.ctx).launches.isEmpty then s else s.loaderSoon .kernelLoad k.ctx

/-- KERNEL_COMPLETE (R316, R326): y = 0, the record of kernel x is written once its writes, requests and retries are done, and it is completed or faulted;
y = 1 begins a faulted ending, y = 2 ends the kernel. -/
def execKernelComplete (s : State) : Host.Outcome State Fault Refusal :=
  .next (
    let n := s.ev.x
    match s.kernel? n with
    | none => s
    | some k =>
      if s.ev.y = 1 then (if k.closed then s else s.closeKernel n k)
      else if s.ev.y = 2 then s.endKernel n k
      else if k.tiles.any fun t => !(s.tile t).vault.retries.isEmpty then s.loaderSoon .kernelComplete n
      else if k.closed && k.tiles.any fun t => !(s.tile t).vault.streams.isEmpty then
        s.push ((k.tiles.findSome? fun t => (s.tile t).streamRow t).getD [] ++ [{ i := .kernelComplete, arg := { x := n } }])
      else if k.tiles.any fun t => !(s.tile t).sync.decs.isEmpty then
        s.push ((k.tiles.flatMap fun t => (s.tile t).decRows t) ++ [{ i := .kernelComplete, arg := { x := n } }])
      else
        let status := k.ending.getD 1
        let k := { k with st := if status = 1 then .completed else .faulted }
        ((s.setKernel n k).kernelRecord k.ctx k.launch (k.record status)).push [{ i := .kernelComplete, arg := { x := n, y := 2 } }])

end Sys2Proof.Machine
end

