-- ==== Sys2Proof/Machine/Contexts.lean ====
section
/-!
DEFINITION. Machine/Contexts.lean: contexts (R329 to R332), pre-emption, save and restore (R310, R333 to R339), gang slices (R345, R346).
An event names a kernel, by the first die of its partition, or a context in x.
-/

namespace Sys2Proof.Machine

/-! ## Tables (R214, R215, R306, R308, R330) -/

/-- The byte offset of a context's save area in each vault, coded as grain tgt (R330). -/
def Context.saveAt (c : Context) : Nat := field (c.descWord 7) 40 11

/-- Slices of n bytes, k of them. -/
def slices (n k : Nat) (bs : List Byte) : List (List Byte) := (List.range k).map fun i => (bs.drop (n * i)).take n

/-- The grain table that a descriptor names, read from its vault: gtab is coded as grain tgt (log 20). -/
def State.readGrains (s : State) (c : Context) : State × List (List Word) :=
  let n := field (c.descWord 4) 6 0
  match s.vaultRead (tileOfPos c.die0 c.shape (field (c.descWord 3) 10 0)) 2 (field (c.descWord 3) 40 11) (32 * n) with
  | (s, .ok bs) => (s, (slices 32 n bs).map wordsOf)
  | (s, .error _) => (s, [])

/-- Two grains hold a common address. -/
def Grain.overlaps (a b : Grain) : Bool := decide (a.gva < b.gva + b.cnt * b.size) && decide (b.gva < a.gva + a.cnt * a.size)

/-- No grain of a list overlaps a later one. -/
def disjointGrains : List Grain → Bool
  | [] => true
  | g :: r => r.all (fun h => !g.overlaps h) && disjointGrains r

/-- A grain table can be installed (R215). -/
def grainsOk (gs : List (List Word)) : Bool := (gs.filterMap grainOf).all Grain.ok && disjointGrains (gs.filterMap grainOf)

/-- A table of n bytes at an address lies in a grain of kind 2 or 4 (R330). -/
def Context.tableIn (c : Context) (a n : Nat) : Bool := match c.grain a with
  | some g => (g.kind == 2 || g.kind == 4) && g.covers a n
  | none => false

/-- The grain table itself lies in a grain of kind 2 or 4. -/
def Context.grainTableIn (c : Context) : Bool := (c.grains.filterMap grainOf).any fun g =>
  (g.kind == 2 || g.kind == 4) && field g.tgt 10 0 == field (c.descWord 3) 10 0 && decide (field g.tgt 40 11 ≤ field (c.descWord 3) 40 11) &&
    decide (field (c.descWord 3) 40 11 + 32 * field (c.descWord 4) 6 0 ≤ field g.tgt 40 11 + g.cnt * g.size)

/-- A descriptor's reserved fields are zero, and its numbers in range (R252, R330). -/
def descOk (d : List Word) : Bool :=
  let c : Context := { desc := d }
  d.length == 32 && field (c.descWord 0) 31 14 == 0 && (d.drop 10).all (· == 0) &&
    decide (c.shape < 4) && decide (c.die0 % shapeDies c.shape = 0) &&
    decide (1 ≤ c.objLen) && decide (c.objLen ≤ 65536) && decide (1 ≤ field (c.descWord 4) 6 0) && decide (field (c.descWord 4) 6 0 ≤ 64) &&
    decide (c.saveAt % 2048 = 0)

/-- The keys of a tenant's context (R25): free values. The system context has none. -/
def State.giveKeys (s : State) (n : Nat) : State :=
  if n = 0 then s
  else { s with sec := { s.sec with keys := mapPut s.sec.keys n ⟨s.freeDigest 0, s.freeDigest 4, s.freeDigest 8⟩ }, free := s.free + 12 }

/-- The bytes of a tile's save area (R335). -/
def saveSize : Nat := 346624

/-- The bytes of the save area of a partition position (R335). -/
def saveBytes (shape p : Nat) : Nat := saveSize + if p = 0 then 32768 * shapeDies shape else 0

/-- The service banks of the vaults of a die (R181): those of the image of the kernel that is on it; with none, those that the loader keeps as such, a free
value (log 20). -/
def State.serviceBanks (s : State) (die : Nat) : Nat := match kernelOfDie s.kernels die with
  | some (_, k) => k.img.sbmask
  | none => (Config.serviceBanks die).toNat

/-- The save area lies wholly in service banks of every vault of the partitions that the context is assigned to (R329, R330). -/
def State.saveOk (s : State) (c : Context) : Bool :=
  c.homes.all fun h => (List.range (256 * shapeDies c.shape)).all fun p =>
    decide (c.saveAt + saveBytes c.shape p ≤ 2 ^ 30) &&
      (vaultNeeds 0 c.saveAt (saveBytes c.shape p) false).all fun n => bitOf (s.serviceBanks (dieOf (tileOfPos h c.shape p))) n.2.1

/-- Two contexts may be assigned at once (R331): they share no queue, and no bytes of a vault in their save areas. -/
def Context.apart (a b : Context) : Bool :=
  ((List.range 64).all fun q => !(bitOf (a.descWord 9) q && bitOf (b.descWord 9) q)) &&
    !((List.range 8).any (fun d => (a.homes.any fun h => inPartition h a.shape d) && b.homes.any fun h => inPartition h b.shape d) &&
      decide (a.saveAt < b.saveAt + saveBytes b.shape 0) && decide (b.saveAt < a.saveAt + saveBytes a.shape 0))

/-- The queues and the save area of a context are reserved for it: no other context holds any of them. -/
def State.reservable (s : State) (n : Nat) (c : Context) : Bool := s.ctxs.all fun x => x.1 == n || x.2.st == .free || x.2.desc.isEmpty || c.apart x.2

/-- A ring descriptor's 32 bytes (log 17). -/
def ringOf (w : List Word) : Ring :=
  { base := recBits w 0 56 0, lsz := recBits w 0 60 57, wseq := recBits w 1 31 0, cseq := recBits w 1 63 32, rect := recBits w 2 63 0, vec := recBits w 3 63 0 }

/-- A table of k entries of n bytes read at an address, as words. -/
def State.readTable (s : State) (c a n k : Nat) : State × List (List Word) := match s.sysRead c 2 a (n * k) with
  | (s, .ok bs) => (s, (slices n k bs).map wordsOf)
  | (s, .error _) => (s, [])

/-- A list as numbered entries, those that read as an unlisted one left out. -/
def numbered {α : Type} [DecidableEq α] (d : α) (l : List α) : Map α := ((List.zipIdx l).map fun x => (x.2, x.1)).filter fun x => x.2 != d

/-- The object table of a context, as words put into the copies of the dies but that which it was read from (R198). -/
def State.spreadTable (s : State) (n : Nat) (objs : List (List Word)) : State := match (s.ctx n).tablePlace with
  | none => s
  | some (t, o) => s.writeCopies o (objs.flatMap wordBytes) (((s.ctx n).tableTiles t).filter (· != t))

/-- The tables of a context read and placed (R331), its grain table being checked (R215), and a copy of the object table on each die (R198). -/
def State.placeTables (s : State) (n : Nat) : State :=
  let c := s.ctx n
  let (s, temps) := s.readTable n (field (c.descWord 5) 56 0) 64 256
  let (s, rings) := s.readTable n (field (c.descWord 6) 56 0) 32 16
  let (s, objs) := s.readTable n (field (c.descWord 1) 56 0) 128 c.objLen
  let s := s.spreadTable n objs
  s.updCtx n fun x => { x with temps := numbered [] temps, rings := numbered {} (rings.map ringOf), objs := numbered [] objs }

/-- CONTEXT_TABLE_INSTALL (R215, R331): the tables of an assigned context are read, checked and placed. -/
def execContextTableInstall (n : Nat) (s : State) : Host.Outcome State Fault Refusal :=
  .next (
    let c := s.ctx n
    if !s.sec.serves ∨ c.st ≠ .assigned ∨ c.desc = [] then s
    else
      let (s, gs) := s.readGrains c
      if !grainsOk gs then s
      else
        let s := ((s.setCtx n { c with grains := gs }).placeTables n).updCtx n fun x => { x with st := .loaded }
        let s := { s with host := { s.host with ctx := some (s.host.ctx.getD n) } }
        if (s.ctx n).launches.isEmpty then s else s.loaderSoon .kernelLoad n)

/-- The tables that a descriptor names lie in grains of kind 2 or 4 (R330). -/
def Context.tablesIn (c : Context) : Bool :=
  grainsOk c.grains && c.grainTableIn && c.tableIn (field (c.descWord 1) 56 0) (128 * c.objLen) &&
    c.tableIn (field (c.descWord 5) 56 0) 16384 && c.tableIn (field (c.descWord 6) 56 0) 512

/-- A descriptor of the context's number can be accepted: for a free context, or for the system context that the loader assigned at boot. -/
def Context.isOpen (c : Context) (n : Nat) : Bool := c.st == .free || (n == 0 && c.st == .assigned && c.desc.isEmpty)

/-- A context whose descriptor can be changed (R330): one that has a descriptor, and is not destroyed. -/
def Context.changeable (c : Context) : Bool := !c.desc.isEmpty && c.st != .free && c.st != .destroyed

/-- A context with a new descriptor: a changed one keeps its state, its keys and what waits for it, and where its shape stays it is assigned to its former
partitions too (R329). One that has a kernel keeps its shape, its first die and its save area, which the kernel and its save hang on (log 20). -/
def Context.described (old : Context) (desc : List Word) (fresh kernel : Bool) : Context :=
  if fresh then { st := .assigned, desc := desc }
  else
    let w := BitVec.ofNat 64 (setField (recWord desc 0) 8 5 (field (old.descWord 0) 12 8))
    let c := { old with desc := if kernel then (desc.set 0 w).set 7 (BitVec.ofNat 64 (old.descWord 7)) else desc }
    { c with places := if c.shape = old.shape then old.homes.filter (· != c.die0) else [] }

/-- CONTEXT_CREATE (R329 to R331): the context service accepts a descriptor for a free context, or one that changes a context; the queues and the save area
are then reserved for it. -/
def execContextCreate (desc : List Word) (s : State) : Host.Outcome State Fault Refusal :=
  .next (
    let n := field (({ desc := desc } : Context).descWord 0) 7 0
    let fresh := (s.ctx n).isOpen n
    let c := (s.ctx n).described desc fresh ((s.ctx n).loaded.isSome || s.hasKernel n)
    if !descOk desc || !s.sec.serves || !(fresh || (s.ctx n).changeable) || !s.saveOk c || !s.reservable n c then s
    else match s.readGrains c with
      | (s, gs) =>
        let c := { c with grains := gs }
        if c.tablesIn then
          if fresh then (s.giveKeys n).setCtx n c
          else if c.st = .assigned then s.setCtx n c
          else (s.setCtx n c).placeTables n
        else s)

/-! ## Destroying a context (R310, R332) -/

/-- A job of a context that is destroyed (R310). -/
def Job.abort (j : Job) (c : Nat) : Job := if j.start.ctx = c ∧ j.ended.isNone then { j with ended := some (4, 8), begun := none } else j

/-- The sluice jobs of a context end, and so do its collectives (R310, R364). -/
def State.abortJobs (s : State) (c : Nat) : State :=
  let runs := fun (x : Channel) => x.job.any fun j => j.start.ctx == c && j.ended.isNone
  (List.range 8).foldl (fun (s : State) d =>
    let mine := (s.die d).chans.filter fun x => runs x.2
    let hit := (s.die d).coll.any fun x => x.ctx == c
    let s := s.updDie d fun x => { x with
      chans := x.chans.map fun y => (y.1, { y.2 with job := y.2.job.map fun j => j.abort c, resume := y.2.resume.map fun j => j.abort c })
      coll := x.coll.map fun y => if y.ctx = c then { y with aborted := true } else y }
    let s := mine.foldl (fun (s : State) x => s.soon .jobCompletionRecord d x.1) s
    if hit then s.nextCollective d else s) s

/-- A start of a context's tile, as seen from another partition: its ticket names the tile of the same position (R339). -/
def Start.moveTo (x : Start) (old die0 shape : Nat) : Start :=
  { x with tile := x.tile.map fun k => { k with tile := tileOfPos die0 shape (posOfTile old shape k.tile) : Ticket } }

/-- The tile that sent a start again waits for its record (R286). -/
def State.rejoinJob (s : State) (d : Nat) (x : Start) : State := match x.tile with
  | some k =>
    let syncs := (s.ctx x.ctx).footSyncs (s.template x)
    s.updTile k.tile fun t => { t with sync := { t.sync with jobs := t.sync.jobs ++ [{ die := d, seq := k.seq, syncs := syncs }] } }
  | none => s

/-- Two saved parts of a channel, the second of the starts that came later. -/
def Channel.followed (a b : Channel) : Channel := { queue := a.queue ++ b.queue, resume := a.resume ++ b.resume, refused := a.refused ++ b.refused }

/-- The starts of a saved context that came meanwhile taken behind those that were saved with it, and its collectives likewise (R310, R364). -/
def State.takeLate (s : State) (c old shape : Nat) : State :=
  let x := s.ctx c
  (s.takeChans c old shape).updCtx c fun y => { y with
    chans := y.chans.foldl (fun m e => mapPut m e.1 ((mapGet {} x.chans e.1).followed e.2)) x.chans, colls := x.colls ++ y.colls }

/-- A saved context's channels put back on the dies of a partition, with the starts that came meanwhile behind them (R310), and its collectives (R364). Jobs
keep their order among themselves, be they on several channels. -/
def State.putChans (s : State) (c old die0 shape : Nat) : State :=
  let s := s.takeLate c old shape
  let x := s.ctx c
  let rank := fun (j : Job) => s.free + ((x.chans.flatMap fun e => e.2.resume).filter fun i => decide (i.order < j.order)).length
  let colls := x.colls
  let total := (x.chans.flatMap fun e => e.2.resume).length + colls.length
  let s := x.chans.foldl (fun (s : State) (e : Nat × Channel) =>
    let d := die0 + e.1 / 64
    let ch := e.1 % 64
    let resume := e.2.resume.map fun j => { j with start := j.start.moveTo old die0 shape, order := rank j }
    let queue := e.2.queue.map fun y => y.moveTo old die0 shape
    let refused := e.2.refused.map fun y => (y.1, y.2.moveTo old die0 shape)
    let s := s.setChan d ch (let now := s.chan d ch
      { now with resume := resume ++ now.resume, queue := queue ++ now.queue, refused := refused ++ now.refused })
    let s := (resume.map Job.start ++ queue ++ refused.map Prod.snd).foldl (fun s y => s.rejoinJob d y) s
    let s := refused.foldl (fun s y => s.soon .jobCompletionRecord d ch (y.1 + 1)) s
    if (s.chan d ch).job.isNone then s.soon .jobApply d ch else s) s
  let s := (List.zipIdx colls).foldl (fun (s : State) e =>
    let d := die0 + e.1.1
    (s.updDie d fun y => { y with coll := y.coll ++ [{ e.1.2 with order := s.free + total + e.2 }] }).nextCollective d) s
  { s.updCtx c fun x => { x with chans := [], colls := [] } with free := s.free + 2 * total }

/-- A kernel that is yielded ends faulted with a status, and its record is written (R316, R327). -/
def State.endYielded (s : State) (n : Nat) (k : Kernel) (status : Nat) : State :=
  s.kernelRecord n k.launch (({ k with st := .faulted, ending := some status } : Kernel).record status)

/-- A context destroyed (R332). -/
def State.destroy (s : State) (n : Nat) : State :=
  let c := s.ctx n
  let s := match c.st, c.kernel with
    | .saved, some k => s.endYielded n k 5
    | _, _ => s
  let s := match s.boundOf n, c.loaded with
    | some (m, k), _ => (s.launchFailed n k.launch 9 0).leavePartition m
    | none, some k => s.launchFailed n k.launch 9 0
    | none, none => s
  let s := c.launches.foldl (fun s l => s.launchFailed n l 9 0) s
  let s := if c.st = .saved then s.putChans n c.die0 c.die0 c.shape else s
  let s := s.updCtx n fun x => { x with st := .destroyed, doomed := false, loaded := none, launches := [], kernel := none }
  let s := s.kernels.foldl (fun (s : State) (k : Nat × Kernel) => if k.2.ctx = n then s.updKernel k.1 fun k => k.endFaulted 5 else s) s
  let s := s.abortJobs n
  let s := (List.range 64).foldl (fun (s : State) q => if bitOf (c.descWord 9) q ∨ ((s.queue q).en ∧ (s.queue q).ctx = n) then s.disableQueue q 3 else s) s
  s.loaderSoon .contextWipeComplete n

/-- CONTEXT_DESTROY (R332): one that is yielding is destroyed when its save completes; the system context never is. -/
def execContextDestroy (n : Nat) (s : State) : Host.Outcome State Fault Refusal :=
  .next (
    let c := s.ctx n
    if !s.sec.serves ∨ n = 0 ∨ c.st = .free ∨ c.st = .destroyed then s
    else if c.st = .yielding then s.updCtx n fun x => { x with doomed := true }
    else s.destroy n)

/-- A sluice holds a start of a context, or an engine a collective. -/
def State.hasStarts (s : State) (n : Nat) : Bool := (List.range 8).any fun d => ((s.die d).coll.any fun x => x.ctx == n) || (s.die d).chans.any fun x =>
  (x.2.job.toList ++ x.2.resume).any (fun j => j.start.ctx == n) || (x.2.queue ++ x.2.refused.map Prod.snd).any fun y => y.ctx == n

/-- CONTEXT_WIPE_COMPLETE (R331, R332): the save areas of context x, on every partition that it was assigned to, are written zero, then its keys are wiped,
and its number is free. -/
def execContextWipeComplete (s : State) : Host.Outcome State Fault Refusal :=
  .next (
    let n := s.ev.x
    let c := s.ctx n
    if c.st ≠ .destroyed then s
    else if s.hasKernel n || s.hasStarts n then s.loaderSoon .contextWipeComplete n
    else
      let s := c.homes.foldl (fun (s : State) h => (List.range (256 * shapeDies c.shape)).foldl (fun (s : State) p =>
        (s.vaultWrite (tileOfPos h c.shape p) 1 c.saveAt (List.replicate (saveBytes c.shape p) 0)).1) s) s
      let s := s.setCtx n {}
      { s with host := { s.host with ctx := if s.host.ctx = some n then none else s.host.ctx }
               sec := { s.sec with keys := mapDel s.sec.keys n } })

/-- FAULT_ACKNOWLEDGE (R331). -/
def execFaultAcknowledge (n : Nat) (s : State) : Host.Outcome State Fault Refusal :=
  .next (
    let c := s.ctx n
    if !s.sec.serves ∨ c.st ≠ .faulted then s
    else
      let s := s.setCtx n { c with st := .loaded }
      if c.launches.isEmpty then s else s.loaderSoon .kernelLoad n)

/-! ## Pre-emption and save (R333 to R337) -/

/-- PREEMPTION_REQUEST (R333): a request is delivered to the tiles of a kernel at the cycle that it has reached. -/
def execPreemptionRequest (n : Nat) (s : State) : Host.Outcome State Fault Refusal :=
  .next (
    match s.kernel? n with
    | none => s
    | some k => if !s.sec.serves ∨ k.request.isSome ∨ ¬(k.st = .running ∨ k.st = .held ∨ k.st = .replanning) then s
      else s.setKernel n { k with request := some k.cycle })

/-- Values of n bytes each, one after another. -/
def bytesOf (n : Nat) (vs : List Nat) : List Byte := vs.flatMap (natBytes n)

/-- The sequencer block of a tile that yields at cycle y (R336). -/
def Tile.seqBlock (t : Tile) (variant y : Nat) : List Byte :=
  let loops := t.flow.loops.reverse
  bytesOf 8 ([t.flow.pc.off % 65536 + t.flow.pc.seg % 65536 * 65536, y % 2 ^ 48 + variant * 2 ^ 48 + loops.length * 2 ^ 50] ++
    ((List.range 6).flatMap fun i => match loops[i]? with
      | some e => [e.start % 65536 + e.last % 65536 * 65536 + (e.s - 1) * 2 ^ 32, e.n, e.i]
      | none => [0, 0, 0]) ++
    [stagePreds t.flow.loops, t.fmts.fcsr.toNat, t.fmts.efr.toNat, t.ftsr] ++
    ((List.range 16).map fun n => (t.ftRow n).toNat) ++ ((List.range 8).map fun n => (mapGet 0 t.sys.hsv n).toNat) ++
    ((List.range 4).map fun n => (mapGet 0 t.sync.jp n).toNat) ++ [t.sync.wcfg.toNat, b2n t.sync.latch] ++
    ((List.range 4).map fun n => (mapGet 0 t.sys.bpa n).toNat) ++
    [b2n t.sys.ss + b2n t.sys.bpsk * 2, t.sys.istp.toNat, t.sys.dthr.toNat, t.perf.dlcnt] ++
    ((List.range 16).map fun k => (t.ohe k).status) ++ ((List.range 8).map fun n => (mapGet 0 t.perf.pcc n).toNat) ++
    ((List.range 8).map fun n => mapGet 0 t.perf.pcv n + b2n ((mapGet (0 : Word) t.perf.pcc n).getLsbD 8) * 2 ^ 63) ++
    List.replicate 34 0 ++
    ((List.range 64).flatMap fun n => (List.range 4).map fun i => ((mapGet [] t.perf.dl n).getD i 0).toNat) ++ List.replicate 128 0)

/-- The slots that the paired save holds, by number (R245). -/
def Tile.savedSlots (t : Tile) : List Nat :=
  (List.range 128).filter fun n => (List.range 32).any (fun k => t.slotOf k == n) || (List.range 8).any fun k => (t.buf k).valid && (t.buf k).slot == n

/-- A sum of the powers of two of the numbers below n that meet a test. -/
def maskOf (n : Nat) (p : Nat → Bool) : Nat := ((List.range n).filter p).foldl (fun a k => a + 2 ^ k) 0

/-- The scale groups of a tile (R337). -/
def Tile.groupBytes (t : Tile) : List Byte :=
  let slots := t.savedSlots
  let bs := natBytes 16 slots.length ++ slots.flatMap fun n =>
    natBytes 128 (t.scaleSlot n).codes.toNat ++ natBytes 4 (maskOf 32 fun k => t.slotOf k == n) ++
      natBytes 1 (maskOf 8 fun k => (t.buf k).valid && (t.buf k).slot == n) ++ natBytes 1 n ++ natBytes 10 0
  bs ++ List.replicate (5888 - bs.length) 0

/-- The save area of a tile that yields at cycle y (R335). -/
def Tile.saveArea (t : Tile) (variant y : Nat) : List Byte :=
  stagingBytes t.staging 0 stagingSize ++ ((List.range 8).flatMap fun k => natBytes 8192 (t.buf k).data.toNat) ++
    ((List.range 32).flatMap fun n => natBytes 256 (mapGet (0 : VWord) t.regs.v n).toNat) ++
    ((List.range 64).flatMap fun n => natBytes 8 (if n = 0 then 0 else (mapGet (0 : Word) t.regs.s n).toNat)) ++
    ((List.range 8).flatMap fun n => natBytes 8 (mapGet (0 : Mask) t.regs.msk n).toNat) ++
    ((List.range 16).flatMap fun n => natBytes 8 (t.regs.ms.reverse.getD n 0).toNat) ++ natBytes 64 t.regs.ms.length ++
    t.seqBlock variant y ++ t.groupBytes

/-- The cistern save of a partition (R335). -/
def State.cisternSave (s : State) (die0 shape : Nat) : List Byte :=
  (List.range (shapeDies shape)).flatMap fun d => (List.range 4096).flatMap fun w => natBytes 8 (s.cword (die0 + d) (8 * w))

/-- A yield that cannot be at its cycle, since a tile stands in a stop there: the request stands, and lands at a later yield point (R124, R333). -/
def Kernel.putOff (k : Kernel) : Kernel :=
  { k with yieldAt := none, agreed := none, request := some (k.request.getD ((k.yieldAt.map Prod.snd).getD k.cycle)) }

/-- YIELD_STOP (R334): kernel x stops at its yield cycle, every event of it before an issue having taken effect; the sluice jobs of the context and the
agents have up to 4 µs for what they are at. -/
def execYieldStop (s : State) : Host.Outcome State Fault Refusal :=
  .next (
    let n := s.ev.x
    match s.kernel? n with
    | none => s
    | some k => match k.yieldAt with
      | none => s
      | some (y, _) =>
        if k.st ≠ .running ∨ k.ending.isSome then s
        else if k.cycle ≠ y ∨ !(s.tilesOf k).all (fun t => t.2.atPoint) then s.setKernel n k.putOff
        else
          let s := s.updTiles k.tiles fun t => { t with flow := { t.flow with st := if t.runs then .yielded else t.flow.st } }
          let s := (s.setKernel n { k with saving := true, request := none, tend := s.wclk, tcyc := y }).updCtx k.ctx fun x => { x with st := .yielding }
          (s.at (s.wall + Config.freeNat s.free % nsUnits 4000 + 1) { i := .contextSaveComplete, arg := { x := n } }).tickFree)

/-- A job of a context is in a unit and does not wait for an access to go on with it. -/
def State.midUnit (s : State) (c : Nat) : Bool := (List.range 8).any fun d => (s.die d).chans.any fun x =>
  x.2.job.any fun j => j.start.ctx == c && j.ended.isNone && j.mid && !s.asks.any fun a => a.row.i == .jobUnit && a.row.arg.tile == d && a.row.arg.x == x.1

/-- An access of the agents at a partition's vaults can be finished: its banks are all theirs. -/
def State.agentsAtWork (s : State) (k : Kernel) : Bool :=
  s.asks.any fun a => (a.tiles.any fun t => inPartition k.die0 k.shape (dieOf t)) && s.askOpen a

/-- Step 2 of a save (R334): every lend ends, every bank is idle. -/
def State.closeBanks (s : State) (k : Kernel) : State :=
  s.updTiles k.tiles fun t => t.updVault fun v =>
    { v with banks := v.banks.map fun b => (b.1, { b.2 with st := .idle, ap := none, lend := 0, lendEnd := none }) }

/-- Steps 3 and 4 of a save (R334): the tiles' save areas, by partition position, and behind the first the cistern save. -/
def State.writeSaves (s : State) (k : Kernel) (y : Nat) : State :=
  (List.zipIdx k.tiles).foldl (fun (s : State) p => (s.vaultWrite p.1 1 (s.ctx k.ctx).saveAt
    ((s.tile p.1).saveArea k.variant y ++ if p.2 = 0 then s.cisternSave k.die0 k.shape else [])).1) s

/-- CONTEXT_SAVE_COMPLETE (R331, R333, R334): y = 0, the agents finish their accesses and the context's jobs their units, but for what waits for a bank that is
not lent, which makes no progress (R211) and is saved as it stands (log 20), and the banks become idle; y = 1, at
most 1,400 cycles later, the saves are written, the kernel is yielded, and it is saved with its context; its partition is free, and a destroy that waited
takes effect. -/
def execContextSaveComplete (s : State) : Host.Outcome State Fault Refusal :=
  .next (
    let n := s.ev.x
    match s.kernel? n with
    | none => s
    | some k => match k.yieldAt with
      | none => s
      | some (y, c) =>
        if !k.saving then s
        else if s.ev.y = 0 then
          if s.agentsAtWork k then
            (s.push [{ i := .contextSaveComplete, arg := { x := n } }]).finishAgents k.tiles
          else if s.midUnit k.ctx then s.at (s.wall + 1) { i := .contextSaveComplete, arg := { x := n } }
          else
            ((s.closeBanks k).at (s.wall + Config.freeNat s.free % (1400 * k.period) + 1) { i := .contextSaveComplete, arg := { x := n, y := 1 } }).tickFree
        else
          let s := s.writeSaves k y
          let k := { k with st := .yielded, lyield := some c, yieldAt := none, cycle := y, saving := false, agreed := none }
          let doomed := (s.ctx k.ctx).doomed
          let s := (s.setKernel n k).takeChans k.ctx k.die0 k.shape
          let s := (s.updCtx k.ctx fun x => { x with st := .saved, kernel := some k }).freePartition n k
          if doomed then s.destroy k.ctx else s)

/-! ## Restore (R201, R246, R338, R339) -/

/-- The scale groups read back: group g at slot g with generation 0 (R246). -/
def Tile.regroup (t : Tile) (b : List Byte) : Nat → Nat → Tile
  | 0, _ => t
  | n + 1, g =>
    let o := 16 + 144 * g
    let names := le b (o + 128) 4
    let tags := le b (o + 132) 1
    let t := t.setSlot g ⟨BitVec.ofNat 1024 (le b o 128), 0⟩
    let t := (List.range 32).foldl (fun (t : Tile) k => if bitOf names k then t.mapName k g else t) t
    let t := (List.range 8).foldl (fun (t : Tile) k => if bitOf tags k then t.setBuf k { t.buf k with valid := true, slot := g, gen := 0 } else t) t
    t.regroup b n (g + 1)

/-- A saved record-cache entry of a tile re-pinned from the table of context n (R201). -/
def State.repin (s : State) (n : Nat) (t : TileId) (st : Nat) : State × OhEntry :=
  let e : OhEntry := { est := field st 1 0, why := field st 5 2, id := field st 21 6, gen := field st 37 22, nib := bitOf st 38 }
  if e.est = 1 then
    let p := s.pin n t (256 * shapeDies (s.ctx n).shape) (e.id + e.gen * 65536) e.nib
    (p.1, if p.2.est = 1 then p.2 else { e with est := 3 })
  else (s, e)

/-- The record cache of a tile restored from its save area (R201, R335). -/
def State.repinAll (s : State) (n : Nat) (t : TileId) (b : List Byte) : State × Map OhEntry :=
  (List.range 16).foldl (fun (m : State × Map OhEntry) k =>
    let p := m.1.repin n t (le b (0x524F0 + 8 * k) 8)
    (p.1, mapSet {} m.2 k p.2)) (s, [])

/-- The loop stack of a sequencer block, top first. -/
def loopsOf (b : List Byte) : List LoopEntry :=
  ((List.range (field (le b 8 8) 52 50)).map fun i =>
    let w := le b (0x10 + 24 * i) 8
    { start := field w 15 0, last := field w 31 16, n := le b (0x18 + 24 * i) 8, i := le b (0x20 + 24 * i) 8, s := field w 34 32 + 1 : LoopEntry }).reverse

/-- A tile at launch with its save area laid over it (R335 to R338); reserved fields are ignored (R14). -/
def Tile.restored (t : Tile) (variant : Nat) (oh : Map OhEntry) (b : List Byte) : Tile :=
  let q := (b.drop 0x52300).take 4096
  let w := fun (o n : Nat) => wordMap ((List.range n).map fun i => (i, le q (o + 8 * i) 8))
  let cut := fun (f : Nat → Word) (o n : Nat) => wordMap ((List.range n).map fun i => (i, (f (le q (o + 8 * i) 8)).toNat))
  let at_ : PC := { seg := field (le q 0 8) 31 16, off := field (le q 0 8) 15 0 }
  let y := field (le q 8 8) 47 0
  let ftsr := le q 0xB8 8
  let t : Tile := { t with
    flow := { t.flow with pc := at_, loops := loopsOf q }
    regs := { s := wordMap ((List.range 64).map fun n => (n, le b (0x52000 + 8 * n) 8))
              v := (List.range 32).foldl (fun m n => mapSet 0 m n (BitVec.ofNat 2048 (le b (0x50000 + 256 * n) 256))) []
              msk := (List.range 8).foldl (fun m n => mapSet 0 m n (BitVec.ofNat 64 (le b (0x52200 + 8 * n) 8))) []
              ms := ((List.range (le b 0x522C0 8)).map fun n => BitVec.ofNat 64 (le b (0x52240 + 8 * n) 8)).reverse }
    fmts := ({ fcsr := fcsrKept (le q 0xA8 8), efr := efrKept (le q 0xB0 8), ft := cut rowKept 0xC0 16 } : Formats).withSelection
      (field ftsr 3 0) (field ftsr 6 4) (field ftsr 11 8)
    sys := { t.sys with hsv := w 0x140 8, bpa := cut bpaKept 0x1B0 4, ss := bitOf (le q 0x1D0 8) 0, bpsk := bitOf (le q 0x1D0 8) 1
                        istp := istpKept (le q 0x1D8 8), dthr := dthrKept (le q 0x1E0 8) }
    sync := { t.sync with jp := cut jpKept 0x180 4, wcfg := wcfgKept (le q 0x1A0 8), latch := bitOf (le q 0x1A8 8) 0 }
    staging := stagingPut [] 0 (b.take stagingSize)
    imem := t.imem.windowAt variant at_.seg
    oh := oh
    perf := { pcc := cut pccKept 0x270 8, pcv := (List.range 8).foldl (fun m n => mapSet 0 m n (field (le q (0x2B0 + 8 * n) 8) 47 0)) []
              dl := (List.range 64).foldl (fun m n => mapSet [] m n (driftKept (wordsOf ((q.drop (0x400 + 32 * n)).take 32)))) []
              dlcnt := field (le q 0x1E8 8) 31 0 } }
  let t := (List.range 8).foldl (fun (t : Tile) k => t.setBuf k { data := BitVec.ofNat 65536 (le b (0x40000 + 8192 * k) 8192) }) t
  let t := t.regroup (b.drop 0x53300) (field (le b 0x53300 8) 5 0) 0
  { t with flow := { t.flow with due := y + t.escapedAt variant at_ } }

/-- The save areas of a partition's tiles, with the cistern save behind the first; none where one cannot be read. -/
def State.readSaves (s : State) (c : Context) : List Nat → State × Option (List (List Byte))
  | [] => (s, some [])
  | p :: r => match s.vaultRead (tileOfPos c.die0 c.shape p) 1 c.saveAt (saveBytes c.shape p) with
    | (s, .error _) => (s, none)
    | (s, .ok b) => match s.readSaves c r with
      | (s, none) => (s, none)
      | (s, some l) => (s, some (b :: l))

/-- A strong slot of a vault holds bytes of a context's save area or of a copy of its object table (R339). -/
def Context.ownsSlot (c : Context) (t : TileId) (bank page slot : Nat) : Bool :=
  let o := page * 262144 + bank * 2048 + 64 * slot
  let mine := fun (lo n : Nat) => decide (o < lo + n) && decide (lo < o + 64)
  mine c.saveAt (saveBytes c.shape (posOfTile c.die0 c.shape t)) || match c.tablePlace with
    | some (u, base) => (c.tableTiles u).contains t && mine base (128 * c.objLen)
    | none => false

/-- A page holds a brick of an object of a context (R339). -/
def Context.ownsBrick (c : Context) (t : TileId) (bank page : Nat) : Bool :=
  c.objs.any fun o => (recState o.2 == 1 || recState o.2 == 2) && brickOnPage c.die0 c.shape o.2 0 (gMax o.2 false + 1) t bank page

/-- A strong slot of a page with its check word. -/
def slotPart (p : Mem) (slot : Nat) : Mem :=
  p.filter fun c => (decide (64 * slot ≤ c.1) && decide (c.1 < 64 * slot + 64)) || (decide (checkAt 0 slot ≤ c.1) && decide (c.1 < checkAt 0 slot + 8))

/-- System software has copied the bricks, the table copies and the save areas of a context to the same bank, page and slot of the vaults at the same
positions of another partition (R339). -/
def State.copied (s : State) (c : Context) (die0 : Nat) : Bool :=
  (List.range (256 * shapeDies c.shape)).all fun p =>
    let t := tileOfPos c.die0 c.shape p
    let v := (s.tile t).vault
    let w := (s.tile (tileOfPos die0 c.shape p)).vault
    ((v.pages ++ w.pages).map Prod.fst).all fun key =>
      if c.ownsBrick t (key / 4096) (key % 4096) then v.page key == w.page key
      else (List.range 32).all fun i => !c.ownsSlot t (key / 4096) (key % 4096) i || slotPart (v.page key) i == slotPart (w.page key) i

/-- RESTORE (R338, R339): a saved context launches its kernel at the yield point, on an idle partition of its shape, which holds the copies of what it had
on its own; the loader puts the segments of the image into the service banks of its vaults, as at a launch (R319). One that comes for a slice whose abort flit has arrived does not happen (R346); whether a RESTORE after such a flit is still for that slice is
a free value (log 84). -/
def execRestore (n die0 : Nat) (s : State) : Host.Outcome State Fault Refusal :=
  .next (
    let old := s.ctx n
    let shape := old.shape
    match old.st, old.kernel with
    | .saved, some k =>
      if !s.sec.serves ∨ die0 % shapeDies shape ≠ 0 ∨ 8 < die0 + shapeDies shape ∨ !s.partitionIdle die0 shape ∨ (die0 ≠ old.die0 ∧ !s.copied old die0) then s
      else if old.aborted ∧ Config.freeBool s.free then s.tickFree.updCtx n fun x => { x with aborted := false }
      else
        let s := if old.aborted then s.tickFree.updCtx n fun x => { x with aborted := false } else s
        let c := if die0 = old.die0 then s.ctx n else (s.ctx n).movedTo die0
        match (s.setCtx n c).readSaves c (List.range (256 * shapeDies shape)) with
        | (s, none) => s.updCtx n fun x => { x with desc := old.desc, places := old.places }
        | (s, some saves) => match s.readImage n k.launch.image with
          | (s, none) => s.updCtx n fun x => { x with desc := old.desc, places := old.places }
          | (s, some (img, dir)) =>
            let first := saves.headD []
            let y := field (le first 0x52308 8) 47 0
            let variant := field (le first 0x52308 8) 49 48
            let k := { k with die0 := die0, img := k.img.movedTo k.die0 die0, st := .launched, cycle := y, phase := 0, variant := variant
                              slow := variant == 3, restored := true
                              horizon := none, reached := none, holds := [], holdMask := 0, holdFrom := none, linkFrom := none, hostFrom := none
                              handlers := 0, mesh := [], request := none, yieldAt := none, replanAt := none, stops := [], callFrom := [], recv := [], slice := none
                              ending := none, closed := false, saving := false, agreed := none, begun := c.begun }
            let s := (tileImages die0 shape k.img img dir).foldl (fun s e => s.placeSegments k e.1 { imem := e.2.imem }) s
            let s := s.clearDies die0 shape
            let s := (List.range (4096 * shapeDies shape)).foldl (fun (s : State) w =>
              s.setCword (die0 + w / 4096) (8 * (w % 4096)) (le first (saveSize + 8 * w) 8)) s
            let s := ((partTiles die0 shape).zip (saves.zip dir)).foldl (fun (s : State) e =>
              let base := (tileSection img e.2.2 k.img.vmask k.img.nrpl).tile (s.tile e.1) (c.membership s.pkg die0 e.1) [] (y + k.params.tREFB) s.wall
              let p := s.repinAll n e.1 e.2.1
              p.1.setTile e.1 (base.restored variant p.2 e.2.1)) s
            let s := (s.putChans n old.die0 die0 shape).updCtx n fun x => { x with st := .running }
            let s := (s.padLinks die0 shape c.gangRank k.img k.peers).setKernel die0 k
            (s.at (s.wall + Config.freeNat s.free % nsUnits 20000 + 1) { i := .timetableStart, arg := { x := die0 } }).tickFree
    | _, _ => s)

/-! ## Gang slices (R345, R346) -/

/-- The hold before a slice ends when its link time has come and every other member's entry flit has arrived (R345). -/
def State.trySlice (s : State) (n : Nat) : State :=
  match s.kernel? n with
  | none => s
  | some k => match k.slice with
    | none => s
    | some start =>
      let c := s.ctx k.ctx
      if start ≤ s.ltime ∧ k.ending.isNone ∧ (List.range c.gangSize).all (fun r => r == c.gangRank || c.entries.contains r) then
        ((s.setKernel n { k with slice := none }).updCtx k.ctx fun x => { x with entries := [] }).endHold n 1
      else s

/-- The kernel of a context, by its number. -/
def State.kernelOfCtx (s : State) (c : Nat) : Option (Nat × Kernel) := s.kernels.find? fun k => k.2.ctx == c

/-- GANG_ENTRY_FLIT (R345): the entry flit of a member has arrived. -/
def execGangEntryFlit (n rank : Nat) (s : State) : Host.Outcome State Fault Refusal :=
  .next (s.hearReserved (s.ctx n).die0 fun s =>
    let s := s.updCtx n fun x => { x with entries := if x.entries.contains rank then x.entries else rank :: x.entries }
    match s.kernelOfCtx n with
    | some (k, _) => s.trySlice k
    | none => s)

/-- SLICE_START_TIME_REACHED (R345). -/
def execSliceStartTimeReached (s : State) : Host.Outcome State Fault Refusal := .next (s.trySlice s.ev.x)

/-- A waiting member's kernel ends for a slice that is aborted (R346). -/
def State.abortSlice (s : State) (n : Nat) : State :=
  s.updKernel n fun k => { k.endFaulted 4 with slice := none }

/-- GANG_SLICE_ABORT (R346): 500 µs after its start time, the slice that kernel x still waits for is aborted, and its abort flit is sent. -/
def execGangSliceAbort (s : State) : Host.Outcome State Fault Refusal :=
  .next (
    match s.kernel? s.ev.x with
    | none => s
    | some k => match k.slice with
      | none => s
      | some start =>
        if start + 500000 ≤ s.ltime then ((s.abortSlice s.ev.x).updCtx k.ctx fun x => { x with entries := [] }).sendAbort k.ctx else s)

/-- GANG_ABORT_FLIT (R346): a member's abort flit has arrived for the slice of a context. Its kernel ends, or, launched or restored and not yet started, does
not start; a saved or loaded member sends its own abort flit, writes the same record, and a restore for that slice does not happen. -/
def execGangAbortFlit (n : Nat) (s : State) : Host.Outcome State Fault Refusal :=
  .next (s.hearReserved (s.ctx n).die0 fun s =>
    let c := s.ctx n
    let s := s.updCtx n fun x => { x with entries := [] }
    match s.kernelOfCtx n with
    | some (m, k) =>
      if k.st = .launched then s.updCtx n fun x => { x with aborted := true }
      else if k.ending.isNone ∧ !k.saving then (s.abortSlice m).sendAbort n
      else s
    | none => match c.st, c.kernel, c.loaded with
      | .saved, some k, _ => if c.aborted then s else ((s.endYielded n k 4).updCtx n fun x => { x with aborted := true }).sendAbort n
      | .loaded, _, some k => ((s.kernelRecord n k.launch [4, 0, 0, 0, 0, 0, (2 ^ 48 - 1), 0]).updCtx n fun x => { x with loaded := none }).sendAbort n
      | _, _, _ => s)

end Sys2Proof.Machine
end

