-- ==== Sys2Proof/Machine/Secure.lean ====
section
/-!
DEFINITION. Machine/Secure.lean: power-on, life cycle, measurement, attestation and debug unlock (R19 to R25), and the management controller's
readings and what they bring about (R26 to R30). A command that the present state does not allow changes nothing.
-/

namespace Sys2Proof.Machine

/-! ## The life cycle (R19 to R22) -/

/-- The code of a life-cycle state (R19). -/
def LifeCycle.code : LifeCycle → Nat
  | .blank => 0 | .provisioned => 1 | .owned => 2 | .debugUnlocked => 3 | .returned => 4 | .scrapped => 5

/-- lfst (R19). -/
def Security.lfstWord (x : Security) : Nat := x.lfst.code + x.rollback % 256 * 2 ^ 8

/-- The state that the fuses decode to (R19): a pattern that stands for none is treated as scrapped. -/
def Security.fuse (x : Security) : LifeCycle := x.fuses.getD .scrapped

/-- The life-cycle fuses blown, and lfst with them. -/
def Security.become (x : Security) (l : LifeCycle) : Security := { x with fuses := some l, lfst := l }

/-- Firmware runs. -/
def Security.ready (x : Security) : Bool := x.boot == .running

/-- A firmware image is accepted (R22). -/
def Security.takes (x : Security) (f : Firmware) : Bool :=
  signedBy f.sig (x.accepted (x.fuse == .owned || x.fuse == .debugUnlocked)) && decide (x.rollback ≤ f.version)

/-- The fused key hashes as bytes, the vendor's by number and then the owner's (log 13). -/
def Security.hashBytes (x : Security) : List Byte :=
  (x.vendor.flatMap fun h => digestBytes h.2.hash) ++ match x.owner with
    | some h => digestBytes h.hash
    | none => []

/-- A row that comes from outside the device. -/
def isInput : Instr → Bool
  | .vendorProvisioning .. | .ownerEnrolment _ | .returnToken _ | .rollbackAdvance _ | .scrapCommand _ | .attestationReport _ | .dbgctlGo _
  | .programInstall .. | .preemptionRequest _ | .contextCreate _
  | .contextTableInstall _ | .contextDestroy _ | .faultAcknowledge _ | .restore .. | .gangEntryFlit .. | .gangAbortFlit _ | .linkFlitEnqueue ..
  | .flitReplay _ | .creditReturn .. | .linkDown _ | .linkBeacon _ | .collectiveNodeValue .. | .hostMemRead _ | .hostMemWrite ..
  | .hostApertureStart .. | .hostSnoop _ | .systemMeasurementExtend .. | .queueServiceWrite _ | .linkTraining .. | .queueEnable _ | .queueDisable _
  | .powerOn => true
  | _ => false

/-- What the device holds without power: fuses, module flash, and the host's memory. The inputs to come stay. -/
def State.unpowered (s : State) : State :=
  { agenda := s.agenda.filter fun a => isInput a.2.i
    wall := s.wall, free := s.free, pkg := s.pkg, ev := s.ev
    sec := { fuses := s.sec.fuses, lfst := s.sec.lfst, rollback := s.sec.rollback, device := s.sec.device, seed := s.sec.seed, vendor := s.sec.vendor
             owner := s.sec.owner, flash := s.sec.flash, cert := s.sec.cert }
    host := { mem := s.host.mem } }

/-- What the ROM and the firmware extend at a boot that runs an image (R23): the loader's digest is not in the spec, and free. That meas1 takes the
digest of the image's signed body, without its header, is the model's choice (log 13): the spec does not say which of its bytes the digest covers. -/
def State.measured (s : State) (f : Firmware) : State :=
  let x := s.sec.extend 0 (sha256 (natBytes 8 s.sec.lfstWord ++ s.sec.hashBytes))
  let x := (x.extend 1 (sha256 f.sig.body)).extend 2 s.freeDigest
  { s with sec := x, free := s.free + 4 }

/-- The next sample of the sensors (R26), 100 µs ahead: what it will read is free (log 55). -/
def State.nextSample (s : State) : State :=
  if s.agenda.any fun a => match a.2.i with
    | .healthSample _ => true
    | _ => false then s
  else (s.at (s.wall + nsUnits 100000) { i := .healthSample (Config.readings s.free) }).tickFree

/-- The links' silence is watched from power-on (R351). -/
def State.watchLinks (s : State) : State := (List.range 32).foldl (fun (s : State) l => s.at (s.wall + linkSilence) { i := .linkDown l }) s

/-- The modes of the host link, by number. -/
def hostModeOf (n : Nat) : HostMode := if n % 3 = 0 then .cxl3 else if n % 3 = 1 then .cxl2 else .pcie

/-- POWER_ON (R19, R21, R22, R25, R26, R329, R351, R368): the boot of the device; wall time counts from here. The spec does not say how the boot status word codes
the reason of a halt after two refused images: it is a free word (log 5). Which mode the host link trains in lies with the host, and is free (log 85). -/
def execPowerOn (s : State) : Host.Outcome State Fault Refusal :=
  .next (
    let s0 := s.unpowered
    let s : State := { s0 with
      agenda := s0.agenda.map fun (a : Nat × Due) => (a.1 - s.wall, a.2), wall := 0, free := s0.free + 3, health := { power := true }
      sec := { s0.sec with lfst := s0.sec.fuse, nonce := s0.freeNonce, port := s0.sec.fuse == .debugUnlocked }
      host := { s0.host with mode := hostModeOf (Config.freeNat (s0.free + 2)) } }
    let s := s.nextSample.watchLinks
    match s.sec.fuse with
    | .blank => { s with sec := { s.sec with boot := .provisioning } }
    | .scrapped => { s with sec := { s.sec with boot := .halted, bootWord := s.sec.lfstWord } }
    | _ => match (s.sec.flash.take 2).find? s.sec.takes with
      | some f => (({ s with sec := { s.sec with boot := .running } } : State).measured f).updCtx 0 fun c => { c with st := .assigned }
      | none => { s with sec := { s.sec with boot := .halted, bootWord := (Config.freeWord s.free).toNat }, free := s.free + 1 })

/-- VENDOR_PROVISIONING (R20, R21, R24): by the ROM, in blank; the vendor's certificate of the identity key goes into module flash. -/
def execVendorProvisioning (device : Word) (seed k0 k1 k2 k3 : BitVec 256) (s : State) : Host.Outcome State Fault Refusal :=
  .next (
    if s.sec.fuse = .blank ∧ s.sec.boot = .provisioning then
      { s with sec := { s.sec.become .provisioned with
          device := some device, seed := some seed, cert := some (Config.identityCertificate device seed), vendor := [(0, ⟨k0, false⟩), (1, ⟨k1, false⟩), (2, ⟨k2, false⟩), (3, ⟨k3, false⟩)] } }
    else s)

/-- OWNER_ENROLMENT (R20): the command's body begins with the owner's key hash (log 13). -/
def execOwnerEnrolment (cmd : Signed) (s : State) : Host.Outcome State Fault Refusal :=
  .next (
    if s.sec.ready ∧ s.sec.lfst = .provisioned ∧ signedBy cmd (s.sec.accepted false) then
      { s with sec := { s.sec.become .owned with owner := some { hash := BitVec.ofNat 256 (bigEndian (cmd.body.take 32)) } } }
    else s)

/-- No tenant context runs on (R21): each is destroyed, the tenants' keys are wiped, and the queues and launches of context 0 are served no more. -/
def State.endTenants (s : State) : State :=
  let s := s.ctxs.foldl (fun (s : State) (c : Nat × Context) =>
    if c.1 = 0 ∨ c.2.st = .free ∨ c.2.st = .destroyed then s
    else if c.2.st = .yielding then s.updCtx c.1 fun x => { x with doomed := true }
    else s.destroy c.1) s
  let s := s.qe.queues.foldl (fun (s : State) q => if q.2.en then s.disableQueue q.1 0 else s) s
  { s.updCtx 0 (fun c => { c with launches := [] }) with
    qe := { s.qe with mainRun := none, rankRun := none, fetched := [] }, sec := { s.sec with keys := [] } }

/-- The owner's key hash, where it is fused and not revoked. -/
def Security.ownerKey (x : Security) : List (BitVec 256) := match x.owner with
  | some h => if h.revoked then [] else [h.hash]
  | none => []

/-- RETURN_TOKEN (R20). -/
def execReturnToken (cmd : Signed) (s : State) : Host.Outcome State Fault Refusal :=
  .next (
    if s.sec.ready ∧ (s.sec.lfst = .owned ∨ s.sec.lfst = .debugUnlocked) ∧ signedBy cmd s.sec.ownerKey then
      ({ s with sec := { s.sec.become .returned with owner := s.sec.owner.map fun h => { h with revoked := true }, port := false } } : State).endTenants
    else s)

/-- ROLLBACK_ADVANCE (R20): the command's body begins with v (log 13). -/
def execRollbackAdvance (cmd : Signed) (s : State) : Host.Outcome State Fault Refusal :=
  .next (
    let v := bytesNat (cmd.body.take 1)
    let owner := s.sec.lfst == .owned || s.sec.lfst == .debugUnlocked
    if s.sec.ready ∧ (s.sec.lfst = .provisioned ∨ owner) ∧ signedBy cmd (s.sec.accepted owner) ∧ s.sec.rollback < v ∧ v ≤ 255 then
      { s with sec := { s.sec with rollback := v } }
    else s)

/-- SCRAP_COMMAND (R20, R21): every key hash is revoked, and the ROM halts after reporting lfst. -/
def execScrapCommand (cmd : Signed) (s : State) : Host.Outcome State Fault Refusal :=
  .next (
    if s.sec.ready ∧ s.sec.lfst ≠ .scrapped ∧ signedBy cmd (s.sec.accepted false) then
      let x := s.sec.become .scrapped
      ({ s with sec := { x with
          vendor := x.vendor.map fun h => (h.1, { h.2 with revoked := true }), owner := x.owner.map fun h => { h with revoked := true }
          port := false, boot := .halted, bootWord := x.lfstWord } } : State).endTenants
    else s)

/-! ## Measurement and attestation (R23, R24) -/

/-- SYSTEM_MEASUREMENT_EXTEND (R23): meas5 to meas7. -/
def execSystemMeasurementExtend (i : Nat) (digest : BitVec 256) (s : State) : Host.Outcome State Fault Refusal :=
  .next (if s.sec.serves ∧ 5 ≤ i ∧ i ≤ 7 then { s with sec := s.sec.extend i digest } else s)

/-- The first 320 bytes of an attestation report (R24). -/
def Security.reportBody (x : Security) (nonce : BitVec 256) : List Byte :=
  natBytes 4 0x4F484154 ++ natBytes 2 1 ++ natBytes 2 x.lfst.code ++ natBytes 8 (x.device.getD 0).toNat ++ natBytes 16 x.rollback ++
    natBytes 32 nonce.toNat ++ (List.range 8).flatMap fun i => digestBytes (mapGet 0 x.meas i)

/-- ATTESTATION_REPORT (R24): signed by the device identity key, which is derived from the fused seed. -/
def execAttestationReport (nonce : BitVec 256) (s : State) : Host.Outcome State Fault Refusal :=
  .next (
    if s.sec.ready ∧ s.sec.lfst ≠ .blank ∧ s.sec.lfst ≠ .scrapped then
      let body := s.sec.reportBody nonce
      { s with sec := { s.sec with report := body ++ natBytes 64 (Config.identitySign (s.sec.seed.getD 0) (sha256 body)).toNat } }
    else s)

/-! ## Debug unlock (R25) -/

/-- The status that ends an unlock attempt: a failure of R25, or 2. -/
def State.unlockStatus (s : State) (tok : List Byte) : Nat :=
  let x := s.sec
  let kx := le tok 0x20 32
  let ky := le tok 0x40 32
  let allowed := if x.fuse = .provisioned then some (x.accepted false) else if x.fuse = .owned then some x.ownerKey else none
  if le tok 0 4 ≠ 0x4F484455 then 8
  else if !onCurve kx ky then 3
  else match allowed with
    | none => 5
    | some hs =>
      if !hs.contains (sha256 ((tok.drop 0x20).take 64)) then 3
      else if !ecdsaVerify (sha256 (tok.take 0x80)) kx ky (le tok 0x80 32) (le tok 0xA0 32) then 3
      else if some (BitVec.ofNat 64 (le tok 8 8)) ≠ x.device then 4
      else if le tok 4 1 ≠ x.fuse.code then 5
      else if le tok 0x10 16 ≠ x.nonce.toNat then 6
      else if s.ctxs.any (fun c => c.1 != 0 && c.2.st != .free && c.2.st != .destroyed) then 7
      else 2

/-- DBGCTL_GO (R25): the token in the window is verified, and a valid one unlocks debug. -/
def execDbgctlGo (token : List Byte) (s : State) : Host.Outcome State Fault Refusal :=
  .next (
    if s.sec.boot == .off || s.sec.boot == .halted || s.sec.status == 1 then s
    else
      let tok := (token ++ List.replicate 192 0).take 192
      let st := s.unlockStatus tok
      let x := { s.sec with token := tok, status := st, nonce := s.freeNonce }
      let x := if st = 2 then { (x.become .debugUnlocked).extend 4 (sha256 tok) with keys := [], port := true } else x
      { s with sec := x, free := s.free + 2 })

/-! ## Health (R26 to R30) -/

/-- The layer limit of a variant (R27), in steps of 0.125 °C. -/
def layerLimit (v : Nat) : Int := if v = 0 then 8 * 90 else if v = 1 then 8 * 100 else 8 * 110

/-- A reading that, sustained, makes the controller remove package power (R27). -/
def tooHot (r : Readings) : Bool :=
  r.dies.any fun d => d.logic.any (fun x => decide (8 * 115 < x.toInt)) || d.layers.any fun x => decide (8 * 110 < x.toInt)

/-- A kernel that holds its partition and has not ended. -/
def Kernel.live (k : Kernel) : Bool := k.ending.isNone && (k.st == .launched || k.st == .running || k.st == .held || k.st == .replanning)

/-- A loop's readings are beyond their limits (R28): flow below 60 % of its set point, or an outlet above 65 °C. -/
def beyondLimits (c : Coolant) : Bool := decide (100 * c.flow < 60 * c.setPoint) || decide (8 * 65 < c.outlet)

/-- A loop's timers after a sample at wall time w (R28, R29). -/
def CoolingLoop.sample (x : CoolingLoop) (c : Coolant) (w : Nat) : CoolingLoop :=
  if beyondLimits c then { x with bad := some (x.bad.getD w), good := none, back := none }
  else { x with bad := none, good := if x.lost.isSome then some (x.good.getD w) else none }

/-- The rows of a loop whose timers a sample starts: 10 ms beyond the limits it is lost (R28), and a lost one is fit after 1 s within them (R29). -/
def State.timeLoop (s : State) (upper : Bool) (old new : CoolingLoop) : State :=
  let s := if old.bad.isNone && new.bad.isSome then s.at (s.wall + nsUnits 10000000) { i := .coolingLoopLost upper, arg := { y := s.wall } } else s
  if old.good.isNone && new.good.isSome then s.at (s.wall + nsUnits 1000000000) { i := .coolingLoopRestored upper, arg := { y := s.wall } } else s

/-- What the health window shows of a vault, read-only (R190, R398): its lanes as vlane gives them, and its two error logs. -/
def State.healthVault (s : State) (t : TileId) : Nat × LogCopy × LogCopy :=
  let v := (s.tile t).vault
  (v.lanes, v.keptArray, v.keptBus)

/-- HEALTH_SAMPLE (R26 to R30): the readings stand in the health window, and the timers that hang on them run. Any sensors too hot in sample
after sample count as one sustained condition: that it need not be the same sensor is the model's choice (log 55). -/
def execHealthSample (readings : Readings) (s : State) : Host.Outcome State Fault Refusal :=
  .next (
    if !s.health.power then s
    else
      let h := s.health
      let since := if tooHot readings then some (h.hotSince.getD s.wall) else none
      let upper := h.upper.sample readings.upper s.wall
      let lower := h.lower.sample readings.lower s.wall
      let s := ({ s with health := { h with now := readings, stamp := s.wclk, hotSince := since, upper := upper, lower := lower } } : State).timeCalls
      let s := ((s.timeLoop true h.upper upper).timeLoop false h.lower lower).nextSample
      let s := if since.isSome && h.hotSince.isNone then s.at (s.wall + nsUnits 1000000) { i := .packagePowerRemoval, arg := { x := 0, y := s.wall } } else s
      s.push ((s.kernels.filter fun k => k.2.live && decide (layerLimit k.2.variant < s.health.hottest k.2.die0 k.2.shape)).map fun k =>
        { i := .layerLimitExceeded, arg := { x := k.1 } }))

/-- LAYER_LIMIT_EXCEEDED (R27): a layer above the limit of the variant in use ends kernel x. -/
def execLayerLimitExceeded (s : State) : Host.Outcome State Fault Refusal :=
  .next (match s.kernel? s.ev.x with
    | none => s
    | some k => if layerLimit k.variant < s.health.hottest k.die0 k.shape then s.thermalOverrun s.ev.x else s)

/-- VARIANT_WAIT_TIMEOUT (R30): the condition of the event's tile field, which arose at wall time y, has called for another variant of kernel x for
10 ms without a replan point. -/
def execVariantWaitTimeout (s : State) : Host.Outcome State Fault Refusal :=
  .next (match s.kernel? s.ev.x with
    | none => s
    | some k => if k.callFrom.contains (s.ev.tile, s.ev.y) then s.thermalOverrun s.ev.x else s)

/-- A loop's timers. -/
def Health.loop (h : Health) (upper : Bool) : CoolingLoop := if upper then h.upper else h.lower
/-- A loop's timers written. -/
def Health.setLoop (h : Health) (upper : Bool) (x : CoolingLoop) : Health := if upper then { h with upper := x } else { h with lower := x }

/-- COOLING_LOOP_LOST (R28): the loop's readings have been beyond their limits for 10 ms, since wall time y: it is lost, and with both lost, package
power goes within 10 ms. -/
def execCoolingLoopLost (upper : Bool) (s : State) : Host.Outcome State Fault Refusal :=
  .next (
    let x := s.health.loop upper
    if !s.health.power || x.bad != some s.ev.y then s
    else
      let h := s.health.setLoop upper { x with lost := some (x.lost.getD s.wall) }
      let s := ({ s with health := h } : State).timeCalls
      if h.upper.lost.isSome ∧ h.lower.lost.isSome then
        (s.at (s.wall + Config.freeNat s.free % nsUnits 10000000 + 1) { i := .packagePowerRemoval, arg := { x := 1 } }).tickFree
      else s)

/-- COOLING_LOOP_RESTORED (R29): a lost loop's readings have been within their limits for 1 s, since wall time y; the next replan point takes it back
into use. -/
def execCoolingLoopRestored (upper : Bool) (s : State) : Host.Outcome State Fault Refusal :=
  .next (
    let x := s.health.loop upper
    if x.lost.isSome ∧ x.good = some s.ev.y then { s with health := s.health.setLoop upper { x with back := some s.wall } } else s)

/-- PACKAGE_POWER_REMOVAL (R27, R28): x = 0, a reading too hot since wall time y, for 1 ms; x = 1, both loops lost. All contexts are lost. -/
def execPackagePowerRemoval (s : State) : Host.Outcome State Fault Refusal :=
  .next (
    let h := s.health
    if (s.ev.x = 0 ∧ h.hotSince = some s.ev.y) ∨ (s.ev.x = 1 ∧ h.upper.lost.isSome ∧ h.lower.lost.isSome) then s.unpowered else s)

end Sys2Proof.Machine
end

