-- ==== Sys2Proof/Machine/Dispatch.lean ====
section
/-!
DEFINITION. Machine/Dispatch.lean: the one match from a row to its meaning.
-/

namespace Sys2Proof.Machine

/-- The meaning of a row. -/
def exec (i : Instr) (s : State) : Host.Outcome State Fault Refusal :=
  match i with
  | .vendorProvisioning device seed k0 k1 k2 k3 => Sys2Proof.Machine.execVendorProvisioning device seed k0 k1 k2 k3 s
  | .ownerEnrolment cmd => Sys2Proof.Machine.execOwnerEnrolment cmd s
  | .returnToken cmd => Sys2Proof.Machine.execReturnToken cmd s
  | .rollbackAdvance cmd => Sys2Proof.Machine.execRollbackAdvance cmd s
  | .scrapCommand cmd => Sys2Proof.Machine.execScrapCommand cmd s
  | .attestationReport nonce => Sys2Proof.Machine.execAttestationReport nonce s
  | .dbgctlGo token => Sys2Proof.Machine.execDbgctlGo token s
  | .healthSample readings => Sys2Proof.Machine.execHealthSample readings s
  | .coolingLoopLost upper => Sys2Proof.Machine.execCoolingLoopLost upper s
  | .coolingLoopRestored upper => Sys2Proof.Machine.execCoolingLoopRestored upper s
  | .hint n => Sys2Proof.Machine.execHint n s
  | .add d a b => Sys2Proof.Machine.execAdd d a b s
  | .sub d a b => Sys2Proof.Machine.execSub d a b s
  | .mul d a b => Sys2Proof.Machine.execMul d a b s
  | .mulh d a b => Sys2Proof.Machine.execMulh d a b s
  | .mulhu d a b => Sys2Proof.Machine.execMulhu d a b s
  | .div d a b => Sys2Proof.Machine.execDiv d a b s
  | .divu d a b => Sys2Proof.Machine.execDivu d a b s
  | .rem d a b => Sys2Proof.Machine.execRem d a b s
  | .remu d a b => Sys2Proof.Machine.execRemu d a b s
  | .and d a b => Sys2Proof.Machine.execAnd d a b s
  | .or d a b => Sys2Proof.Machine.execOr d a b s
  | .xor d a b => Sys2Proof.Machine.execXor d a b s
  | .andn d a b => Sys2Proof.Machine.execAndn d a b s
  | .shl d a b => Sys2Proof.Machine.execShl d a b s
  | .shr d a b => Sys2Proof.Machine.execShr d a b s
  | .sar d a b => Sys2Proof.Machine.execSar d a b s
  | .rot d a b => Sys2Proof.Machine.execRot d a b s
  | .clz d a => Sys2Proof.Machine.execClz d a s
  | .ctz d a => Sys2Proof.Machine.execCtz d a s
  | .popc d a => Sys2Proof.Machine.execPopc d a s
  | .min d a b => Sys2Proof.Machine.execMin d a b s
  | .max d a b => Sys2Proof.Machine.execMax d a b s
  | .minu d a b => Sys2Proof.Machine.execMinu d a b s
  | .maxu d a b => Sys2Proof.Machine.execMaxu d a b s
  | .sel d a b c => Sys2Proof.Machine.execSel d a b c s
  | .cmp cc d a b => Sys2Proof.Machine.execCmp cc d a b s
  | .movi d v => Sys2Proof.Machine.execMovi d v s
  | .sext d a n => Sys2Proof.Machine.execSext d a n s
  | .zext d a n => Sys2Proof.Machine.execZext d a n s
  | .bfx d a pos len sx => Sys2Proof.Machine.execBfx d a pos len sx s
  | .bfi d a b pos len => Sys2Proof.Machine.execBfi d a b pos len s
  | .idx d a b sh => Sys2Proof.Machine.execIdx d a b sh s
  | .madd d a b c => Sys2Proof.Machine.execMadd d a b c s
  | .br cc a b off => Sys2Proof.Machine.execBr cc a b off s
  | .j off => Sys2Proof.Machine.execJ off s
  | .call d off => Sys2Proof.Machine.execCall d off s
  | .ret a => Sys2Proof.Machine.execRet a s
  | .brme off => Sys2Proof.Machine.execBrme off s
  | .loop a last stages => Sys2Proof.Machine.execLoop a last stages s
  | .lbrk a always => Sys2Proof.Machine.execLbrk a always s
  | .ld d a w sx off => Sys2Proof.Machine.execLd d a w sx off s
  | .st a b w off => Sys2Proof.Machine.execSt a b w off s
  | .stIo a b off => Sys2Proof.Machine.execStIo a b off s
  | .fence sc => Sys2Proof.Machine.execFence sc s
  | .amoCas o d a b c fa => Sys2Proof.Machine.execAmoCas o d a b c fa s
  | .amoAdd o d a b => Sys2Proof.Machine.execAmoAdd o d a b s
  | .amoSwp o d a b => Sys2Proof.Machine.execAmoSwp o d a b s
  | .amoMin o d a b => Sys2Proof.Machine.execAmoMin o d a b s
  | .amoMax o d a b => Sys2Proof.Machine.execAmoMax o d a b s
  | .amoAnd o d a b => Sys2Proof.Machine.execAmoAnd o d a b s
  | .amoOr o d a b => Sys2Proof.Machine.execAmoOr o d a b s
  | .objpin d a => Sys2Proof.Machine.execObjpin d a s
  | .objunp d => Sys2Proof.Machine.execObjunp d s
  | .objq d a sel => Sys2Proof.Machine.execObjq d a sel s
  | .objchk d a b acc => Sys2Proof.Machine.execObjchk d a b acc s
  | .trap code => Sys2Proof.Machine.execTrap code s
  | .mfs d n => Sys2Proof.Machine.execMfs d n s
  | .mts a n => Sys2Proof.Machine.execMts a n s
  | .wfe d => Sys2Proof.Machine.execWfe d s
  | .sev a => Sys2Proof.Machine.execSev a s
  | .mark a tag => Sys2Proof.Machine.execMark a tag s
  | .vfadd f rm mt d a b => Sys2Proof.Machine.execVfadd f rm mt d a b s
  | .vfsub f rm mt d a b => Sys2Proof.Machine.execVfsub f rm mt d a b s
  | .vfmul f rm mt d a b => Sys2Proof.Machine.execVfmul f rm mt d a b s
  | .vfma f rm mt d a b c => Sys2Proof.Machine.execVfma f rm mt d a b c s
  | .vfms f rm mt d a b c => Sys2Proof.Machine.execVfms f rm mt d a b c s
  | .vfnma f rm mt d a b c => Sys2Proof.Machine.execVfnma f rm mt d a b c s
  | .vfdiv f rm mt d a b => Sys2Proof.Machine.execVfdiv f rm mt d a b s
  | .vfsqrt f rm mt d a => Sys2Proof.Machine.execVfsqrt f rm mt d a s
  | .vfmin f mt d a b => Sys2Proof.Machine.execVfmin f mt d a b s
  | .vfmax f mt d a b => Sys2Proof.Machine.execVfmax f mt d a b s
  | .vfabs f mt d a => Sys2Proof.Machine.execVfabs f mt d a s
  | .vfneg f mt d a => Sys2Proof.Machine.execVfneg f mt d a s
  | .vfcmp f cc mt d a b => Sys2Proof.Machine.execVfcmp f cc mt d a b s
  | .vfcvt dst src rm mt d a b hi => Sys2Proof.Machine.execVfcvt dst src rm mt d a b hi s
  | .vfrnd f rm mt d a => Sys2Proof.Machine.execVfrnd f rm mt d a s
  | .vscalb f rm mt d a b => Sys2Proof.Machine.execVscalb f rm mt d a b s
  | .vexp2 mt d a => Sys2Proof.Machine.execVexp2 mt d a s
  | .vlog2 mt d a => Sys2Proof.Machine.execVlog2 mt d a s
  | .vrcp mt d a => Sys2Proof.Machine.execVrcp mt d a s
  | .vrsq mt d a => Sys2Proof.Machine.execVrsq mt d a s
  | .vadd mt d a b => Sys2Proof.Machine.execVadd mt d a b s
  | .vsub mt d a b => Sys2Proof.Machine.execVsub mt d a b s
  | .vmul mt d a b => Sys2Proof.Machine.execVmul mt d a b s
  | .vmulh u mt d a b => Sys2Proof.Machine.execVmulh u mt d a b s
  | .vmad mt d a b c => Sys2Proof.Machine.execVmad mt d a b c s
  | .vand mt d a b => Sys2Proof.Machine.execVand mt d a b s
  | .vor mt d a b => Sys2Proof.Machine.execVor mt d a b s
  | .vxor mt d a b => Sys2Proof.Machine.execVxor mt d a b s
  | .vshl mt d a b => Sys2Proof.Machine.execVshl mt d a b s
  | .vshr mt d a b => Sys2Proof.Machine.execVshr mt d a b s
  | .vsar mt d a b => Sys2Proof.Machine.execVsar mt d a b s
  | .vmin u mt d a b => Sys2Proof.Machine.execVmin u mt d a b s
  | .vmax u mt d a b => Sys2Proof.Machine.execVmax u mt d a b s
  | .vcmp cc mt d a b => Sys2Proof.Machine.execVcmp cc mt d a b s
  | .vsel mt d a b c => Sys2Proof.Machine.execVsel mt d a b c s
  | .vabs mt d a => Sys2Proof.Machine.execVabs mt d a s
  | .vclz mt d a => Sys2Proof.Machine.execVclz mt d a s
  | .vpopc mt d a => Sys2Proof.Machine.execVpopc mt d a s
  | .vclmulLo mt d a b => Sys2Proof.Machine.execVclmulLo mt d a b s
  | .vclmulHi mt d a b => Sys2Proof.Machine.execVclmulHi mt d a b s
  | .vperm mt d a b => Sys2Proof.Machine.execVperm mt d a b s
  | .vshuf mt d a b c => Sys2Proof.Machine.execVshuf mt d a b c s
  | .vbcast mt d a lane => Sys2Proof.Machine.execVbcast mt d a lane s
  | .vredadd f mt d a => Sys2Proof.Machine.execVredadd f mt d a s
  | .vredmax k mt d a => Sys2Proof.Machine.execVredmax k mt d a s
  | .vredmin k mt d a => Sys2Proof.Machine.execVredmin k mt d a s
  | .vscan k mt d a => Sys2Proof.Machine.execVscan k mt d a s
  | .vtopk mt d a b k => Sys2Proof.Machine.execVtopk mt d a b k s
  | .mpush a => Sys2Proof.Machine.execMpush a s
  | .mand d a b => Sys2Proof.Machine.execMand d a b s
  | .mor d a b => Sys2Proof.Machine.execMor d a b s
  | .mnot d a => Sys2Proof.Machine.execMnot d a s
  | .mcnt d a top => Sys2Proof.Machine.execMcnt d a top s
  | .vmov mt d a pair => Sys2Proof.Machine.execVmov mt d a pair s
  | .vmovs k mt d a => Sys2Proof.Machine.execVmovs k mt d a s
  | .vext d a lane sx pair => Sys2Proof.Machine.execVext d a lane sx pair s
  | .mma d a b k => Sys2Proof.Machine.execMma d a b k s
  | .mmaZ d a b k => Sys2Proof.Machine.execMmaZ d a b k s
  | .mmaN d a b k => Sys2Proof.Machine.execMmaN d a b k s
  | .accz d => Sys2Proof.Machine.execAccz d s
  | .accret a b => Sys2Proof.Machine.execAccret a b s
  | .accretAmax d a b => Sys2Proof.Machine.execAccretAmax d a b s
  | .accretApply a b c => Sys2Proof.Machine.execAccretApply a b c s
  | .accretDerive d a b => Sys2Proof.Machine.execAccretDerive d a b s
  | .accrd d a row => Sys2Proof.Machine.execAccrd d a row s
  | .accwr d b row int => Sys2Proof.Machine.execAccwr d b row int s
  | .accwait a => Sys2Proof.Machine.execAccwait a s
  | .accst a b => Sys2Proof.Machine.execAccst a b s
  | .opld d a q cnt bind => Sys2Proof.Machine.execOpld d a q cnt bind s
  | .opst a b q cnt => Sys2Proof.Machine.execOpst a b q cnt s
  | .opclr d => Sys2Proof.Machine.execOpclr d s
  | .scld d a off ip => Sys2Proof.Machine.execScld d a off ip s
  | .scst a b off => Sys2Proof.Machine.execScst a b off s
  | .scmov d a ip => Sys2Proof.Machine.execScmov d a ip s
  | .scmul d a b ip => Sys2Proof.Machine.execScmul d a b ip s
  | .scmax d a b ip => Sys2Proof.Machine.execScmax d a b ip s
  | .scmin d a b ip => Sys2Proof.Machine.execScmin d a b ip s
  | .scq d a f ip => Sys2Proof.Machine.execScq d a f ip s
  | .scset d code ip => Sys2Proof.Machine.execScset d code ip s
  | .scbind d a => Sys2Proof.Machine.execScbind d a s
  | .screl d => Sys2Proof.Machine.execScrel d s
  | .scgen d a ip => Sys2Proof.Machine.execScgen d a ip s
  | .fmt d b => Sys2Proof.Machine.execFmt d b s
  | .ftsel lvl base => Sys2Proof.Machine.execFtsel lvl base s
  | .act a b => Sys2Proof.Machine.execAct a b s
  | .rd a b c sl n => Sys2Proof.Machine.execRd a b c sl n s
  | .rda a b c sl n => Sys2Proof.Machine.execRda a b c sl n s
  | .wr a b c sl n => Sys2Proof.Machine.execWr a b c sl n s
  | .wra a b c sl n => Sys2Proof.Machine.execWra a b c sl n s
  | .pre bank lend => Sys2Proof.Machine.execPre bank lend s
  | .ref bank => Sys2Proof.Machine.execRef bank s
  | .rdop d a b sl n q bind => Sys2Proof.Machine.execRdop d a b sl n q bind s
  | .rdsc d a b c => Sys2Proof.Machine.execRdsc d a b c s
  | .vfence lvl => Sys2Proof.Machine.execVfence lvl s
  | .train q => Sys2Proof.Machine.execTrain q s
  | .bstat d bank => Sys2Proof.Machine.execBstat d bank s
  | .actraw bank page => Sys2Proof.Machine.execActraw bank page s
  | .rdraw c sl n bank => Sys2Proof.Machine.execRdraw c sl n bank s
  | .wrraw c sl n bank => Sys2Proof.Machine.execWrraw c sl n bank s
  | .msend a b c n => Sys2Proof.Machine.execMsend a b c n s
  | .msendv a b c => Sys2Proof.Machine.execMsendv a b c s
  | .mcast a b c n => Sys2Proof.Machine.execMcast a b c n s
  | .lsend a n ch rel => Sys2Proof.Machine.execLsend a n ch rel s
  | .lrecv a n ch acq => Sys2Proof.Machine.execLrecv a n ch acq s
  | .vld mt d a w sx pair off => Sys2Proof.Machine.execVld mt d a w sx pair off s
  | .vst mt a b w pair off => Sys2Proof.Machine.execVst mt a b w pair off s
  | .vgath mt d a b w sx pair off => Sys2Proof.Machine.execVgath mt d a b w sx pair off s
  | .vscat mt a b c w pair off => Sys2Proof.Machine.execVscat mt a b c w pair off s
  | .apst d a b => Sys2Proof.Machine.execApst d a b s
  | .warr d weir die => Sys2Proof.Machine.execWarr d weir die s
  | .wwait d b weir die w => Sys2Proof.Machine.execWwait d b weir die w s
  | .wpoll d weir die => Sys2Proof.Machine.execWpoll d weir die s
  | .wpend d b weir die => Sys2Proof.Machine.execWpend d b weir die s
  | .jcbraise d a b => Sys2Proof.Machine.execJcbraise d a b s
  | .jcbpost d a b => Sys2Proof.Machine.execJcbpost d a b s
  | .jcbwait d a w => Sys2Proof.Machine.execJcbwait d a w s
  | .queueEnable q => Sys2Proof.Machine.execQueueEnable q s
  | .queueDisable q => Sys2Proof.Machine.execQueueDisable q s
  | .programInstall slot kind code sig => Sys2Proof.Machine.execProgramInstall slot kind code sig s
  | .preemptionRequest k => Sys2Proof.Machine.execPreemptionRequest k s
  | .ivLdp d w => Sys2Proof.Machine.execIvLdp d w s
  | .ivLdw d a win o => Sys2Proof.Machine.execIvLdw d a win o s
  | .ivStw d a win o => Sys2Proof.Machine.execIvStw d a win o s
  | .ivMovi d v => Sys2Proof.Machine.execIvMovi d v s
  | .ivMovh d v => Sys2Proof.Machine.execIvMovh d v s
  | .ivAdd d a v => Sys2Proof.Machine.execIvAdd d a v s
  | .ivSub d a v => Sys2Proof.Machine.execIvSub d a v s
  | .ivAnd d a v => Sys2Proof.Machine.execIvAnd d a v s
  | .ivOr d a v => Sys2Proof.Machine.execIvOr d a v s
  | .ivXor d a v => Sys2Proof.Machine.execIvXor d a v s
  | .ivShl d a v => Sys2Proof.Machine.execIvShl d a v s
  | .ivShr d a v => Sys2Proof.Machine.execIvShr d a v s
  | .ivBeq d a n => Sys2Proof.Machine.execIvBeq d a n s
  | .ivBne d a n => Sys2Proof.Machine.execIvBne d a n s
  | .ivBltu d a n => Sys2Proof.Machine.execIvBltu d a n s
  | .ivJf n => Sys2Proof.Machine.execIvJf n s
  | .ivLoop a len max => Sys2Proof.Machine.execIvLoop a len max s
  | .ivRank a => Sys2Proof.Machine.execIvRank a s
  | .ivNeed link cnt => Sys2Proof.Machine.execIvNeed link cnt s
  | .ivTokadd link cnt => Sys2Proof.Machine.execIvTokadd link cnt s
  | .ivJob a die ch => Sys2Proof.Machine.execIvJob a die ch s
  | .ivLaunch a => Sys2Proof.Machine.execIvLaunch a s
  | .ivEvt a => Sys2Proof.Machine.execIvEvt a s
  | .contextCreate desc => Sys2Proof.Machine.execContextCreate desc s
  | .contextTableInstall ctx => Sys2Proof.Machine.execContextTableInstall ctx s
  | .contextDestroy ctx => Sys2Proof.Machine.execContextDestroy ctx s
  | .faultAcknowledge ctx => Sys2Proof.Machine.execFaultAcknowledge ctx s
  | .restore ctx die0 => Sys2Proof.Machine.execRestore ctx die0 s
  | .gangEntryFlit ctx rank => Sys2Proof.Machine.execGangEntryFlit ctx rank s
  | .gangAbortFlit ctx => Sys2Proof.Machine.execGangAbortFlit ctx s
  | .linkFlitEnqueue link ch payload => Sys2Proof.Machine.execLinkFlitEnqueue link ch payload s
  | .flitReplay link => Sys2Proof.Machine.execFlitReplay link s
  | .creditReturn link n => Sys2Proof.Machine.execCreditReturn link n s
  | .linkDown link => Sys2Proof.Machine.execLinkDown link s
  | .linkBeacon time => Sys2Proof.Machine.execLinkBeacon time s
  | .collectiveNodeValue die node value flags => Sys2Proof.Machine.execCollectiveNodeValue die node value flags s
  | .hostMemRead o => Sys2Proof.Machine.execHostMemRead o s
  | .hostMemWrite o line => Sys2Proof.Machine.execHostMemWrite o line s
  | .hostApertureStart o width data => Sys2Proof.Machine.execHostApertureStart o width data s
  | .hostSnoop addr => Sys2Proof.Machine.execHostSnoop addr s
  | .systemMeasurementExtend v digest => Sys2Proof.Machine.execSystemMeasurementExtend v digest s
  | .queueServiceWrite w => Sys2Proof.Machine.execQueueServiceWrite w s
  | .linkTraining link worst => Sys2Proof.Machine.execLinkTraining link worst s
  | .powerOn => Sys2Proof.Machine.execPowerOn s
  | .layerLimitExceeded => Sys2Proof.Machine.execLayerLimitExceeded s
  | .packagePowerRemoval => Sys2Proof.Machine.execPackagePowerRemoval s
  | .variantWaitTimeout => Sys2Proof.Machine.execVariantWaitTimeout s
  | .bundleIssue => Sys2Proof.Machine.execBundleIssue s
  | .handlerBundleIssue => Sys2Proof.Machine.execHandlerBundleIssue s
  | .resultLanding => Sys2Proof.Machine.execResultLanding s
  | .formatWriteEffect => Sys2Proof.Machine.execFormatWriteEffect s
  | .stopHorizon => Sys2Proof.Machine.execStopHorizon s
  | .partitionRelease => Sys2Proof.Machine.execPartitionRelease s
  | .deferredTrap => Sys2Proof.Machine.execDeferredTrap s
  | .tileHalted => Sys2Proof.Machine.execTileHalted s
  | .holdRelease => Sys2Proof.Machine.execHoldRelease s
  | .nop => Sys2Proof.Machine.execNop s
  | .eret => Sys2Proof.Machine.execEret s
  | .eretSkip => Sys2Proof.Machine.execEretSkip s
  | .yield => Sys2Proof.Machine.execYield s
  | .halt => Sys2Proof.Machine.execHalt s
  | .minv => Sys2Proof.Machine.execMinv s
  | .mpop => Sys2Proof.Machine.execMpop s
  | .prea => Sys2Proof.Machine.execPrea s
  | .lqEntryDiscard => Sys2Proof.Machine.execLqEntryDiscard s
  | .lqFlagsWrite => Sys2Proof.Machine.execLqFlagsWrite s
  | .lqvWrite => Sys2Proof.Machine.execLqvWrite s
  | .vwdatWrite => Sys2Proof.Machine.execVwdatWrite s
  | .mwdatWrite => Sys2Proof.Machine.execMwdatWrite s
  | .vlcntWrite => Sys2Proof.Machine.execVlcntWrite s
  | .vinjParityInject => Sys2Proof.Machine.execVinjParityInject s
  | .vinjStuckLane => Sys2Proof.Machine.execVinjStuckLane s
  | .pccClear => Sys2Proof.Machine.execPccClear s
  | .pccReprogram => Sys2Proof.Machine.execPccReprogram s
  | .pccOvfClear => Sys2Proof.Machine.execPccOvfClear s
  | .counterOverflow => Sys2Proof.Machine.execCounterOverflow s
  | .bankActivationComplete => Sys2Proof.Machine.execBankActivationComplete s
  | .autoPrecharge => Sys2Proof.Machine.execAutoPrecharge s
  | .prechargeComplete => Sys2Proof.Machine.execPrechargeComplete s
  | .refreshComplete => Sys2Proof.Machine.execRefreshComplete s
  | .trainingWindowStart => Sys2Proof.Machine.execTrainingWindowStart s
  | .trainingWindowEnd => Sys2Proof.Machine.execTrainingWindowEnd s
  | .lendEnd => Sys2Proof.Machine.execLendEnd s
  | .refreshOverdue => Sys2Proof.Machine.execRefreshOverdue s
  | .vaultReadTransfer => Sys2Proof.Machine.execVaultReadTransfer s
  | .vaultWriteTransfer => Sys2Proof.Machine.execVaultWriteTransfer s
  | .busRetry => Sys2Proof.Machine.execBusRetry s
  | .laneSwap => Sys2Proof.Machine.execLaneSwap s
  | .selfRefreshEntry => Sys2Proof.Machine.execSelfRefreshEntry s
  | .retrainingDue => Sys2Proof.Machine.execRetrainingDue s
  | .forcedRetraining => Sys2Proof.Machine.execForcedRetraining s
  | .segmentCopyComplete => Sys2Proof.Machine.execSegmentCopyComplete s
  | .recordLoadComplete => Sys2Proof.Machine.execRecordLoadComplete s
  | .meshFlitInject => Sys2Proof.Machine.execMeshFlitInject s
  | .meshFlitHop => Sys2Proof.Machine.execMeshFlitHop s
  | .meshFlitArrival => Sys2Proof.Machine.execMeshFlitArrival s
  | .cisternRequestApply => Sys2Proof.Machine.execCisternRequestApply s
  | .weirByteDecrement => Sys2Proof.Machine.execWeirByteDecrement s
  | .eventLatchSet => Sys2Proof.Machine.execEventLatchSet s
  | .packetFetch => Sys2Proof.Machine.execPacketFetch s
  | .packetDispatch => Sys2Proof.Machine.execPacketDispatch s
  | .ivDone => Sys2Proof.Machine.execIvDone s
  | .ivDrop => Sys2Proof.Machine.execIvDrop s
  | .sluiceStartArrival => Sys2Proof.Machine.execSluiceStartArrival s
  | .jobApply => Sys2Proof.Machine.execJobApply s
  | .jobUnit => Sys2Proof.Machine.execJobUnit s
  | .jobCompletionRecord => Sys2Proof.Machine.execJobCompletionRecord s
  | .kernelLoad => Sys2Proof.Machine.execKernelLoad s
  | .kernelBind => Sys2Proof.Machine.execKernelBind s
  | .timetableStart => Sys2Proof.Machine.execTimetableStart s
  | .replanSwitch => Sys2Proof.Machine.execReplanSwitch s
  | .hostServiceTimeout => Sys2Proof.Machine.execHostServiceTimeout s
  | .kernelComplete => Sys2Proof.Machine.execKernelComplete s
  | .contextWipeComplete => Sys2Proof.Machine.execContextWipeComplete s
  | .yieldStop => Sys2Proof.Machine.execYieldStop s
  | .contextSaveComplete => Sys2Proof.Machine.execContextSaveComplete s
  | .gangSliceAbort => Sys2Proof.Machine.execGangSliceAbort s
  | .linkReceiveTimeout => Sys2Proof.Machine.execLinkReceiveTimeout s
  | .linkFlitAccept => Sys2Proof.Machine.execLinkFlitAccept s
  | .collectiveStart => Sys2Proof.Machine.execCollectiveStart s
  | .collectiveComplete => Sys2Proof.Machine.execCollectiveComplete s
  | .sliceStartTimeReached => Sys2Proof.Machine.execSliceStartTimeReached s

end Sys2Proof.Machine
end

