-- ==== Sys2Proof/Machine/Sched.lean ====
section
/-!
DEFINITION. Machine/Sched.lean: what runs next when no row is in hand: the order of the events of a timetable cycle (R56, R124, R163, R268), the
running kernels and the dated rows in wall time (R3, R7), and the words that the interpreters fetch (R294).
-/

namespace Sys2Proof.Machine

/-- A tile's sequencer runs. -/
def Tile.running (t : Tile) : Bool := t.flow.st == .running

/-- A tile runs or has halted. -/
def Tile.runsOrHalted (t : Tile) : Bool := t.flow.st == .running || t.flow.st == .halted

/-- A row that names a tile. -/
def tileRow (i : Instr) (t : TileId) (x : Nat := 0) (y : Nat := 0) : Due := { i := i, arg := { tile := t, x := x, y := y } }

/-! ## The events of a cycle, phase by phase -/

/-- Phase 0: event sets that reach their tiles (R276, R280). -/
def setRows (ts : List (Nat × Tile)) (c : Nat) : List Due :=
  ts.flatMap fun t => (t.2.sync.sets.filter fun x => decide (x.due ≤ c)).map fun x => tileRow .eventLatchSet x.tile t.1 x.due

/-- Phase 1: flits that arrive at their tiles (R255). -/
def arrivalRows (n : Nat) (k : Kernel) : List Due :=
  (k.mesh.filter fun f => f.gone.isNone && !f.landed && f.port.isNone && decide (f.arr ≤ k.cycle)).map fun f => tileRow .meshFlitArrival f.dst f.id n

/-- Phase 2: read transfers (R163). -/
def readRows (ts : List (Nat × Tile)) (c : Nat) : List Due :=
  ts.flatMap fun t => if t.2.running then
    (t.2.vault.streams.filter fun x => x.read && decide (x.first + x.done ≤ c)).map fun x => tileRow .vaultReadTransfer t.1 x.seq else []

/-- Where a landing stands among those of its cycle: writes of fcsr first, binding tags last. -/
def Dest.rank : Dest → Nat
  | .fcsr => 0
  | .tag _ _ => 2
  | _ => 1

/-- Phase 3: results that land (R56). -/
def landingRows (ts : List (Nat × Tile)) (c : Nat) : List Due :=
  ts.flatMap fun t => if t.2.running then
    let rs := t.2.flight.filter (t.2.landsNow c)
    (List.range 3).flatMap fun k => (rs.filter fun r => r.dst.rank == k).map fun r => tileRow .resultLanding t.1 r.seq else []

/-- The events of one bank at cycle c (R161, R177, R181). The deadline of a bank that is lent, or whose lend begins or ends in the cycle, is not
checked: its lend's end gives it a new one. -/
def bankRows (p : VParams) (mask c : Nat) (t : TileId) (v : Vault) (b : Nat) (x : Bank) : List Due :=
  let at_ := fun (o : Option Nat) (lat : Nat) => match o with
    | some a => decide (a + lat ≤ c)
    | none => false
  let lending := x.lend != 0 && (x.lendEnd.isSome || (x.st == .precharging && at_ x.lastPre p.tRP))
  (if x.st == .activating && at_ x.lastAct p.tRCD then [tileRow .bankActivationComplete t b c] else []) ++
  (if at_ x.ap 0 then [tileRow .autoPrecharge t b c] else []) ++
  (if x.st == .precharging && at_ x.lastPre p.tRP then [tileRow .prechargeComplete t b (x.lastPre.getD c + p.tRP)] else []) ++
  (if x.st == .refreshing && at_ x.lastRef p.tRFC then [tileRow .refreshComplete t b c] else []) ++
  (if x.lend != 0 && at_ x.lendEnd 0 then [tileRow .lendEnd t b (x.lendEnd.getD c)] else []) ++
  (if decide (x.deadline < c) && !bitOf mask b && !lending && !v.selfRef then [tileRow .refreshOverdue t b c] else [])

/-- The training windows of a tile at cycle c (R193): those that end, and those of the image that begin, or that are under way, as after a restore,
and not yet noted. -/
def trainRows (k : Kernel) (p : VParams) (t : TileId) (v : Vault) : List Due :=
  (List.range 4).flatMap fun q =>
    let ends := match mapFind v.train q with
      | some e => decide (e ≤ k.cycle)
      | none => false
    let rows := match k.img.trwin[4 * k.variant + q]? with
      | none => []
      | some (f, w) =>
        let first := k.cycle - (k.cycle - f) % w
        let starts := decide (f ≤ k.cycle) && decide (k.cycle < first + p.tTRN) && match mapFind v.train q with
          | some e => decide (e < first + p.tTRN)
          | none => true
        if starts then [tileRow .trainingWindowStart t q first] else []
    (if ends then [tileRow .trainingWindowEnd t q] else []) ++ rows

/-- Phase 4: the events of banks. -/
def vaultRows (ts : List (Nat × Tile)) (k : Kernel) : List Due :=
  ts.flatMap fun t => if t.2.running then
    (t.2.vault.banks.flatMap fun b => bankRows k.params k.img.sbmask k.cycle t.1 t.2.vault b.1 b.2) ++ trainRows k k.params t.1 t.2.vault else []

/-- Tiles that halt (R114): no result in flight, no stream. -/
def haltRows (ts : List (Nat × Tile)) (c : Nat) : List Due :=
  (ts.filter fun t => t.2.running && (match t.2.flow.haltBase with
    | some h => decide (h ≤ c)
    | none => false) && t.2.flight.isEmpty && t.2.vault.streams.isEmpty && decide (t.2.flow.quiet ≤ c)).map fun t => tileRow .tileHalted t.1

/-- A tile runs, or resumes at a cycle before h (R124, R127). -/
def Tile.runsBefore (t : Tile) (c h : Nat) : Bool :=
  t.running || (t.flow.st == .stopped && decide (c < t.flow.stopAt) && decide (t.flow.stopAt < h))

/-- Phase 5: the partition reaches its horizon or a replan point (R124, R322). -/
def stopRows (ts : List (Nat × Tile)) (n : Nat) (k : Kernel) : List Due :=
  if k.ending.isSome then [] else
  (match k.horizon with
    | some h => if k.reached.isNone && (decide (h ≤ k.cycle) || !ts.any fun t => t.2.runsBefore k.cycle h) then [{ i := .stopHorizon, arg := { x := n } }] else []
    | none => []) ++
  (match k.replanAt with
    | some (r, _) => if decide (r ≤ k.cycle) then [{ i := .replanSwitch, arg := { x := n } }] else []
    | none => [])

/-- Phase 6: write transfers made (R163), before the bundle of the cycle, which a failing one keeps from issuing (R117, R188). -/
def writeRows (ts : List (Nat × Tile)) (c : Nat) : List Due :=
  ts.flatMap fun t => if t.2.running then
    (t.2.vault.streams.filter fun x => !x.read && decide (x.done < x.taken.length) && decide (x.first + x.done ≤ c)).map fun x =>
      tileRow .vaultWriteTransfer t.1 x.seq 1 else []

/-- Phase 7: what the cisterns do in a cycle (R268): byte decrements by tile and address, then the requests, by tile and place in issue order, the
samples last; and the starts that reach a sluice. -/
def cisternRows (ts : List (Nat × Tile)) (c : Nat) : List Due :=
  let decs := ts.flatMap fun t => ((t.2.sync.decs.filter fun d => decide (d.due ≤ c)).map fun d => (d.addr, tileRow .weirByteDecrement t.1 d.due d.addr)).foldl
    (fun l d => insertDated d.1 d.2 l) []
  let reqs := fun (sample : Bool) => ts.flatMap fun t =>
    (t.2.sync.reqs.filter fun r => decide (r.due ≤ c) && r.kind.sample == sample).map fun r =>
      if r.kind.toCistern then tileRow .cisternRequestApply t.1 r.die r.seq else tileRow .sluiceStartArrival t.1 0 r.seq
  decs.map Prod.snd ++ reqs false ++ reqs true

/-- Phase 7: after the sequencers' starts, those of the queue engine that have reached a sluice, and then the host's (R305). -/
def outerRows (ds : List (Nat × Die)) : List Due :=
  [false, true].flatMap fun h => ds.flatMap fun d => (d.2.arrivals.filter fun a => a.here && a.host == h).map fun a => tileRow .sluiceStartArrival d.1 2 a.id

/-- Phase 8: the hops of the flits in the mesh, whose senders may have stopped (R253, R256, R409). -/
def hopRows (n : Nat) (k : Kernel) : List Due :=
  (k.mesh.filter fun f => f.gone.isNone && !f.landed && (f.usesAt k.cycle).isSome).map fun f => tileRow .meshFlitHop f.own f.id n

/-- The tiles whose bundle is due. -/
def dueTiles (ts : List (Nat × Tile)) (c : Nat) : List TileId :=
  (ts.filter fun t => t.2.running && t.2.flow.haltBase.isNone && decide (t.2.flow.due ≤ c)).map Prod.fst

/-- The rows that ask for the holds of the bundles due (R37, R359). -/
def holdRows (ts : List (Nat × Tile)) (c : Nat) : List Due := (dueTiles ts c).map fun t => tileRow .bundleIssue t 0 1

/-- Phase 9: traps at a cycle (R117, R409); the holds that the bundles of the cycle ask for come first (R359). -/
def trapRows (ts : List (Nat × Tile)) (c : Nat) : List Due :=
  match (ts.filter fun t => t.2.runsOrHalted && match t.2.flow.cycTraps with
    | x :: _ => decide (x.cycle ≤ c)
    | [] => false).map fun t => tileRow .deferredTrap t.1 with
  | [] => []
  | rows => holdRows ts c ++ rows

/-- Phase 9, after the traps: the partition reaches its yield cycle (R334), every event due at it having taken effect. -/
def yieldRows (n : Nat) (k : Kernel) : List Due := match k.yieldAt with
  | some (y, _) => if y ≤ k.cycle ∧ k.ending.isNone then [{ i := .yieldStop, arg := { x := n } }] else []
  | none => []

/-- Phase 10: the bundles that issue; the holds that one of them asks for come first (R35, R37, R359). -/
def issueRows (ts : List (Nat × Tile)) (c : Nat) : List Due := holdRows ts c ++ (dueTiles ts c).map fun t => tileRow .bundleIssue t

/-- Phase 11: flits read and injected, write transfers taken from staging, link flits accepted (R163, R258, R358). -/
def sendRows (ts : List (Nat × Tile)) (n : Nat) (k : Kernel) : List Due :=
  let c := k.cycle
  (ts.flatMap fun t => if t.2.runsOrHalted then
    (t.2.sync.sends.filter fun x => decide (x.issue + x.next ≤ c)).map fun x => tileRow .meshFlitInject t.1 x.seq else []) ++
  (ts.flatMap fun t => if t.2.running then
    (t.2.vault.streams.filter fun x => !x.read && decide (x.taken.length < x.n) && decide (x.issue + x.taken.length ≤ c)).map fun x =>
      tileRow .vaultWriteTransfer t.1 x.seq else []) ++
  (k.mesh.filter fun f => f.gone.isNone && !f.landed && f.port.isSome && f.num % 2 == 1 && decide (f.arr ≤ c)).map fun f => tileRow .linkFlitAccept f.own f.id n

/-- Phase 13: counters that overflow in the cycle, or would have but for a reprogram (R343, R344). -/
def overflowRows (ts : List (Nat × Tile)) : List Due :=
  ts.flatMap fun t => ((List.range 8).filter fun k => t.2.overflows k || t.2.lateOverflow k).map fun k => tileRow .counterOverflow t.1 k

/-- The rows of a phase. -/
def State.phaseRows (s : State) (n : Nat) (k : Kernel) (phase : Nat) : List Due :=
  let ts := s.tilesOf k
  match phase with
  | 0 => setRows ts k.cycle
  | 1 => arrivalRows n k
  | 2 => readRows ts k.cycle
  | 3 => landingRows ts k.cycle
  | 4 => vaultRows ts k
  | 5 => stopRows ts n k
  | 6 => if (writeRows ts k.cycle).isEmpty then haltRows ts k.cycle else writeRows ts k.cycle
  | 7 => cisternRows ts k.cycle ++ outerRows ((List.range (shapeDies k.shape)).map fun d => (k.die0 + d, s.die (k.die0 + d)))
  | 8 => hopRows n k
  | 9 => if (trapRows ts k.cycle).isEmpty then yieldRows n k else trapRows ts k.cycle
  | 10 => issueRows ts k.cycle
  | 11 => sendRows ts n k
  | 12 => haltRows ts k.cycle
  | _ => overflowRows ts

/-- A phase whose rows do not use up what brings them about: it comes once in a cycle. -/
def onePass (phase : Nat) : Bool := phase == 8 || phase == 13

/-! ## A cycle's begin and end -/

/-- The tiles whose stop cycle the count has reached resume (R127). -/
def State.resume (s : State) (k : Kernel) : State :=
  s.updTiles (((s.tilesOf k).filter fun t => t.2.flow.st == .stopped && t.2.flow.stopAt == k.cycle).map Prod.fst) fun t =>
    { t with flow := { t.flow with st := .running, stopWall := 0 } }

/-- The cycle is one that a WFE waits in (R281). -/
def Tile.waits (t : Tile) (c : Nat) : Bool := t.flight.any fun r => r.isLatch && decide (r.val < c) && decide (c < r.due)

/-- The events of a cycle that no row counts: the array busy, and, in a portable image, the wait of a WFE (R341, R343). -/
def State.countCycle (s : State) (k : Kernel) : State :=
  (s.tilesOf k).foldl (fun (s : State) (x : Nat × Tile) =>
    if !x.2.running then s
    else
      let busy := decide (k.cycle < x.2.matrix.busy)
      let waits := k.img.portable && x.2.waits k.cycle
      let s := if busy || waits then s.updTile x.1 fun t => (t.count 2 (b2n busy)).count 11 (b2n waits) else s
      if waits && x.2.perf.armed then s.updDie (dieOf x.1) fun d => { d with tun := { d.tun with
          waits := bump d.tun.waits 15 (b2n (x.2.flight.any fun r => r.isLatch && r.val + 1 == k.cycle)), waitCy := bump d.tun.waitCy 15 1 } }
      else s) s

/-- The end of a cycle: its counts are added, flits long arrived are forgotten, and the count goes on (R3). -/
def State.endCycle (s : State) (n : Nat) (k : Kernel) : State :=
  let s := s.updTiles (((s.tilesOf k).filter fun t => !(t.2.perf.adds.isEmpty && t.2.perf.marks.isEmpty && t.2.perf.reads.isEmpty)).map Prod.fst) Tile.endCounts
  s.setKernel n { k with cycle := k.cycle + 1, phase := 0, nextWall := s.wall + k.period
                         mesh := k.mesh.filter fun f => decide (k.cycle < f.arr + 64) }

/-- From a phase on, the first phase with rows gives them; last the service agents have their turn (R182), and the cycle ends. -/
def State.fromPhase (s : State) (n : Nat) (k : Kernel) : Nat → Nat → State
  | 0, _ => s.endCycle n k
  | fuel + 1, p =>
    if p = 14 then
      let s := s.serveCycle k
      if s.todo.isEmpty then s.endCycle n k else s.setKernel n { k with phase := 15 }
    else
    let s := if p = 13 then s.countCycle k else s
    let rows := s.phaseRows n k p
    if rows.isEmpty then s.fromPhase n k fuel (p + 1)
    else (s.setKernel n { k with phase := if onePass p then p + 1 else p }).push rows

/-- A kernel's cycle goes on. -/
def State.runCycle (s : State) (n : Nat) (k : Kernel) : State :=
  let s := { s with wall := max s.wall k.nextWall }
  let s := if k.phase = 0 then s.resume k else s
  s.fromPhase n k (15 - k.phase) k.phase

/-! ## What comes next -/

/-- Every part of a halted partition has come to its end (R326): writes at dur, requests applied, flits landed, event
sets at their tiles. -/
def State.settled (s : State) (k : Kernel) : Bool :=
  (k.mesh.all fun f => f.landed || f.gone.isSome) && (s.tilesOf k).all fun t =>
    t.2.flow.st == .halted && t.2.sync.sends.isEmpty && t.2.sync.reqs.isEmpty && t.2.sync.decs.isEmpty && t.2.sync.sets.isEmpty && (t.2.vault.unmet .dur k.cycle).isNone

/-- The row that a kernel asks for at once: its faulted ending, its release, its completion (R127, R325, R326). -/
def State.atOnce (s : State) (e : Nat × Kernel) : Option Due :=
  let k := e.2
  if k.ending.isSome then (if k.closed || k.passes then none else some { i := .kernelComplete, arg := { x := e.1, y := 1 } })
  else if s.canRelease k then some { i := .partitionRelease, arg := { x := e.1 } }
  else if k.passes && k.phase == 0 && k.horizon.isNone && s.settled k then some { i := .kernelComplete, arg := { x := e.1 } }
  else none

/-- The earlier of two kernels in wall time, the lower-numbered one first. -/
def earlier (a : Option (Nat × Kernel)) (b : Nat × Kernel) : Option (Nat × Kernel) := match a with
  | none => some b
  | some x => if b.2.nextWall < x.2.nextWall then some b else a

/-- The running kernel whose cycle comes next. -/
def State.nextKernel (s : State) : Option (Nat × Kernel) := (s.kernels.filter fun k => k.2.passes).foldl earlier none

/-- The wall time of what comes next but for the interpreters: a dated row, or a kernel's cycle. -/
def State.nextWall (s : State) : Option Nat := match s.agenda, s.nextKernel with
  | [], none => none
  | (w, _) :: _, none => some w
  | [], some (_, k) => some k.nextWall
  | (w, _) :: _, some (_, k) => some (min w k.nextWall)

/-- An interpreter's run whose op does not wait for its access. -/
def readyRun (r : Option Run) : Option Run := r.filter fun x => !x.waits

/-- The interpreter whose op comes next (R297), before what else comes at the same time: the rank interpreter's, or the main one's, which goes first where
both are due at once. -/
def State.nextRun (s : State) : Option (Bool × Run) :=
  let x : Option (Bool × Run) := match readyRun s.qe.mainRun, readyRun s.qe.rankRun with
    | some m, some r => some (if r.due < m.due then (true, r) else (false, m))
    | some m, none => some (false, m)
    | none, some r => some (true, r)
    | none, none => none
  x.filter fun y => match s.nextWall with
    | some w => decide (y.2.due ≤ w)
    | none => true

/-- The machine with no row in hand: what a kernel asks for at once, the next dated row, or the next cycle of a kernel; else time passes. -/
def State.tick (s : State) : State :=
  match s.kernels.findSome? s.atOnce with
  | some d => s.push [d]
  | none => match s.agenda, s.nextKernel with
    | [], none => { s with wall := s.wall + 1 }
    | (w, d) :: rest, none => ({ s with agenda := rest, wall := max s.wall w } : State).push [d]
    | [], some (n, k) => s.runCycle n k
    | (w, d) :: rest, some (n, k) =>
      if w ≤ k.nextWall then ({ s with agenda := rest, wall := max s.wall w } : State).push [d] else s.runCycle n k

/-! ## The words that the interpreters fetch (R294) -/

/-- The program slot that a run fetches from. -/
def State.slotOf (s : State) (rank : Bool) (r : Run) : Nat := if rank then (s.queue r.queue).rprog else (s.queue r.queue).prog

/-- The word at a run's program counter. A program installed into the slot while the run is in hand, or a slot that the queue now names otherwise, is read
from at the counter as it stands (DESIGN CHOICE, log 97). -/
def State.fetchWord (s : State) (rank : Bool) (r : Run) : Option (BitVec 32) :=
  (s.program (s.slotOf rank r)).bind fun p => p.code[r.pc]?

/-- An op that only a rank program holds (R294). -/
def isRankOp : Option Instr → Bool
  | some (.ivRank _) | some (.ivNeed _ _) => true
  | _ => false

/-- A word put where the next step fetches it: a program slot of the interpreter that runs it, at the run's program counter. -/
def State.placeWord (s : State) (w : BitVec 32) : State :=
  let rank := isRankOp (decodeIvloha w)
  let old := (if rank then s.qe.rankRun else s.qe.mainRun).getD (newRun 0 [])
  let r := { old with pc := 0, due := 0, waits := false }
  let progs := mapPut s.qe.progs (s.slotOf rank r) { kind := if rank then .rank else .main, code := [w] }
  { s with todo := [], qe := { s.qe with progs := progs, rankRun := if rank then some r else s.qe.rankRun, mainRun := if rank then none else some r } }

end Sys2Proof.Machine
end

