-- ==== Sys2Proof/Machine/Step.lean ====
section
/-!
DEFINITION. Machine/Step.lean: one step of the machine: the row in hand; else the next op of an interpreter; else what comes next in time.
-/

namespace Sys2Proof.Machine

/-- The state in which an interpreter's op is in hand, at the wall time at which it is due. -/
def State.atOp (s : State) (rank : Bool) (r : Run) : State :=
  { s with ev := {}, wall := max s.wall r.due, qe := { s.qe with rankTurn := rank } }

/-- The op at the program counter of an interpreter's run. -/
def runStep (s : State) (rank : Bool) (r : Run) : Host.Outcome State Fault Refusal :=
  match s.fetchWord rank r with
  | none => .refused (.notAnOp 0)
  | some w => match decodeIvloha w with
    | some i => exec i (s.atOp rank r)
    | none => .refused (.notAnOp w.toNat)

/-- One step. -/
def step (s : State) : Host.Outcome State Fault Refusal :=
  match s.todo with
  | e :: rest => exec e.i { s with todo := rest, ev := e.arg }
  | [] => match s.nextRun with
    | some (rank, r) => runStep s rank r
    | none => .next s.tick

/-- The state with an Ivloha word of nbits bits placed where the next step fetches. -/
def State.withFetchWord (s : State) (_nbits w : Nat) : State := s.placeWord (BitVec.ofNat 32 w)

end Sys2Proof.Machine
end

