-- ==== Sys2Proof/Safety.lean ====
section
/-!
DEFINITION. Safety.lean: what a safe run is, and the words that statements are written with.
A statement about a slot instruction gives the whole state after it, so that what it does not name is what it leaves unchanged.
-/

namespace Sys2Proof.Machine

/-- A step that answers a next state. -/
def Completes (i : Instr) (s : State) : Prop := ∃ t, exec i s = .next t

/-- A run of k steps that meets no fault and no refusal. -/
def SafeRun : Nat → State → Prop
  | 0, _ => True
  | k + 1, s => ∃ t, step s = .next t ∧ SafeRun k t

/-- The canonical forms of a vault: its banks, its pages and the bytes of each page, numbers rising. -/
def Vault.Kept (v : Vault) : Prop := RisingMap v.banks ∧ RisingMap v.pages ∧ ∀ e ∈ v.pages, RisingMap e.2

/-- The canonical forms of a tile: its staging in the form of Memory.wf, and its vault, its scalar registers and its numbered system registers. -/
def Tile.Kept (t : Tile) : Prop :=
  Memory.wf t.staging = true ∧ t.vault.Kept ∧ RisingMap t.regs.s ∧ RisingMap t.sys.hsv ∧ RisingMap t.sys.bpa ∧ RisingMap t.sync.jp ∧ RisingMap t.perf.pcc

/-- The canonical forms of a die: its cistern words and its sluice channels. -/
def Die.Kept (d : Die) : Prop := RisingMap d.cistern ∧ RisingMap d.chans

/-- The canonical forms: each tile, die, kernel, context, link, queue, token link and measurement listed once, numbers rising; the host's memory in the form
of Memory.wf; and every tile, the tile kept for a trap, every die and the rings of every context in theirs. -/
def State.MemOk (s : State) : Prop :=
  RisingMap s.tiles ∧ Memory.wf s.host.mem = true ∧ (∀ e ∈ s.tiles, e.2.Kept) ∧ s.cur.pre.Kept ∧
  RisingMap s.dies ∧ (∀ e ∈ s.dies, e.2.Kept) ∧ RisingMap s.kernels ∧ RisingMap s.ctxs ∧ (∀ e ∈ s.ctxs, RisingMap e.2.rings) ∧
  RisingMap s.links ∧ RisingMap s.qe.queues ∧ RisingMap s.qe.tokens ∧ RisingMap s.sec.meas

end Sys2Proof.Machine

namespace Sys2Proof.Claims

open Sys2Proof.Machine

/-! ## The bundle in hand -/

/-- The tile of the bundle in hand, as the slots before have left it. -/
def mine (s : State) : Tile := s.tile s.cur.tile

/-- The bits of scalar source a, as a number. -/
def av (s : State) (a : Reg) : Nat := ((mine s).sreg a).toNat
/-- The bits of the second source, as a number. -/
def bv (s : State) (b : Src) : Nat := ((mine s).bsrc b).toNat
/-- Scalar source a read as signed. -/
def ai (s : State) (a : Reg) : Int := ((mine s).sreg a).toInt
/-- The second source read as signed. -/
def bi (s : State) (b : Src) : Int := ((mine s).bsrc b).toInt

/-- The state after a slot that has made its tile t and done nothing else; in handler mode what the slot has sent on its way
is done at once (R129). -/
def slotDone (s : State) (t : Tile) : State :=
  if s.cur.handler then (s.setTile s.cur.tile t).push (handlerRows s.cur.tile (mine s) t) else s.setTile s.cur.tile t

/-- The cycle at which a result of latency lat lands; in handler mode the landing is at once. -/
def dueAt (s : State) (lat : Nat) : Nat := if s.cur.handler then s.cur.now else s.cur.now + lat

/-- A tile with one more result on its way, the last in issue order. img is the image cycle from which a portable image may read it. -/
def fly (s : State) (t : Tile) (d : Dest) (v lat : Nat) (flags : FlagSet) (keep : Mask) (img : Nat) : Tile :=
  { t with
    flight := t.flight ++ [{ seq := t.flow.seq, due := dueAt s lat, img := img, dst := d, val := v, flags := flags, keep := keep
                             back := s.cur.now + lat }]
    flow := { t.flow with seq := t.flow.seq + 1 } }

/-- A tile with one more scalar result on its way; a result for s0 is discarded, and only a HALT still waits for its cycle (R100, R114). -/
def flyS (s : State) (t : Tile) (d : Reg) (v lat img : Nat) : Tile :=
  if d = 0 then { t with flow := { t.flow with quiet := max t.flow.quiet (dueAt s lat) } }
  else fly s t (.sreg d.toNat) v lat 0 0 img

/-- The instruction completes: it sends v to scalar register d with a latency, raises no flag, and does nothing else. -/
def GivesS (i : Instr) (s : State) (d : Reg) (v lat : Nat) : Prop :=
  ∃ img, exec i s = .next (slotDone s (flyS s (mine s) d v lat img))

/-- The instruction completes by its tile becoming t. -/
def Gives (i : Instr) (s : State) (t : Tile) : Prop := exec i s = .next (slotDone s t)

/-- The instruction traps: its bundle has no effect, and the trap is taken of the tile as it stood before the bundle (R60, R111). -/
def Traps (i : Instr) (s : State) (part cause info : Nat) : Prop :=
  exec i s = .next (({ s with todo := [] } : State).takeTrap s.cur.tile s.cur.pre cause part info s.cur.now 0 false)

/-! ## Control (R59, R105) -/

/-- tgt is the offset that lies d indices from the bundle in hand; an offset that no PC can hold is 65,536 or more (R105). -/
def IsTarget (s : State) (d : Int) (tgt : Nat) : Prop :=
  (0 ≤ (s.cur.pc.off : Int) + d → (s.cur.pc.off : Int) + d < 65536 → (tgt : Int) = (s.cur.pc.off : Int) + d) ∧
  ((s.cur.pc.off : Int) + d < 0 ∨ 65536 ≤ (s.cur.pc.off : Int) + d → 65536 ≤ tgt)

/-- A tile with a taken transfer: it takes effect once the bundle in hand and its two delay bundles have issued; in handler mode at once
(R59, R129). pop: the top loop entry leaves with it. -/
def taken (s : State) (t : Tile) (tgt : Nat) (pop : Bool) : Tile :=
  if s.cur.handler then { t with flow := { t.flow with hpc := tgt } }
  else { t with flow := { t.flow with transfer := some { target := tgt, left := 3, pop := pop } } }

/-- The stream successor of an offset in the segment in hand: one index on, or twenty-five past an escape (R34). -/
def succOff (s : State) (off : Nat) : Nat :=
  if ((mine s).segment s.slotCtx.variant s.cur.pc.seg)[off]? = some 0xFFFF then off + 25 else off + 1

/-- The offset of the bundle that follows the second delay bundle of the bundle in hand. -/
def thirdOff (s : State) : Nat := succOff s (succOff s (succOff s s.cur.pc.off))

/-! ## Staging (R61, R109) -/

/-- The n bytes of staging from an address on, little-endian. -/
def staged (m : Mem) (a n : Nat) : Nat := bytesNat ((List.range n).map fun k => memGet m (a + k))

/-- A staging address reduced to 18 bits and rounded down to a multiple of n (R61). -/
def alignedAt (x : Int) (n : Nat) : Nat := wrap x 18 / n * n

/-- A tile with one more write to staging on its way. code is its width code, captured whether the landing queue takes it (R123, R155); img is the image
cycle from which a portable image may read it. -/
def flyB (s : State) (t : Tile) (code : Nat) (captured : Bool) (bs : List SByte) (lat : Nat) (flags : FlagSet) (img : Nat) : Tile :=
  { t with
    flight := t.flight ++ [{ seq := t.flow.seq, due := dueAt s lat, img := img, dst := .staging code captured, bytes := bs, flags := flags
                             back := s.cur.now + lat }]
    flow := { t.flow with seq := t.flow.seq + 1 } }

/-- n whole bytes of a value, at an address and those that follow it. -/
def bytesAt (a n v : Nat) : List SByte := (List.range n).map fun k => ⟨a + k, 0xFF, BitVec.ofNat 8 (v / 256 ^ k)⟩

/-! ## Lanes and elements (R131 to R138) -/

/-- Lane k of a vector register. -/
def lane (t : Tile) (r : Reg) (k : Nat) : Nat := (t.vreg r).toNat / 2 ^ (32 * k) % 2 ^ 32

/-- Lane k of an integer instruction's second source; an immediate stands in every lane (R136). -/
def laneB (t : Tile) (b : Src) (k : Nat) : Nat := match b with
  | .reg r => lane t r k
  | .imm v => wrap (Imm.simm v).toInt 32

/-- Element e of an operand: a pair of registers for f64, half a lane for the packed formats, a lane otherwise (R132). -/
def elem (t : Tile) (f : Fmt) (r : Reg) (e : Nat) : Nat :=
  if f.isPair then lane t r e + 2 ^ 32 * lane t (r + 1) e
  else if f.isPacked then lane t r (e / 2) / 2 ^ (16 * (e % 2)) % 2 ^ 16
  else lane t r e

/-- Element e of a floating instruction's second source: an immediate is a pattern whose top twenty bits it gives, or more under kx (R136). -/
def elemB (t : Tile) (f : Fmt) (b : Src) (e : Nat) : Nat := match b with
  | .reg r => elem t f r e
  | .imm v =>
    let p := match v with
      | .short x => if f.isPair then x.toNat * 2 ^ 44 else x.toNat * 2 ^ 12
      | .long x => if f.isPair then x.toNat * 2 ^ 12 else x.toNat % 2 ^ 32
    if f.isPacked then p / 2 ^ (16 * (e % 2)) % 2 ^ 16 else p

/-- The elements of a layout. -/
def elemCount (f : Fmt) : Nat := if f.isPacked then 128 else 64

/-- The lanes that are active: all, or under mt those of the top mask (R134). -/
def onMask (s : State) (mt : Bool) : Mask := if mt then (mine s).topMask else BitVec.allOnes 64

/-- The flags raised: those of some active element (R134). -/
def Raised (flags : FlagSet) (f : Fmt) (on : Mask) (g : Nat → FlagSet) : Prop :=
  ∀ j < 6, flags.getLsbD j = true ↔
    ∃ e < elemCount f, on.getLsbD (if f.isPacked then e / 2 else e) = true ∧ (g e).getLsbD j = true

/-- A register's bits whose active lanes are those of g. -/
def LanesAre (v : Nat) (on : Mask) (g : Nat → Nat) : Prop :=
  v < 2 ^ 2048 ∧ ∀ k < 64, on.getLsbD k = true → v / 2 ^ (32 * k) % 2 ^ 32 = g k % 2 ^ 32

/-- The instruction completes: it makes the tile t, sends the lanes g to vector register d, inactive lanes keeping their value, and its flags. -/
def GivesV (i : Instr) (s : State) (t : Tile) (d lat : Nat) (flags : FlagSet) (on : Mask) (g : Nat → Nat) : Prop :=
  ∃ img v, LanesAre v on g ∧ exec i s = .next (slotDone s (fly s t (.vreg d) v lat flags (~~~on) img))

/-- The same with two registers, d and the one after it. -/
def GivesVV (i : Instr) (s : State) (t : Tile) (d lat : Nat) (flags : FlagSet) (on : Mask) (g h : Nat → Nat) : Prop :=
  ∃ img v img' w, LanesAre v on g ∧ LanesAre w on h ∧
    exec i s = .next (slotDone s (fly s (fly s t (.vreg d) v lat flags (~~~on) img) (.vreg (d + 1)) w lat 0 (~~~on) img'))

/-- The instruction completes: it sends to mask register d a mask with bit k as m says in active lanes, and zero in the others. -/
def GivesM (i : Instr) (s : State) (t : Tile) (d lat : Nat) (flags : FlagSet) (on : Mask) (m : Nat → Bool) : Prop :=
  ∃ img v, v < 2 ^ 64 ∧ (∀ k < 64, bitOf v k = (m k && on.getLsbD k)) ∧
    exec i s = .next (slotDone s (fly s t (.mk d) v lat flags 0 img))

/-- A tile whose lane-pair datapath is busy in the next cycle, as an f64 instruction leaves it (R137). -/
def pairBusy (s : State) (f : Fmt) : Tile :=
  if f.isPair then { mine s with flow := { (mine s).flow with pairBusy := some (s.cur.now + 1) } } else mine s

/-- The instruction completes by element: element e becomes r e, active elements raise their flags, an f64 result lands a cycle later (R132, R137). -/
def GivesElems (i : Instr) (s : State) (f : Fmt) (mt : Bool) (d : Reg) (lat : Nat) (r : Nat → Nat × FlagSet) : Prop :=
  ∃ flags, Raised flags f (onMask s mt) (fun e => (r e).2) ∧
    if f.isPair then GivesVV i s (pairBusy s f) d.toNat (lat + 1) flags (onMask s mt) (fun k => (r k).1) (fun k => (r k).1 / 2 ^ 32)
    else if f.isPacked then GivesV i s (mine s) d.toNat lat flags (onMask s mt)
      (fun k => (r (2 * k)).1 % 2 ^ 16 + 2 ^ 16 * ((r (2 * k + 1)).1 % 2 ^ 16))
    else GivesV i s (mine s) d.toNat lat flags (onMask s mt) (fun k => (r k).1)

/-- The sum at node j of level l of the tree of R148, with the flags of all its additions. -/
def treeAt (g : Nat → Nat → Nat × FlagSet) (x : Nat → Nat) : Nat → Nat → Nat × FlagSet
  | 0, j => (x j, 0)
  | l + 1, j =>
    let p := treeAt g x l (2 * j)
    let q := treeAt g x l (2 * j + 1)
    ((g p.1 q.1).1, p.2 ||| q.2 ||| (g p.1 q.1).2)

/-- The running sum of R150 before lane k, with the flags of its additions. -/
def scanAt (g : Nat → Nat → Nat × FlagSet) (start : Nat) (on : Mask) (x : Nat → Nat) : Nat → Nat × FlagSet
  | 0 => (start, 0)
  | k + 1 =>
    let p := scanAt g start on x k
    if on.getLsbD k then ((g p.1 (x k)).1, p.2 ||| (g p.1 (x k)).2) else p

/-- The size in bytes of a staging-move element; a half byte counts as its byte (R152). -/
def moveSize (w : Width) (pair : Bool) : Nat := if pair then 8 else if w = 0 then 1 else 2 ^ (w.toNat - 1)

/-- The value of a real code, of a finite number. -/
def valQ (neg : Bool) (man : Nat) (exp : Int) : ℚ := (if neg then -1 else 1) * (man : ℚ) * (2 : ℚ) ^ exp

/-! ## Matrix engine (R202, R223, R225, R238, R242) -/

/-- n bytes of staging from an address on, modulo 2^18, little-endian. -/
def ringStaged (m : Mem) (a n : Nat) : Nat := bytesNat ((List.range n).map fun k => memGet m ((a + k) % 2 ^ 18))

/-- n whole bytes of a value, at staging addresses from one on, modulo 2^18. -/
def ringBytes (a n v : Nat) : List SByte := (List.range n).map fun k => ⟨(a + k) % 2 ^ 18, 0xFF, BitVec.ofNat 8 (v / 256 ^ k)⟩

/-- A value whose 64 × 64 elements of so many bits, by the tile image of R223, are those of y. -/
def ImageIs (v bits : Nat) (y : Nat → Nat → Nat) : Prop :=
  v < 2 ^ (4096 * bits) ∧ ∀ i < 64, ∀ j < 64, v / 2 ^ imageBit bits 64 i j % 2 ^ bits = y i j % 2 ^ bits

/-- Element (i, j) of an MMA after its first n blocks, from the element c, with the flags raised (R85 to R87, R238). -/
def mmaAt (t : Tile) (r : Row) (fa fb : Fmt) (neg : Bool) (a b : Reg) (i j c : Nat) : Nat → Nat × FlagSet
  | 0 => (c, 0)
  | n + 1 =>
    let p := mmaAt t r fa fb neg a b i j c n
    let blk := if fa = .f32 ∨ fb = .f32 then 4 else 32
    let ea := fun k => imageElem (t.buf a.toNat).data.toNat (r.bits fa) (if r.bits fa = 32 then 32 else 64) i k
    let eb := fun k => imageElem (t.buf (4 + b.toNat)).data.toNat (r.bits fb) 64 k j
    let ks := (List.range blk).map (blk * n + ·)
    if fmtIsInt fa && r.sm == 0 then
      let q := intBlock t.isat p.1 (ks.map fun k => (if neg then -1 else 1) * ((r.int fa).value (ea k) * (r.int fb).value (eb k)))
      (q.1, p.2 ||| q.2)
    else
      let code := fun (scaled : Bool) (buf line k : Nat) => if scaled then codeAt (t.scaleSlot (t.buf buf).slot).codes (2 * line + k / 32) else 127
      let x := fun k => mmaProduct neg (code r.scaledA a.toNat i k) (code r.scaledB (4 + b.toNat) j k)
        (r.operand fa r.scaledA (ea k)) (r.operand fb r.scaledB (eb k))
      let q := windowBlock p.1 (ks.map fun k => (x k).1) (ks.foldl (fun f k => f ||| (x k).2) 0)
      (q.1, p.2 ||| q.2)

/-- The tile in which a scale write of a name has its slot, and the slot: the name's own in place, or the lowest free one, a generation on (R226). -/
def scaleRoom (t : Tile) (d : Reg) (ip : Bool) : Tile × Nat :=
  if ip then (t, t.slotOf d.toNat)
  else (t.setSlot t.freeSlot { t.scaleSlot t.freeSlot with gen := ((t.scaleSlot t.freeSlot).gen + 1) % 16 }, t.freeSlot)

/-- A value whose 128 bytes are the codes of g. -/
def CodesAre (v : Nat) (g : Nat → Nat) : Prop := v < 2 ^ 1024 ∧ ∀ p < 128, v / 256 ^ p % 256 = g p % 256

/-- The instruction completes: it sends 128 scale codes to a scale name (R226). -/
def GivesScale (i : Instr) (s : State) (d : Reg) (ip : Bool) (lat : Nat) (g : Nat → Nat) : Prop :=
  ∃ img v, CodesAre v g ∧
    Gives i s (fly s (scaleRoom (mine s) d ip).1 (.scale d.toNat (scaleRoom (mine s) d ip).2 ip) v lat 0 0 img)

/-! ## Objects and vault (R166, R167, R206) -/

/-- The trap of a translation that fails (R118, R206): its cause and xinfo. -/
def FailsWith (x : Trans) (h acc cause info : Nat) : Prop := match x with
  | .unpinned => cause = 0x06 ∧ info = h
  | .shape d => cause = 0x07 ∧ info = h + d * 16
  | .denied _ => cause = 0x09 ∧ info = h + acc * 16
  | .notOwner _ => cause = 0x09 ∧ info = h + 3 * 16
  | .away p => cause = 0x08 ∧ info = h + p.n * 2 ^ 32
  | .null | .found _ => False

/-- A vault command refused (R167): in a timetabled kernel it traps with vtrap and vtearl set, in a portable one it waits a cycle (R116). -/
def RefusedWith (i : Instr) (s : State) (op page slot cnt : Nat) (f : VRefusal) : Prop :=
  let pre := s.cur.pre.noteRefusal { op := op, bank := f.bank, page := page, slot := slot, cnt := cnt } f
  exec i s = .next (if s.slotCtx.portable then s.waitCycle 12
    else ({ s with todo := [], cur := { s.cur with pre := pre } } : State).takeTrap s.cur.tile pre 0x04 4 (f.bank + f.code * 256) s.cur.now 0 false)

/-- The instruction completes: it changes only the vault, by f. -/
def GivesVault (i : Instr) (s : State) (f : Vault → Vault) : Prop := Gives i s { mine s with vault := f (mine s).vault }

/-- A stream on its way, the last in issue order: the vault u is the tile's with it, and the stream is noted on its bank and on the bus (R161, R163, R164).
ap: the bank closes by itself after it. -/
def StreamStarted (s : State) (v u : Vault) (x : Stream) (ap : Bool) : Prop :=
  let p := s.slotCtx.params
  let last := x.first + x.n - 1
  u.streams = v.streams ++ [x] ∧ u.pages = v.pages ∧ u.train = v.train ∧ u.acts = v.acts ∧ u.resid = v.resid ∧ u.spare = v.spare ∧
  { q := x.bank % 4, read := x.read, first := x.first, last := last, bank := x.bank : BusUse } ∈ u.bus ∧
  (∀ m, x.read = true → (m ∈ u.marks ↔ m ∈ v.marks)) ∧
  (x.read = false → { seq := x.seq, bank := x.bank, page := x.page, w := x.first, last := last, tWR := p.tWR, sync := x.sync, obj := x.obj, brick := x.brick : WriteMark } ∈ u.marks) ∧
  (∀ b, b ≠ x.bank → u.bank b = v.bank b) ∧
  u.bank x.bank = (if x.read
    then { v.bank x.bank with
      lastRd := some (x.issue + x.n - 1)
      ap := if ap then some (max ((v.bank x.bank).lastAct.getD 0 + p.tRAS) (x.issue + x.n - 1 + p.tRTP)) else (v.bank x.bank).ap }
    else { v.bank x.bank with
      lastWr := some last
      ap := if ap then some (max ((v.bank x.bank).lastAct.getD 0 + p.tRAS) (last + p.tWR)) else (v.bank x.bank).ap })

/-- The instruction completes: it begins a stream, and sends on its way what g adds to the tile. img is the image cycle from which a portable image may
read its first slot (R315). -/
def GivesStream (i : Instr) (s : State) (t : Tile) (x : Stream) (ap : Bool) (g : Tile → Tile) : Prop :=
  ∃ u img, StreamStarted s t.vault u { x with seq := t.flow.seq, img := img } ap ∧
    Gives i s (g { t with vault := u, flow := { t.flow with seq := t.flow.seq + 1 } })

/-- The same for a brick that the record does not hold: the stream meets no bank (R208). -/
def GivesNull (i : Instr) (s : State) (t : Tile) (x : Stream) (g : Tile → Tile) : Prop :=
  ∃ img, Gives i s (g { t with
    vault := { t.vault with streams := t.vault.streams ++ [{ x with seq := t.flow.seq, null := true, img := img }] }
    flow := { t.flow with seq := t.flow.seq + 1 } })

/-! ## Requests, sends and release checks (R254, R267, R284) -/

/-- A tile with one more result on its way whose value is still to return (R122, R244). -/
def flyBack (s : State) (t : Tile) (d : Dest) (lat img : Nat) : Tile :=
  { t with
    flight := t.flight ++ [{ seq := t.flow.seq, due := dueAt s lat, img := img, dst := d, pend := true, back := s.cur.now + lat }]
    flow := { t.flow with seq := t.flow.seq + 1 } }

/-- The same of a scalar result; for s0 there is none. -/
def flyP (s : State) (t : Tile) (d : Reg) (lat img : Nat) : Tile :=
  if d = 0 then { t with flow := { t.flow with quiet := max t.flow.quiet (dueAt s lat) } }
  else flyBack s t (.sreg d.toNat) lat img

/-- A tile with one more request on its way, applied lag cycles after issue; in handler mode one to a cistern at once (R129, R267, R304). -/
def asks (s : State) (t : Tile) (die byte lag : Nat) (kind : ReqKind) (result : Option Nat) : Tile :=
  let u := ({ t with flow := { t.flow with seq := t.flow.seq + 1 } } : Tile).count 5 1
  { u with sync := { u.sync with
    reqs := u.sync.reqs ++ [{ seq := t.flow.seq, die := die, byte := byte, due := if kind.toCistern then dueAt s lag else s.cur.now + lag, kind := kind, result := result }] } }

/-- The same with a reply that lands in a scalar register rlat cycles after issue. -/
def asksFor (s : State) (t : Tile) (d : Reg) (die byte lag rlat : Nat) (kind : ReqKind) (img : Nat) : Tile :=
  asks s (flyP s t d rlat img) die byte lag kind (if d = 0 then none else some t.flow.seq)

/-- A failed release check (R284): in a timetabled kernel it traps as vault timing, code 15; in a portable one it waits a cycle (R116). -/
def FailsCheck (i : Instr) (s : State) (part : Nat) (u : Unmet) : Prop :=
  let pre := { s.cur.pre with sys := s.cur.pre.sys.unmet u }
  exec i s = .next (if s.slotCtx.portable then s.waitCycle 12
    else ({ s with todo := [], cur := { s.cur with pre := pre } } : State).takeTrap s.cur.tile pre 0x04 part (u.bank + 15 * 256) s.cur.now 0 false)

/-- What an atomic leaves in its word (R272). -/
def atomicAfter (k : ReqKind) (old : Word) : Word := match k with
  | .cas e n => if old = e then n else old
  | .add v => old + v
  | .swp v => v
  | .min v => if old.toInt ≤ v.toInt then old else v
  | .max v => if old.toInt ≤ v.toInt then v else old
  | .and v => old &&& v
  | .or v => old ||| v
  | _ => old

/-- A tile with one more send on its way, its port held while the flits enter (R254). -/
def sends (t : Tile) (x : Send) (until' : Nat) : Tile :=
  { t with
    flow := { t.flow with seq := t.flow.seq + 1 }
    sync := { t.sync with portFree := until', sends := t.sync.sends ++ [{ x with seq := t.flow.seq }] } }

end Sys2Proof.Claims
end

