-- ==== Sys2Proof/Certificates/Slice0/Obligations.lean ====
section
/-!
DEFINITION. Certificates/Slice0/Obligations.lean: what the model is claimed to do, stated for the provers.
-/

open Sys2Proof Sys2Proof.Machine Sys2Proof.Claims

/-- R39, R46, R48: words of slots and of Ivloha ops written out from the spec's worked encodings decode to the instructions they stand for. -/
def Obligations.SpecWordsDecode : Prop :=
  decodeSlot .c 0x40200400000FFFFA 0 = some (.br .lt 4 0 (-6)) ∧
  decodeSlot .c 0x60014200000A0010 0 = some (.ld 5 2 2 true 16) ∧
  decodeSlot .c 0xA202C00000000148 0 = some (.mfs 11 0x148) ∧
  decodeSlot .m 0x410000000000001E 0 = some (.ftsel 1 14) ∧
  decodeSlot .m 0x4000C01C00000000 0 = some (.fmt 3 (.reg 7)) ∧
  decodeSlot .m 0x40040000080000C5 0 = some (.fmt 16 (.imm (.short 0xC5))) ∧
  decodeSlot .m 0x020080040000000F 0 = some (.mmaZ 2 0 1 15) ∧
  decodeSlot .d 0x02000210600001C0 0 = some (.rd 2 4 6 0 7) ∧
  decodeSlot .d 0x0600000000000616 0 = some (.pre 22 12) ∧
  decodeSlot .d 0x0B10000000000000 0 = some (.vfence .vis) ∧
  decodeSlot .x 0x0100020C40000003 0 = some (.msend 2 3 4 3) ∧
  decodeSlot .x 0x20018200000C0100 0 = some (.vld false 6 2 3 false false 256) ∧
  decodeSlot .x 0x3001020C00000000 0 = some (.apst 4 2 (.reg 3)) ∧
  decodeSlot .x 0x4102402000019047 0 = some (.wwait 9 8 7 1 200) ∧
  decodeSlot .x 0x5001410008000003 0 = some (.jcbraise 5 1 (.imm (.short 3))) ∧
  decodeIvloha 0x02110013 = some (.ivNeed 17 2) ∧
  decodeIvloha 0x00002012 = some (.ivRank 2)

/-- R45 to R49, R294: every word that encodes a well-formed slot instruction or op decodes back to it, every operand at every value; so no bit of an encoding is dropped. -/
def Obligations.EveryWordDecodesBack : Prop :=
  ∀ i : Instr, i.wf = true →
    (∀ w k, encodeSlot i = some (w, k) → ∃ p, decodeSlot p w k = some i) ∧ (∀ w, encodeIvloha i = some w → decodeIvloha w = some i)

/-- R50: in every slot a hint cell is a no-operation whose fields are not decoded, a word of zeros is NOP, and NOP with a field that is not zero is illegal. -/
def Obligations.HintAndNopCellsDecode : Prop :=
  ∀ (p : Part) (w : BitVec 64) (k : BitVec 32),
    (w.extractLsb' 60 4 = 0xF → decodeSlot p w k = some (.hint (w.extractLsb' 56 4))) ∧
    (w.extractLsb' 56 8 = 0 → w &&& 0x00FFFFFFFFCFFFFF = 0 → decodeSlot p w 0 = some .nop) ∧
    (w.extractLsb' 56 8 = 0 → w &&& 0x00FFFFFFFFCFFFFF ≠ 0 → decodeSlot p w 0 = none)

/-- R42, R60: the bundle that a tile may issue has a legal header, and each slot present, in the order C, V, M, D, X, holds the word of its instruction, K lent to its owner. -/
def Obligations.BundlesAreReadSlotBySlot : Prop :=
  ∀ (c : Ctx) (t : Tile) (b : Bundle) (h : Header) (is : List (Part × Instr)), c.readBundle t b = .ok (h, is) →
    decodeHeader b = some h ∧ is.map Prod.fst = h.pres ∧
    (∀ x ∈ is, decodeSlot x.1 (slotWord b x.1) (if h.kown = some x.1 then bundleK b else 0) = some x.2 ∧ x.2.wf = true) ∧
    h.gap = b.toNat % 64 ∧ h.pres = allParts.filter (fun p => b.getLsbD (5 + p.code)) ∧ b.toNat / 2 ^ 19 % 2 ^ 13 = 0

/-- R100, R48, R61: s0 reads zero and a write to it is discarded; a second source is a register, or its immediate sign-extended from
20 or 52 bits; zimm() extends it with zeros; the top of an empty mask stack is all ones. -/
def Sys2Proof.Claims.OperandForms : Prop :=
  (∀ t : Tile, t.sreg 0 = 0) ∧
  (∀ (t : Tile) (v : Word), t.setS 0 v = t) ∧
  (∀ (t : Tile) (r : Reg) (v : Word), r ≠ 0 → RisingMap t.regs.s → (t.setS r.toNat v).sreg r = v) ∧
  (∀ (t : Tile) (r : Reg), t.bsrc (.reg r) = t.sreg r) ∧
  (∀ (t : Tile) (v : BitVec 20), (t.bsrc (.imm (.short v))).toInt = v.toInt ∧ (t.zsrc (.imm (.short v))).toNat = v.toNat) ∧
  (∀ (t : Tile) (v : BitVec 52), (t.bsrc (.imm (.long v))).toInt = v.toInt ∧ (t.zsrc (.imm (.long v))).toNat = v.toNat) ∧
  (∀ t : Tile, t.regs.ms = [] → t.topMask = BitVec.allOnes 64)

/-- R100: scalar register s0 reads zero in every state, whatever a result for it says: an ordinary result for s0 changes no register. -/
def Sys2Proof.Claims.RegisterZeroReadsZero : Prop :=
  (∀ t : Tile, t.sreg 0 = 0) ∧ (∀ (t : Tile) (v : Word), t.setS 0 v = t) ∧
  ∀ (t : Tile) (r q : Reg) (v : Word), RisingMap t.regs.s → r ≠ 0 → (t.setS r.toNat v).sreg q = if q = r then v else t.sreg q

/-- R100, R48, R61: operand forms, and the register that reads zero. -/
def Obligations.OperandsAndRegisterZero : Prop :=
  Sys2Proof.Claims.OperandForms ∧ Sys2Proof.Claims.RegisterZeroReadsZero

/-- R102: ADD, SUB, MUL, MULH, MULHU, MADD, IDX and MOVI send the value of the table to d with the table's latency, and do nothing else. -/
def Obligations.ScalarArithmetic : Prop :=
  ∀ (s : State) (d a c : Reg) (b : Src),
    GivesS (.add d a b) s d ((av s a + bv s b) % 2 ^ 64) 1 ∧
    GivesS (.sub d a b) s d ((av s a + (2 ^ 64 - bv s b)) % 2 ^ 64) 1 ∧
    GivesS (.mul d a b) s d (av s a * bv s b % 2 ^ 64) 3 ∧
    GivesS (.mulh d a b) s d (wrap (ai s a * bi s b / 2 ^ 64) 64) 3 ∧
    GivesS (.mulhu d a b) s d (av s a * bv s b / 2 ^ 64) 3 ∧
    GivesS (.madd d a b c) s d ((av s a * bv s b + av s c) % 2 ^ 64) 3 ∧
    (∀ (r : Reg) (sh : BitVec 6), GivesS (.idx d a r sh) s d ((av s a + av s r * 2 ^ sh.toNat) % 2 ^ 64) 1) ∧
    (∀ v : Imm, GivesS (.movi d v) s d (Imm.simm v).toNat 1)

/-- R103: division truncates toward zero, the remainder takes the dividend's sign, and the edge cases are those of the rule's table. -/
def Obligations.ScalarDivision : Prop :=
  ∀ (s : State) (d a : Reg) (b : Src),
    GivesS (.div d a b) s d (if bv s b = 0 then 2 ^ 64 - 1 else wrap ((ai s a).tdiv (bi s b)) 64) 18 ∧
    GivesS (.divu d a b) s d (if bv s b = 0 then 2 ^ 64 - 1 else av s a / bv s b) 18 ∧
    GivesS (.rem d a b) s d (if bv s b = 0 then av s a else wrap ((ai s a).tmod (bi s b)) 64) 18 ∧
    GivesS (.remu d a b) s d (if bv s b = 0 then av s a else av s a % bv s b) 18

/-- R102: the logic and shift instructions, bit by bit or by powers of two. -/
def Sys2Proof.Claims.ScalarLogicShift : Prop :=
  ∀ (s : State) (d a : Reg) (b : Src),
    (∃ v < 2 ^ 64, GivesS (.and d a b) s d v 1 ∧ ∀ k, bitOf v k = (bitOf (av s a) k && bitOf (bv s b) k)) ∧
    (∃ v < 2 ^ 64, GivesS (.or d a b) s d v 1 ∧ ∀ k, bitOf v k = (bitOf (av s a) k || bitOf (bv s b) k)) ∧
    (∃ v < 2 ^ 64, GivesS (.xor d a b) s d v 1 ∧ ∀ k, bitOf v k = (bitOf (av s a) k != bitOf (bv s b) k)) ∧
    (∃ v < 2 ^ 64, GivesS (.andn d a b) s d v 1 ∧ ∀ k, bitOf v k = (bitOf (av s a) k && !bitOf (bv s b) k)) ∧
    GivesS (.shl d a b) s d (av s a * 2 ^ (bv s b % 64) % 2 ^ 64) 1 ∧
    GivesS (.shr d a b) s d (av s a / 2 ^ (bv s b % 64)) 1 ∧
    GivesS (.sar d a b) s d (wrap (ai s a / 2 ^ (bv s b % 64)) 64) 1 ∧
    (∃ v < 2 ^ 64, GivesS (.rot d a b) s d v 1 ∧ ∀ k < 64, bitOf v k = bitOf (av s a) ((k + bv s b % 64) % 64))

/-- R102: the counts, each by what it counts, and the choices. -/
def Sys2Proof.Claims.ScalarCountChoose : Prop :=
  ∀ (s : State) (d a c : Reg) (b : Src),
    (∃ n ≤ 64, GivesS (.clz d a) s d n 1 ∧ av s a < 2 ^ (64 - n) ∧ (n < 64 → 2 ^ (63 - n) ≤ av s a)) ∧
    (∃ n ≤ 64, GivesS (.ctz d a) s d n 1 ∧ 2 ^ n ∣ av s a ∧ (n < 64 → ¬ 2 ^ (n + 1) ∣ av s a) ∧ (n = 64 → av s a = 0)) ∧
    GivesS (.popc d a) s d ((List.range 64).countP fun k => bitOf (av s a) k) 1 ∧
    GivesS (.min d a b) s d (wrap (min (ai s a) (bi s b)) 64) 1 ∧
    GivesS (.max d a b) s d (wrap (max (ai s a) (bi s b)) 64) 1 ∧
    GivesS (.minu d a b) s d (min (av s a) (bv s b)) 1 ∧
    GivesS (.maxu d a b) s d (max (av s a) (bv s b)) 1 ∧
    GivesS (.sel d a b c) s d (if av s c = 0 then bv s b else av s a) 1 ∧
    (∀ cc : Cond, GivesS (.cmp cc d a b) s d (b2n (match cc with
      | .eq => decide (av s a = bv s b) | .ne => decide (av s a ≠ bv s b)
      | .lt => decide (ai s a < bi s b) | .ge => decide (ai s a ≥ bi s b) | .gt => decide (ai s a > bi s b) | .le => decide (ai s a ≤ bi s b)
      | .ltu => decide (av s a < bv s b) | .geu => decide (av s a ≥ bv s b) | .gtu => decide (av s a > bv s b)
      | .leu => decide (av s a ≤ bv s b))) 1)

/-- R104: SEXT and ZEXT extend the low n bits, BFX the field at pos, and BFI replaces the field's bits alone. -/
def Sys2Proof.Claims.ScalarFields : Prop :=
  ∀ (s : State) (d a b : Reg) (n len : BitVec 7) (pos : BitVec 6) (sx : Bool),
    (1 ≤ n.toNat → n.toNat ≤ 64 →
      GivesS (.sext d a n) s d (((mine s).sreg a).setWidth n.toNat |>.signExtend 64).toNat 1 ∧
      GivesS (.zext d a n) s d (av s a % 2 ^ n.toNat) 1) ∧
    (1 ≤ len.toNat → pos.toNat + len.toNat ≤ 64 →
      GivesS (.bfx d a pos len sx) s d
        (if sx then (((mine s).sreg a).extractLsb' pos.toNat len.toNat |>.signExtend 64).toNat
         else av s a / 2 ^ pos.toNat % 2 ^ len.toNat) 1 ∧
      ∃ v < 2 ^ 64, GivesS (.bfi d a b pos len) s d v 1 ∧ ∀ k < 64, bitOf v k =
        if pos.toNat ≤ k ∧ k < pos.toNat + len.toNat then bitOf (av s b) (k - pos.toNat) else bitOf (av s a) k)

/-- R102, R104: scalar logic, shifts, counts, choices and fields. -/
def Obligations.ScalarBitInstructions : Prop :=
  Sys2Proof.Claims.ScalarLogicShift ∧ Sys2Proof.Claims.ScalarCountChoose ∧ Sys2Proof.Claims.ScalarFields

/-- R105, R59, R129: BR, J, CALL, RET and BRME decide at issue; a transfer that is not taken changes nothing; CALL also sends the link value. -/
def Sys2Proof.Claims.BranchesAndCalls : Prop :=
  ∀ (s : State) (d a b : Reg) (off : BitVec 20) (i : Imm),
    (∀ cc : Cond, ∃ tgt, IsTarget s off.toInt tgt ∧
      Gives (.br cc a b off) s (if condHolds cc ((mine s).sreg a) ((mine s).sreg b) then taken s (mine s) tgt false else mine s)) ∧
    (∃ tgt, IsTarget s (Imm.simm i).toInt tgt ∧ Gives (.j i) s (taken s (mine s) tgt false)) ∧
    (∃ tgt img, IsTarget s (Imm.simm i).toInt tgt ∧
      Gives (.call d i) s (flyS s (taken s (mine s) tgt false) d
        (if s.cur.handler then s.cur.pc.off + 1 else thirdOff s % 65536 + s.cur.pc.seg % 65536 * 65536) 1 img)) ∧
    (s.cur.handler = true → av s a / 2 ^ 16 = 0 → Gives (.ret a) s (taken s (mine s) (av s a) false)) ∧
    (s.cur.handler = false → av s a / 2 ^ 32 = 0 → av s a / 2 ^ 16 = s.cur.pc.seg →
      Gives (.ret a) s (taken s (mine s) (av s a % 2 ^ 16) false)) ∧
    (s.cur.handler = true → av s a / 2 ^ 16 ≠ 0 → Traps (.ret a) s 1 0x02 (av s a % 2 ^ 16)) ∧
    (s.cur.handler = false → (av s a / 2 ^ 32 ≠ 0 ∨ av s a / 2 ^ 16 % 2 ^ 16 ≠ s.cur.pc.seg) → Traps (.ret a) s 1 0x02 (av s a % 2 ^ 16)) ∧
    (∃ tgt, IsTarget s off.toInt tgt ∧
      Gives (.brme off) s (if (mine s).topMask = 0 then taken s (mine s) tgt false else mine s))

/-- R106, R105: LOOP pushes its entry after two delay bundles, or skips the body for a count of zero; it traps at depth six and for an end
before the start or past the segment. A taken LBRK goes past the top entry's end and pops it; with no entry it traps. -/
def Sys2Proof.Claims.HardwareLoops : Prop :=
  ∀ (s : State) (a : Reg) (last : BitVec 16) (stages : BitVec 3) (always : Bool),
    let stop := s.cur.pc.off + last.toNat
    (s.cur.handler = false → (mine s).flow.loops.length < 6 → thirdOff s ≤ stop →
      stop < ((mine s).segment s.slotCtx.variant s.cur.pc.seg).length →
      Gives (.loop a last stages) s
        (if av s a = 0 then taken s (mine s) (succOff s stop) false
         else { mine s with flow := { (mine s).flow with
           push := some { entry := { start := thirdOff s, last := stop, n := av s a + stages.toNat, i := 0, s := stages.toNat + 1 }, left := 3 } } })) ∧
    ((s.cur.handler = true ∨ 6 ≤ (mine s).flow.loops.length) → Traps (.loop a last stages) s 1 0x01 1) ∧
    (s.cur.handler = false → (mine s).flow.loops.length < 6 →
      (stop < thirdOff s ∨ ((mine s).segment s.slotCtx.variant s.cur.pc.seg).length ≤ stop) →
      Traps (.loop a last stages) s 1 0x02 (stop % 65536)) ∧
    (s.cur.handler = false → ∀ e r, (mine s).flow.loops = e :: r →
      Gives (.lbrk a always) s
        (if always = true ∨ av s a ≠ 0 then taken s (mine s) (succOff s e.last) true else mine s)) ∧
    ((s.cur.handler = true ∨ (mine s).flow.loops = []) → Traps (.lbrk a always) s 1 0x01 1)

/-- R105, R59, R129, R106: branches, calls and hardware loops. -/
def Obligations.ControlFlow : Prop :=
  Sys2Proof.Claims.BranchesAndCalls ∧ Sys2Proof.Claims.HardwareLoops

/-- R109: LD reads staging as it stands at issue, at the address modulo 2^18 rounded down to the width, and extends the value; ST sends the low
bytes of b to that address with latency 1; no alignment traps. -/
def Obligations.StagingLoadStore : Prop :=
  ∀ (s : State) (d a b : Reg) (w : Width) (sx : Bool) (off : BitVec 17),
    let n := 2 ^ w.toNat
    let at' := alignedAt (ai s a + off.toInt) n
    let v := staged (mine s).staging at' n
    GivesS (.ld d a w sx off) s d (if sx = true ∧ 2 ^ (8 * n - 1) ≤ v then v + (2 ^ 64 - 2 ^ (8 * n)) else v) 6 ∧
    ∃ img, Gives (.st a b w off) s (flyB s (mine s) w.toNat true (bytesAt at' n (av s b)) 1 0 img)

/-- R50, R111, R113, R114: NOP and the hint cells do nothing; MARK appends its entry to the drift log and is ignored in handler mode; YIELD asks the
partition to yield; HALT lets its two delay bundles issue. -/
def Sys2Proof.Claims.PlainSystemInstructions : Prop :=
  ∀ s : State,
    Gives .nop s (mine s) ∧
    (∀ n, Gives (.hint n) s (mine s)) ∧
    (∀ (a : Reg) (tag : BitVec 16),
      Gives (.mark a tag) s (if s.cur.handler then mine s else { mine s with perf := { (mine s).perf with
        dl := mapPut (mine s).perf.dl ((mine s).perf.dlcnt % 64) ((mine s).driftWords 1 s.cur.pc s.cur.now (av s a) tag.toNat)
        dlcnt := min ((mine s).perf.dlcnt + 1) (2 ^ 32 - 1) } })) ∧
    (s.cur.handler = false → Gives .yield s { mine s with flow := { (mine s).flow with yieldReq := true } }) ∧
    (s.cur.handler = true → Traps .yield s 1 0x01 1) ∧
    (s.cur.handler = false → Gives .halt s { mine s with flow := { (mine s).flow with haltLeft := some 3 } })

/-- R126: ERET ends the handler: the tile is stopped, its resumption is the offset and the delay count of xpc, with the target of xtgt, at cycle
xcyc + xnext; one handler fewer runs. Outside handler mode ERET is an illegal encoding (R115). -/
def Sys2Proof.Claims.ReturnFromTrap : Prop :=
  ∀ s : State,
    (s.cur.handler = true → RisingMap s.tiles →
      ∃ t, exec .eret s = .next t ∧
        (t.tile s.cur.tile).flow.st = .stopped ∧ (t.tile s.cur.tile).flow.handler = false ∧
        (t.tile s.cur.tile).flow.pc.off = (mine s).sys.xpc.toNat % 2 ^ 16 ∧
        (t.tile s.cur.tile).flow.pc.seg = (mine s).flow.pc.seg ∧
        (t.tile s.cur.tile).flow.due = (mine s).sys.xcyc.toNat + (mine s).sys.xnext.toNat ∧
        ((t.tile s.cur.tile).flow.transfer = none ↔ (mine s).sys.xpc.toNat / 2 ^ 32 % 4 = 0) ∧
        (∀ x, (t.tile s.cur.tile).flow.transfer = some x →
          x.left = (mine s).sys.xpc.toNat / 2 ^ 32 % 4 ∧ x.target % 2 ^ 16 = (mine s).sys.xtgt.toNat % 2 ^ 16) ∧
        (t.tile s.cur.tile).flow.stepLeft = (if (mine s).sys.ss then some 1 else none) ∧
        (t.tile s.cur.tile).regs = (mine s).regs ∧ (t.tile s.cur.tile).fmts = (mine s).fmts ∧ (t.tile s.cur.tile).sys = (mine s).sys ∧
        (t.tile s.cur.tile).flight = (mine s).flight ∧ (t.tile s.cur.tile).staging = (mine s).staging ∧
        (∀ id, id ≠ s.cur.tile → t.tile id = s.tile id) ∧ t.dies = s.dies ∧ t.ctxs = s.ctxs ∧ t.host = s.host ∧ t.todo = s.todo) ∧
    (s.cur.handler = true → RisingMap s.tiles →
      ∃ t, exec .eretSkip s = .next t ∧
        (t.tile s.cur.tile).flow.st = .stopped ∧ (t.tile s.cur.tile).flow.handler = false ∧
        (t.tile s.cur.tile).flow.resumed = false ∧ (t.tile s.cur.tile).sys.bpsk = false ∧
        (t.tile s.cur.tile).fmts.pend = ((mine s).fmts.pend.map fun w => { w with left := w.left - 1 }) ∧
        ((mine s).sys.xpc.toNat / 2 ^ 32 % 4 = 1 → (t.tile s.cur.tile).flow.pc.off % 2 ^ 16 = (mine s).sys.xtgt.toNat % 2 ^ 16) ∧
        (t.tile s.cur.tile).regs = (mine s).regs ∧ (t.tile s.cur.tile).flight = (mine s).flight ∧
        (t.tile s.cur.tile).staging = (mine s).staging ∧
        (∀ id, id ≠ s.cur.tile → t.tile id = s.tile id)) ∧
    (s.cur.handler = false → Traps .eret s 1 0x01 1 ∧ Traps .eretSkip s 1 0x01 1)

/-- R50, R111, R113, R114, R126: no-operations, halt, yield and the return from a trap. -/
def Obligations.SystemInstructions : Prop :=
  Sys2Proof.Claims.PlainSystemInstructions ∧ Sys2Proof.Claims.ReturnFromTrap

/-- R117, R121, R122, R124: a trap of a program bundle: the trap registers, the tile in handler mode at handler bundle 0, the program's registers,
results and staging untouched, the stop cycle, the horizon 40 cycles on where none stands yet, and the handler's first bundle set for later. That xnext keeps the low six
bits of a count is read from its width (log 31). -/
def Sys2Proof.Claims.TrapTaken : Prop :=
  ∀ (s : State) (id : TileId) (x : Tile) (cause part info t next : Nat) (cyc : Bool),
    RisingMap s.tiles → x.flow.handler = false → x.imem.handlers ≠ [] → cause < 256 → part < 8 → t < 2 ^ 64 →
    x.flow.pc.off < 2 ^ 16 → x.flow.pc.seg < 2 ^ 16 →
    let s' := s.takeTrap id x cause part info t next cyc
    let y := s'.tile id
    y.sys.xcause.toNat % 256 = cause ∧ y.sys.xcause.toNat / 256 % 8 = part ∧
    bitOf y.sys.xcause.toNat 11 = (cause ∈ [0x03, 0x04, 0x05, 0x06, 0x0B, 0x0C] : Bool) ∧ bitOf y.sys.xcause.toNat 12 = cyc ∧
    y.sys.xcause.toNat < 2 ^ 13 ∧
    y.sys.xpc.toNat % 2 ^ 16 = x.flow.pc.off ∧ y.sys.xpc.toNat / 2 ^ 16 % 2 ^ 16 = x.flow.pc.seg ∧
    (x.flow.transfer = none → y.sys.xpc.toNat / 2 ^ 32 = 0) ∧
    (∀ tr, x.flow.transfer = some tr → tr.left < 4 → y.sys.xpc.toNat / 2 ^ 32 = tr.left ∧ y.sys.xtgt.toNat % 2 ^ 16 = tr.target % 2 ^ 16) ∧
    y.sys.xnext.toNat = next % 64 ∧ y.sys.xcyc.toNat = t ∧ y.sys.xinfo.toNat = info % 2 ^ 64 ∧
    y.flow.st = .trapped ∧ y.flow.handler = true ∧ y.flow.hpc = 0 ∧ y.flow.stopAt = t ∧
    y.regs = x.regs ∧ y.fmts = x.fmts ∧ y.flight = x.flight ∧ y.staging = x.staging ∧ y.matrix = x.matrix ∧ y.vault = x.vault ∧
    y.oh = x.oh ∧ y.imem = x.imem ∧ y.sync = x.sync ∧
    (∀ j, j ≠ id → s'.tile j = s.tile j) ∧ s'.ctxs = s.ctxs ∧ s'.sec = s.sec ∧ s'.host = s.host ∧ s'.qe = s.qe ∧
    (∀ n k, s.kernelOf id = some (n, k) → ∃ w, s.wall + k.period ≤ w ∧ w ≤ s.wall + 64 * k.period ∧
      (w, { i := .handlerBundleIssue, arg := { tile := id } : Due }) ∈ s'.agenda ∧
      ∃ k', s'.kernel? n = some k' ∧ k'.horizon = some (k.horizon.getD (t + 40)) ∧ k'.handlers = k.handlers + 1)

/-- R117, R121, R313, R347: a trap of a program bundle on a tile that has no handler: the trap registers are written all the same, the sequencer is faulted, no handler
bundle is set for later, and the kernel ends faulted. -/
def Sys2Proof.Claims.TrapWithoutHandler : Prop :=
  ∀ (s : State) (id : TileId) (x : Tile) (cause part info t next : Nat) (cyc : Bool),
    RisingMap s.tiles → x.flow.handler = false → x.imem.handlers = [] → cause < 256 → part < 8 → t < 2 ^ 64 →
    let s' := s.takeTrap id x cause part info t next cyc
    let y := s'.tile id
    y.sys.xcause.toNat % 256 = cause ∧ y.sys.xcause.toNat / 256 % 8 = part ∧ y.sys.xcyc.toNat = t ∧ y.sys.xinfo.toNat = info % 2 ^ 64 ∧
    y.flow.st = .faulted ∧ y.flow.handler = false ∧ y.regs = x.regs ∧ y.flight = x.flight ∧ y.staging = x.staging ∧
    s'.agenda = s.agenda ∧ (∀ j, j ≠ id → s'.tile j = s.tile j) ∧
    ∀ n k, s.kernelOf id = some (n, k) → k.ending = none →
      ∃ k', s'.kernel? n = some k' ∧ k'.st = .faulted ∧ k'.ending = some 2 ∧ k'.first ≠ none

/-- R128, R347: a trap in handler mode, and a HALT there, make the sequencer faulted, leave every trap register and the handler's state as they stood and
start no handler; the kernel ends faulted. -/
def Sys2Proof.Claims.TrapInHandlerFaults : Prop :=
  (∀ (s : State) (id : TileId) (x : Tile) (cause part info t next : Nat) (cyc : Bool),
    RisingMap s.tiles → x.flow.handler = true →
    let s' := s.takeTrap id x cause part info t next cyc
    s'.tile id = { x with flow := { x.flow with st := .faulted } } ∧
    s'.agenda = s.agenda ∧ (∀ j, j ≠ id → s'.tile j = s.tile j) ∧
    (∀ n k, s.kernelOf id = some (n, k) → k.ending = none →
      ∃ k', s'.kernel? n = some k' ∧ k'.st = .faulted ∧ k'.ending = some 2 ∧ k'.first ≠ none)) ∧
  (∀ s : State, s.cur.handler = true → (mine s).flow.handler = true → RisingMap s.tiles →
    ∃ t, exec .halt s = .next t ∧ t.tile s.cur.tile = { mine s with flow := { (mine s).flow with st := .faulted } })

/-- R111, R60: TRAP traps with its code, and its bundle has no effect: the trap is of the tile as it stood before the bundle. -/
def Sys2Proof.Claims.TrapInstruction : Prop :=
  ∀ (s : State) (code : BitVec 16), Traps (.trap code) s 1 0x13 code.toNat

/-- R117, R121, R122, R124, R128, R111, R60, R313, R347: taking a trap: what it saves, where it goes, and a trap in a handler. -/
def Obligations.TakingATrap : Prop :=
  Sys2Proof.Claims.TrapTaken ∧ Sys2Proof.Claims.TrapWithoutHandler ∧ Sys2Proof.Claims.TrapInHandlerFaults ∧ Sys2Proof.Claims.TrapInstruction

/-- R101, R112: MFS sends the register's value to d with latency 1, and MTS sends the scalar to the register with latency 1, where the access
allows it; otherwise a privilege trap, or an illegal encoding for an unassigned register and for an MTS to one that is only read. -/
def Sys2Proof.Claims.SpecialRegisterMoves : Prop :=
  ∀ (s : State) (d a : Reg) (n : BitVec 12),
    ((sysAccess n.toNat).isSome = true → (sysPrivileged n.toNat = true → s.slotCtx.privileged = true) →
      ∃ img, let t := flyS s (mine s) d (s.slotCtx.readSys (mine s) n.toNat) 1 img
        Gives (.mfs d n) s (if s.cur.handler = false ∧ 0x208 ≤ n.toNat ∧ n.toNat < 0x210 ∧ d ≠ 0
          then { t with perf := { t.perf with reads := t.perf.reads ++ [(n.toNat - 0x208, (mine s).flow.seq)] } } else t)) ∧
    (sysWritable n.toNat = true → (sysPrivileged n.toNat = true → s.slotCtx.privileged = true) →
      ∃ img, Gives (.mts a n) s (fly s (mine s) (if n.toNat = 0x003 then .fcsr else .sysreg n.toNat) (av s a) 1 0 0 img)) ∧
    ((sysAccess n.toNat).isSome = true → sysPrivileged n.toNat = true → s.slotCtx.privileged = false → Traps (.mfs d n) s 1 0x11 1) ∧
    (sysWritable n.toNat = true → sysPrivileged n.toNat = true → s.slotCtx.privileged = false → Traps (.mts a n) s 1 0x11 1) ∧
    (sysAccess n.toNat = none → Traps (.mfs d n) s 1 0x01 1) ∧
    (sysWritable n.toNat = false → Traps (.mts a n) s 1 0x01 1)

/-- R101: what the registers that mirror the sequencer read as: the PC, now(), the wall time, fcsr, efr, ftsr, the format table, the loop entries
bottom first, the depth, the tile's place, the mode, and the trap registers. -/
def Sys2Proof.Claims.SystemRegistersRead : Prop :=
  ∀ (s : State) (t : Tile),
    let c := s.slotCtx
    c.readSys t 0x000 = s.cur.pc.off % 2 ^ 16 + s.cur.pc.seg % 2 ^ 16 * 2 ^ 16 ∧
    c.readSys t 0x001 = s.cur.now ∧
    c.readSys t 0x002 = s.wall / 39 ∧
    c.readSys t 0x003 = t.fmts.fcsr.toNat ∧ c.readSys t 0x004 = t.fmts.efr.toNat ∧
    c.readSys t 0x005 = t.fmts.base + t.fmts.level * 16 + t.fmts.row * 256 ∧
    (∀ k < 16, c.readSys t (0x010 + k) = (t.ftRow k).toNat) ∧
    (∀ k < 6, c.readSys t (0x020 + k) = (match t.flow.loops.reverse[k]? with
      | some e => e.i
      | none => 0)) ∧
    (∀ k < 6, c.readSys t (0x028 + k) = (match t.flow.loops.reverse[k]? with
      | some e => e.n
      | none => 0)) ∧
    c.readSys t 0x030 = t.flow.loops.length ∧
    c.readSys t 0x040 = s.cur.tile % 64 + s.cur.tile / 64 * 2 ^ 8 + s.cur.tile * 2 ^ 16 ∧
    c.readSys t 0x041 % 2 = b2n s.cur.handler ∧
    c.readSys t 0x100 = t.sys.xcause.toNat ∧ c.readSys t 0x101 = t.sys.xpc.toNat ∧ c.readSys t 0x102 = t.sys.xtgt.toNat ∧
    c.readSys t 0x103 = t.sys.xnext.toNat ∧ c.readSys t 0x104 = t.sys.xcyc.toNat ∧ c.readSys t 0x105 = t.sys.xinfo.toNat ∧
    c.readSys t 0x110 = t.lq.length ∧ c.readSys t 0x132 = t.regs.ms.length ∧
    c.readSys t 0x142 = t.sys.vtrap.toNat ∧ c.readSys t 0x143 = t.sys.vtearl.toNat ∧ c.readSys t 0x165 = b2n t.sync.latch

/-- R14, R112, R121, R123, R156, R191, R247, R260, R276, R343, R369: a system register written reads back as written, its reserved bits zero and
the bits that a write ignores as before (that jp keeps bit 25 where it stood and is written set: log 36); the write changes no other kind of state. -/
def Sys2Proof.Claims.SystemRegistersReadBack : Prop :=
  ∀ (c : Ctx) (t : Tile) (n v : Nat), v < 2 ^ 64 → RisingMap t.sys.hsv → RisingMap t.sys.bpa → RisingMap t.sync.jp → RisingMap t.perf.pcc →
    let r := c.readSys (t.writeSys n v) n
    (n = 0x101 → r = v % 2 ^ 16 + t.sys.xpc.toNat / 2 ^ 16 % 2 ^ 16 * 2 ^ 16 + v / 2 ^ 32 % 4 * 2 ^ 32) ∧
    (n = 0x102 ∨ n = 0x213 → r = v % 2 ^ 32) ∧
    (n = 0x106 → r = v % 4) ∧
    (0x108 ≤ n → n ≤ 0x10F → r = v) ∧
    (n = 0x111 → r = v % 2 ^ 10) ∧
    (0x120 ≤ n → n ≤ 0x123 → r = v % 2 ^ 32 + v / 2 ^ 63 * 2 ^ 63) ∧
    (n = 0x130 → r = v % 2 ^ 12) ∧ (n = 0x140 → r = v % 2 ^ 11) ∧ (n = 0x144 → r = v % 2 ^ 8) ∧ (n = 0x147 → r = v % 2 ^ 13) ∧
    (n = 0x150 → r = v % 2 ^ 20) ∧
    (0x160 ≤ n → n ≤ 0x163 →
      r = v % 2 ^ 25 + (if bitOf v 25 = true ∧ (mapGet (0 : Word) t.sync.jp (n - 0x160)).getLsbD 25 = true then 2 ^ 25 else 0)) ∧
    (n = 0x164 → r = v % 2 ^ 20) ∧ (n = 0x171 → r = v % 2 ^ 5) ∧
    (0x200 ≤ n → n ≤ 0x207 →
      r = v % 2 ^ 7 + (if (mapGet (0 : Word) t.perf.pcc (n - 0x200)).getLsbD 8 then 2 ^ 8 else 0) + v / 2 ^ 9 % 2 * 2 ^ 9) ∧
    (n = 0x210 → r = v % 2 ^ 8) ∧
    (n = 0x214 → r = v % 2 ^ 39 + v / 2 ^ 63 * 2 ^ 63) ∧
    (t.writeSys n v).regs = t.regs ∧ (t.writeSys n v).fmts = t.fmts ∧ (t.writeSys n v).flow = t.flow ∧ (t.writeSys n v).flight = t.flight ∧
    (t.writeSys n v).staging = t.staging ∧ (t.writeSys n v).matrix = t.matrix ∧ (t.writeSys n v).oh = t.oh ∧
    (t.writeSys n v).imem = t.imem ∧ (t.writeSys n v).vault.pages = t.vault.pages ∧ (t.writeSys n v).vault.banks = t.vault.banks

/-- R101, R112, R14, R121, R123, R156, R191, R247, R260, R276, R343, R369: moves from and to the system registers, and what each reads and writes. -/
def Obligations.SystemRegisters : Prop :=
  Sys2Proof.Claims.SpecialRegisterMoves ∧ Sys2Proof.Claims.SystemRegistersRead ∧ Sys2Proof.Claims.SystemRegistersReadBack

/-- R56, R74, R112: a result lands: its register takes the value (a write to fcsr keeps only the bits there are), its flags are ORed into fcsr, and it is
no longer in flight; nothing else changes. -/
def Sys2Proof.Claims.ResultsLandInRegisters : Prop :=
  ∀ (s : State) (r : Result), let id := s.ev.tile
    (s.tile id).flight.find? (fun x => x.seq == s.ev.x) = some r →
    let fin := fun (t : Tile) => s.setTile id
      { t with flight := (s.tile id).flight.filter (fun x => x.seq != r.seq),
               fmts := { t.fmts with fcsr := t.fmts.fcsr ||| (r.flags.setWidth 64 <<< 8) } }
    (∀ n, r.dst = .sreg n → exec .resultLanding s = .next (fin ((s.tile id).setS n (BitVec.ofNat 64 r.val)))) ∧
    (∀ n, r.dst = .vreg n → ∃ v : VWord, exec .resultLanding s = .next (fin ((s.tile id).setV n v)) ∧
      ∀ k < 64, v.toNat / 2 ^ (32 * k) % 2 ^ 32 =
        (if r.keep.getLsbD k then (mapGet (0 : VWord) (s.tile id).regs.v n).toNat else r.val) / 2 ^ (32 * k) % 2 ^ 32) ∧
    (∀ n, r.dst = .mk n → exec .resultLanding s = .next (fin ((s.tile id).setMk n (BitVec.ofNat 64 r.val)))) ∧
    (r.dst = .flagsOnly → exec .resultLanding s = .next (fin (s.tile id))) ∧
    (r.dst = .fcsr → exec .resultLanding s = .next (fin { s.tile id with
      fmts := { (s.tile id).fmts with fcsr := BitVec.ofNat 64 r.val &&& 0x3F1F } })) ∧
    (∀ n, r.dst = .sysreg n → n ∉ [0x112, 0x113, 0x131, 0x146, 0x151] → ¬ (0x200 ≤ n ∧ n < 0x208) →
      exec .resultLanding s = .next (fin ((s.tile id).writeSys n r.val)))

/-- R56, R109, R155: a write of n whole bytes to staging lands: those bytes take the value's bytes, every other byte of staging reads as before, and so
does everything else of the machine; on a tile that no mesh collision strikes in that cycle. -/
def Sys2Proof.Claims.StoresLandInStaging : Prop :=
  ∀ (s : State) (r : Result) (code : Nat) (cap : Bool) (a n v : Nat), let id := s.ev.tile
    (s.tile id).flight.find? (fun x => x.seq == s.ev.x) = some r → r.dst = .staging code cap → r.bytes = bytesAt a n v → r.flags = 0 →
    Memory.wf (s.tile id).staging = true → (∀ b, s.struck id r.due b = false) →
    ∃ m : Mem, Memory.wf m = true ∧
      exec .resultLanding s = .next (s.setTile id { s.tile id with
        flight := (s.tile id).flight.filter (fun x => x.seq != r.seq)
        staging := m }) ∧
      (∀ k < n, memGet m (a + k) = BitVec.ofNat 8 (v / 256 ^ k)) ∧
      (∀ b, b < a ∨ a + n ≤ b → memGet m b = memGet (s.tile id).staging b)

/-- R135, R56: a change of the mask stack lands: the depth and the top are those after it, and the entries below the top stay. -/
def Sys2Proof.Claims.MaskStackLands : Prop :=
  ∀ (s : State) (r : Result) (n : Nat), let id := s.ev.tile; let t := s.tile id
    t.flight.find? (fun x => x.seq == s.ev.x) = some r → r.dst = .mstack n → r.flags = 0 → n ≤ t.regs.ms.length + 1 →
    ∃ ms, exec .resultLanding s = .next (s.setTile id { t with
        regs := { t.regs with ms := ms }, flight := t.flight.filter (fun x => x.seq != r.seq) }) ∧
      ms.length = n ∧ (0 < n → ms.head? = some (BitVec.ofNat 64 r.val)) ∧ ms.drop 1 = t.regs.ms.drop (t.regs.ms.length + 1 - n)

/-- R56, R226, R227, R239, R240: what lands in the matrix engine: an accumulator's elements, kind and flags; a row; a clear; a retirement, which leaves the
accumulator accumulating where a later write is on its way; buffer bytes, and no other bytes; a tag; a scale write, renamed or in place. That an MMA.Z clears the flags
where it lands is the model's choice (log 91). -/
def Sys2Proof.Claims.MatrixResultsLand : Prop :=
  ∀ (s : State) (r : Result), let id := s.ev.tile; let t := s.tile id
    t.flight.find? (fun x => x.seq == s.ev.x) = some r →
    let lands := fun (u : Tile) => exec .resultLanding s = .next (s.setTile id { u with flight := t.flight.filter (fun x => x.seq != r.seq) })
    (∀ k int clear, r.dst = .acc k int clear → lands (t.setAcc k { t.acc k with
      elems := BitVec.ofNat 131072 r.val, int := int, flags := (if clear then 0 else (t.acc k).flags) ||| r.flags })) ∧
    (r.flags = 0 →
      (∀ k row int, row < 64 → r.dst = .accRow k row int → ∃ e : BitVec 131072, lands (t.setAcc k { t.acc k with elems := e, int := int }) ∧
        ∀ j < 4096, accElem e.toNat j = if j / 64 = row then accElem r.val (j % 64) else accElem (t.acc k).elems.toNat j) ∧
      (∀ k, r.dst = .accZero k → lands (t.setAcc k { t.acc k with elems := 0, int := false, flags := 0 })) ∧
      (∀ k, r.dst = .accRetire k → ∃ st, lands (t.setAcc k { t.acc k with elems := 0, int := false, flags := 0, st := st }) ∧
        st = if (t.flight.any fun x => decide (r.seq < x.seq) && (match x.dst with
          | .acc j _ _ | .accRow j _ _ => j == k
          | _ => false)) then .accumulating else .retired) ∧
      (∀ k lo len, lo + len ≤ 8192 → r.dst = .buffer k lo len → ∃ e : BitVec 65536, lands (t.setBuf k { t.buf k with data := e }) ∧
        ∀ j < 8192, e.toNat / 256 ^ j % 256 =
          if lo ≤ j ∧ j < lo + len then r.val / 256 ^ (j - lo) % 256 else (t.buf k).data.toNat / 256 ^ j % 256) ∧
      (∀ k q lay cont lvl slot, r.dst = .bufSlot k q lay cont lvl slot →
        lands (t.bufferSlot k q lay cont lvl slot ((List.range 64).map fun i => BitVec.ofNat 8 (r.val / 256 ^ i)))) ∧
      (∀ k, r.dst = .tag k none → lands (t.setBuf k { t.buf k with valid := false })) ∧
      (∀ k n, r.dst = .tag k (some n) →
        lands (t.setBuf k { t.buf k with valid := true, slot := t.slotOf n, gen := (t.scaleSlot (t.slotOf n)).gen })) ∧
      (∀ name slot, r.dst = .scale name slot true → lands (t.setSlot slot
        { codes := BitVec.ofNat 1024 r.val, gen := ((t.scaleSlot slot).gen + 1) % 16 })) ∧
      (∀ name slot, r.dst = .scale name slot false → lands ((t.setSlot slot
        { t.scaleSlot slot with codes := BitVec.ofNat 1024 r.val }).mapName name slot)))

/-- R200, R218: a record load completes with the outcome of its checks, in their order; the entry lands as the load found it, or the partition waits for the
load in a hold; an unpinned entry lands empty. The load is made by the record-load agent, which asks for its
transfers first (R182), on the copy of the table of the tile's own die (R198), which lies at the same place of that die (the model's choice, log 79). A record, or its
companion, that a vault data error keeps from being read gives why 5, and the companion is read where the record alone passes its checks (the model's reading, log 57). -/
def Sys2Proof.Claims.RecordCacheLands : Prop :=
  ∀ s : State, let id := s.ev.tile; let t := s.tile id
    (∀ n k l, s.ev.grant = .given → s.kernelOf id = some (n, k) → t.loads.find? (fun l => l.seq == s.ev.x) = some l →
      let p := s.pin k.ctx id (256 * shapeDies k.shape) l.v l.nib
      (∀ k', p.1.kernelOf id = some (n, k') → 5 ∉ k'.holds →
        exec .recordLoadComplete s = .next (p.1.setTile id { p.1.tile id with loads := (p.1.tile id).loads.map fun x =>
          if x.seq = l.seq then { x with done := some p.2 } else x }))) ∧
    (∀ n k l, s.ev.grant = .fresh → s.kernelOf id = some (n, k) → t.loads.find? (fun l => l.seq == s.ev.x) = some l →
      s.recordNeeds k.ctx (dieOf id) l.v ≠ [] →
      exec .recordLoadComplete s = .next (s.ask 2 { i := .recordLoadComplete, arg := s.ev } (s.recordNeeds k.ctx (dieOf id) l.v))) ∧
    (∀ (m die i : Nat), let ctx := s.ctx m
      (ctx.tablePlace = none → s.recordRead m die i = (s, some (mapGet [] ctx.objs i))) ∧
      (∀ a o, ctx.tablePlace = some (a, o) →
        let q := s.vaultRead (sameSpot a die) 1 (o + 128 * i) 128
        s.recordRead m die i = (q.1, match q.2 with
          | .error _ => none
          | .ok bs => some (wordsOf bs)))) ∧
    (∀ (m tiles v : Nat) (nib : Bool), let ctx := s.ctx m
      let out := pinOutcome ctx (posOfTile ctx.die0 ctx.shape id) tiles v nib; let p := s.pin m id tiles v nib
      let lost : OhEntry := { est := 2, why := 5, id := v % 2 ^ 16, gen := v / 2 ^ 16 % 2 ^ 16, nib := nib }
      let q := s.recordRead m (dieOf id) (v % 2 ^ 16)
      ((ctx.objLen ≤ v % 2 ^ 16 ∨ 2 ^ 32 ≤ v) → p = (s, { lost with why := 1 })) ∧
      (v % 2 ^ 16 < ctx.objLen → v < 2 ^ 32 →
        (q.2 = none → p = (q.1, lost)) ∧
        (∀ r, q.2 = some r →
          ((recWord r 11 / 2 ^ 32 % 2 = 0 ∨ ctx.objLen ≤ recWord r 11 % 2 ^ 16 ∨ recState r = 0 ∨ recBits r 0 31 16 ≠ v / 2 ^ 16 % 2 ^ 16 ∨ recUsable r nib tiles = false) →
            p = (q.1, out r [])) ∧
          (recWord r 11 / 2 ^ 32 % 2 = 1 → recWord r 11 % 2 ^ 16 < ctx.objLen → recState r ≠ 0 → recBits r 0 31 16 = v / 2 ^ 16 % 2 ^ 16 → recUsable r nib tiles = true →
            let w := q.1.recordRead m (dieOf id) (recWord r 11 % 2 ^ 16)
            (w.2 = none → p = (w.1, lost)) ∧ ∀ x, w.2 = some x → p = (w.1, out r x))))) ∧
    (∀ (ctx : Context) (pos tiles v : Nat) (nib : Bool) (r x : List Word),
      let o := pinOutcome ctx pos tiles v nib r x
      o.id = v % 2 ^ 16 ∧ o.gen = v / 2 ^ 16 % 2 ^ 16 ∧ o.nib = nib ∧
      ((ctx.objLen ≤ v % 2 ^ 16 ∨ 2 ^ 32 ≤ v) → o.est = 2 ∧ o.why = 1) ∧
      (v % 2 ^ 16 < ctx.objLen → v < 2 ^ 32 →
        (recState r = 0 → o.est = 2 ∧ o.why = 2) ∧
        (recState r ≠ 0 → recBits r 0 31 16 ≠ v / 2 ^ 16 % 2 ^ 16 → o.est = 2 ∧ o.why = 3) ∧
        (recState r ≠ 0 → recBits r 0 31 16 = v / 2 ^ 16 % 2 ^ 16 →
          if recUsable r nib tiles && companionOk r x ctx.objLen then o.est = 1 ∧ o.why = 0 ∧ o.words = r ∧
            (recState r = 2 → o.wm = mapGet (recWord r 12 / 2 ^ 32) ctx.wmks (pos * 2 ^ 16 + v % 2 ^ 16)) else o.est = 2 ∧ o.why = 4))) ∧
    (∀ r l, t.flight.find? (fun x => x.seq == s.ev.x) = some r → r.flags = 0 →
      let fl := t.flight.filter (fun x => x.seq != r.seq)
      (∀ h, r.dst = .unpin h → exec .resultLanding s = .next (s.setTile id { t.setOhe h {} with flight := fl })) ∧
      (∀ h e, r.dst = .handle h → (∀ y ∈ t.loads, y.seq = r.seq → y = l) → l ∈ t.loads → l.seq = r.seq → l.done = some e →
        exec .resultLanding s = .next (s.setTile id { t.setOhe h e with flight := fl, loads := t.loads.filter fun x => x.seq != r.seq })) ∧
      (∀ h n k, r.dst = .handle h → l ∈ t.loads → l.seq = r.seq → l.done = none → s.kernelOf id = some (n, k) → 5 ∈ k.holds →
        exec .resultLanding s = .next s))

/-- R56, R74, R112, R109, R155, R135, R226, R227, R239, R240, R200, R218: results land in registers, staging, masks, accumulators and record entries. -/
def Obligations.ResultsLand : Prop :=
  Sys2Proof.Claims.ResultsLandInRegisters ∧ Sys2Proof.Claims.StoresLandInStaging ∧ Sys2Proof.Claims.MaskStackLands ∧ Sys2Proof.Claims.MatrixResultsLand ∧ Sys2Proof.Claims.RecordCacheLands

/-- R123: in the landing queue the handler discards the selected result, replaces its flags, or replaces a word of its value; a value still
returning is not replaced; nothing else changes. That the entries after a discarded one move down is the model's choice (log 71). -/
def Sys2Proof.Claims.LandingQueueWrites : Prop :=
  ∀ (s : State) (r : Result), let id := s.ev.tile; let t := s.tile id
    t.lqSelected = some (.result r) →
    exec .lqEntryDiscard s = .next (s.setTile id { t with flight := t.flight.filter fun x => x.seq != r.seq }) ∧
    exec .lqFlagsWrite s = .next (s.setTile id { t with flight := t.flight.map fun x =>
      if x.seq = r.seq then { x with flags := BitVec.ofNat 6 (s.ev.y / 2 ^ 21) } else x }) ∧
    (r.pending (s.agentCycle id) = true → exec .lqvWrite s = .next (s.setTile id t)) ∧
    (∀ n, r.dst = .sreg n → r.pending (s.agentCycle id) = false → t.sys.lqsel.toNat / 2 ^ 5 % 2 ^ 5 = 0 → r.val < 2 ^ 64 → s.ev.y < 2 ^ 64 →
      exec .lqvWrite s = .next (s.setTile id { t with flight := t.flight.map fun x =>
        if x.seq = r.seq then (if x.dst = .sreg n ∧ x.val < 2 ^ 64 then { x with val := s.ev.y } else x.setWord 0 s.ev.y) else x }))

/-- R156, R247, R191: a write through a view changes the word that the selector names, and nothing else; a write of vlcnt clears both logs. -/
def Sys2Proof.Claims.ViewWrites : Prop :=
  ∀ s : State, let id := s.ev.tile; let t := s.tile id
    let vn := t.sys.vwsel.toNat / 4 % 32; let vw := t.sys.vwsel.toNat / 2 ^ 7 % 32
    let mn := t.sys.mwsel.toNat / 4 % 128; let mw := t.sys.mwsel.toNat / 2 ^ 9 % 2 ^ 11
    (t.sys.vwsel.toNat % 4 = 0 → ∃ v : VWord, exec .vwdatWrite s = .next (s.setTile id (t.setV vn v)) ∧
      ∀ w < 32, v.toNat / 2 ^ (64 * w) % 2 ^ 64 =
        if w = vw then s.ev.y % 2 ^ 64 else (mapGet (0 : VWord) t.regs.v vn).toNat / 2 ^ (64 * w) % 2 ^ 64) ∧
    (t.sys.vwsel.toNat % 4 = 1 → vn < 8 → exec .vwdatWrite s = .next (s.setTile id (t.setMk vn (BitVec.ofNat 64 s.ev.y)))) ∧
    (t.sys.vwsel.toNat % 4 = 2 → ∃ ms, exec .vwdatWrite s = .next (s.setTile id { t with regs := { t.regs with ms := ms } }) ∧
      ms.length = t.regs.ms.length ∧ ∀ k < ms.length, ms.reverse.getD k 0 = if k = vn then BitVec.ofNat 64 s.ev.y else t.regs.ms.reverse.getD k 0) ∧
    (t.sys.mwsel.toNat % 4 = 0 → mn < 4 → ∃ e : BitVec 131072,
      exec .mwdatWrite s = .next (s.setTile id (t.setAcc mn { t.acc mn with elems := e })) ∧
      ∀ w < 2048, e.toNat / 2 ^ (64 * w) % 2 ^ 64 = if w = mw then s.ev.y % 2 ^ 64 else (t.acc mn).elems.toNat / 2 ^ (64 * w) % 2 ^ 64) ∧
    (t.sys.mwsel.toNat % 4 = 1 → mn < 8 → mw < 1024 → ∃ e : BitVec 65536,
      exec .mwdatWrite s = .next (s.setTile id (t.setBuf mn { t.buf mn with data := e })) ∧
      ∀ w < 1024, e.toNat / 2 ^ (64 * w) % 2 ^ 64 = if w = mw then s.ev.y % 2 ^ 64 else (t.buf mn).data.toNat / 2 ^ (64 * w) % 2 ^ 64) ∧
    (t.sys.mwsel.toNat % 4 = 2 → mw < 16 → ∃ e : BitVec 1024,
      exec .mwdatWrite s = .next (s.setTile id (t.setSlot mn { t.scaleSlot mn with codes := e })) ∧
      ∀ w < 16, e.toNat / 2 ^ (64 * w) % 2 ^ 64 = if w = mw then s.ev.y % 2 ^ 64 else (t.scaleSlot mn).codes.toNat / 2 ^ (64 * w) % 2 ^ 64) ∧
    exec .vlcntWrite s = .next (s.setTile id { t with vault := { t.vault with alog := [], blog := [], acount := 0, bcount := 0 } })

/-- R343, R344: the rows of an event counter: a clear and a reprogram set the count to zero, an overflow clear drops ovf, and an overflow raises ovf and
bit 63 of the reads of this cycle; an overflow adds an entry to the drift log where the counter asks for one, of the last bundle that issued (R340); in
the cycle of a reprogram ovf stays as it was before it. The bundle that an overflow's entry names, the last that issued, is read from R340 (log 41). -/
def Sys2Proof.Claims.CounterRows : Prop :=
  ∀ s : State, let id := s.ev.tile; let t := s.tile id; let k := s.ev.x
    (∃ m, exec .pccClear s = .next (s.setTile id { t with perf := { t.perf with pcv := mapSet 0 t.perf.pcv k 0, marks := m } })) ∧
    (∃ m b, exec .pccReprogram s = .next (s.setTile id { t with perf := { t.perf with pcv := mapSet 0 t.perf.pcv k 0, marks := m, before := b } }) ∧
      (t.flow.handler = false → mapFind b k = some (mapGet 0 t.perf.pcv k, s.ev.y))) ∧
    exec .pccOvfClear s = .next (s.setTile id { t with perf := { t.perf with
      pcc := mapSet 0 t.perf.pcc k (mapGet 0 t.perf.pcc k &&& ~~~(0x100 : Word)) } }) ∧
    (t.lateOverflow k = false → t.overflows k = true → (mapGet (0 : Word) t.perf.pcc k).getLsbD 9 = false →
      exec .counterOverflow s = .next (s.setTile id { t with
        perf := { t.perf with pcc := mapSet 0 t.perf.pcc k (mapGet 0 t.perf.pcc k ||| (0x100 : Word)) }
        flight := t.flight.map fun r => if (k, r.seq) ∈ t.perf.reads then { r with val := r.val % 2 ^ 63 + 2 ^ 63 } else r })) ∧
    (t.lateOverflow k = false → t.overflows k = true → (mapGet (0 : Word) t.perf.pcc k).getLsbD 9 = true → RisingMap s.tiles →
      ∃ u, exec .counterOverflow s = .next u ∧ (u.tile id).perf.dlcnt = min (t.perf.dlcnt + 1) (2 ^ 32 - 1) ∧
        (u.tile id).perf.dl = mapPut t.perf.dl (t.perf.dlcnt % 64)
          (({ t with flow := { t.flow with loops := t.flow.lastLoops } } : Tile).driftWords 3 t.flow.lastPc (s.agentCycle id) k 0) ∧
        (u.tile id).perf.pcc = mapSet 0 t.perf.pcc k (mapGet 0 t.perf.pcc k ||| (0x100 : Word)) ∧ (u.tile id).regs = t.regs) ∧
    (t.lateOverflow k = false → t.overflows k = false → exec .counterOverflow s = .next (s.setTile id t)) ∧
    (∀ n c, mapFind t.perf.before k = some (n, c) → (t.lateOverflow k = true ↔ 2 ^ 48 ≤ n + t.adding c) ∧
      (t.lateOverflow k = true → ∃ w : Word, exec .counterOverflow s = .next (s.setTile id { t with perf := { t.perf with pcc := mapSet 0 t.perf.pcc k w } }) ∧
        ∀ j < 64, w.getLsbD j = if j = 8 then bitOf c 8 else (mapGet (0 : Word) t.perf.pcc k).getLsbD j))

/-- R93, R94, R95: FMT and FTSEL leave a write pending that takes effect for the third bundle issued after it, and its effect is on the row, efr or ftsr that it names; FTSEL's
row follows the loops as that bundle finds them, without the one that a taken LBRK has ended (R105). That a level of 7 stands for 6 is the model's choice (log 68). -/
def Sys2Proof.Claims.FormatWrites : Prop :=
  (∀ (s : State) (d : Reg) (b : Src) (lvl : BitVec 3) (base : BitVec 4), let t := mine s
    let pend := fun (target val : Nat) => { t with
      fmts := { t.fmts with pend := t.fmts.pend ++ [{ seq := t.flow.seq, target := target, val := val, left := 3 }] }
      flow := { t.flow with seq := t.flow.seq + 1 } }
    Gives (.fmt d b) s (pend d.toNat (if d = 16 then (t.zsrc b).toNat % 2 ^ 8
      else (t.zsrc b).toNat % 2 ^ 14 + (t.zsrc b).toNat / 2 ^ 16 % 2 ^ 6 * 2 ^ 16)) ∧
    Gives (.ftsel lvl base) s (pend 17 (base.toNat + lvl.toNat * 16))) ∧
  (∀ (s : State) (w : FmtWrite), let id := s.ev.tile; let t := s.tile id
    let loops := if t.flow.popDue then t.flow.loops.drop 1 else t.flow.loops
    t.fmts.pend.find? (fun x => x.seq == s.ev.x) = some w → w.flags = 0 → w.target ≤ 17 →
    ∃ f, exec .formatWriteEffect s = .next (s.setTile id { t with fmts := { f with pend := t.fmts.pend.filter fun x => x.seq != s.ev.x } }) ∧
      (w.target = 16 → f = { t.fmts with efr := BitVec.ofNat 64 (w.val % 2 ^ 8) }) ∧
      (w.target < 16 → f = { t.fmts with ft := mapSet 0 t.fmts.ft w.target (BitVec.ofNat 64 (w.val % 2 ^ 14 + w.val / 2 ^ 16 % 2 ^ 6 * 2 ^ 16)) }) ∧
      (w.target = 17 → let l := min (w.val / 16 % 8) 6
        f = { t.fmts with base := w.val % 16, level := l, row := if l = 6 then w.val % 16 else (w.val % 16 + (match loops.reverse[l]? with
          | some e => e.i
          | none => 0)) % 16 }))

/-- R123, R156, R247, R191, R343, R344, R93, R94, R95: handler windows, counters and format writes. -/
def Obligations.RegisterWindowsAndCounters : Prop :=
  Sys2Proof.Claims.LandingQueueWrites ∧ Sys2Proof.Claims.ViewWrites ∧ Sys2Proof.Claims.CounterRows ∧ Sys2Proof.Claims.FormatWrites

/-- R69, R138: the sum and the product that the unit forms of two finite values are exact; an exact zero sum and the zero of a product have the
signs of R138 and R139. -/
def Obligations.SumsAndProductsAreExact : Prop :=
  ∀ (m : RMode) (na nb : Bool) (ma mb : Nat) (ea eb : Int),
    (∃ n k e, numAdd m (.fin na ma ea) (.fin nb mb eb) = (.fin n k e, 0) ∧ valQ n k e = valQ na ma ea + valQ nb mb eb ∧
      (valQ na ma ea + valQ nb mb eb = 0 → n = if ma = 0 ∧ mb = 0 ∧ na = nb then na else decide (m = .rdn))) ∧
    (∃ k e, numMul (.fin na ma ea) (.fin nb mb eb) = (.fin (na != nb) k e, 0) ∧ valQ (na != nb) k e = valQ na ma ea * valQ nb mb eb)

/-- R75, R76, R77: a finite value rounded to a floating format without overflow and without ftz: the code's value r lies on the side that the mode says
and less than one unit u of the last place away, at most half for the nearest modes; inexact is raised when r differs; u is 2^(e − m) for the exponent e
of the value, but not below the format's least. -/
def Obligations.RoundingStaysWithinAnUlp : Prop :=
  ∀ (f : Fmt) (mode : RMode) (neg : Bool) (man : Nat) (exp : Int), man ≠ 0 →
    f ∈ [Fmt.f64, .f32, .bf16, .f16, .e4m3, .e5m2, .e3m2, .e2m3, .e2m1] →
    ((rndFloat f mode false false (.fin neg man exp)).2).getLsbD 2 = false →
    ∃ k e, (layoutOf f).value (rndFloat f mode false false (.fin neg man exp)).1 = .fin neg k e ∧
      (let x := valQ false man exp
       let r := valQ false k e
       let u := (2 : ℚ) ^ (max (logFloor man exp) (1 - ((layoutOf f).bias : Int)) - ((layoutOf f).m : Int))
       |r - x| < u ∧
       (mode = .rne ∨ mode = .rna → 2 * |r - x| ≤ u) ∧
       (mode = .rtz → r ≤ x) ∧
       (mode = .rup → if neg then r ≤ x else x ≤ r) ∧
       (mode = .rdn → if neg then x ≤ r else r ≤ x) ∧
       (((rndFloat f mode false false (.fin neg man exp)).2).getLsbD 4 = true ↔ r ≠ x))

/-- R138, R139, R140: the two- and three-operand floating instructions work element by element on the operands as daz leaves them, with one rounding in
the mode of mod.rm or fcsr; active elements alone raise flags and are written. -/
def Obligations.VectorFloatArithmetic : Prop :=
  ∀ (s : State) (f : Fmt) (rm : Rm) (mt : Bool) (d a c : Reg) (b : Src), f.isArith = true →
    let t := mine s; let v := t.fpEnv rm; let w := t.fpEnv .fcsr
    let x := fun e => v.read f (elem t f a e); let y := fun e => v.read f (elemB t f b e); let z := fun e => v.read f (elem t f c e)
    let out := fun (r : Machine.Num × FlagSet) => ((rndFloat f v.mode v.sat v.ftz r.1).1, (rndFloat f v.mode v.sat v.ftz r.1).2 ||| r.2)
    GivesElems (.vfadd f rm mt d a b) s f mt d 4 (fun e => out (numAdd v.mode (x e) (y e))) ∧
    GivesElems (.vfsub f rm mt d a b) s f mt d 4 (fun e => out (numAdd v.mode (x e) (y e).neg)) ∧
    GivesElems (.vfmul f rm mt d a b) s f mt d 4 (fun e => out (numMul (x e) (y e))) ∧
    GivesElems (.vfma f rm mt d a b c) s f mt d 4 (fun e => out (numFma v.mode false (x e) (y e) (z e))) ∧
    GivesElems (.vfms f rm mt d a b c) s f mt d 4 (fun e => out (numFma v.mode false (x e) (y e) (z e).neg)) ∧
    GivesElems (.vfnma f rm mt d a b c) s f mt d 4 (fun e => out (numFma v.mode true (x e) (y e) (z e))) ∧
    GivesElems (.vfdiv f rm mt d a b) s f mt d 14 (fun e => out (numDiv (x e) (y e))) ∧
    GivesElems (.vfsqrt f rm mt d a) s f mt d 14 (fun e => out (numSqrt (x e))) ∧
    GivesElems (.vfmin f mt d a b) s f mt d 4 (fun e => w.pick f false (elem t f a e) (elemB t f b e)) ∧
    GivesElems (.vfmax f mt d a b) s f mt d 4 (fun e => w.pick f true (elem t f a e) (elemB t f b e)) ∧
    GivesElems (.vfabs f mt d a) s f mt d 4 (fun e =>
      (w.bits f (elem t f a e) % 2 ^ ((layoutOf f).width - 1), 0)) ∧
    GivesElems (.vfneg f mt d a) s f mt d 4 (fun e =>
      ((w.bits f (elem t f a e) + 2 ^ ((layoutOf f).width - 1)) % 2 ^ (layoutOf f).width, 0))

/-- R141: VFCMP writes one mask bit an element, zero in inactive lanes; an unordered pair makes every ordered comparison false, ne and un true. That lt, le, gt and ge
of a quiet NaN raise invalid is R141 against R386 and R392 (log 25). -/
def Sys2Proof.Claims.VectorFloatCompare : Prop :=
  ∀ (s : State) (f : Fmt) (cc : FCond) (mt : Bool) (d a : Reg) (b : Src), f.isWide = true →
    let t := mine s; let v := t.fpEnv .fcsr
    let x := fun e => v.read f (elem t f a e); let y := fun e => v.read f (elemB t f b e)
    let un := fun e => (x e).isNan || (y e).isNan
    let ord := fun e => numCmp (x e) (y e)
    ∃ flags,
      Raised flags f (onMask s mt) (fun e =>
        if ((x e).isSig || (y e).isSig) || (un e && decide (cc ∈ [FCond.lt, .le, .gt, .ge])) then flagNv else 0) ∧
      GivesM (.vfcmp f cc mt d a b) s (pairBusy s f) d.toNat (if f.isPair then 5 else 4) flags (onMask s mt) (fun e => match cc with
        | .un => un e | .or => !un e | .ne => un e || decide (ord e ≠ 0) | .eq => !un e && decide (ord e = 0)
        | .lt => !un e && decide (ord e < 0) | .le => !un e && decide (ord e ≤ 0)
        | .gt => !un e && decide (0 < ord e) | .ge => !un e && decide (0 ≤ ord e))

/-- R143, R144: VFRND, VSCALB and the four FP32 functions, element by element; the functions take 8 cycles and round toward zero. -/
def Sys2Proof.Claims.VectorFloatFunctions : Prop :=
  ∀ (s : State) (f : Fmt) (rm : Rm) (mt : Bool) (d a : Reg) (b : Src), f.isArith = true →
    let t := mine s; let v := t.fpEnv rm; let w := { t.fpEnv .fcsr with mode := .rtz }
    let n := fun e => match b with
      | .imm i => (Imm.simm i).toInt
      | .reg r => if f.isPacked then signed (lane t r (e / 2) / 2 ^ (16 * (e % 2))) 16 else signed (lane t r e) 32
    GivesElems (.vfrnd f rm mt d a) s f mt d 4 (fun e => v.rint f (elem t f a e)) ∧
    GivesElems (.vscalb f rm mt d a b) s f mt d 4 (fun e => v.scalb f (elem t f a e) (n e)) ∧
    GivesElems (.vexp2 mt d a) s .f32 mt d 8 (fun e => w.exp2 (lane t a e)) ∧
    GivesElems (.vlog2 mt d a) s .f32 mt d 8 (fun e => w.log2 (lane t a e)) ∧
    GivesElems (.vrcp mt d a) s .f32 mt d 8 (fun e => w.deliver .f32 (numDiv (.fin false 1 0) (w.read .f32 (lane t a e)))) ∧
    GivesElems (.vrsq mt d a) s .f32 mt d 8 (fun e => w.rsq (lane t a e))

/-- R141, R143, R144: vector floating comparisons, roundings, scalings and functions. -/
def Obligations.VectorFloatTests : Prop :=
  Sys2Proof.Claims.VectorFloatCompare ∧ Sys2Proof.Claims.VectorFloatFunctions

/-- R142: VFCVT converts element by element between layouts: two registers fill a packed destination, one half of a packed source feeds a wide one; a
narrow result stands in its lane sign-extended for a signed integer and zero-extended otherwise. -/
def Obligations.VectorConvert : Prop :=
  ∀ (s : State) (dst src : Fmt) (rm : Rm) (mt : Bool) (d a b : Reg) (hi : Bool),
    let t := mine s; let v := t.fpEnv rm
    let from' := fun e => if dst.isPacked && !src.isPacked then (if e < 64 then elem t src a e else elem t src b (e - 64))
      else if src.isPacked && !dst.isPacked then elem t src a (if hi then e + 64 else e) else elem t src a e
    let r := fun e => v.convert dst src (t.efrInt dst) (t.efrInt src) t.isat (from' e)
    let wide := dst.isPair || src.isPair
    let t' := if wide then { t with flow := { t.flow with pairBusy := some (s.cur.now + 1) } } else t
    let lat := if wide then 5 else 4
    ∃ flags, Raised flags dst (onMask s mt) (fun e => (r e).2) ∧
      if dst.isPair then GivesVV (.vfcvt dst src rm mt d a b hi) s t' d.toNat lat flags (onMask s mt) (fun k => (r k).1) (fun k => (r k).1 / 2 ^ 32)
      else GivesV (.vfcvt dst src rm mt d a b hi) s t' d.toNat lat flags (onMask s mt) (fun k =>
        if dst.isPacked then (r (2 * k)).1 % 2 ^ 16 + 2 ^ 16 * ((r (2 * k + 1)).1 % 2 ^ 16)
        else match dst with
          | .f32 | .i32 => (r k).1
          | .e8m0 => (r k).1 % 2 ^ 8
          | .i8 | .intn => if (t.efrInt dst).sgn then wrap (signed (r k).1 (t.efrInt dst).n) 32 else (r k).1 % 2 ^ (t.efrInt dst).n
          | _ => (r k).1 % 2 ^ (layoutOf dst).width)

/-- R145, R136: the integer lane instructions, modulo 2^32, signed or unsigned as each says, latency 2, no flag. -/
def Sys2Proof.Claims.VectorInteger : Prop :=
  ∀ (s : State) (mt : Bool) (d a c : Reg) (b : Src),
    let t := mine s; let x := lane t a; let y := laneB t b; let z := lane t c
    let xs := fun k => signed (x k) 32; let ys := fun k => signed (y k) 32
    let ok := fun (i : Instr) (g : Nat → Nat) => GivesV i s t d.toNat 2 0 (onMask s mt) g
    ok (.vadd mt d a b) (fun k => x k + y k) ∧
    ok (.vsub mt d a b) (fun k => x k + (2 ^ 32 - y k)) ∧
    ok (.vmul mt d a b) (fun k => x k * y k) ∧
    ok (.vmulh true mt d a b) (fun k => x k * y k / 2 ^ 32) ∧
    ok (.vmulh false mt d a b) (fun k => wrap (xs k * ys k / 2 ^ 32) 32) ∧
    ok (.vmad mt d a b c) (fun k => x k * y k + z k) ∧
    ok (.vand mt d a b) (fun k => x k &&& y k) ∧
    ok (.vor mt d a b) (fun k => x k ||| y k) ∧
    ok (.vxor mt d a b) (fun k => x k ^^^ y k) ∧
    ok (.vshl mt d a b) (fun k => x k * 2 ^ (y k % 32)) ∧
    ok (.vshr mt d a b) (fun k => x k / 2 ^ (y k % 32)) ∧
    ok (.vsar mt d a b) (fun k => wrap (xs k / 2 ^ (y k % 32)) 32) ∧
    ok (.vmin true mt d a b) (fun k => min (x k) (y k)) ∧
    ok (.vmin false mt d a b) (fun k => wrap (min (xs k) (ys k)) 32) ∧
    ok (.vmax true mt d a b) (fun k => max (x k) (y k)) ∧
    ok (.vmax false mt d a b) (fun k => wrap (max (xs k) (ys k)) 32) ∧
    ok (.vsel mt d a b c) (fun k => if ((mine s).mreg c).getLsbD k then x k else y k) ∧
    ok (.vabs mt d a) (fun k => wrap |xs k| 32) ∧
    ok (.vpopc mt d a) (fun k => (List.range 32).countP fun j => bitOf (x k) j) ∧
    (∃ g : Nat → Nat, ok (.vclz mt d a) g ∧ ∀ k < 64, g k ≤ 32 ∧ x k < 2 ^ (32 - g k) ∧ (g k < 32 → 2 ^ (31 - g k) ≤ x k)) ∧
    (∀ cc : Cond, GivesM (.vcmp cc mt d a b) s t d.toNat 2 0 (onMask s mt) (fun k => match cc with
      | .eq => decide (x k = y k) | .ne => decide (x k ≠ y k)
      | .lt => decide (xs k < ys k) | .ge => decide (xs k ≥ ys k) | .gt => decide (xs k > ys k) | .le => decide (xs k ≤ ys k)
      | .ltu => decide (x k < y k) | .geu => decide (x k ≥ y k) | .gtu => decide (x k > y k) | .leu => decide (x k ≤ y k)))

/-- R146: VCLMUL multiplies 64-bit values of neighbouring lanes without carries: bit j of the product is the parity of the pairs of bits whose places sum
to j; the mask bit of an even lane governs its pair. -/
def Sys2Proof.Claims.CarrylessProducts : Prop :=
  ∀ (s : State) (hi mt : Bool) (d a b : Reg),
    let t := mine s
    let on : Mask := BitVec.ofFnLE fun k : Fin 64 => (onMask s mt).getLsbD (k.val / 2 * 2)
    let q := fun (r : Reg) (p : Nat) => lane t r (2 * p) + 2 ^ 32 * lane t r (2 * p + 1)
    ∃ g : Nat → Nat,
      GivesV (if hi then .vclmulHi mt d a b else .vclmulLo mt d a b) s t d.toNat 2 0 on (fun k => g (k / 2) / 2 ^ (32 * (k % 2))) ∧
      ∀ p < 32, g p < 2 ^ 64 ∧ ∀ j < 64, bitOf (g p) j =
        decide (((List.range 64).countP fun i => decide (i ≤ (if hi then j + 64 else j)) && bitOf (q b p) i &&
          bitOf (q a p) ((if hi then j + 64 else j) - i)) % 2 = 1)

/-- R145, R136, R146: vector integer instructions and carryless products. -/
def Obligations.VectorInteger : Prop :=
  Sys2Proof.Claims.VectorInteger ∧ Sys2Proof.Claims.CarrylessProducts

/-- R147: the permutes and moves, from the lanes as they stand at issue; VEXT and the scalar forms of VMOVS. -/
def Obligations.PermutesAndMoves : Prop :=
  ∀ (s : State) (mt : Bool) (d a b c : Reg) (l : BitVec 6),
    let t := mine s; let on := onMask s mt
    GivesV (.vperm mt d a b) s t d.toNat 3 0 on (fun k => lane t a (lane t b k % 64)) ∧
    GivesV (.vshuf mt d a b c) s t d.toNat 3 0 on (fun k =>
      if lane t c k % 128 < 64 then lane t a (lane t c k % 128) else lane t b (lane t c k % 128 - 64)) ∧
    GivesV (.vbcast mt d a l) s t d.toNat 3 0 on (fun _ => lane t a l.toNat) ∧
    GivesV (.vmov mt d a false) s t d.toNat 3 0 on (lane t a) ∧
    GivesVV (.vmov mt d a true) s t d.toNat 3 0 on (lane t a) (lane t (a + 1)) ∧
    GivesV (.vmovs .single mt d a) s t d.toNat 3 0 on (fun _ => av s a) ∧
    GivesV (.vmovs .iota mt d a) s t d.toNat 3 0 on (fun k => av s a + k) ∧
    GivesVV (.vmovs .pair mt d a) s t d.toNat 3 0 on (fun _ => av s a) (fun _ => av s a / 2 ^ 32) ∧
    GivesS (.vext d a l false false) s d (lane t a l.toNat) 3 ∧
    GivesS (.vext d a l true false) s d (wrap (signed (lane t a l.toNat) 32) 64) 3 ∧
    GivesS (.vext d a l false true) s d (lane t a l.toNat + 2 ^ 32 * lane t (a + 1) l.toNat) 3

/-- R148, R150: VREDADD adds the active elements by the fixed tree, inactive ones standing as the identity, and writes every lane; VSCAN writes each active
lane the running sum up to it. -/
def Sys2Proof.Claims.SumsAcrossLanes : Prop :=
  ∀ (s : State) (mt : Bool) (d a : Reg),
    let t := mine s; let on := onMask s mt; let v := t.fpEnv .fcsr
    let id := fun (f : Fmt) => if f = .i32 then 0 else if f.isPair then 2 ^ 63 else 2 ^ 31
    (∀ f : Fmt, f ∈ [Fmt.f32, .f64, .i32] →
      let r := treeAt (v.sum f) (fun e => if on.getLsbD e then elem t f a e else id f) 6 0
      if f.isPair then GivesVV (.vredadd f mt d a) s t d.toNat 25 r.2 (BitVec.allOnes 64) (fun _ => r.1) (fun _ => r.1 / 2 ^ 32)
      else GivesV (.vredadd f mt d a) s t d.toNat 24 r.2 (BitVec.allOnes 64) (fun _ => r.1)) ∧
    (∀ k : ScanKind,
      let f : Fmt := match k with
        | .i32 => .i32
        | .f32 => .f32
      GivesV (.vscan k mt d a) s t d.toNat 24 (scanAt (v.sum f) (id f) on (lane t a) 64).2 on
        (fun j => (scanAt (v.sum f) (id f) on (lane t a) (j + 1)).1))

/-- R149, R140: VREDMAX and VREDMIN of integers write every lane the largest or smallest active element, or the identity where no lane is active; of FP32,
a NaN in an active lane gives the canonical NaN, a signalling one raises invalid, and otherwise the result is the bits of an active element, as daz leaves them, that no other
comes before. -/
def Sys2Proof.Claims.ExtremesAcrossLanes : Prop :=
  ∀ (s : State) (mt : Bool) (d a : Reg),
    let t := mine s; let on := onMask s mt; let x := lane t a
    let all := fun (i : Instr) (flags : FlagSet) (r : Nat) => GivesV i s t d.toNat 12 flags (BitVec.allOnes 64) (fun _ => r)
    (∃ r < 2 ^ 32, all (.vredmax .u32 mt d a) 0 r ∧ (∀ k < 64, on.getLsbD k → x k ≤ r) ∧ (r = 0 ∨ ∃ k < 64, on.getLsbD k ∧ x k = r)) ∧
    (∃ r < 2 ^ 32, all (.vredmin .u32 mt d a) 0 r ∧ (∀ k < 64, on.getLsbD k → r ≤ x k) ∧ (r = 2 ^ 32 - 1 ∨ ∃ k < 64, on.getLsbD k ∧ x k = r)) ∧
    (∃ r < 2 ^ 32, all (.vredmax .i32 mt d a) 0 r ∧ (∀ k < 64, on.getLsbD k → signed (x k) 32 ≤ signed r 32) ∧
      (r = 2 ^ 31 ∨ ∃ k < 64, on.getLsbD k ∧ x k = r)) ∧
    (∃ r < 2 ^ 32, all (.vredmin .i32 mt d a) 0 r ∧ (∀ k < 64, on.getLsbD k → signed r 32 ≤ signed (x k) 32) ∧
      (r = 2 ^ 31 - 1 ∨ ∃ k < 64, on.getLsbD k ∧ x k = r)) ∧
    (∀ mx : Bool,
      let v := t.fpEnv .fcsr
      ∃ r flags, all (if mx then .vredmax .f32 mt d a else .vredmin .f32 mt d a) flags r ∧
        ((∃ k < 64, on.getLsbD k ∧ (v.read .f32 (x k)).isNan) → r = 0x7FC00000) ∧
        flags = (if (List.range 64).any (fun k => on.getLsbD k && (v.read .f32 (x k)).isSig) then flagNv else 0) ∧
        ((∀ k < 64, on.getLsbD k → (v.read .f32 (x k)).isNan = false) → (∃ k < 64, on.getLsbD k = true) → ∃ k < 64, on.getLsbD k ∧ r = v.bits .f32 (x k)) ∧
        ((∀ k < 64, on.getLsbD k → (v.read .f32 (x k)).isNan = false) →
          ∀ k < 64, on.getLsbD k →
            (if mx then numBefore (v.read .f32 r) (v.read .f32 (x k)) else numBefore (v.read .f32 (x k)) (v.read .f32 r)) = false) ∧
        ((∀ k < 64, on.getLsbD k = false) → r = if mx then 0xFF800000 else 0x7F800000))

/-- R148, R150, R149: sums, running sums and extremes across lanes. -/
def Obligations.AcrossLanes : Prop :=
  Sys2Proof.Claims.SumsAcrossLanes ∧ Sys2Proof.Claims.ExtremesAcrossLanes

/-- R148, R149, R150: VREDADD, VSCAN, VREDMAX and VREDMIN complete in every state, in each of their formats and kinds: they send their register (of f64 the pair) after the latency
of the rule and do nothing else; of 32-bit integers VREDADD gives every lane the sum of the active lanes, VSCAN each active lane the sum up to it, and neither raises a flag. -/
def Obligations.ReductionsAndScansComplete : Prop :=
  ∀ (s : State) (mt : Bool) (d a : Reg),
    let t := mine s; let on := onMask s mt
    let total := fun (n : Nat) => (((List.range n).filter fun k => on.getLsbD k).map fun k => lane t a k).sum
    GivesV (.vredadd .i32 mt d a) s t d.toNat 24 0 (BitVec.allOnes 64) (fun _ => total 64) ∧
    GivesV (.vscan .i32 mt d a) s t d.toNat 24 0 on (fun j => total (j + 1)) ∧
    (∃ flags r, GivesV (.vredadd .f32 mt d a) s t d.toNat 24 flags (BitVec.allOnes 64) (fun _ => r)) ∧
    (∃ flags r q, GivesVV (.vredadd .f64 mt d a) s t d.toNat 25 flags (BitVec.allOnes 64) (fun _ => r) (fun _ => q)) ∧
    (∃ flags g, GivesV (.vscan .f32 mt d a) s t d.toNat 24 flags on g) ∧
    (∀ k : RedKind, (∃ flags r, GivesV (.vredmax k mt d a) s t d.toNat 12 flags (BitVec.allOnes 64) (fun _ => r)) ∧
      ∃ flags r, GivesV (.vredmin k mt d a) s t d.toNat 12 flags (BitVec.allOnes 64) (fun _ => r))

/-- R151: VTOPK: the active lanes, in descending order of key, then ascending index, then ascending lane, fill the first min(k, active) lanes of the two
registers with keys and indices; every other lane is all ones. -/
def Obligations.TopKIsSorted : Prop :=
  ∀ (s : State) (mt : Bool) (d a b : Reg) (k : BitVec 7),
    let t := mine s; let on := onMask s mt; let key := lane t a; let idx := lane t b
    ∃ order : List Nat, order.Nodup ∧ (∀ j, j ∈ order ↔ j < 64 ∧ on.getLsbD j = true) ∧
      order.Pairwise (fun i j => totalKey (key j) < totalKey (key i) ∨
        (key i = key j ∧ (idx i < idx j ∨ (idx i = idx j ∧ i < j)))) ∧
      GivesVV (.vtopk mt d a b k) s t d.toNat 32 0 (BitVec.allOnes 64)
        (fun j => if j < k.toNat then ((order[j]?).map key).getD (2 ^ 32 - 1) else 2 ^ 32 - 1)
        (fun j => if j < k.toNat then ((order[j]?).map idx).getD (2 ^ 32 - 1) else 2 ^ 32 - 1)

/-- R133, R135: the mask stack and the mask registers; a push at depth 16 and an MINV or MPOP at depth 0 trap with part V. -/
def Obligations.MaskInstructions : Prop :=
  ∀ (s : State) (d a b : Reg),
    let t := mine s; let n := t.regs.ms.length
    let stack := fun (i : Instr) (depth : Nat) (top : Mask) =>
      ∃ img, Gives i s (fly s t (.mstack depth) top.toNat 1 0 0 img)
    let parent : Mask := (t.regs.ms.drop 1).headD (BitVec.allOnes 64)
    (n < 16 → stack (.mpush a) (n + 1) (t.mreg a &&& t.topMask)) ∧
    (16 ≤ n → Traps (.mpush a) s 2 0x01 2) ∧
    (0 < n → stack .minv n (parent &&& ~~~t.topMask) ∧ stack .mpop (n - 1) parent) ∧
    (n = 0 → Traps .minv s 2 0x01 2 ∧ Traps .mpop s 2 0x01 2) ∧
    (∃ img, Gives (.mand d a b) s (fly s t (.mk d.toNat) (t.mreg a &&& t.mreg b).toNat 1 0 0 img)) ∧
    (∃ img, Gives (.mor d a b) s (fly s t (.mk d.toNat) (t.mreg a ||| t.mreg b).toNat 1 0 0 img)) ∧
    (∃ img, Gives (.mnot d a) s (fly s t (.mk d.toNat) (~~~(t.mreg a)).toNat 1 0 0 img)) ∧
    GivesS (.mcnt d a false) s d ((List.range 64).countP fun k => (t.mreg a).getLsbD k) 2 ∧
    GivesS (.mcnt d a true) s d ((List.range 64).countP fun k => t.topMask.getLsbD k) 2

/-- R152, R153, R154: VLD and VGATH read the active elements of staging as it stands at issue, at addresses modulo 2^18 aligned to the element, and extend
them to a lane; a pair fills two registers. -/
def Sys2Proof.Claims.StagingMoveLoads : Prop :=
  ∀ (s : State) (mt : Bool) (d a b : Reg) (w : Width) (sx pair : Bool) (off : BitVec 16), (pair = true → w = 3 ∧ sx = false) → (w = 3 → sx = false) →
    let t := mine s; let on := onMask s mt; let sz := moveSize w pair
    let base := ai s a + off.toInt
    let ext := fun (x bits : Nat) => if sx then wrap (signed x bits) 32 else x
    let elemAt := fun (at' : Nat) => staged t.staging (at' % 2 ^ 18) sz
    let seqE := fun e => if w = 0 ∧ pair = false
      then ext (staged t.staging ((alignedAt base 1 + e / 2) % 2 ^ 18) 1 / 16 ^ (e % 2) % 16) 4
      else ext (elemAt (alignedAt base sz + e * sz)) (8 * sz)
    let gathE := fun e => ext (elemAt (alignedAt (base + lane t b e * sz) sz)) (8 * sz)
    (if pair then GivesVV (.vld mt d a w sx pair off) s t d.toNat 6 0 on seqE (fun e => seqE e / 2 ^ 32)
     else GivesV (.vld mt d a w sx pair off) s t d.toNat 6 0 on seqE) ∧
    (w ≠ 0 →
      if pair then GivesVV (.vgath mt d a b w sx pair off) s t d.toNat 8 0 on gathE (fun e => gathE e / 2 ^ 32)
      else GivesV (.vgath mt d a b w sx pair off) s t d.toNat 8 0 on gathE)

/-- R152, R153, R154, R155: VST and VSCAT send the bytes of their active elements to staging, each byte once and in order of address; where scattered
elements overlap the higher lane's byte stands; half bytes write half their byte. One with no active element puts nothing in flight (the model's choice, log 74). -/
def Sys2Proof.Claims.StagingMoveStores : Prop :=
  ∀ (s : State) (mt : Bool) (a b c : Reg) (w : Width) (pair : Bool) (off : BitVec 16), (pair = true → w = 3) →
    let t := mine s; let on := onMask s mt; let sz := moveSize w pair
    let base := ai s a + off.toInt
    let data := fun (r : Reg) e => lane t r e + (if pair then 2 ^ 32 * lane t (r + 1) e else 0)
    let sends := fun (i : Instr) (lat : Nat) (bs : List SByte) =>
      bs.Pairwise (fun x y => x.addr < y.addr) ∧ ∃ img, Gives i s (if bs = [] then t else flyB s t w.toNat true bs lat 0 img)
    (w ≠ 0 → ∃ bs, sends (.vst mt a b w pair off) 2 bs ∧ ∀ x, x ∈ bs ↔ ∃ e < 64, on.getLsbD e = true ∧ ∃ j < sz,
      x = ⟨(alignedAt base sz + e * sz + j) % 2 ^ 18, 0xFF, BitVec.ofNat 8 (data b e / 256 ^ j)⟩) ∧
    (w = 0 → ∃ bs, sends (.vst mt a b w pair off) 2 bs ∧ ∀ x, x ∈ bs ↔ ∃ p < 32, (on.getLsbD (2 * p) || on.getLsbD (2 * p + 1)) = true ∧
      x.addr = (alignedAt base 1 + p) % 2 ^ 18 ∧
      x.mask = (if on.getLsbD (2 * p) then 0x0F else 0) ||| (if on.getLsbD (2 * p + 1) then 0xF0 else 0) ∧
      x.val = (if on.getLsbD (2 * p) then BitVec.ofNat 8 (data b (2 * p) % 16) else 0) |||
        (if on.getLsbD (2 * p + 1) then BitVec.ofNat 8 (data b (2 * p + 1) % 16 * 16) else 0)) ∧
    (w ≠ 0 → let at' := fun e => alignedAt (base + lane t b e * sz) sz
      ∃ bs, sends (.vscat mt a b c w pair off) 4 bs ∧ ∀ x, x ∈ bs ↔ ∃ e < 64, on.getLsbD e = true ∧ ∃ j < sz,
        x = ⟨at' e + j, 0xFF, BitVec.ofNat 8 (data c e / 256 ^ j)⟩ ∧
        ∀ e' < 64, e < e' → on.getLsbD e' = true → ¬ (at' e' ≤ at' e + j ∧ at' e + j < at' e' + sz))

/-- R152, R153, R154, R155: staging moves of vectors: strided, indexed, packed. -/
def Obligations.StagingMoves : Prop :=
  Sys2Proof.Claims.StagingMoveLoads ∧ Sys2Proof.Claims.StagingMoveStores

/-- R237, R238, R85, R86, R87, R90, R243: MMA in its three forms: with a valid row, an allowed K, no conflict and current tags, the products go block by
block onto the accumulator as every write issued before leaves it (or onto zero), and land K × P / 8 + 6 cycles later; an invalid row or K traps, and so
does a conflict in a timetabled kernel and then a stale tag. -/
def Obligations.MatrixMultiply : Prop :=
  ∀ (s : State) (form : MmaForm) (d a b : Reg) (k : BitVec 4),
    let i : Instr := match form with
      | .plain => .mma d a b k
      | .zero => .mmaZ d a b k
      | .neg => .mmaN d a b k
    let t := mine s; let r := t.activeRow; let acc := t.acc d.toNat
    (∀ fa fb n, r.valid = some (fa, fb) → mmaK fa fb k = some n → s.slotCtx.mmaConflict t d k = none →
      (r.scaledA = true → t.tagCurrent a.toNat = true) → (r.scaledB = true → t.tagCurrent (4 + b.toNat) = true) →
      let occ := n * planesOf fb (min (r.nwid + 2) 8) / 8
      let c := fun x => if form = .zero then 0 else t.accChain d.toNat / 2 ^ (32 * x) % 2 ^ 32
      let res := fun x y => mmaAt t r fa fb (form == .neg) a b x y (c (64 * x + y)) (n / (if fa = .f32 ∨ fb = .f32 then 4 else 32))
      ∃ v flags img, v < 2 ^ 131072 ∧ (∀ x < 64, ∀ y < 64, accElem v (64 * x + y) = (res x y).1 % 2 ^ 32) ∧
        (∀ j < 6, flags.getLsbD j = true ↔ ∃ x < 64, ∃ y < 64, (res x y).2.getLsbD j = true) ∧
        Gives i s (fly s { t.setAcc d.toNat { acc with st := if acc.st = .retiring then .retiring else .accumulating } with
            matrix := { (t.setAcc d.toNat { acc with st := if acc.st = .retiring then .retiring else .accumulating }).matrix with
              busy := s.cur.now + occ } }
          (.acc d.toNat (fmtIsInt fa && r.sm == 0) (form == .zero)) v (6 + occ) flags 0 img)) ∧
    (r.valid = none → Traps i s 3 0x01 3) ∧
    (∀ fa fb, r.valid = some (fa, fb) → mmaK fa fb k = none → Traps i s 3 0x01 3) ∧
    (∀ info, s.slotCtx.mmaConflict t d k = some info → s.slotCtx.portable = false → Traps i s 3 0x03 info) ∧
    (∀ fa fb n, r.valid = some (fa, fb) → mmaK fa fb k = some n → s.slotCtx.mmaConflict t d k = none →
      (r.scaledA = true ∧ t.tagCurrent a.toNat = false → Traps i s 3 0x0A a.toNat) ∧
      (¬ (r.scaledA = true ∧ t.tagCurrent a.toNat = false) → r.scaledB = true → t.tagCurrent (4 + b.toNat) = false →
        Traps i s 3 0x0A (4 + b.toNat)))

/-- R242, R235, R243: ACCRET in its four modes converts the accumulator as it stands to the row's output format, sends the output image to staging, ORs the
accumulator's flags and those of the conversion into fcsr, writes the scale name of modes 1 and 3, and retires the accumulator, all after 70 cycles; a format
or a kind that is not allowed traps, and so does a conflict in a timetabled kernel. -/
def Sys2Proof.Claims.AccumulatorRetirement : Prop :=
  ∀ (s : State) (mode : RetMode) (d a b c : Reg),
    let i : Instr := match mode with
      | .plain => .accret a b
      | .amax => .accretAmax d a b
      | .apply => .accretApply a b c
      | .derive' => .accretDerive d a b
    let t := mine s; let r := t.activeRow; let acc := t.acc a.toNat; let x := accElem acc.elems.toNat
    let allowed := fun (o : Fmt) => fmtIsOutput o = true ∧ (mode ≠ .plain → acc.int = false) ∧
      (mode = .apply ∨ mode = .derive' → o ∈ [Fmt.e4m3, .e5m2, .e3m2, .e2m3, .e2m1])
    (∀ o, r.o = some o → allowed o → t.accClash a.toNat s.cur.now (s.cur.now + 70) true = false →
      ∃ mc : Nat → Nat, (∀ q < 128, (∀ k < 32, mxCode (x (32 * q + k)) ≤ mc q) ∧ ∃ k < 32, mxCode (x (32 * q + k)) = mc q) ∧
        let code : Nat → Option Nat := fun q => match mode with
          | .apply => some (codeAt (t.scaleCodes c.toNat) q)
          | .derive' => some (scaleQuant o (mc q))
          | _ => none
        let y := fun k => accretElem r o (rmodeOfFcsr t.fmts.fcsr) t.fsat t.isat acc.int (code (k / 32)) (x k)
        ∃ v flags w img0 img img' img'', ImageIs v (r.bits o) (fun p q => (y (64 * p + q)).1) ∧
          (∀ j < 6, flags.getLsbD j = true ↔ acc.flags.getLsbD j = true ∨ ∃ k < 4096, (y k).2.getLsbD j = true) ∧
          (mode = .amax → CodesAre w mc) ∧ (mode = .derive' → CodesAre w (fun q => scaleQuant o (mc q))) ∧
          let renames := mode = .amax ∨ mode = .derive'
          let t1 := if renames then (scaleRoom t d false).1 else t
          let t2 := fly s (flyB s t1 7 false (ringBytes (alignedAt (av s b) 64) (512 * r.bits o) v) 70 0 img0) .flagsOnly 0 70 flags 0 img
          let t3 := if renames then fly s t2 (.scale d.toNat (scaleRoom t d false).2 false) w 70 0 0 img' else t2
          Gives i s (fly s (t3.setAcc a.toNat { acc with st := .retiring, retire := some (s.cur.now + 70) }) (.accRetire a.toNat) 0 70 0 0 img'')) ∧
    (r.o = none → Traps i s 3 0x01 3) ∧
    (∀ o, r.o = some o → ¬ allowed o → Traps i s 3 0x01 3) ∧
    (∀ o, r.o = some o → allowed o → t.accClash a.toNat s.cur.now (s.cur.now + 70) true = true → s.slotCtx.portable = false →
      Traps i s 3 0x03 (12 + a.toNat * 16))

/-- R241, R232, R236, R243: the other instructions of accumulators and operand buffers: what each sends on its way, and when. -/
def Sys2Proof.Claims.AccumulatorsAndBuffers : Prop :=
  ∀ (s : State) (d a b : Reg) (row : BitVec 6) (int : Bool) (q cnt : BitVec 2),
    let t := mine s; let acc := t.acc d.toNat; let n := 2048 * (cnt.toNat + 1)
    (t.accClash d.toNat s.cur.now (s.cur.now + 1) false = false →
      ∃ img, Gives (.accz d) s (fly s (t.setAcc d.toNat { acc with st := .empty }) (.accZero d.toNat) 0 1 0 0 img)) ∧
    (t.accClash d.toNat s.cur.now (s.cur.now + 1) false = true → s.slotCtx.portable = false → Traps (.accz d) s 3 0x03 (12 + d.toNat * 16)) ∧
    (t.accClash d.toNat s.cur.now (s.cur.now + 2) false = false →
      ∃ img, Gives (.accwr d b row int) s
        (fly s (t.setAcc d.toNat { acc with st := if acc.st = .retiring then .retiring else .accumulating })
          (.accRow d.toNat row.toNat int) (t.vreg b).toNat 2 0 0 img)) ∧
    (t.accClash d.toNat s.cur.now (s.cur.now + 2) false = true → s.slotCtx.portable = false →
      Traps (.accwr d b row int) s 3 0x03 (12 + d.toNat * 16)) ∧
    GivesV (.accrd d a row) s t d.toNat 4 0 (BitVec.allOnes 64) (fun k => accElem (t.acc a.toNat).elems.toNat (64 * row.toNat + k)) ∧
    (∃ v img, ImageIs v 32 (fun p k => accElem (t.acc a.toNat).elems.toNat (64 * p + k)) ∧
      Gives (.accst a b) s (flyB s t 7 false (ringBytes (alignedAt (av s b) 64) 16384 v) 36 0 img)) ∧
    (s.slotCtx.portable = false → Gives (.accwait a) s t) ∧
    (s.slotCtx.portable = true → Gives (.accwait a) s { t with flow := { t.flow with accWait := a.toNat :: t.flow.accWait } }) ∧
    (∀ bind : Option Reg, ∃ img img', Gives (.opld d a q cnt bind) s
      (fly s (fly s t (.buffer d.toNat (2048 * q.toNat) n) (ringStaged t.staging (alignedAt (av s a) 64) n) (6 + 8 * (cnt.toNat + 1)) 0 0 img)
        (.tag d.toNat (bind.map fun x => x.toNat)) 0 (6 + 8 * (cnt.toNat + 1)) 0 0 img')) ∧
    (∃ img, Gives (.opst a b q cnt) s (flyB s t 7 false
      (ringBytes (alignedAt (av s a) 64) n ((t.buf b.toNat).data.toNat / 2 ^ (16384 * q.toNat))) (6 + 8 * (cnt.toNat + 1)) 0 img)) ∧
    (∃ img img', Gives (.opclr d) s (fly s (fly s t (.buffer d.toNat 0 8192) 0 1 0 0 img) (.tag d.toNat none) 0 1 0 0 img')) ∧
    (∃ img, Gives (.scbind d a) s (fly s t (.tag d.toNat (some a.toNat)) 0 1 0 0 img)) ∧
    (∃ img, Gives (.screl d) s (fly s t (.tag d.toNat none) 0 1 0 0 img))

/-- R226, R233, R234, R235: the scale instructions, code by code: in place they rewrite the name's slot, otherwise they take the lowest free slot a
generation on; SCST writes the 128 codes to staging. -/
def Sys2Proof.Claims.ScaleInstructions : Prop :=
  ∀ (s : State) (d a b : Reg) (ip : Bool) (off : BitVec 16) (code : BitVec 8),
    let t := mine s; let at' := alignedAt (ai s a + off.toInt) 128
    let x := codeAt (t.scaleCodes a.toNat); let y := codeAt (t.scaleCodes b.toNat)
    GivesScale (.scld d a off ip) s d ip 6 (fun p => (memGet t.staging (at' + p)).toNat) ∧
    (∃ img, Gives (.scst a b off) s (flyB s t 7 false (bytesAt at' 128 (t.scaleCodes b.toNat).toNat) 2 0 img)) ∧
    GivesScale (.scmov d a ip) s d ip 2 x ∧
    GivesScale (.scmul d a b ip) s d ip 2 (fun p => if x p = 255 ∨ y p = 255 then 255 else min (x p + y p - 127) 254) ∧
    GivesScale (.scmax d a b ip) s d ip 2 (fun p => if x p = 255 ∨ y p = 255 then 255 else max (x p) (y p)) ∧
    GivesScale (.scmin d a b ip) s d ip 2 (fun p => if x p = 255 ∨ y p = 255 then 255 else min (x p) (y p)) ∧
    (∀ f : Fmt, GivesScale (.scq d a f ip) s d ip 2 (fun p => if x p = 255 then 255 else x p - emaxOf f)) ∧
    GivesScale (.scset d code ip) s d ip 2 (fun _ => code.toNat) ∧
    GivesScale (.scgen d a ip) s d ip 4 (fun p => mxCode (if p < 64 then lane t a p else lane t (a + 1) (p - 64)))

/-- R242, R235, R243, R241, R232, R236, R226, R233, R234: accumulators, operand buffers, retirement and scales. -/
def Obligations.AccumulatorsAndScales : Prop :=
  Sys2Proof.Claims.AccumulatorRetirement ∧ Sys2Proof.Claims.AccumulatorsAndBuffers ∧ Sys2Proof.Claims.ScaleInstructions

/-- R205: the fields of a brick coordinate, cut from the bottom as R204 has them, each as wide as its dimension's brick extent needs, are checked; excess bits that are not zero are out of
shape in dimension 6 under every edge policy; a field past its extent is, by the record's edge policy, out of shape in the lowest such dimension, a null brick, or clamped. -/
def Obligations.BrickCoordinates : Prop :=
  (∀ n, 1 ≤ n → n ≤ 2 ^ ceilLog2 n ∧ ∀ w, n ≤ 2 ^ w → ceilLog2 n ≤ w) ∧
  ∀ (r : List Word) (nib : Bool) (x : Nat),
    let ext := brickExtent r nib
    let low := fun i => ((List.range i).map fun j => ceilLog2 (ext j)).sum
    let f := fun i => x / 2 ^ low i % 2 ^ ceilLog2 (ext i)
    let past := fun i => ext i ≤ f i
    (x / 2 ^ low 6 ≠ 0 → checkCoord r nib x = .shape 6) ∧
    (x / 2 ^ low 6 = 0 → (∀ i < 6, ¬ past i) → checkCoord r nib x = .ok ((List.range 6).map f) false) ∧
    (∀ i < 6, x / 2 ^ low 6 = 0 → past i → (∀ j < i, ¬ past j) →
      (recBits r 0 51 50 = 0 → checkCoord r nib x = .shape i) ∧
      (recBits r 0 51 50 = 1 → checkCoord r nib x = .null) ∧
      (2 ≤ recBits r 0 51 50 → checkCoord r nib x = .ok ((List.range 6).map fun j => min (f j) (ext j - 1)) true))

/-- R217, R218, R219, R220, R206, R199: OBJPIN requests its record and lands its entry 4,096 cycles later; OBJUNP lands an unpinned entry a cycle later; OBJQ reads the
entry; OBJCHK reports what a translation would find, and traps never. That the reserved bits of a cached record show as stored is the model's choice (log 93); the clamp
shown beside a failed check (log 30) and the tile's own watermark for another's brick (log 39) are its readings. -/
def Obligations.ObjectInstructions : Prop :=
  ∀ (s : State) (d a b : Reg),
    let t := mine s; let e := t.ohe a.toNat; let r := e.words; let c := s.slotCtx
    (∃ img, let nib := decide (min (t.fmts.efr.toNat / 2 % 8 + 2) 8 ≤ 4)
      Gives (.objpin d a) s (fly s { t with loads := t.loads ++ [{ seq := t.flow.seq, oh := d.toNat, v := av s a, nib := nib, done := none }] }
        (.handle d.toNat) 0 4096 0 0 img)) ∧
    (∃ img, Gives (.objunp d) s (fly s t (.unpin d.toNat) 0 1 0 0 img)) ∧
    GivesS (.objq d a 16) s d (e.est + e.why * 4 + e.id * 64 + e.gen * 2 ^ 22 + b2n e.nib * 2 ^ 38) 2 ∧
    (∀ sel : BitVec 5, sel.toNat < 16 → GivesS (.objq d a sel) s d (if e.est = 1 then (r.getD sel.toNat 0).toNat else 0) 2) ∧
    (0 < recTiles r → GivesS (.objq d a 17) s d (if e.est = 1 then (List.range (gMax r e.nib + 1)).countP (fun g =>
      decide (recBits r 7 10 0 + g / recBeta r % recTiles r = c.pos)) else 0) 2) ∧
    GivesS (.objq d a 18) s d (if e.est = 1 ∧ recState r = 2 then e.wm else 0) 2 ∧
    (∀ acc : BitVec 2,
      let chk := fun (v : Nat) => GivesS (.objchk d a b acc) s d v 2
      (e.est ≠ 1 → chk 1) ∧
      (∀ dim, e.est = 1 → checkCoord r e.nib (av s b) = .shape dim → chk (2 + dim * 8)) ∧
      (e.est = 1 → checkCoord r e.nib (av s b) = .null → chk 6) ∧
      (∀ cs clp, e.est = 1 → checkCoord r e.nib (av s b) = .ok cs clp → bitOf (recWord r 0) (35 + acc.toNat) = false →
        chk (3 + b2n clp * 2 ^ 6)) ∧
      (∀ cs clp, e.est = 1 → checkCoord r e.nib (av s b) = .ok cs clp → bitOf (recWord r 0) (35 + acc.toNat) = true →
        let g := ((List.range 6).map fun i => cs.getD i 0 * recStride r i).sum
        let own := recBits r 7 10 0 + g / recBeta r % recTiles r
        let n := g / recBeta r / recTiles r * recBeta r + g % recBeta r
        let bank := (recBits r 8 18 12 + n) % 128
        let nw := recState r = 2 ∧ n < e.wm
        let page := (if nw then recBits r 12 11 0 else recBits r 8 11 0) + n / 128
        let owner := match c.kernel with
          | some (_, k) => tileOfPos k.die0 k.shape own
          | none => c.id
        let res := (s.tile owner).residency bank page
        let out := if own ≠ c.pos then 4 else if res = 1 ∨ res = 2 then 5 else 0
        chk (out + b2n clp * 2 ^ 6 + (if out = 0 ∧ nw then 2 ^ 7 else 0) + res * 2 ^ 8 + bank * 2 ^ 10 + page % 4096 * 2 ^ 17 + own * 2 ^ 29)))

/-- R160, R162, R164, R165, R166: the checks that let a vault command through: for an activate or a refresh its bank idle and not barred, tRC (not for REF), tRRD and tFAW
kept; for a column command its bank open on that page and level with no precharge of its own to come, the bus free by R164 and the cap of R29 kept; for a precharge
tRAS, tRTP and tWR kept. The summary word of a bank that is not barred. -/
def Obligations.VaultChecks : Prop :=
  ∀ (v : Vault) (p : VParams) (mask b now : Nat),
    let x := v.bank b; let acts := v.layerActs (b / 16)
    (∀ ref : Bool, v.checkAct p mask b now ref = none ↔
      v.barred mask b now = false ∧ x.st = .idle ∧ (ref = false → ∀ a, x.lastAct = some a → a + p.tRC ≤ now) ∧
      (∀ a ∈ acts, a + p.tRRD ≤ now) ∧ acts.countP (fun a => decide (now < a + p.tFAW)) ≤ 3) ∧
    (∀ page lvl raw read n capped, v.checkColumn p mask b now page lvl raw read n capped = none ↔
      v.barred mask b now = false ∧ x.st = .open ∧ x.ap = none ∧ x.raw = raw ∧ (raw = false → x.page = page ∧ x.lvl = lvl) ∧
      v.spacingCode p (b % 4) read n now = none ∧ (read = false → b / 16 ∈ capped → v.capOk (b / 16) n (now + p.wl) = true)) ∧
    (∀ q read n, v.spacingCode p q read n now = none ↔
      let y0 := now + (if read then p.cl else p.wl); let y1 := y0 + n - 1
      (∀ u ∈ v.bus, u.q = q →
        if u.first ≤ y0 then (if u.read = false ∧ read = true then u.last + p.tWTR ≤ now else u.last + p.tCCDL ≤ y0)
        else (if read = false ∧ u.read = true then y1 + p.tWTR ≤ u.first - p.cl else y1 + p.tCCDL ≤ u.first)) ∧
      ∀ w ∈ v.windows, ¬ (w + p.cl - 1 ≤ y1 ∧ y0 ≤ w + p.cl + 1)) ∧
    (v.barred mask b now = false →
      ((x.st = .idle ∨ x.st = .precharging ∨ x.st = .training) → v.checkPre p mask b now = .noEffect) ∧
      ((x.st = .activating ∨ x.st = .open) → x.ap ≠ none → v.checkPre p mask b now = .noEffect) ∧
      ((x.st = .activating ∨ x.st = .open) → x.ap = none → (∀ a, x.lastAct = some a → a + p.tRAS ≤ now) →
        (∀ a, x.lastRd = some a → a + p.tRTP ≤ now) → (∀ a, x.lastWr = some a → a + p.tWR ≤ now) → v.checkPre p mask b now = .close) ∧
      v.summary mask b now = x.st.code + b2n x.ap.isSome * 2 ^ 3 + b2n x.raw * 2 ^ 6 + x.lvl * 2 ^ 7 + x.page * 2 ^ 9
        + min (x.deadline - now) (2 ^ 32 - 1) * 2 ^ 32)

/-- R161, R169, R171, R172, R173, R174, R175, R176: the vault commands that open, close, refresh, train, read and fence: a command let through by its checks
changes its banks alone; BSTAT reads the summary word; a null brick makes ACT do nothing; a privileged command outside privileged code traps. -/
def Sys2Proof.Claims.VaultRowCommands : Prop :=
  ∀ (s : State) (d a b : Reg) (bank : BitVec 7) (page : BitVec 12),
    let t := mine s; let c := s.slotCtx; let v := t.vault; let k := bank.toNat
    let acted := fun (v : Vault) (b : Nat) => (v.acts.filter fun a => decide (s.cur.now < a.1 + 64)) ++ [(s.cur.now, b)]
    (∀ pl, c.translate t a.toNat 0 (av s b) = .found pl → v.checkAct c.params c.sbmask pl.bank s.cur.now false = none →
      GivesVault (.act a b) s fun v => { v.setBank pl.bank { v.bank pl.bank with
        st := .activating, page := pl.page, lvl := recProt (t.ohe a.toNat).words, raw := false, lastAct := some s.cur.now, ap := none } with
        acts := acted v pl.bank }) ∧
    (c.translate t a.toNat 0 (av s b) = .null → GivesVault (.act a b) s id) ∧
    (∀ cause info, FailsWith (c.translate t a.toNat 0 (av s b)) a.toNat 0 cause info → Traps (.act a b) s 4 cause info) ∧
    (c.privileged = true → v.checkAct c.params c.sbmask k s.cur.now false = none →
      GivesVault (.actraw bank page) s fun v => { v.setBank k { v.bank k with
        st := .activating, page := page.toNat, lvl := 2, raw := true, lastAct := some s.cur.now, ap := none } with acts := acted v k }) ∧
    (c.privileged = false → Traps (.actraw bank page) s 4 0x11 4) ∧
    (∀ lend : BitVec 13, v.checkPre c.params c.sbmask k s.cur.now = .close →
      GivesVault (.pre bank lend) s fun v => v.setBank k { v.bank k with
        st := .precharging, lastPre := some s.cur.now, ap := none, lend := lend.toNat
        lendEnd := if lend.toNat = 0 then (v.bank k).lendEnd else none }) ∧
    (∀ lend : BitVec 13, v.checkPre c.params c.sbmask k s.cur.now = .noEffect → GivesVault (.pre bank lend) s id) ∧
    (v.firstRefusal c.params c.sbmask s.cur.now (v.preaBanks c.sbmask s.cur.now) = none → RisingMap v.banks →
      ∃ u, GivesVault .prea s (fun _ => u) ∧ (∀ y, u.bank y = if y ∈ v.preaBanks c.sbmask s.cur.now
        then { v.bank y with st := .precharging, lastPre := some s.cur.now, ap := none, lend := 0 } else v.bank y) ∧
        u.streams = v.streams ∧ u.pages = v.pages ∧ u.acts = v.acts) ∧
    (v.checkAct c.params c.sbmask k s.cur.now true = none →
      GivesVault (.ref bank) s fun v => { v.setBank k { v.bank k with
        st := .refreshing, lastRef := some s.cur.now, deadline := s.cur.now + c.params.tREFB } with acts := acted v k }) ∧
    (∀ q : BitVec 2, c.privileged = true → (∀ j < 32, v.state c.sbmask (4 * j + q.toNat) s.cur.now = .idle) →
      (∀ u ∈ v.bus, u.q = q.toNat → u.last < s.cur.now) →
      GivesVault (.train q) s fun v => { v with
        train := mapPut v.train q.toNat (s.cur.now + c.params.tTRN), lastTrain := mapPut v.lastTrain q.toNat s.wall
        trainDue := mapDel v.trainDue q.toNat }) ∧
    (∀ q : BitVec 2, c.privileged = false → Traps (.train q) s 4 0x11 4) ∧
    GivesS (.bstat d bank) s d (v.summary c.sbmask k s.cur.now) 2 ∧
    (∀ l : Level, (∀ m ∈ v.marks, (match l with
        | .acc => m.last + 1
        | .vis => m.last + 2
        | .dur => m.last + m.tWR) ≤ s.cur.now) → GivesVault (.vfence l) s id)

/-- R166, R167, R116, R121: a refused vault command, of every kind that can be refused, sets vtrap and vtearl and traps with cause 4 and part D, its xinfo the bank and the
code; in a portable kernel it waits instead. vtearl is all ones where the passing of time alone would not let the command through. Which bank a refused TRAIN reports is the
model's choice (log 95). -/
def Sys2Proof.Claims.VaultRefusals : Prop :=
  ∀ (s : State) (f : VRefusal),
    let t := mine s; let c := s.slotCtx; let p := c.params; let now := s.cur.now
    (∀ (a b : Reg) pl, c.translate t a.toNat 0 (av s b) = .found pl → t.vault.checkAct p c.sbmask pl.bank now false = some f →
      f.bank = pl.bank ∧ RefusedWith (.act a b) s 0x01 pl.page 0 0 f) ∧
    (∀ (bank : BitVec 7) (lend : BitVec 13), t.vault.checkPre p c.sbmask bank.toNat now = .refused f → RefusedWith (.pre bank lend) s 0x06 0 0 0 f) ∧
    (∀ bank : BitVec 7, t.vault.checkAct p c.sbmask bank.toNat now true = some f → RefusedWith (.ref bank) s 0x08 0 0 0 f) ∧
    (∀ (bank : BitVec 7) (page : BitVec 12), c.privileged = true → t.vault.checkAct p c.sbmask bank.toNat now false = some f →
      RefusedWith (.actraw bank page) s 0x40 page.toNat 0 0 f) ∧
    (t.vault.firstRefusal p c.sbmask now (t.vault.preaBanks c.sbmask now) = some f → RefusedWith .prea s 0x07 0 0 0 f) ∧
    (∀ q : BitVec 2, c.privileged = true →
      (∀ k < 32, t.vault.state c.sbmask (4 * k + q.toNat) now ≠ .idle → (∀ j < k, t.vault.state c.sbmask (4 * j + q.toNat) now = .idle) →
        RefusedWith (.train q) s 0x0C 0 0 0 ⟨0, 4 * k + q.toNat, none⟩) ∧
      ((∀ j < 32, t.vault.state c.sbmask (4 * j + q.toNat) now = .idle) → ∀ u, t.vault.bus.find? (fun u => u.q == q.toNat && decide (now ≤ u.last)) = some u →
        RefusedWith (.train q) s 0x0C 0 0 0 ⟨0, u.bank, none⟩)) ∧
    (∀ (a b cr : Reg) (sl n : BitVec 6) (read ap : Bool) pl, c.translate t a.toNat (if read then 0 else 1) (av s b) = .found pl →
      sl.toNat + n.toNat + 1 ≤ levelSlots (recProt (t.ohe a.toNat).words) →
      t.vault.checkColumn p c.sbmask pl.bank now pl.page (recProt (t.ohe a.toNat).words) false read (n.toNat + 1) c.capped = some f →
      match read, ap with
        | true, false => RefusedWith (.rd a b cr sl n) s 0x02 pl.page sl.toNat n.toNat f
        | true, true => RefusedWith (.rda a b cr sl n) s 0x03 pl.page sl.toNat n.toNat f
        | false, false => RefusedWith (.wr a b cr sl n) s 0x04 pl.page sl.toNat n.toNat f
        | false, true => RefusedWith (.wra a b cr sl n) s 0x05 pl.page sl.toNat n.toNat f) ∧
    (∀ (cr : Reg) (sl n : BitVec 6) (bank : BitVec 7) (read : Bool), c.privileged = true →
      t.vault.checkColumn p c.sbmask bank.toNat now (t.vault.bank bank.toNat).page 2 true read (n.toNat + 1) c.capped = some f →
      if read then RefusedWith (.rdraw cr sl n bank) s 0x41 0 sl.toNat n.toNat f else RefusedWith (.wrraw cr sl n bank) s 0x42 0 sl.toNat n.toNat f) ∧
    (∀ (d a b : Reg) (sl n : BitVec 6) (q : BitVec 2) (bind : Option Reg) pl, c.translate t a.toNat 0 (av s b) = .found pl →
      t.vault.checkColumn p c.sbmask pl.bank now pl.page (recProt (t.ohe a.toNat).words) false true (n.toNat + 1) [] = some f →
      RefusedWith (.rdop d a b sl n q bind) s 0x09 pl.page sl.toNat n.toNat f) ∧
    (∀ (d a b cr : Reg) bank page slot, c.scaleRun t a.toNat cr.toNat (av s b) = .run bank page slot →
      t.vault.checkColumn p c.sbmask bank now page 0 false true 2 [] = some f → RefusedWith (.rdsc d a b cr) s 0x0A page slot 1 f) ∧
    (∀ (l : Level) m, t.vault.unmet l now = some m → RefusedWith (.vfence l) s 0x0B 0 0 0 ⟨15, m.bank, none⟩) ∧
    (∀ (r : Sys) (cmd : VCmd), cmd.op < 2 ^ 8 → f.bank < 2 ^ 7 → cmd.page < 2 ^ 12 → cmd.slot < 2 ^ 6 → cmd.cnt < 2 ^ 6 → f.code < 2 ^ 4 →
      (r.refused cmd f).vtrap.toNat =
        cmd.op + f.bank * 2 ^ 8 + cmd.page * 2 ^ 15 + cmd.slot * 2 ^ 27 + cmd.cnt * 2 ^ 33 + f.code * 2 ^ 39 ∧
      (f.code ∈ [0, 12, 13, 15] → (r.refused cmd f).vtearl = BitVec.allOnes 64) ∧
      (f.code ∉ [0, 12, 13, 15] → ∀ x, f.early = some x → x < 2 ^ 64 → (r.refused cmd f).vtearl.toNat = x) ∧
      (r.refused cmd f).xcause = r.xcause ∧ (r.refused cmd f).hsv = r.hsv)

/-- R161, R167, R169, R171, R172, R173, R174, R175, R176, R116, R121: vault row commands: effect, refusal and frame; the refusal of every vault command. -/
def Obligations.VaultRowCommands : Prop :=
  Sys2Proof.Claims.VaultRowCommands ∧ Sys2Proof.Claims.VaultRefusals

/-- R163, R170, R174, R208, R229, R230: the column commands: RD, RDA, WR, WRA, RDRAW, WRRAW, RDOP and RDSC, let through by their checks, begin their stream, data
cycles and destination as the rules say; a brick that the record does not hold gives a stream of zeros for a read and nothing for a write; translation failures and a
run past the level's slots trap. -/
def Obligations.VaultColumnCommands : Prop :=
  ∀ (s : State) (a b cr : Reg) (sl n : BitVec 6),
    let t := mine s; let c := s.slotCtx; let p := c.params; let e := t.ohe a.toNat; let lvl := recProt e.words; let now := s.cur.now
    let len := n.toNat + 1; let slots := if lvl = 0 then 32 else if lvl = 1 then 34 else 36; let addr := alignedAt (av s cr) 64
    (∀ read ap : Bool,
      let i : Instr := match read, ap with
        | true, false => .rd a b cr sl n
        | true, true => .rda a b cr sl n
        | false, false => .wr a b cr sl n
        | false, true => .wra a b cr sl n
      let acc := if read then 0 else 1
      let x := c.translate t a.toNat acc (av s b)
      (∀ pl, x = .found pl → sl.toNat + len ≤ slots → t.vault.checkColumn p c.sbmask pl.bank now pl.page lvl false read len c.capped = none →
        RisingMap t.vault.banks →
        GivesStream i s t { seq := 0, read := read, bank := pl.bank, page := pl.page, lvl := lvl, slot := sl.toNat, n := len, issue := now
                            first := now + (if read then p.cl else p.wl), dest := .staging addr, src := addr, oh := a.toNat, brick := pl.n
                            sync := (if bitOf (recWord e.words 10) 18 then some (recBits e.words 10 17 15 * 32768 + recBits e.words 10 14 0) else none)
                            obj := some e.id, words := if read then [] else e.words, wm := e.wm } ap id) ∧
      (x = .null → sl.toNat + len ≤ slots → if read
        then GivesNull i s t { seq := 0, read := true, slot := sl.toNat, n := len, issue := now, first := now + p.cl, dest := .staging addr } id
        else Gives i s t) ∧
      ((x = .null ∨ ∃ pl, x = .found pl) → slots < sl.toNat + len → Traps i s 4 0x07 (a.toNat + 7 * 16)) ∧
      (∀ cause info, FailsWith x a.toNat acc cause info → Traps i s 4 cause info)) ∧
    (∀ (read : Bool) (bank : BitVec 7),
      let i : Instr := if read then .rdraw cr sl n bank else .wrraw cr sl n bank
      let page := (t.vault.bank bank.toNat).page
      (c.privileged = true → t.vault.checkColumn p c.sbmask bank.toNat now page 2 true read len c.capped = none → RisingMap t.vault.banks →
        GivesStream i s t { seq := 0, read := read, raw := true, bank := bank.toNat, page := page, lvl := 2, slot := sl.toNat, n := len, issue := now
                            first := now + (if read then p.cl else p.wl), dest := .staging addr, src := addr } false id) ∧
      (c.privileged = false → Traps i s 4 0x11 4)) ∧
    (∀ (d : Reg) (q : BitVec 2) (bind : Option Reg),
      let i : Instr := .rdop d a b sl n q bind
      let x := c.translate t a.toNat 0 (av s b)
      let dest : StreamDest := .buffer d.toNat q.toNat (bitOf (recWord e.words 0) 48) (containerBits (recBits e.words 0 43 40) e.nib)
        (bind.map fun x => x.toNat)
      let tag := fun (img : Nat) (t : Tile) => fly s t (.tag d.toNat (bind.map fun x => x.toNat)) 0 (p.cl + n.toNat) 0 0 img
      (∀ pl, x = .found pl → t.vault.checkColumn p c.sbmask pl.bank now pl.page lvl false true len [] = none → RisingMap t.vault.banks →
        ∃ img, GivesStream i s t { seq := 0, read := true, bank := pl.bank, page := pl.page, lvl := lvl, slot := sl.toNat, n := len, issue := now
                                   first := now + p.cl, dest := dest, oh := a.toNat, brick := pl.n } false (tag img)) ∧
      (x = .null → ∃ img, GivesNull i s t { seq := 0, read := true, slot := sl.toNat, n := len, issue := now, first := now + p.cl, dest := dest } (tag img)) ∧
      (∀ cause info, FailsWith x a.toNat 0 cause info → Traps i s 4 cause info)) ∧
    (∀ d : Reg,
      let i : Instr := .rdsc d a b cr
      let t1 := (scaleRoom t d false).1; let room := (scaleRoom t d false).2
      (∀ bank page slot, c.scaleRun t a.toNat cr.toNat (av s b) = .run bank page slot →
        t.vault.checkColumn p c.sbmask bank now page 0 false true 2 [] = none → RisingMap t.vault.banks →
        ∃ img, GivesStream i s (flyBack s t1 (.scale d.toNat room false) (p.cl + 1) img)
          { seq := 0, read := true, bank := bank, page := page, slot := slot, n := 2, issue := now, first := now + p.cl, dest := .scale t.flow.seq
            oh := cr.toNat } false id) ∧
      (c.scaleRun t a.toNat cr.toNat (av s b) = .null → ∃ img, Gives i s (fly s t1 (.scale d.toNat room false) 0 (p.cl + 1) 0 0 img)) ∧
      (∀ cause info, c.scaleRun t a.toNat cr.toNat (av s b) = .trap cause info → Traps i s 4 cause info))

/-- R271, R272, R273, R118: the atomics: the traps of their address in order, the wheel of sc, then, on staging, the old value lands after 6 cycles and the new one is
written a cycle after issue; on a cistern word the request is applied 5 + h cycles after issue (133 for sc) and its reply lands after 10 + 2h (266); a release that fails its
check traps. -/
def Obligations.Atomics : Prop :=
  ∀ (s : State) (o : Order) (d a r1 r2 : Reg) (b : Src) (fa : Bool), let t := mine s; let c := s.slotCtx
    ∀ p ∈ ([(.amoCas o d a r1 r2 fa, .cas (t.sreg r1) (t.sreg r2)), (.amoAdd o d a b, .add (t.bsrc b)), (.amoSwp o d a b, .swp (t.bsrc b)),
            (.amoMin o d a b, .min (t.bsrc b)), (.amoMax o d a b, .max (t.bsrc b)), (.amoAnd o d a b, .and (t.bsrc b)),
            (.amoOr o d a b, .or (t.bsrc b))] : List (Instr × ReqKind)),
      let x := av s a; let die := x / 2 ^ 15 % 8; let byte := x % 2 ^ 15; let own := bitOf x 20
      let h := cisternDist s.cur.tile die
      let inside := c.inPart die = true ∧ (byte < 0x7E00 ∨ c.privileged = true)
      let fits := own = true ∨ (inside ∧ byte % 8 = 0)
      let wheel := o = .sc → s.cur.now % 256 = s.cur.tile / 8
      (own = false → ¬ inside → Traps p.1 s 1 0x09 (0xE + 16 + 64)) ∧
      (own = false → inside → byte % 8 ≠ 0 → Traps p.1 s 1 0x10 byte) ∧
      (fits → ¬ wheel → c.portable = false → Traps p.1 s 1 0x0B (s.cur.now % 2048)) ∧
      (own = true → wheel →
        let at' := alignedAt x 8; let old : Word := BitVec.ofNat 64 (staged t.staging at' 8)
        let fails := match p.2 with
          | .cas e _ => decide (old ≠ e)
          | _ => false
        ∃ img img', Gives p.1 s (flyS s (if fails then t else flyB s t 3 true (bytesAt at' 8 (atomicAfter p.2 old).toNat) 1 0 img') d old.toNat 6 img)) ∧
      (own = false → fits → wheel →
        let lag := if o = .sc then 133 else 5 + h
        let chk := if o = .rel ∨ o = .ar ∨ o = .sc then c.releaseUnmet t (die * 32768 + byte) die lag else none
        (chk = none → ∃ img, Gives p.1 s (asksFor s t d die byte lag (if o = .sc then 266 else 10 + 2 * h) p.2 img)) ∧
        (∀ u, chk = some u → FailsCheck p.1 s 1 u))

/-- R283, R284, R288: the check of a release on a sync object: every write bound to the object is visible when the release applies, every ST.IO through a grain of
it has reached its sluice, no job with it in its footprint is unrecorded, every request still on its way applies before it, one to the same cistern no later, and
one applied in a stop at another cistern was applied at an earlier cycle. That a job is awaited to its record, and how what was done in a stop is compared, are the model's
readings (log 37). -/
def Sys2Proof.Claims.ReleaseCheck : Prop :=
  ∀ (s : State) (x die lag : Nat), let t := mine s; let c := s.slotCtx
    c.releaseUnmet t x die lag = none ↔
      (∀ m ∈ t.vault.marks, (m.sync = some x ∨ (m.obj = none ∧ (s.ctx c.ctxNo).pageBound s.cur.tile m.bank m.page x = true)) → m.last + 2 ≤ s.cur.now + lag) ∧
      (∀ j ∈ t.sync.jobs, x ∉ j.syncs ∧ (j.io = some x → j.due ≤ s.cur.now + lag)) ∧
      (∀ r ∈ t.sync.past, r.kind.toCistern = true → r.die ≠ die → r.due + 1 ≤ s.cur.now + lag) ∧
      (∀ r ∈ t.sync.reqs, r.kind.toCistern = true →
        if r.die = die ∧ r.kind.sample = false then r.due ≤ s.cur.now + lag else r.due + 1 ≤ s.cur.now + lag)

/-- R280, R281, R286: FENCE changes nothing where its conditions are met and traps as a failed release check where they are not; SEV sets the latch of every tile of
its rectangle L cycles later; WFE lands the latch at the next bundle's issue cycle, and clears it as it lands; a set reaches its tile. -/
def Sys2Proof.Claims.FencesAndLatches : Prop :=
  ∀ s : State, let t := mine s; let c := s.slotCtx
    Gives (.fence .tile) s t ∧
    (∀ sc ∈ [Scope.cluster, .die, .pkg, .sys],
      let sys := decide (sc = .sys)
      (t.fenceUnmet sys s.cur.now = none → Gives (.fence sc) s t) ∧
      (∀ u, t.fenceUnmet sys s.cur.now = some u → FailsCheck (.fence sc) s 1 u) ∧
      (t.fenceUnmet sys s.cur.now = none ↔
        (∀ m ∈ t.vault.marks, m.last + 2 ≤ s.cur.now) ∧
        (∀ r ∈ t.sync.past ++ t.sync.reqs, r.kind.toCistern = true → r.due ≤ s.cur.now) ∧
        (sc = .sys → t.sync.lsendAcc ≤ s.cur.now ∧ t.sync.jobs = []))) ∧
    (∀ a : Reg, let r := rectOf (av s a)
      let fits := r.x0 ≤ r.x1 ∧ r.y0 ≤ r.y1 ∧
        ∀ x y, r.x0 ≤ x → x ≤ r.x1 → r.y0 ≤ y → y ≤ r.y1 → c.inPart (dieOf (y * 64 + x)) = true
      (fits → ∃ l : List LatchSet, Gives (.sev a) s { t with sync := { t.sync with sets := t.sync.sets ++ l } } ∧
        ∀ e, e ∈ l ↔ ∃ x y, r.x0 ≤ x ∧ x ≤ r.x1 ∧ r.y0 ≤ y ∧ y ≤ r.y1 ∧
          e = { tile := y * 64 + x, due := s.cur.now + meshLat s.cur.tile (y * 64 + x) }) ∧
      (¬ fits → Traps (.sev a) s 1 0x09 (0xE + 16 + 64))) ∧
    (∀ d : Reg, (s.cur.handler = false → ∃ img, Gives (.wfe d) s { t with
        flight := t.flight ++ [{ seq := t.flow.seq, due := s.cur.now + 1 + s.cur.gap, img := img, dst := .latch d.toNat, val := s.cur.now
                                 pend := true, back := s.cur.now + 1 + s.cur.gap }]
        flow := { t.flow with seq := t.flow.seq + 1 } }) ∧
      (s.cur.handler = true → Traps (.wfe d) s 1 0x01 1)) ∧
    (∀ (r : Result) (n : Nat), let u := s.tile s.ev.tile
      u.flight.find? (fun x => x.seq == s.ev.x) = some r → r.dst = .latch n → r.flags = 0 →
      exec .resultLanding s = .next (s.setTile s.ev.tile { u.setS n (if u.sync.latch then 1 else 0) with
        sync := { u.sync with latch := false }, flight := u.flight.filter (fun x => x.seq != r.seq) })) ∧
    (RisingMap s.tiles → (∀ n k, s.kernelOf s.ev.tile = some (n, k) → k.img.portable = false) →
      ∃ u, exec .eventLatchSet s = .next u ∧ (u.tile s.ev.tile).sync.latch = true ∧ (u.tile s.ev.tile).regs = (s.tile s.ev.tile).regs ∧
        (u.tile s.ev.x).sync.sets = (s.tile s.ev.x).sync.sets.erase { tile := s.ev.tile, due := s.ev.y } ∧
        (∀ id, id ≠ s.ev.tile → id ≠ s.ev.x → u.tile id = s.tile id) ∧ u.dies = s.dies ∧ u.kernels = s.kernels)

/-- R280, R281, R283, R284, R286, R288: release checks, fences and events. -/
def Obligations.FencesAndEvents : Prop :=
  Sys2Proof.Claims.ReleaseCheck ∧ Sys2Proof.Claims.FencesAndLatches

/-- R254, R257, R258, R357, R358, R359: the sends: MSEND, MSENDV and MCAST take the port for their flits and trap for a destination outside the partition, an empty
rectangle or a busy port; LSEND sends two mesh flits a link flit to its link's edge tile; LRECV takes link flits from the receive queue, gives their credits back to the
peer (R354), and sends their halves to the tile. -/
def Obligations.MeshAndLinkSends : Prop :=
  ∀ (s : State) (a b cr : Reg) (n : BitVec 8), let t := mine s; let c := s.slotCtx; let now := s.cur.now
    let dst := alignedAt (av s b) 64; let at' := alignedAt (av s a) 64
    let one := av s cr / 2 ^ 8 % 32 * 64 + av s cr % 64
    let r := rectOf (av s cr)
    let msg : Send := { seq := 0, issue := now, n := n.toNat + 1, start := s.cur.tile, src := some at', addr := dst, dests := [one] }
    let vec : List (BitVec 512) := (List.range 4).map fun j => (t.vreg a).extractLsb' (512 * j) 512
    (c.inPart (dieOf one) = true → t.sync.portFree ≤ now →
      Gives (.msend a b cr n) s (sends t msg (now + n.toNat + 1)) ∧
      Gives (.msendv a b cr) s (sends t { msg with n := 4, src := none, halves := vec } (now + 4))) ∧
    (c.inPart (dieOf one) = false → Traps (.msend a b cr n) s 5 0x09 (0xE + 16 + 64) ∧ Traps (.msendv a b cr) s 5 0x09 (0xE + 16 + 64)) ∧
    (c.inPart (dieOf one) = true → now < t.sync.portFree → c.portable = false →
      Traps (.msend a b cr n) s 5 0x03 0xFFFC ∧ Traps (.msendv a b cr) s 5 0x03 0xFFFC) ∧
    (let fits := r.x0 ≤ r.x1 ∧ r.y0 ≤ r.y1 ∧
        ∀ x y, r.x0 ≤ x → x ≤ r.x1 → r.y0 ≤ y → y ≤ r.y1 → c.inPart (dieOf (y * 64 + x)) = true;
      (fits → t.sync.portFree ≤ now → ∃ ds : List TileId, ds.Nodup ∧
        (∀ u, u ∈ ds ↔ ∃ x y, r.x0 ≤ x ∧ x ≤ r.x1 ∧ r.y0 ≤ y ∧ y ≤ r.y1 ∧ u = y * 64 + x) ∧
        Gives (.mcast a b cr n) s (sends t { msg with dests := ds } (now + n.toNat + 1))) ∧
      (¬ fits → Traps (.mcast a b cr n) s 5 0x09 (0xE + 16 + 64))) ∧
    (∀ (ch : BitVec 6) (rel : Bool) l, c.sendLink ch.toNat = some l → t.sync.portFree ≤ now →
      let k := 2 * (n.toNat + 1)
      let chk := if rel = true ∨ ch = 63 then t.fenceUnmet true now else none
      (chk = none → Gives (.lsend a n ch rel) s (let u := sends t { msg with n := k, addr := at', dests := [edgeTile l], link := some (l, ch.toNat) } (now + k)
        { u with sync := { u.sync with lsendAcc := max t.sync.lsendAcc (now + k - 1 + meshLat s.cur.tile (edgeTile l)) } })) ∧
      (∀ u, chk = some u → FailsCheck (.lsend a n ch rel) s 5 u)) ∧
    (∀ (ch : BitVec 6) (rel : Bool), c.sendLink ch.toNat = none → Traps (.lsend a n ch rel) s 5 0x09 (0xD + 16 + 64)) ∧
    (∀ (ch : BitVec 6) (acq : Bool) l, c.recvLink ch.toNat = some l → n.toNat + 1 ≤ (s.queued l ch.toNat).length → (s.link l).busy ≤ now →
      s.cur.handler = false →
      ∃ got rest : List (BitVec 1024), got.length = n.toNat + 1 ∧
        ((s.link l).queue.filter (fun x => x.1 == ch.toNat)).map Prod.snd = got ++ rest ∧
        ∃ q, (q.filter (fun x => x.1 == ch.toNat)).map Prod.snd = rest ∧
          q.filter (fun x => x.1 != ch.toNat) = (s.link l).queue.filter (fun x => x.1 != ch.toNat) ∧
          exec (.lrecv a n ch acq) s = .next ((s.updLink l fun x => { x with
              queue := q, busy := now + 2 * (n.toNat + 1), granted := x.granted + (n.toNat + 1) }).setTile s.cur.tile
            { t with
              flow := { t.flow with seq := t.flow.seq + 1 }
              sync := { t.sync with sends := t.sync.sends ++ [{
                seq := t.flow.seq, issue := now, n := 2 * (n.toNat + 1), start := edgeTile l, addr := at', dests := [s.cur.tile],
                halves := got.flatMap fun p => [p.extractLsb' 0 512, p.extractLsb' 512 512] }] } })) ∧
    (∀ (ch : BitVec 6) (acq : Bool), c.recvLink ch.toNat = none → Traps (.lrecv a n ch acq) s 5 0x09 (0xD + 16 + 64))

/-- R261, R262, R263, R277, R278, R304, R110: the requests of the X slot and ST_IO: the weir instructions, the job-control-block instructions and the starts at a sluice:
what each sends where, when it is applied, when its reply lands, and its traps. -/
def Obligations.WeirBlockAndStartRequests : Prop :=
  ∀ (s : State) (d a b : Reg) (v : Src) (weir : BitVec 6) (die : BitVec 3) (w11 : BitVec 11) (w16 : BitVec 16), let t := mine s; let c := s.slotCtx
    let h := cisternDist s.cur.tile die.toNat; let word := 0x7E00 + 8 * weir.toNat
    let away := fun (i : Instr) => c.inPart die.toNat = false → Traps i s 5 0x09 (0xE + 16 + 64)
    away (.warr d weir die) ∧ away (.wwait d b weir die w11) ∧ away (.wpoll d weir die) ∧ away (.wpend d b weir die) ∧
    (c.inPart die.toNat = true →
      (let chk := c.releaseUnmet t (die.toNat * 32768 + word) die.toNat (5 + h);
        (chk = none → ∃ img, Gives (.warr d weir die) s (asksFor s t d die.toNat word (5 + h) (10 + 2 * h) .warr img)) ∧
        (∀ u, chk = some u → FailsCheck (.warr d weir die) s 5 u)) ∧
      (∃ img, Gives (.wwait d b weir die w11) s
        (asksFor s t d die.toNat word (5 + h + w11.toNat) (10 + 2 * h + w11.toNat) (.wwait (av s b % 256)) img)) ∧
      (∃ img, Gives (.wpoll d weir die) s (asksFor s t d die.toNat word (5 + h) (10 + 2 * h) .wpoll img)) ∧
      (av s b < 2 ^ 24 → ∃ img, Gives (.wpend d b weir die) s (asksFor s t d die.toNat word (5 + h) (10 + 2 * h) (.wpend (av s b)) img)) ∧
      (2 ^ 24 ≤ av s b → Traps (.wpend d b weir die) s 5 0x0D weir.toNat)) ∧
    (let e := (mapGet (0 : Word) t.sync.jp a.toNat).toNat
      let addr := e % 2 ^ 15; let e' := e / 2 ^ 15 % 8; let p := e / 2 ^ 18 % 64; let hb := cisternDist s.cur.tile e'
      let n := (t.zsrc v).toNat % 2 ^ 32
      let live := bitOf e 24 = true ∧ bitOf e 25 = false;
      (¬ live → Traps (.jcbraise d a v) s 5 0x0E (addr / 8) ∧ Traps (.jcbpost d a v) s 5 0x0E (addr / 8)) ∧
      (live → addr % 32 ≠ 0 → Traps (.jcbraise d a v) s 5 0x10 addr ∧ Traps (.jcbpost d a v) s 5 0x10 addr) ∧
      (live → addr % 32 = 0 → (c.inPart e' = false ∨ 0x7E00 ≤ addr) →
        Traps (.jcbraise d a v) s 5 0x09 (0xE + 16 + 64) ∧ Traps (.jcbpost d a v) s 5 0x09 (0xE + 16 + 64)) ∧
      (live → addr % 32 = 0 → c.inPart e' = true → addr < 0x7E00 →
        (∃ img, Gives (.jcbraise d a v) s (asksFor s t d e' addr (5 + hb) (10 + 2 * hb) (.jcbraise p n) img)) ∧
        (let chk := c.releaseUnmet t (e' * 32768 + addr) e' (5 + hb);
          (chk = none → ∃ img img', Gives (.jcbpost d a v) s
            (asksFor s (fly s t (.jpPosted a.toNat) 0 1 0 0 img') d e' addr (5 + hb) (10 + 2 * hb) (.jcbpost p n) img)) ∧
          (∀ u, chk = some u → FailsCheck (.jcbpost d a v) s 5 u)))) ∧
    (let addr := av s a % 2 ^ 15; let e' := av s a / 2 ^ 15 % 8; let hb := cisternDist s.cur.tile e';
      (addr % 32 ≠ 0 → Traps (.jcbwait d a w16) s 5 0x10 addr) ∧
      (addr % 32 = 0 → (c.inPart e' = false ∨ 0x7E00 ≤ addr) → Traps (.jcbwait d a w16) s 5 0x09 (0xE + 16 + 64)) ∧
      (addr % 32 = 0 → c.inPart e' = true → addr < 0x7E00 →
        ∃ img, Gives (.jcbwait d a w16) s (asksFor s t d e' addr (5 + hb + w16.toNat) (10 + 2 * hb + w16.toNat) .jcbwait img))) ∧
    (∀ off : BitVec 17,
      let io := ((t.sreg a) + off.signExtend 64).toNat
      (c.aperture io = none → Traps (.stIo a b off) s 1 0x09 (0xF + 16 + 64)) ∧
      (c.aperture (av s a) = none → Traps (.apst d a v) s 5 0x09 (0xF + 16 + 64)) ∧
      let ctx := s.ctx c.ctxNo
      let start := fun (data : Word) => ({ ctx := c.ctxNo, data := data } : Start)
      let job := fun (data : Word) (e seq : Nat) (io : Option Nat) => ({
        die := e, seq := seq, due := s.cur.now + 5 + cisternDist s.cur.tile e, io := io, syncs := ctx.footSyncs (s.template (start data)) } : JobRef)
      let chk := fun (sync : Option Nat) (e : Nat) (data : Word) =>
        let tm := s.template (start data)
        t.releaseUnmet sync (fun m => (match sync with
            | some y => m.boundTo ctx s.cur.tile y
            | none => false) || c.inFootprint (ctx.footprint tm (jobFirst tm (start data)) (jobFirst tm (start data)) (recBits tm 0 63 32)) m)
          e (5 + cisternDist s.cur.tile e) s.cur.now
      (∀ o sync, c.aperture io = some (o, sync) → let e := o / 2 ^ 9 % 8; let k := o / 2 ^ 3 % 64
        (chk sync e (t.sreg b) = none →
          Gives (.stIo a b off) s (let u := asks s t e 0 (5 + cisternDist s.cur.tile e) (.start c.ctxNo k (t.sreg b)) none
            { u with sync := { u.sync with jobs := u.sync.jobs ++ [job (t.sreg b) e t.flow.seq sync] } })) ∧
        (∀ u, chk sync e (t.sreg b) = some u → FailsCheck (.stIo a b off) s 1 u)) ∧
      (∀ o sync, c.aperture (av s a) = some (o, sync) → let e := o / 2 ^ 9 % 8; let k := o / 2 ^ 3 % 64; let he := cisternDist s.cur.tile e
        (chk sync e (t.zsrc v) = none →
          ∃ img, Gives (.apst d a v) s (let u := asksFor s t d e 0 (5 + he) (10 + 2 * he) (.start c.ctxNo k (t.zsrc v)) img
            { u with sync := { u.sync with jobs := u.sync.jobs ++ [job (t.zsrc v) e (u.flow.seq - 1) none] } })) ∧
        (∀ u, chk sync e (t.zsrc v) = some u → FailsCheck (.apst d a v) s 5 u)))

/-- R268, R272, R275, R262, R263, R278: a request applied at its cistern: the word it leaves, and the word that its reply carries; a weir's
reserved bits stay zero (R274); every other cistern word and every tile but the sender's result stays. -/
def Obligations.RequestsAtTheCistern : Prop :=
  ∀ (s : State) (r : Req) (n : Nat) (k : Kernel), let id := s.ev.tile; let t := s.tile id
    t.sync.reqs.find? (fun x => x.seq == s.ev.y && x.kind.toCistern) = some r → s.kernelOf id = some (n, k) →
    RisingMap s.tiles → RisingMap s.dies → (∀ d, RisingMap (s.die d).cistern) →
    let old := s.cword r.die r.byte
    let replies := fun (u : State) (v : Nat) => (u.tile id).flight =
      match r.result with
      | none => t.flight
      | some q => t.flight.map fun x => if x.seq = q then { x with val := v % 2 ^ 64 } else x
    let kept := fun (v : Nat) => if 0x7E00 ≤ r.byte then v % 2 ^ 59 else v % 2 ^ 64
    let leaves := fun (u : State) (new v : Nat) => exec .cisternRequestApply s = .next u ∧ u.cword r.die r.byte = new ∧
      (∀ d b, ¬ (d = r.die ∧ b / 8 = r.byte / 8) → u.cword d b = s.cword d b) ∧ replies u v ∧
      (u.tile id).sync.reqs = t.sync.reqs.filter (fun x => x.seq != r.seq) ∧ (u.tile id).regs = t.regs ∧
      (∀ j, j ≠ id → (u.tile j).flight = (s.tile j).flight ∧ (u.tile j).regs = (s.tile j).regs) ∧ u.ctxs = s.ctxs ∧ u.host = s.host ∧ u.kernels = s.kernels
    (∀ e v, r.kind ∈ [ReqKind.cas e v, .add v, .swp v, .min v, .max v, .and v, .or v] →
      ∃ u, leaves u (if r.kind = .cas e v ∧ BitVec.ofNat 64 old ≠ e then old else kept (atomicAfter r.kind (BitVec.ofNat 64 old)).toNat) old) ∧
    (r.kind = .warr → ∃ u, leaves u (kept (weirArrive old).1) old) ∧
    (∀ b, r.kind = .wpend b → ∃ u, leaves u (kept (weirPend old b)) old) ∧
    (r.kind = .wpoll → ∃ u, leaves u old old) ∧
    (∀ ph, r.kind = .wwait ph → ∃ u, leaves u old (old % 2 ^ 63 + if old / 2 ^ 48 % 256 ≠ ph then 2 ^ 63 else 0)) ∧
    (r.kind = .jcbwait →
      let w1 := s.cword r.die (r.byte + 8); let w2 := s.cword r.die (r.byte + 16)
      let total := old % 2 ^ 32; let posted := old / 2 ^ 32
      ∃ u, leaves u old (w2 / 2 ^ 63 % 2 + w2 / 2 ^ 62 % 2 * 2 + (if total < posted then 4 else 0)
        + ((List.range 64).countP fun j => bitOf w1 j) * 8 + (total + 2 ^ 32 - posted) % 2 ^ 32 * 2 ^ 32)) ∧
    (∀ post p c, (r.kind = if post then .jcbpost p c else .jcbraise p c) → p < 64 → r.byte % 32 = 0 →
      let new := jcbApply post p c k.cycle old (s.cword r.die (r.byte + 8)) (s.cword r.die (r.byte + 16))
      ∃ u, exec .cisternRequestApply s = .next u ∧ u.cword r.die r.byte = kept new.1 ∧ u.cword r.die (r.byte + 8) = kept new.2.1 ∧
        u.cword r.die (r.byte + 16) = kept new.2.2 ∧ u.cword r.die (r.byte + 24) = s.cword r.die (r.byte + 24) ∧
        (∀ d b, (d ≠ r.die ∨ b < r.byte ∨ r.byte + 32 ≤ b) → u.cword d b = s.cword d b) ∧ replies u old)

/-- R262, R275: the steps of a job control block and of a weir, field by field. A raise or a post by a producer that is not open changes no count and sets err; otherwise the
count grows to at most 2^32 − 1, a post closes its producer, and the block finishes when all are closed and posted meets total. An arrival is counted, or releases, or
begins to drain; to a weir that is disabled or draining it only sets err; a decrement of 64 that empties a draining weir releases it. -/
def Obligations.BlockAndWeirSteps : Prop :=
  (∀ (post : Bool) (p n cycle w0 w1 w2 : Nat), p < 64 → n < 2 ^ 32 → w0 < 2 ^ 64 → w1 < 2 ^ 64 → w2 < 2 ^ 64 → cycle < 2 ^ 48 →
    let r := jcbApply post p n cycle w0 w1 w2
    let total := w0 % 2 ^ 32; let posted := w0 / 2 ^ 32; let is := bitOf w1 p
    let total' := if is = true ∧ post = false then min (total + n) (2 ^ 32 - 1) else total
    let posted' := if is = true ∧ post = true then min (posted + n) (2 ^ 32 - 1) else posted
    let w1' := if is = true ∧ post = true then w1 - 2 ^ p else w1
    r.1 = total' + posted' * 2 ^ 32 ∧ r.2.1 = w1' ∧
    (bitOf r.2.2 62 = true ↔ bitOf w2 62 = true ∨ is = false ∨ 2 ^ 32 ≤ (if post then posted else total) + n) ∧
    (bitOf r.2.2 63 = true ↔ bitOf w2 63 = true ∨ (posted' = total' ∧ w1' = 0)) ∧
    r.2.2 % 2 ^ 48 = (if bitOf w2 63 = false ∧ posted' = total' ∧ w1' = 0 then cycle else w2 % 2 ^ 48)) ∧
  (∀ w : Nat, w < 2 ^ 64 →
    let exp := field w 11 0; let arr := field w 23 12; let pend := field w 47 24; let ph := field w 55 48; let st := field w 57 56
    let is := fun (v arr' pend' ph' st' : Nat) (err : Bool) => v < 2 ^ 59 ∧ field v 11 0 = exp ∧ field v 23 12 = arr' ∧ field v 47 24 = pend' ∧
      field v 55 48 = ph' ∧ field v 57 56 = st' ∧ bitOf v 58 = err
    (st = 1 ∨ exp = 0 → is (weirArrive w).1 arr pend ph st true ∧ (weirArrive w).2 = false) ∧
    (st ≠ 1 → exp ≠ 0 → arr + 1 < exp → is (weirArrive w).1 (arr + 1) pend ph st (bitOf w 58) ∧ (weirArrive w).2 = false) ∧
    (st ≠ 1 → exp ≠ 0 → exp ≤ arr + 1 → pend = 0 → is (weirArrive w).1 0 0 ((ph + 1) % 256) 0 (bitOf w 58) ∧ (weirArrive w).2 = true) ∧
    (st ≠ 1 → exp ≠ 0 → exp ≤ arr + 1 → pend ≠ 0 → is (weirArrive w).1 exp pend ph 1 (bitOf w 58) ∧ (weirArrive w).2 = false) ∧
    (∀ n, is (weirPend w n) arr (min (pend + n) (2 ^ 24 - 1)) ph st (bitOf w 58 || decide (2 ^ 24 ≤ pend + n))) ∧
    (st ≠ 1 → is (weirDecrement w).1 arr (pend - 64) ph st (bitOf w 58 || decide (pend < 64)) ∧ (weirDecrement w).2 = false) ∧
    (st = 1 → 64 < pend → is (weirDecrement w).1 arr (pend - 64) ph 1 (bitOf w 58) ∧ (weirDecrement w).2 = false) ∧
    (st = 1 → pend ≤ 64 → is (weirDecrement w).1 0 0 ((ph + 1) % 256) 0 (bitOf w 58 || decide (pend < 64)) ∧ (weirDecrement w).2 = true))

/-- R253, R255, R256, R258, R276: the mesh: a flit read from staging, or the next of a vector's, enters for each destination and is due there at issue + j + L; with no
other write on its bytes it writes its 64 bytes, and the byte counting of its tile sends a decrement; a collision writes nothing and raises a trap; a link used by
one send alone loses no flit; a decrement reaches its weir. -/
def Obligations.MeshFlitsTravel : Prop :=
  ∀ (s : State) (n : Nat) (k : Kernel), let id := s.ev.tile; let t := s.tile id
    RisingMap s.tiles → RisingMap s.kernels →
    (∀ x, s.kernelOf id = some (n, k) → t.sync.sends.find? (fun y => y.seq == s.ev.x) = some x →
      ∃ u k', exec .meshFlitInject s = .next u ∧ u.kernel? n = some k' ∧ k'.mesh.take k.mesh.length = k.mesh ∧
        (k'.mesh.drop k.mesh.length).map (fun f => (f.own, f.seq, f.dst, f.addr, f.arr, f.data)) = x.dests.map (fun d =>
          (id, x.seq, d, (x.addr + 64 * x.next) % 2 ^ 18, x.issue + x.next + meshLat x.start d,
            match x.src with
            | some a => BitVec.ofNat 512 (ringStaged t.staging (a + 64 * x.next) 64)
            | none => x.halves.getD x.next 0)) ∧
        (u.tile id).staging = t.staging ∧ (u.tile id).regs = t.regs ∧ (u.tile id).flight = t.flight) ∧
    (∀ f, s.kernel? s.ev.y = some k → k.mesh.find? (fun f => f.id == s.ev.x && f.gone.isNone && !f.landed) = some f →
      let v := s.tile f.dst
      let others := k.mesh.any fun g => g.id != f.id && g.gone.isNone && g.port.isNone && g.dst == f.dst && g.arr == f.arr && g.addr == f.addr
      (others = false → v.ownClash k.cycle f.addr = none → f.addr + 64 ≤ 2 ^ 18 → Memory.wf v.staging = true →
        ∃ u, exec .meshFlitArrival s = .next u ∧ Memory.wf (u.tile f.dst).staging = true ∧
          (∀ j < 64, memGet (u.tile f.dst).staging (f.addr + j) = BitVec.ofNat 8 (f.data.toNat / 256 ^ j)) ∧
          (∀ b, b < f.addr ∨ f.addr + 64 ≤ b → memGet (u.tile f.dst).staging b = memGet v.staging b) ∧
          (u.tile f.dst).regs = v.regs ∧ (u.tile f.dst).flow = v.flow ∧ (∀ j, j ≠ f.dst → u.tile j = s.tile j)) ∧
      (others = true → (∀ g ∈ k.mesh, g.void = false) →
        ∃ u, exec .meshFlitArrival s = .next u ∧ (u.tile f.dst).staging = v.staging ∧
          ∃ x ∈ (u.tile f.dst).flow.cycTraps, x.cycle = k.cycle ∧ x.cause = 0x0C ∧ x.info ≤ f.addr) ∧
      (∀ a, others = false → v.ownClash k.cycle f.addr = some a → (∀ g ∈ k.mesh, g.void = false) →
        ∃ u, exec .meshFlitArrival s = .next u ∧ (u.tile f.dst).staging = v.staging ∧
          ∃ x ∈ (u.tile f.dst).flow.cycTraps, x.cycle = k.cycle ∧ x.cause = 0x0C ∧ x.info ≤ a)) ∧
    (∀ f, s.kernel? s.ev.y = some k → k.mesh.find? (fun f => f.id == s.ev.x) = some f →
      (∀ g ∈ k.mesh, g.usesAt k.cycle ≠ none → g.usesAt k.cycle = f.usesAt k.cycle → g.sameSend f = true ∧ f.sameSend g = true) →
      exec .meshFlitHop s = .next s) ∧
    (∀ d, s.kernelOf id = some (n, k) → t.sync.decs.find? (fun d => d.due == s.ev.x && d.addr == s.ev.y) = some d →
      RisingMap s.dies → RisingMap (s.die d.die).cistern →
      ∃ u, exec .weirByteDecrement s = .next u ∧ u.cword d.die d.byte = (weirDecrement (s.cword d.die d.byte)).1 % 2 ^ 64 ∧
        (u.tile id).sync.decs = t.sync.decs.erase d ∧ (u.tile id).staging = t.staging ∧
        (∀ e b, ¬ (e = d.die ∧ b / 8 = d.byte / 8) → u.cword e b = s.cword e b))

/-- A step runs the row in hand; with none, the op at the program counter of the interpreter whose op is due next, decoded from its word, at the time at which it is due
(R294, R297); with none, what comes next in time. Of two ops that are due the earlier goes first, the main interpreter's where both are due at once (the model's choice, log 85). -/
def Obligations.StepRunsTheDecodedInstruction : Prop :=
  (∀ (s : State) e rest, s.todo = e :: rest → step s = exec e.i { s with todo := rest, ev := e.arg }) ∧
  (∀ (s : State) rank r w i, s.todo = [] → s.nextRun = some (rank, r) → s.fetchWord rank r = some w → decodeIvloha w = some i →
    step s = exec i { s with ev := {}, wall := max s.wall r.due, qe := { s.qe with rankTurn := rank } }) ∧
  (∀ (s : State) rank r, s.nextRun = some (rank, r) →
    (if rank then s.qe.rankRun else s.qe.mainRun) = some r ∧ r.waits = false ∧ (∀ w, s.nextWall = some w → r.due ≤ w) ∧
    ∀ q, (if rank then s.qe.mainRun else s.qe.rankRun) = some q → q.waits = false → if rank then r.due < q.due else r.due ≤ q.due) ∧
  (∀ s : State, s.todo = [] → s.nextRun = none → step s = .next s.tick)

/-- R35, R60, R37, R105: the bundle due at a tile of a timetabled kernel issues its slots in order, each with the tile as it stood before kept for a trap, and then its end; an
illegal index, an illegal encoding, a privileged slot and a landing conflict trap, in that order, before any slot runs; the target of a taken LBRK issues with the top loop entry
popped. In a segment that could not be read the vault data error traps in place of every bundle (the model's reading of R186, log 63). Portable kernels are not in this
statement. -/
def Sys2Proof.Claims.BundleIssues : Prop :=
  ∀ (s : State) (n : Nat) (k : Kernel), let id := s.ev.tile; let t := s.tile id
    s.kernelOf id = some (n, k) → k.img.portable = false → k.holds = [] → s.ev.y = 0 → t.stopBefore = none →
    let c := k.cycle
    (∀ x, mapFind t.imem.bad t.flow.pc.seg = some x → exec .bundleIssue s = .next (({ s with todo := [] } : State).takeTrap id t 0x0F 0 x c 0 true)) ∧
    (mapFind t.imem.bad t.flow.pc.seg = none →
    let trap := fun (u : State) (cause part info : Nat) => exec .bundleIssue s = .next (({ u with todo := [] } : State).takeTrap id t cause part info c 0 false)
    (∀ info, t.fetch k.variant t.flow.pc = .illegal info → trap s 0x02 0 info) ∧
    (∀ b esc, t.fetch k.variant t.flow.pc = .bundle b esc →
      let ctx := s.issueCtx id c 0
      let t0 := if t.flow.popDue then { t with flow := { t.flow with popDue := false, loops := t.flow.loops.drop 1 } } else t
      (∀ p, ctx.readBundle t0 b = .error p → trap s 0x01 p p) ∧
      (∀ h is, ctx.readBundle t0 b = .ok (h, is) →
        let u : State := { s with cur := { tile := id, now := c, pc := t.flow.pc, gap := h.gap, handler := false, pre := t } }
        (∀ x, is.find? (fun x => needsPrivilege x.2) = some x → k.img.priv = false → trap u 0x11 x.1.code x.1.code) ∧
        ((k.img.priv = true ∨ ∀ x ∈ is, needsPrivilege x.2 = false) →
          (∀ p info, u.slotCtx.conflict t0 {} is = some (p, info) → trap u 0x03 p info) ∧
          (u.slotCtx.conflict t0 {} is = none → (h.svc = true → t.vault.svcCheck u.slotCtx.params c h.gap = none) →
            exec .bundleIssue s = .next { u.setTile id t0 with todo := is.map (fun x => ({ i := x.2, arg := { tile := id } } : Due)) ++
              ({ i := .bundleIssue, arg := { tile := id, y := 2 } } : Due) :: s.todo })))))

/-- R35, R60, R95, R120, R322, R333, R345: the end of a bundle of a timetabled kernel moves the sequencer on, counts the pending format writes, and notes a yield point in its
kernel, or a replan point unless a bundle has trapped in its cycle, a gang's member yielding at the point of the index agreed on, which is open (the model's choice, log 51); it
changes no register, no staging and no other tile. R38, R129, R408: a handler bundle issues its one slot and then the next bundle. -/
def Sys2Proof.Claims.BundlesEnd : Prop :=
  (∀ (s : State) (n : Nat) (k : Kernel) (b : Bundle) (h : Header), let id := s.ev.tile; let t := s.tile id
    s.kernelOf id = some (n, k) → k.img.portable = false → s.ev.y = 2 → s.cur.tile = id → s.cur.handler = false →
    s.cur.pre.peek k.variant s.cur.pc = some b → decodeHeader b = some h → RisingMap s.tiles →
    let v := t.advance k.variant s.cur.pc s.cur.now h.gap h.seg
    ∃ u, exec .bundleIssue s = .next u ∧
      (u.tile id).flow.pc = v.flow.pc ∧ (u.tile id).flow.due = v.flow.due ∧ (u.tile id).flow.loops = v.flow.loops ∧
      (u.tile id).flow.transfer = v.flow.transfer ∧ (u.tile id).flow.push = v.flow.push ∧ (u.tile id).flow.haltLeft = v.flow.haltLeft ∧
      (u.tile id).fmts.pend = t.fmts.pend.map (fun w => { w with left := w.left - 1 }) ∧
      (u.tile id).regs = t.regs ∧ (u.tile id).staging = t.staging ∧ (u.tile id).flight = t.flight ∧ (u.tile id).matrix = t.matrix ∧
      (∀ j, j ≠ id → u.tile j = s.tile j) ∧ u.ctxs = s.ctxs ∧ u.host = s.host ∧
      (h.rpl = true → ∃ k', u.kernel? n = some k' ∧ k'.replanAt = if s.cur.now ∈ k.stops then k.replanAt else some (s.cur.now + 1 + h.gap, s.cur.now)) ∧
      (h.yld = true → (∀ l, k.lyield = some l → l ≤ s.cur.now) → ∃ k', u.kernel? n = some k' ∧ k'.lyield = some s.cur.now ∧
        k'.yields = k.yields + (if k.lyield = some s.cur.now then 0 else 1) ∧
        (k.request = none → t.flow.yieldReq = false → k'.yieldAt = k.yieldAt) ∧
        (t.flow.yieldReq = true → k'.yieldAt = some (s.cur.now + 1 + h.gap, s.cur.now)) ∧
        (∀ r, k.request = some r → r + 64 ≤ s.cur.now →
          (bitOf ((s.ctx k.ctx).descWord 8) 43 = false → k.agreed = none → k'.yieldAt = some (s.cur.now + 1 + h.gap, s.cur.now)) ∧
          (k.agreed = some k'.yields → k'.yieldAt = some (s.cur.now + 1 + h.gap, s.cur.now)) ∧
          (∀ j, k.agreed = some j → j ≠ k'.yields → t.flow.yieldReq = false → k'.yieldAt = k.yieldAt) ∧
          (k.agreed = none → ∃ j, k'.agreed = some j ∧ k'.yields ≤ j)))) ∧
  (∀ (s : State) (n : Nat) (k : Kernel), let id := s.ev.tile; let t := s.tile id
    s.kernelOf id = some (n, k) → t.flow.handler = true →
    (s.ev.y = 0 → ∀ b, t.imem.handlers[t.flow.hpc]? = some b →
      (∀ i, t.readHandler t.flow.hpc b = .ok i → ∃ wait, exec .handlerBundleIssue s = .next
        { s.setTile id { t with flow := { t.flow with hpc := t.flow.hpc + 1 } } with
          cur := { tile := id, now := t.flow.stopAt, pc := { off := t.flow.hpc }, gap := 0, handler := true, pre := t }
          todo := (match i with
            | some x => [({ i := x, arg := { tile := id } } : Due)]
            | none => []) ++ ({ i := .handlerBundleIssue, arg := { tile := id, x := wait, y := 1 } } : Due) :: s.todo }) ∧
      (∀ p, t.readHandler t.flow.hpc b = .error p →
        exec .handlerBundleIssue s = .next (({ s with todo := [] } : State).takeTrap id t 0x01 p p t.flow.stopAt 0 false))) ∧
    (s.ev.y = 1 → ∃ w, s.wall + k.period ≤ w ∧ w ≤ s.wall + (4 + s.ev.x) * k.period ∧
      exec .handlerBundleIssue s = .next ((s.at w { i := .handlerBundleIssue, arg := { tile := id } }).tickFree)))

/-- R35, R60, R37, R95, R105, R120, R322, R333, R345: a bundle of a timetabled kernel issues its slots and ends; handler bundles. -/
def Obligations.BundlesIssueAndEnd : Prop :=
  Sys2Proof.Claims.BundleIssues ∧ Sys2Proof.Claims.BundlesEnd

/-- R34, R35, R59, R92, R106, R107: the sequencer moves on past a bundle: to its stream successor, one index on or twenty-five past an escape, or offset 0 of the next
segment after a hand-over; the loop end repeats or leaves; a transfer, a push and a halt count down and act; the next bundle is due 1 + gap cycles on, and one more for an escape. -/
def Obligations.SequencerAdvances : Prop :=
  ∀ (t : Tile) (variant : Nat) (pc : PC) (issue gap : Nat) (hand : Bool),
    let u := t.advance variant pc issue gap hand; let f := t.flow
    let esc := fun (p : PC) => if (t.segment variant p.seg)[p.off]? = some 0xFFFF then 1 else 0
    let succ : PC := if hand then { seg := pc.seg + 1, off := 0 } else { seg := pc.seg, off := pc.off + 1 + 24 * esc pc }
    let quiet := ∀ e r, f.loops = e :: r → e.last ≠ pc.off
    u.flow.due = issue + 1 + gap + esc u.flow.pc ∧
    (quiet → f.transfer = none → u.flow.pc = succ) ∧
    (quiet → f.transfer = none → f.push = none → u.flow.loops = f.loops ∧ u.flow.iterStart = false ∧ u.fmts = t.fmts) ∧
    (∀ e r, f.loops = e :: r → e.last = pc.off → e.i + 1 < e.n → f.transfer = none → f.push = none →
      u.flow.pc = { seg := pc.seg, off := e.start } ∧ u.flow.loops = { e with i := e.i + 1 } :: r ∧ u.flow.iterStart = true ∧
      u.fmts.row = if t.fmts.level = r.length then (t.fmts.base + (e.i + 1)) % 16 else t.fmts.row) ∧
    (∀ e r, f.loops = e :: r → e.last = pc.off → e.n ≤ e.i + 1 → (∀ e' r', r = e' :: r' → e'.last ≠ pc.off) → f.transfer = none → f.push = none →
      u.flow.pc = succ ∧ u.flow.loops = r) ∧
    (∀ x, f.transfer = some x → x.left ≤ 1 → quiet → f.push = none →
      u.flow.pc = { seg := pc.seg, off := x.target } ∧ u.flow.transfer = none ∧ u.flow.loops = f.loops ∧ u.flow.popDue = x.pop) ∧
    (∀ x, f.transfer = some x → 1 < x.left → quiet → u.flow.pc = succ ∧ u.flow.transfer = some { x with left := x.left - 1 }) ∧
    (∀ x, f.push = some x → quiet → f.transfer = none →
      if x.left ≤ 1 then u.flow.push = none ∧ u.flow.loops = x.entry :: f.loops ∧ u.flow.iterStart = true
      else u.flow.push = some { x with left := x.left - 1 } ∧ u.flow.loops = f.loops) ∧
    (∀ m, f.haltLeft = some m → if m ≤ 1 then u.flow.haltBase = some (issue + 1 + gap) ∧ u.flow.haltLeft = none
      else u.flow.haltLeft = some (m - 1) ∧ u.flow.haltBase = f.haltBase) ∧
    u.regs = t.regs ∧ u.staging = t.staging ∧ u.flight = t.flight ∧ u.sys = t.sys ∧ u.imem = t.imem ∧ u.vault = t.vault

/-- R97, R98, R114, R117, R124, R127, R184, R316, R323, R324, R409: the events of stops and holds: the horizon stops every tile that still runs, and where the partition must
wait there it holds with cause long trap; a release restarts the count at the earliest stop cycle within 64 cycles and ends that hold; a hold's end records it and lets the partition
and its sequencers run; self-refresh after 20 µs of a hold, or of one tile's stop; a trap at a cycle is taken with cyc set, and waits while the partition holds in that cycle
(R359); a halting tile ends its format writes and closes its pages; the segment agent asks for a segment's transfers (R36, R182), and when they are made it stands in the window as the
service banks hold it, or the first slot of it that could not be read is kept with it for the trap of its bundles (the model's reading of R186, log 63). -/
def Obligations.StopsAndHolds : Prop :=
  ∀ (s : State) (k : Kernel), let n := s.ev.x; let id := s.ev.tile; let t := s.tile id
    RisingMap s.tiles →
    (s.kernel? n = some k →
      (∃ u k', exec .stopHorizon s = .next u ∧ u.kernel? n = some k' ∧ k'.reached = some s.wall ∧ k'.cycle = k.cycle ∧
        (k.ending = none → k.holds = [] → k.holdFrom = none →
          ((k.handlers = 0 ∧ ∀ e ∈ s.tiles, inPartition k.die0 k.shape (dieOf e.1) = true →
            e.1 ∈ k.tiles ∧ (e.2.flow.st = .stopped ∨ e.2.flow.st = .halted ∨ e.2.flow.st = .running ∨ e.2.flow.st = .held)) →
            k' = { k with reached := some s.wall }) ∧
          (k.handlers ≠ 0 → k'.holds = [8] ∧ k'.holdMask = k.holdMask ||| 2 ^ 8 ∧ k'.holdFrom = some s.wall ∧ k'.st = (if k.st = .running then .held else k.st))) ∧
        (∀ j, (u.tile j).regs = (s.tile j).regs ∧ (u.tile j).flight = (s.tile j).flight ∧ (u.tile j).staging = (s.tile j).staging ∧
          (j ∈ k.tiles → (s.tile j).flow.st = .running ∨ (s.tile j).flow.st = .held →
            (u.tile j).flow = { (s.tile j).flow with st := .stopped, stopAt := k.cycle }) ∧
          (j ∈ k.tiles → (s.tile j).flow.st ≠ .running → (s.tile j).flow.st ≠ .held → (u.tile j).flow = (s.tile j).flow) ∧
          (j ∉ k.tiles → u.tile j = s.tile j))) ∧
      (∃ u k', exec .partitionRelease s = .next u ∧ u.kernel? n = some k' ∧ k'.horizon = none ∧ k'.reached = none ∧ k'.holds = [] ∧ k'.holdFrom = none ∧
        k'.cycle ≤ k.cycle ∧ k'.st = (if k.st = .held then .running else k.st) ∧ s.wall < k'.nextWall ∧ k'.nextWall ≤ s.wall + 64 * k.period ∧
        k'.nhold = (if k.holdFrom = none then k.nhold else min (k.nhold + 1) (2 ^ 32 - 1)) ∧
        (∀ j ∈ k.tiles, (s.tile j).flow.st = .stopped → k'.cycle ≤ (s.tile j).flow.stopAt) ∧
        (k'.cycle = k.cycle ∨ ∃ j ∈ k.tiles, (s.tile j).flow.st = .stopped ∧ k'.cycle = (s.tile j).flow.stopAt) ∧
        (∀ j, (u.tile j).regs = (s.tile j).regs ∧ (u.tile j).flight = (s.tile j).flight ∧
          (u.tile j).flow = { (s.tile j).flow with st := if j ∈ k.tiles ∧ (s.tile j).flow.st = .held then .running else (s.tile j).flow.st })) ∧
      (∀ start, k.holds = [] → k.holdFrom = some start →
        ∃ u k', exec .holdRelease s = .next u ∧ u.kernel? n = some k' ∧ k'.holdFrom = none ∧ k'.cycle = k.cycle ∧
          k'.st = (if k.st = .held then .running else k.st) ∧ k'.nhold = min (k.nhold + 1) (2 ^ 32 - 1) ∧
          k'.holdSum = min (k.holdSum + (s.wall - start) / 39) (2 ^ 64 - 1) ∧
          (∀ j, (u.tile j).regs = (s.tile j).regs ∧ (u.tile j).flight = (s.tile j).flight ∧
            (u.tile j).flow = { (s.tile j).flow with st := if j ∈ k.tiles ∧ (s.tile j).flow.st = .held then .running else (s.tile j).flow.st })) ∧
      (∀ i, s.ev.tile = i + 1 → (s.tile i).flow.st = .trapped → k.horizon.isSome = true → (s.tile i).flow.stopWall = s.ev.y →
        exec .selfRefreshEntry s = .next (s.setTile i { s.tile i with vault := { (s.tile i).vault with selfRef := true } })) ∧
      (s.ev.tile = 0 → k.holdFrom = some s.ev.y →
        ∃ u, exec .selfRefreshEntry s = .next u ∧ u.kernels = s.kernels ∧
          (∀ j, u.tile j = if j ∈ k.tiles then { s.tile j with vault := { (s.tile j).vault with selfRef := true } } else s.tile j))) ∧
    (∀ m x rest, s.kernelOf id = some (m, k) → t.flow.cycTraps = x :: rest → k.holds ≠ [] → exec .deferredTrap s = .next s) ∧
    (∀ m x rest, s.kernelOf id = some (m, k) → t.flow.cycTraps = x :: rest → k.holds = [] →
      (t.flow.st = .running ∨ t.flow.st = .held → exec .deferredTrap s = .next (({ s with todo := [] } : State).takeTrap id
        { t with flow := { t.flow with cycTraps := rest } } x.cause 0 x.info (max x.cycle k.cycle) (t.flow.due - k.cycle) true)) ∧
      (t.flow.st = .halted → k.ending = none → ∃ u k', exec .deferredTrap s = .next u ∧ (u.tile id).flow.st = .faulted ∧
        u.kernel? m = some k' ∧ k'.st = .faulted ∧ k'.ending = some 2)) ∧
    (∃ u, exec .tileHalted s = .next u ∧ (u.tile id).flow.st = .halted ∧ (u.tile id).fmts.pend = [] ∧ (u.tile id).regs = t.regs ∧
      (u.tile id).staging = t.staging ∧ (∀ e ∈ (u.tile id).vault.banks, e.2.st = .idle) ∧ (∀ j, j ≠ id → u.tile j = s.tile j)) ∧
    (∀ m, s.kernelOf id = some (m, k) →
      let key := k.variant * 65536 + s.ev.x; let places := k.segmentPlaces id t key
      let p := s.readSlots id places; let v := p.1.tile id
      (∀ b g sl r, s.readSlots id ((b, g, sl) :: r) = match s.agentRead id 1 b g 0 sl with
        | (w, .error _) => (w, .error (b + g * 2 ^ 8 + sl * 2 ^ 20))
        | (w, .ok d) => match w.readSlots id r with
          | (w, .error e) => (w, .error e)
          | (w, .ok l) => (w, .ok (d ++ l))) ∧
      (∀ key j, let q := k.segmentSlot id t key j
        q.1 < 128 ∧ q.2.1 < 4096 ∧ q.2.2 < 32 ∧ ((∃ b < 128, bitOf k.img.sbmask b = true) → bitOf k.img.sbmask q.1 = true)) ∧
      (s.ev.x ∉ t.imem.copying → exec .segmentCopyComplete s = .next s) ∧
      (s.ev.x ∈ t.imem.copying → s.ev.grant = .fresh → places ≠ [] →
        exec .segmentCopyComplete s = .next (s.ask 1 { i := .segmentCopyComplete, arg := s.ev } (groupNeeds (places.map fun q => (id, q.1, 1))))) ∧
      (s.ev.x ∈ t.imem.copying → s.ev.grant = .given → RisingMap p.1.tiles → ∃ u, exec .segmentCopyComplete s = .next u ∧
        (u.tile id).imem.copying = v.imem.copying.erase s.ev.x ∧
        (∀ x, p.2 = .error x → (u.tile id).imem.bad = mapPut v.imem.bad s.ev.x x ∧ (u.tile id).imem.segs = v.imem.segs) ∧
        (∀ bs, p.2 = .ok bs → (u.tile id).imem.bad = v.imem.bad ∧
          (u.tile id).imem.segs = mapSet [] v.imem.segs key ((List.range (mapGet [] v.imem.segs key).length).map fun i =>
            BitVec.ofNat 16 (bytesNat ((bs.drop (2 * i)).take 2)))) ∧
        (u.tile id).regs = v.regs ∧ (u.tile id).staging = v.staging ∧
        (∀ j, j ≠ id → u.tile j = p.1.tile j) ∧ u.dies = p.1.dies ∧ u.ctxs = p.1.ctxs ∧
        (p.1.kernel? m = some k → k.holds = [4] → v.flow.st = .running ∨ v.flow.st = .held → v.flow.due ≤ k.cycle → v.flow.pc.seg = s.ev.x →
          ∃ k', u.kernel? m = some k' ∧ k'.holds = [] ∧ u.todo = ({ i := .holdRelease, arg := { x := m } } : Due) :: p.1.todo)))

/-- R161, R177, R181, R193: the events of a bank and of a training window change that bank or that window alone: an activated bank is open, a precharged or a refreshed
one idle, a lend begins with its precharge's end and lasts 1,024 cycles times its code, and at its end the deadline lies half a refresh interval ahead; an overdue
refresh gives the trap of its cycle and a deadline a whole interval ahead. -/
def Sys2Proof.Claims.BankEvents : Prop :=
  ∀ s : State, let t := s.tile s.ev.tile; let v := t.vault; let b := v.bank s.ev.x
    let becomes := fun (i : Instr) (b' : Bank) => exec i s = .next (s.setTile s.ev.tile { t with vault := v.setBank s.ev.x b' })
    (b.st = .activating → becomes .bankActivationComplete { b with st := .open }) ∧
    (∀ c, b.ap = some c → becomes .autoPrecharge { b with st := .precharging, lastPre := some c, ap := none, lend := 0 }) ∧
    (b.st = .precharging → becomes .prechargeComplete { b with st := .idle, lendEnd := if b.lend = 0 then b.lendEnd else some (s.ev.y + 1024 * b.lend) }) ∧
    (b.st = .refreshing → becomes .refreshComplete { b with st := .idle }) ∧
    (∀ n k, s.kernelOf s.ev.tile = some (n, k) →
      (b.lend ≠ 0 → becomes .lendEnd { b with lend := 0, deadline := s.ev.y + k.params.tREFB / 2 }) ∧
      (mapFind v.trainDue s.ev.x = none → exec .trainingWindowStart s =
        .next (s.setTile s.ev.tile { t with vault := { v with train := mapPut v.train s.ev.x (s.ev.y + k.params.tTRN) } })) ∧
      (RisingMap s.tiles → ∃ u, exec .refreshOverdue s = .next u ∧
        (u.tile s.ev.tile).vault = v.setBank s.ev.x { b with deadline := s.ev.y + k.params.tREFB } ∧
        (∀ x, x ∈ (u.tile s.ev.tile).flow.cycTraps ↔ x ∈ t.flow.cycTraps ∨ x = { cycle := s.ev.y, cause := 0x05, info := s.ev.x }) ∧
        (u.tile s.ev.tile).regs = t.regs ∧ (u.tile s.ev.tile).staging = t.staging ∧ (∀ j, j ≠ s.ev.tile → u.tile j = s.tile j))) ∧
    exec .trainingWindowEnd s = .next (s.setTile s.ev.tile { t with vault := { v with train := mapDel v.train s.ev.x } })

/-- R194: a retraining is due 2 ms after the last one; one that comes due in a hold runs there, one that comes due outside a hold waits up to 8 ms for a window, and
then the partition is held for tTRN cycles of wall time; where it has run, the next is due 2 ms later. -/
def Sys2Proof.Claims.Retraining : Prop :=
  ∀ (s : State) (n : Nat) (k : Kernel), let t := s.tile s.ev.tile; let v := t.vault; let q := s.ev.x
    let again := fun (u : State) => { u with agenda := insertDated (s.wall + 39 * 2000000) { i := .retrainingDue, arg := { tile := s.ev.tile, x := q } } u.agenda }
    s.kernelOf s.ev.tile = some (n, k) →
    (mapFind v.trainDue q = none → 39 * 2000000 + mapGet 0 v.lastTrain q ≤ s.wall →
      exec .retrainingDue s = .next (if k.holdFrom.isSome
        then again (s.setTile s.ev.tile { t with vault := { v with lastTrain := mapPut v.lastTrain q s.wall } })
        else { s.setTile s.ev.tile { t with vault := { v with trainDue := mapPut v.trainDue q s.wall } } with
          agenda := insertDated (s.wall + 39 * 8000000) { i := .forcedRetraining, arg := { tile := s.ev.tile, x := q } } s.agenda })) ∧
    (∀ due, mapFind v.trainDue q = some due →
      exec .trainingWindowStart s = .next (again (s.setTile s.ev.tile { t with vault := { v with
        train := mapPut v.train q (s.ev.y + k.params.tTRN), lastTrain := mapPut v.lastTrain q s.wall, trainDue := mapDel v.trainDue q } })) ∧
      (s.ev.y = 0 → due + 39 * 8000000 ≤ s.wall → s.kernel? n = some k →
        ∃ u k', exec .forcedRetraining s = .next u ∧ u.kernel? n = some k' ∧ k'.holds = 3 :: k.holds ∧ k'.holdFrom.isSome = true ∧ k'.cycle = k.cycle ∧
          (s.wall + k.params.tTRN * k.period, { i := .forcedRetraining, arg := { tile := s.ev.tile, x := q, y := 1 } }) ∈ u.agenda) ∧
      (s.ev.y = 1 → s.kernel? n = some k → RisingMap s.tiles →
        ∃ u k', exec .forcedRetraining s = .next u ∧ u.kernel? n = some k' ∧ k'.holds = k.holds.erase 3 ∧
          (u.tile s.ev.tile).vault = { v with lastTrain := mapPut v.lastTrain q s.wall, trainDue := mapDel v.trainDue q }))

/-- R161, R177, R181, R193, R194: banks, training windows and retraining change as time passes. -/
def Obligations.BankAndTrainingEvents : Prop :=
  Sys2Proof.Claims.BankEvents ∧ Sys2Proof.Claims.Retraining

/-- R163, R170, R174, R185, R186, R192, R208: a transfer of a stream in its data cycle, the bus without fault: a read's 64 bytes are what its slot holds, corrected if need be, and
go to the next block of staging, in a portable image as a result that lands at its image cycle (R315); a null stream's are zeros; a read that cannot be corrected gives the trap of a data error at its cycle; a write takes its bytes from
staging a row before it puts them in its slot, with the check word of its level. Nothing else of the tile changes. -/
def Sys2Proof.Claims.VaultTransfers : Prop :=
  ∀ (s : State) (x : Stream), let id := s.ev.tile; let t := s.tile id; let v := t.vault; let key := pageKey x.bank x.page; let slot := x.slot + x.done
    v.stream? s.ev.x = some x → RisingMap s.tiles →
    let alone := fun (u : State) => (u.tile id).regs = t.regs ∧ (u.tile id).flight = t.flight ∧ (u.tile id).oh = t.oh ∧
      (∀ j, j ≠ id → u.tile j = s.tile j) ∧ u.kernels = s.kernels ∧ u.dies = s.dies ∧ u.host = s.host
    let moves := fun (u : State) => (u.tile id).vault.streams =
      (v.streams.map fun y => if y.seq = x.seq then { y with done := y.done + 1 } else y).filter fun y => decide (y.done < y.n)
    let f := if x.raw then Finding.clean (pageBytes id key s.free (v.page key) (64 * slot) 64) else pageRead id key s.free (v.page key) x.lvl slot
    (∀ a, x.read = true → x.dest = .staging a → x.img = 0 → s.struck id (x.first + x.done) ((a + 64 * x.done) % 2 ^ 18) = false →
      (x.null = true → ∃ u, exec .vaultReadTransfer s = .next u ∧ alone u ∧ moves u ∧
        (u.tile id).staging = stagingPut t.staging (a + 64 * x.done) (List.replicate 64 0)) ∧
      (∀ bs, x.null = false → f.data = some bs → (∀ w, (v.logFinding f 0 x.lvl x.bank x.page slot w).meets (x.bank % 4) true = .nothing) →
        ∃ u, exec .vaultReadTransfer s = .next u ∧ alone u ∧ moves u ∧ (u.tile id).staging = stagingPut t.staging (a + 64 * x.done) bs ∧
          (u.tile id).vault.pages = v.pages ∧ u.free = s.free + 1) ∧
      (x.null = false → f.data = none → s.ending id = false →
        ∃ u, exec .vaultReadTransfer s = .next u ∧ alone u ∧ moves u ∧ (u.tile id).staging = t.staging ∧
          { cycle := x.first + x.done, cause := 0x0F, info := x.bank + x.page * 2 ^ 8 + slot * 2 ^ 20 } ∈ (u.tile id).flow.cycTraps)) ∧
    (∀ a bs, x.read = true → x.dest = .staging a → x.img ≠ 0 → s.struck id (x.first + x.done) ((a + 64 * x.done) % 2 ^ 18) = false → x.null = false →
      f.data = some bs → (∀ w, (v.logFinding f 0 x.lvl x.bank x.page slot w).meets (x.bank % 4) true = .nothing) →
      ∃ u, exec .vaultReadTransfer s = .next u ∧ moves u ∧ (u.tile id).staging = t.staging ∧ (u.tile id).regs = t.regs ∧ (u.tile id).flight = t.flight ++ [{
        seq := t.flow.seq, due := x.first + x.done, img := x.img + x.done, dst := .staging 6 false, bytes := wholeBytes (a + 64 * x.done) bs
        back := x.first + x.done }]) ∧
    (x.read = false →
      (s.ev.y = 0 → (∀ y ∈ v.streams, y.done < y.n) → exec .vaultWriteTransfer s = .next (s.setTile id { t with vault := { v with
        streams := v.streams.map fun y => if y.seq = x.seq then { y with
          taken := y.taken ++ [BitVec.ofNat 512 (bytesNat (stagingBytes t.staging (y.src + 64 * y.taken.length) 64))] } else y } })) ∧
      (∀ d, s.ev.y = 1 → x.taken[x.done]? = some d → x.raw = true → v.meets (x.bank % 4) false = .nothing →
        ∃ u, exec .vaultWriteTransfer s = .next u ∧ alone u ∧ moves u ∧ (u.tile id).staging = t.staging ∧
          (u.tile id).vault.pages = mapSet [] v.pages key (pagePut (v.page key) (64 * slot) (natBytes 64 d.toNat))) ∧
      (∀ d, s.ev.y = 1 → x.taken[x.done]? = some d → x.raw = false → v.meets (x.bank % 4) false = .nothing →
        (∀ d, ∀ e ∈ (s.die d).chans, e.2.job = none) →
        ∃ u, exec .vaultWriteTransfer s = .next u ∧ alone u ∧ moves u ∧
          (u.tile id).vault.pages = mapSet [] v.pages key (pageWrite (v.page key) x.lvl slot (natBytes 64 d.toNat))))

/-- R159, R163, R185, R186, R203, R208, R223, R229, R230, R315: a transfer of a read stream to an operand buffer or to a scale name, the bus without fault: the bytes of a slot go to the
bytes of the buffer's position that the slot number names, or, of a record in column order, each half byte to the place of its element's row and column; the zeros of a null brick always go by the slot
number; in a portable image they wait for their image cycle; the codes go into the result that the stream feeds, which stands when the last of them is there; a transfer that cannot be corrected
writes nothing, ends its stream, neither stamps the buffer nor renames the scale, and traps as a data error. -/
def Sys2Proof.Claims.OperandTransfers : Prop :=
  ∀ (s : State) (x : Stream), let id := s.ev.tile; let t := s.tile id; let v := t.vault; let key := pageKey x.bank x.page; let slot := x.slot + x.done
    v.stream? s.ev.x = some x → x.read = true → x.raw = false → RisingMap s.tiles → RisingMap t.matrix.bufs →
    let f := pageRead id key s.free (v.page key) x.lvl slot
    let carries := fun (bs : List Byte) => (x.null = true ∧ bs = List.replicate 64 0) ∨ (x.null = false ∧ f.data = some bs ∧
      ∀ w, (v.logFinding f 0 x.lvl x.bank x.page slot w).meets (x.bank % 4) true = .nothing)
    let alone := fun (u : State) => (u.tile id).regs = t.regs ∧ (u.tile id).staging = t.staging ∧ (u.tile id).oh = t.oh ∧ (u.tile id).vault.pages = v.pages ∧
      (∀ j, j ≠ id → u.tile j = s.tile j) ∧ u.kernels = s.kernels ∧ u.dies = s.dies ∧ u.host = s.host
    let moves := fun (u : State) => (u.tile id).vault.streams =
      (v.streams.map fun y => if y.seq = x.seq then { y with done := y.done + 1 } else y).filter fun y => decide (y.done < y.n)
    let part := fun (u : Tile) (k w j : Nat) => (u.buf k).data.toNat / 2 ^ (w * j) % 2 ^ w
    (∀ k q lay cont bind bs, x.dest = .buffer k q lay cont bind → carries bs →
      (x.img = 0 → q < 4 → slot < 32 → ∃ u, exec .vaultReadTransfer s = .next u ∧ alone u ∧ moves u ∧ (u.tile id).flight = t.flight ∧
        (∀ j, j ≠ k → (u.tile id).buf j = t.buf j) ∧ (u.tile id).matrix = { t.matrix with bufs := (u.tile id).matrix.bufs } ∧
        (u.tile id).buf k = { t.buf k with data := ((u.tile id).buf k).data } ∧
        (lay = false ∨ x.null = true → ∀ j, j < 8192 → part (u.tile id) k 8 j =
          if 2048 * q + 64 * slot ≤ j ∧ j < 2048 * q + 64 * slot + 64 then (bs.getD (j - (2048 * q + 64 * slot)) 0).toNat else part t k 8 j) ∧
        (lay = true → x.null = false → cont = 4 ∨ cont = 8 ∨ cont = 16 ∨ cont = 32 ∨ cont = 64 →
          let half := fun (h : Nat) => (bs.getD (h / 2) 0).toNat / 16 ^ (h % 2) % 16
          let row := fun (h : Nat) => (128 * slot + h) / (cont / 4) % brickRows cont x.lvl; let col := fun (h : Nat) => (128 * slot + h) / (cont / 4) / brickRows cont x.lvl
          let place := fun (h : Nat) => 4096 * q + (row h * brickCols cont + col h) * (cont / 4) + (128 * slot + h) % (cont / 4)
          (∀ h < 128, row h < brickRows cont 0 → part (u.tile id) k 4 (place h) = half h) ∧
          ∀ m < 16384, (∀ h < 128, row h < brickRows cont 0 → place h ≠ m) → part (u.tile id) k 4 m = part t k 4 m)) ∧
      (x.img ≠ 0 → ∃ u, exec .vaultReadTransfer s = .next u ∧ alone u ∧ moves u ∧ (u.tile id).matrix = t.matrix ∧ (u.tile id).flight = t.flight ++ [{
        seq := t.flow.seq, due := x.first + x.done, img := x.img + x.done, dst := .bufSlot k q (lay && !x.null) cont x.lvl slot, val := bytesNat bs
        back := x.first + x.done }])) ∧
    (∀ res bs, x.dest = .scale res → carries bs → ∃ u, exec .vaultReadTransfer s = .next u ∧ alone u ∧ moves u ∧ (u.tile id).matrix = t.matrix ∧
      (u.tile id).flight = t.flight.map fun r => if r.seq = res
        then { r with
          val := r.val / 2 ^ (512 * x.done + 512) * 2 ^ (512 * x.done + 512) + bytesNat bs % 2 ^ 512 * 2 ^ (512 * x.done) + r.val % 2 ^ (512 * x.done)
          pend := decide (x.done + 1 < x.n) }
        else r) ∧
    ((∀ a, x.dest ≠ .staging a) → x.null = false → f.data = none → s.ending id = false → ∃ u, exec .vaultReadTransfer s = .next u ∧ alone u ∧ (u.tile id).matrix = t.matrix ∧
      (u.tile id).vault.streams = v.streams.filter (fun y => y.seq != x.seq) ∧
      (∀ k q lay cont bind, x.dest = .buffer k q lay cont bind → (u.tile id).flight = t.flight.filter fun r => r.seq != x.seq + 1) ∧
      (∀ res, x.dest = .scale res → (u.tile id).flight = t.flight.filter fun r => r.seq != res) ∧
      { cycle := x.first + x.done, cause := 0x0F, info := x.bank + x.page * 2 ^ 8 + slot * 2 ^ 20 } ∈ (u.tile id).flow.cycTraps)

/-- R187, R188, R192: a transfer that meets an inverted bit is retried after 40 ns with the partition held: a retry that succeeds makes the transfer and logs it; after the
third failing try, with the group's spare lane free, the lane is swapped 2 µs later and tried again; with no spare left the transfer fails and the group has failed for good. -/
def Sys2Proof.Claims.BusRetries : Prop :=
  ∀ (s : State), let id := s.ev.tile; let q := s.ev.x; let t := s.tile id; let v := t.vault
    RisingMap s.tiles →
    exec .vinjParityInject s = .next (s.setTile id { t with vault := { v with vinj := v.vinj &&& ~~~1#64 } }) ∧
    exec .vinjStuckLane s = .next (s.setTile id { t with vault := { v with
      retries := v.retries.map fun r => if r.q = q then { r with fails := 3, lane := v.vinj.toNat / 2 ^ 7 % 2 ^ 5 } else r } }) ∧
    (∀ x b bs, v.stream? x = some b → b.read = false → b.taken[b.done]? = some bs → s.ev.y = 1 → s.ev.x = x → mapFind v.failed (b.bank % 4) = none →
      v.vinj.toNat % 2 = 1 → v.vinj.toNat / 2 ^ 2 % 4 = b.bank % 4 → v.vinj.toNat / 2 % 2 = 0 → v.vinj.toNat / 2 ^ 12 % 2 = 1 →
      ∃ u, exec .vaultWriteTransfer s = .next u ∧ u.todo.head? = some { i := .vinjParityInject, arg := { tile := id } } ∧
        (u.tile id).vault.pages = v.pages ∧ (u.tile id).vault.streams = v.streams ∧
        (s.wall + 40 * 39, { i := .busRetry, arg := { tile := id, x := b.bank % 4 } }) ∈ u.agenda) ∧
    (∀ r x, v.retries.find? (fun y => y.q == q) = some r → q < 4 → v.stream? r.seq = some x → r.swapped = false →
      (r.fails = 0 → r.tries = 0 → r.read = x.read →
        let made := fun (u : State) => (u.tile id).vault.retries = v.retries.filter (fun y => y.q != q) ∧
          mapFind (u.tile id).vault.blog (v.bcount % 64) = some (q + r.grp * 2 ^ 2 + b2n (!x.read) * 2 ^ 5 + 2 ^ 8 + x.bank * 2 ^ 18 + x.page * 2 ^ 25 +
            (x.slot + x.done) * 2 ^ 37, x.first + x.done) ∧
          (∀ n k, s.kernelOf id = some (n, k) → s.kernel? n = some k → ∃ k', u.kernel? n = some k' ∧ k'.holds = k.holds.erase 2)
        let slotIs := fun (u : State) (p : Mem) => (u.tile id).vault.pages = mapSet [] v.pages (pageKey x.bank x.page) p
        let old := v.page (pageKey x.bank x.page); let bs := natBytes 64 r.data.toNat
        (∀ a, x.read = true → x.dest = .staging a → x.img = 0 → s.struck id (x.first + x.done) ((a + 64 * x.done) % 2 ^ 18) = false →
          ∃ u, exec .busRetry s = .next u ∧ made u ∧ (u.tile id).vault.pages = v.pages ∧ (u.tile id).staging = stagingPut t.staging (a + 64 * x.done) bs) ∧
        (x.read = false → x.raw = true → ∃ u, exec .busRetry s = .next u ∧ made u ∧ slotIs u (pagePut old (64 * (x.slot + x.done)) bs)) ∧
        (x.read = false → x.raw = false → (∀ d, ∀ e ∈ (s.die d).chans, e.2.job = none) →
          ∃ u, exec .busRetry s = .next u ∧ made u ∧ slotIs u (pageWrite old x.lvl (x.slot + x.done) bs))) ∧
      (0 < r.fails → r.tries < 2 → ∃ u, exec .busRetry s = .next u ∧ (u.tile id).vault.pages = v.pages ∧
        (s.wall + 40 * 39, { i := .busRetry, arg := { tile := id, x := q } }) ∈ u.agenda) ∧
      (0 < r.fails → r.tries = 2 → mapFind v.spare (8 * q + r.grp) = none → ∃ u, exec .busRetry s = .next u ∧ (u.tile id).vault.pages = v.pages ∧
        (s.wall + 2000 * 39, { i := .laneSwap, arg := { tile := id, x := q } }) ∈ u.agenda) ∧
      (0 < r.fails → r.tries = 2 → mapFind v.spare (8 * q + r.grp) ≠ none →
        ∃ u, exec .busRetry s = .next u ∧ mapFind (u.tile id).vault.failed q = some r.grp ∧ (u.tile id).vault.pages = v.pages ∧
          (u.tile id).vault.retries = v.retries.filter (fun y => y.q != q)) ∧
      (∃ u, exec .laneSwap s = .next u ∧ mapFind (u.tile id).vault.spare (8 * q + r.grp) = some r.lane ∧
        (u.tile id).vault.retries = v.retries.map (fun y => if y.q = q then { y with swapped := true } else y) ∧
        (s.wall + 40 * 39, { i := .busRetry, arg := { tile := id, x := q } }) ∈ u.agenda))

/-- R163, R170, R174, R185, R186, R187, R188, R192, R208, R229, R230, R315: transfers of a vault stream, to staging, an operand buffer or a scale name and from staging, their errors
and their retries. -/
def Obligations.VaultTransfers : Prop :=
  Sys2Proof.Claims.VaultTransfers ∧ Sys2Proof.Claims.OperandTransfers ∧ Sys2Proof.Claims.BusRetries

/-- R158, R159, R170, R185: what a transfer writes into a slot at a level, strong, detecting or none, a read at that level gives back, and with it a write leaves every byte of the page
as it was outside the slot, its check word and the unused bytes of the check slots; at the strong level one wrong symbol, of the data or of the check word, is found and put right, and at the
detecting level a wrong CRC is found. -/
def Obligations.SlotsReadBack : Prop :=
  ∀ (id key use use' lvl slot : Nat) (p : Mem) (bs : List Byte), RisingMap p → bs.length = 64 →
    (lvl = 0 ∧ slot < 32 ∨ lvl = 1 ∧ slot < 34 ∨ lvl = 2 ∧ slot < 36) →
    let check := if lvl = 0 then 64 * (32 + slot / 8) + 8 * (slot % 8) else 64 * 34 + 3 * slot
    pageRead id key use (pageWrite p lvl slot bs) lvl slot = .clean bs ∧
    (∀ lo n, (lo + n ≤ 64 * slot ∨ 64 * slot + 64 ≤ lo) → (lvl = 0 → lo + n ≤ check ∨ check + 8 ≤ lo) →
      (lvl = 1 → (lo + n ≤ check ∨ check + 3 ≤ lo) ∧ lo + n ≤ 64 * 34 + 102) →
      pageBytes id key use' (pageWrite p lvl slot bs) lo n = pageBytes id key use' p lo n) ∧
    (∀ i w, lvl = 0 → i < 32 → w < 2 ^ 16 → w ≠ bytesNat ((bs.drop (2 * i)).take 2) →
      pageRead id key use (pagePut (pageWrite p lvl slot bs) (64 * slot + 2 * i) (natBytes 2 w)) lvl slot = .corrected bs i) ∧
    (∀ i w, lvl = 0 → i < 4 → w < 2 ^ 16 → w ≠ (rsCheck (symbolsOf bs)).getD i 0 →
      pageRead id key use (pagePut (pageWrite p lvl slot bs) (check + 2 * i) (natBytes 2 w)) lvl slot = .corrected bs (32 + i)) ∧
    (∀ w, lvl = 1 → w < 2 ^ 24 → w ≠ crc24 bs →
      pageRead id key use (pagePut (pageWrite p lvl slot bs) check (natBytes 3 w)) lvl slot = .detected)

/-- R303, R304, R305, R308, R310: a start reaches its channel: with fewer than eight waiting it queues up and the accept word says so, with eight it is refused and gets no place, and its
refusal is recorded; a start of queue engine or host that comes while cycles pass waits for the sequencers' starts of the next one; a job of a restored context goes on first;
the first start of a free channel begins to run, or ends at once where its template does not stand; one of a context that is saved waits; a job that has ended, its dirty map written, writes its record and frees its channel.
The ring descriptor's layout, a ring's greatest size and the vector raised are the model's readings (logs 17 and 47). -/
def Sys2Proof.Claims.SluiceStarts : Prop :=
  ∀ s : State, let d := s.ev.tile; let ch := s.ev.x
    RisingMap s.tiles → RisingMap s.dies → (∀ e, RisingMap (s.die e).chans) →
    (∀ r c k data, s.ev.x = 0 → (s.tile d).sync.reqs.find? (fun x => x.seq == s.ev.y) = some r → r.kind = .start c k data →
      let q := (s.chan r.die k).queue; let new : Start := { ctx := c, data := data, tile := some { tile := d, seq := r.seq } }
      ∃ u, exec .sluiceStartArrival s = .next u ∧ (u.tile d).sync.reqs = (s.tile d).sync.reqs.filter (fun x => x.seq != r.seq) ∧
        (u.chan r.die k).queue = (if q.length < 8 then q ++ [new] else q) ∧ (u.chan r.die k).job = (s.chan r.die k).job ∧
        (u.chan r.die k).refused = (if q.length < 8 then (s.chan r.die k).refused else (s.chan r.die k).refused ++ [(s.free, new)]) ∧
        (8 ≤ q.length → ∃ w, s.wall < w ∧ (w, { i := .jobCompletionRecord, arg := { tile := r.die, x := k, y := s.free + 1 } }) ∈ u.agenda) ∧
        (∀ e j, (e, j) ≠ (r.die, k) → u.chan e j = s.chan e j) ∧
        (∀ n x, r.result = some n → x ∈ (u.tile d).flight → x.seq = n → x.val = (if q.length < 8 then 1 + 2 * (q.length + 1) else 2 * q.length % 2 ^ 64)) ∧
        (q.length ≤ 8 → (u.chan r.die k).queue.length ≤ 8)) ∧
    (∀ a, (s.die d).arrivals.find? (fun b => b.id == s.ev.y) = some a →
      let q := (s.chan d a.ch).queue
      let applied := ∃ u, exec .sluiceStartArrival s = .next u ∧ (u.die d).arrivals = (s.die d).arrivals.filter (fun b => b.id != a.id) ∧
        (u.chan d a.ch).queue = (if q.length < 8 then q ++ [a.start] else q) ∧ u.tiles = s.tiles ∧ u.host = s.host ∧ u.ctxs = s.ctxs
      (s.ev.x = 2 → applied) ∧ (s.ev.x = 1 → (∀ n k, kernelOfDie s.kernels d = some (n, k) → k.passes = false) → applied) ∧
      (∀ n k, s.ev.x = 1 → kernelOfDie s.kernels d = some (n, k) → k.passes = true → exec .sluiceStartArrival s = .next
        ((s.setDie d { s.die d with arrivals := (s.die d).arrivals.map fun b => if b.id = a.id then { b with here := true } else b }).at
          (s.wall + k.period) { i := .sluiceStartArrival, arg := { tile := d, x := 1, y := a.id } }))) ∧
    (∀ j rest, (s.chan d ch).job = none → (s.chan d ch).resume = j :: rest →
      ∃ u, exec .jobApply s = .next u ∧ (u.chan d ch).job = some j ∧ (u.chan d ch).resume = rest ∧ (u.chan d ch).queue = (s.chan d ch).queue ∧ u.tiles = s.tiles) ∧
    (∀ x rest, (s.chan d ch).job = none → (s.chan d ch).resume = [] → (s.chan d ch).queue = x :: rest → s.jobsStop x.ctx = false →
      ∃ u, exec .jobApply s = .next u ∧ (u.chan d ch).queue = rest ∧ (∃ j, (u.chan d ch).job = some j ∧ j.start = x ∧ j.units = 0 ∧
        (bitOf (recWord (s.template x) 0) 3 = false → (s.ctx x.ctx).st ≠ .destroyed → j.ended = some (5, 0)) ∧
        ((s.ctx x.ctx).st = .destroyed → j.ended = some (4, 8))) ∧
        u.tiles = s.tiles ∧ u.host = s.host ∧ u.ctxs = s.ctxs) ∧
    ((s.chan d ch).job = none → (s.chan d ch).resume = [] → (∀ x ∈ (s.chan d ch).queue, s.jobsStop x.ctx = true) → exec .jobApply s = .next s) ∧
    (RisingMap s.ctxs → (∀ e, RisingMap (s.ctx e).rings) → (∀ n, s.ev.grant ≠ .waits n) →
      let recorded := fun (x : Start) (st f bytes p : Nat) (freed : State → Prop) => let tm := s.template x; let c := s.ctx x.ctx
      let n := recBits tm 0 11 8; let ring := mapGet {} c.rings n; let desc := recBits c.desc 6 56 0 + 32 * n
      let size := 16 * 2 ^ ring.lsz; let at' := ring.base + 32 * (ring.wseq % size)
      ∀ g, c.grain (desc + 12) = some g → g.kind = 0 → g.rd = true → g.wr = true → ring.lsz ≤ 12 → c.grain ring.base = some g → c.grain at' = some g → c.grain (desc + 8) = some g →
        g.covers at' 32 = true → g.covers (desc + 8) 4 = true → g.covers (desc + 12) 4 = true →
        (at' + 32 ≤ desc ∨ desc + 16 ≤ at') → Memory.wf s.host.mem = true → recBits tm 0 6 6 = 0 →
        (ring.wseq + 2 ^ 32 - bytesNat (memRange s.host.mem (g.offset (desc + 12)) 4)) % 2 ^ 32 ≠ size →
        ∃ u, exec .jobCompletionRecord s = .next u ∧ freed u ∧
          memRange u.host.mem (g.offset at') 32 =
            natBytes 8 (st + f * 2 ^ 8 + ch * 2 ^ 16 + d * 2 ^ 22 + x.data.toNat % 2 ^ 8 * 2 ^ 32 + x.data.toNat / 2 ^ 8 % 2 ^ 24 * 2 ^ 40) ++
            natBytes 8 (bytes % 2 ^ 48) ++ natBytes 4 p ++ natBytes 4 ring.wseq ++ natBytes 8 (s.wall / 39) ∧
          mapGet {} (u.ctx x.ctx).rings n = { ring with wseq := (ring.wseq + 1) % 2 ^ 32, cseq := bytesNat (memRange s.host.mem (g.offset (desc + 12)) 4) } ∧
          u.host.irqs = s.host.irqs ++ [ring.vec]
      (∀ j st f, s.ev.y = 0 → (s.chan d ch).job = some j → j.ended = some (st, f) → j.writes = [] → recorded j.start st f j.bytes j.units fun u => (u.chan d ch).job = none) ∧
      (∀ x i, s.ev.y = i + 1 → (s.chan d ch).refused.find? (fun y => y.1 + 1 == s.ev.y) = some (i, x) →
        recorded x 3 0 0 0 fun u => (u.chan d ch).refused = (s.chan d ch).refused.filter (fun y => y.1 != i)))

/-- R306, R307: a unit of a copy between two host-memory grains, in two steps: the whole of it is read before any of it is written, and then the destination's 2,048 bytes become
what was read, no other byte of the host's memory changes, and one more unit is done; the last one ends the job with status done. -/
def Sys2Proof.Claims.CopyUnits : Prop :=
  ∀ (s : State) (j : Job) (g h : Grain), let d := s.ev.tile; let ch := s.ev.x; let x := j.start; let tm := s.template x; let c := s.ctx x.ctx
    let u := recBits tm 3 31 0 * (x.data.toNat / 2 ^ 32) + j.units
    let from' := recBits tm 1 56 0 + u * 2048; let to' := recBits tm 2 56 0 + u * 2048
    (s.chan d ch).job = some j → j.ended = none → j.failing = none → recBits tm 0 5 0 = 8 → RisingMap s.dies → RisingMap (s.die d).chans →
    s.ev.y = 4096 * j.order → (∀ n, s.ev.grant ≠ .waits n) →
    (j.data = none → c.st ≠ .saved → c.st ≠ .yielding → s.earlierMeets x.ctx j.order (c.footprint tm (jobFirst tm x) u 1) = false →
      c.grain from' = some g → g.kind = 0 → g.rd = true → g.covers from' 2048 = true →
      ∃ v, exec .jobUnit s = .next v ∧ (v.chan d ch).job = some { j with data := some (memRange s.host.mem (g.offset from') 2048) } ∧
        (s.wall, { i := .jobUnit, arg := { tile := d, x := ch, y := 4096 * j.order } }) ∈ v.agenda ∧ v.tiles = s.tiles ∧ v.ctxs = s.ctxs ∧ v.host = s.host) ∧
    (∀ bs, j.data = some bs → bs.length = 2048 → Memory.wf s.host.mem = true →
      c.grain to' = some h → h.kind = 0 → h.wr = true → h.covers to' 2048 = true →
      ∃ v, exec .jobUnit s = .next v ∧
        (∀ i < 2048, memGet v.host.mem (h.offset to' + i) = bs.getD i 0) ∧
        (∀ a, a < h.offset to' ∨ h.offset to' + 2048 ≤ a → memGet v.host.mem a = memGet s.host.mem a) ∧ Memory.wf v.host.mem = true ∧
        (v.chan d ch).job = some { j with units := j.units + 1, bytes := j.bytes + 2048, begun := none, data := none
                                          ended := if j.units + 1 = recBits tm 0 63 32 then some (1, 0) else none } ∧
        v.tiles = s.tiles ∧ v.ctxs = s.ctxs)

/-- R303, R304, R305, R306, R307, R308, R310: starts, jobs and units of a sluice. -/
def Obligations.SluiceJobs : Prop :=
  Sys2Proof.Claims.SluiceStarts ∧ Sys2Proof.Claims.CopyUnits

/-- R294, R297: the ops of a run that change its registers and its place alone, each a cycle of the queue engine after the one before: qd receives the sum, the difference, the logic or the shift of itself and X, a packet word or an
immediate; q0 stays zero; a test skips its ops; a loop of no runs skips its body; a NEED or a TOKADD is noted for the end. -/
def Sys2Proof.Claims.QueueProgramOps : Prop :=
  ∀ (s : State) (r : Run) (d a : BitVec 4) (i : BitVec 16), s.run? = some r →
    (∀ q : Run, (s.setRun q).run? = some { q with due := s.wall + s.opPeriod, waits := false } ∧ (s.setRun q).tiles = s.tiles ∧ (s.setRun q).ctxs = s.ctxs) ∧
    let x : Word := r.reg a + i.signExtend 64; let q := r.reg d; let sh := x.toNat % 64
    let sets := fun (op : Instr) (v : Word) => exec op s = .next (s.setRun ((if d = 0 then r else { r with regs := mapSet 0 r.regs d.toNat v }).goto (r.pc + 1)))
    let skips := fun (op : Instr) (n : Nat) => exec op s = .next (s.setRun (r.goto (r.pc + 1 + n)))
    sets (.ivAdd d a i) (q + x) ∧ sets (.ivSub d a i) (q - x) ∧ sets (.ivAnd d a i) (q &&& x) ∧ sets (.ivOr d a i) (q ||| x) ∧ sets (.ivXor d a i) (q ^^^ x) ∧
    sets (.ivShl d a i) (BitVec.ofNat 64 (q.toNat * 2 ^ sh)) ∧ sets (.ivShr d a i) (BitVec.ofNat 64 (q.toNat / 2 ^ sh)) ∧
    sets (.ivMovi d i) (i.signExtend 64) ∧ sets (.ivMovh d i) (BitVec.ofNat 64 (q.toNat * 2 ^ 16 + i.toNat)) ∧
    (∀ w : BitVec 3, sets (.ivLdp d w) (r.packet.getD w.toNat 0)) ∧
    skips (.ivBeq d a i) (if q = r.reg a then i.toNat else 0) ∧ skips (.ivBne d a i) (if q ≠ r.reg a then i.toNat else 0) ∧
    skips (.ivBltu d a i) (if q.toNat < (r.reg a).toNat then i.toNat else 0) ∧ skips (.ivJf i) i.toNat ∧
    (∀ len m : BitVec 8, let n := min ((r.reg a).toNat % 2 ^ 32) m.toNat
      (n = 0 → skips (.ivLoop a len m) len.toNat) ∧
      (0 < n → exec (.ivLoop a len m) s = .next (s.setRun { r with loops := (r.pc + 1, r.pc + 1 + len.toNat, n) :: r.loops, pc := r.pc + 1 }))) ∧
    (∀ link cnt : BitVec 8,
      exec (.ivNeed link cnt) s = .next (s.setRun (({ r with needs := r.needs ++ [(link.toNat, cnt.toNat)] } : Run).goto (r.pc + 1))) ∧
      exec (.ivTokadd link cnt) s = .next (s.setRun (({ r with tokens := r.tokens ++ [(link.toNat, cnt.toNat)] } : Run).goto (r.pc + 1)))) ∧
    (∀ pc, (∀ l ∈ r.loops, l.2.1 ≠ pc) → r.goto pc = { r with pc := pc }) ∧
    (∀ b e n rest, r.loops = (b, e, n) :: rest → (1 < n → r.goto e = { r with pc := b, loops := (b, e, n - 1) :: rest }) ∧
      (n = 1 → r.goto e = ({ r with loops := rest } : Run).goto e))

/-- R294, R297, R298, R299, R317: the ops that reach past the run: a window's word of host memory read or written at once, one of device memory behind the vault's agents while its run waits, a
fault outside the window; a job's start on its way; a launch that waits in its context, of a device that serves programs; the event latches of a rectangle; the end of a main program with its tokens, or with a drop; the end of a rank program with its entry,
after which the interpreter takes the next packet fetched. An access behind the vault's agents and the engine's clock are the model's choices (logs 82 and 85). -/
def Sys2Proof.Claims.QueueProgramEffects : Prop :=
  ∀ (s : State) (r : Run) (d a : BitVec 4) (win : BitVec 2) (o : BitVec 14), s.run? = some r →
    let q := s.queue r.queue; let c := s.ctx q.ctx; let byte := 8 * ((r.reg a).toNat % 2 ^ 32 + o.toNat); let at' := mapGet 0 q.wbase win.toNat + byte
    let moved := fun (u : State) => u.run? = some { r.goto (r.pc + 1) with due := s.wall + s.opPeriod, waits := false }
    let ranksNext := fun (u : State) => u.qe.rankRun = s.qe.fetched.head?.map (fun x => { x with due := s.wall + s.opPeriod }) ∧ u.qe.fetched = s.qe.fetched.tail
    (mapGet 0 q.wlen win.toNat < byte + 8 → RisingMap s.qe.queues → s.ev.grant = .fresh → ∃ u, exec (.ivLdw d a win o) s = .next u ∧ (u.queue r.queue).qfault = 1 ∧
      (u.queue r.queue).fpc = r.pc ∧ (s.qe.rankTurn = false → u.qe.mainRun = none) ∧ (s.qe.rankTurn = true → ranksNext u)) ∧
    (∀ g, s.ev.grant = .fresh → byte + 8 ≤ mapGet 0 q.wlen win.toNat → c.grain at' = some g → g.kind = 0 → g.covers at' 8 = true →
      (g.rd = true → exec (.ivLdw d a win o) s = .next (s.setRun
        ((if d = 0 then r else { r with regs := mapSet 0 r.regs d.toNat (BitVec.ofNat 64 (bytesNat (memRange s.host.mem (g.offset at') 8))) }).goto (r.pc + 1)))) ∧
      (g.wr = true → Memory.wf s.host.mem = true → ∃ u, exec (.ivStw d a win o) s = .next u ∧ moved u ∧
        memRange u.host.mem (g.offset at') 8 = natBytes 8 (r.reg d).toNat ∧
        (∀ b, b < g.offset at' ∨ g.offset at' + 8 ≤ b → memGet u.host.mem b = memGet s.host.mem b) ∧ u.tiles = s.tiles ∧ u.ctxs = s.ctxs)) ∧
    (∀ g, byte + 8 ≤ mapGet 0 q.wlen win.toNat → c.grain at' = some g → s.ev.grant = .fresh → vaultNeeds (c.grainTile g) (g.offset at') 8 true ≠ [] → 1 < g.kind → g.covers at' 8 = true →
      exec (.ivStw d a win o) s = .next ((s.putRun (some { r with waits := true })).ask 6 { i := .ivStw d a win o, arg := { x := if s.qe.rankTurn then 1 else 0 } }
        (vaultNeeds (c.grainTile g) (g.offset at') 8 true))) ∧
    (∀ (die : BitVec 3) (ch : BitVec 6), RisingMap s.dies →
      (inPartition c.die0 c.shape die.toNat = true → ∃ u, exec (.ivJob a die ch) s = .next u ∧ moved u ∧ u.host = s.host ∧
        (u.die die.toNat).arrivals = (s.die die.toNat).arrivals ++ [{ id := s.free, host := false, ch := ch.toNat, start := { ctx := q.ctx, data := r.reg a } }]) ∧
      (inPartition c.die0 c.shape die.toNat = false → ∃ u, exec (.ivJob a die ch) s = .next u ∧ moved u ∧ u.dies = s.dies ∧
        u.host.discarded = min (s.host.discarded + 1) (2 ^ 32 - 1))) ∧
    (s.sec.serves = false → exec (.ivLaunch a) s = .next (s.setRun (r.goto (r.pc + 1)))) ∧
    (let x := (r.reg a).toNat % 2 ^ 57; ∀ g, s.sec.serves = true → c.grain x = some g → g.kind = 0 → g.rd = true → g.covers x 64 = true → RisingMap s.ctxs →
      let w := fun (i : Nat) => bytesNat (memRange s.host.mem (g.offset x + 8 * i) 8)
      ∃ u, exec (.ivLaunch a) s = .next u ∧ moved u ∧ (u.ctx q.ctx).launches = c.launches ++ [{
        image := w 0 % 2 ^ 57, recAt := w 1 % 2 ^ 57, rect := w 2, wake := w 3 % 2 == 1, irq := w 3 / 2 % 2 == 1, rank := r.rank }]) ∧
    (∃ u, exec (.ivEvt a) s = .next u ∧ moved u ∧ u.qe = (s.setRun (r.goto (r.pc + 1))).qe ∧ u.host = s.host ∧ u.ctxs = s.ctxs ∧
      (RisingMap s.tiles → ∀ t n k, s.kernelOf t = some (n, k) →
        (u.tile t).regs = (s.tile t).regs ∧
        (t ∉ rectTiles (rectOf (r.reg a).toNat) → u.tile t = s.tile t) ∧
        (t ∈ rectTiles (rectOf (r.reg a).toNat) → (rectTiles (rectOf (r.reg a).toNat)).Nodup →
          u.tile t = { s.tile t with sync := { (s.tile t).sync with sets := (s.tile t).sync.sets ++ [{ tile := t, due := k.cycle + 1 }] } }))) ∧
    (s.qe.mainRun = some r →
      (∀ l n, r.tokens = [(l, n)] → RisingMap s.qe.tokens → (mapGet {} s.qe.tokens l).val = true →
        ∃ u, exec .ivDone s = .next u ∧ u.qe.mainRun = none ∧ (mapGet {} u.qe.tokens l).count = min 65535 ((mapGet {} s.qe.tokens l).count + n)) ∧
      (RisingMap s.qe.queues → ∃ u, exec .ivDrop s = .next u ∧ u.qe.mainRun = none ∧ u.qe.tokens = s.qe.tokens ∧
        (u.queue r.queue).drops = min (q.drops + 1) (2 ^ 32 - 1))) ∧
    (s.qe.rankRun = some r → q.en = true →
      ∃ u, exec (.ivRank a) s = .next u ∧ ranksNext u ∧ u.qe.pifo = s.qe.pifo ++ [{
        rank := (r.reg a).toNat % 2 ^ 32, arrival := r.arrival, queue := r.queue, packet := r.packet, needs := r.needs }])

/-- R294, R297, R298: the ops of a queue program. -/
def Obligations.QueuePrograms : Prop :=
  Sys2Proof.Claims.QueueProgramOps ∧ Sys2Proof.Claims.QueueProgramEffects

/-- R290, R291, R293, R295: what system software does with queues: a word of a descriptor is taken where its fields are lawful and its addresses stand in grains, what the hardware
writes is kept, and it is not taken where it would leave an enabled queue unfit for its programs; a queue that is given another fetch path is read on it; an enabled queue is read on its fetch path; a disabled one loses its waiting entries; an unsigned program that passes the checks takes its slot, one
that does not leaves the slot as it was. That enabling clears qfault and a write leaves en, and that a write of word 3 changes nothing, are the model's readings (logs 46 and 98). -/
def Sys2Proof.Claims.QueueService : Prop :=
  ∀ (s : State) (n : Nat), let q := s.queue n
    RisingMap s.qe.queues → n < 64 → s.sec.serves = true →
    (∀ (word : Nat) (v : Word), word < 16 → let x := v.toNat; let w := (word - 4) / 2; let base := 4 ≤ word ∧ word < 12 ∧ word % 2 = 0
      let q' : Queue :=
        if word = 0 then { q with rbase := x % 2 ^ 57, lsz := x / 2 ^ 57 % 2 ^ 4, dev := bitOf x 62 }
        else if word = 1 then { q with hseq := x % 2 ^ 32, drops := x / 2 ^ 32 % 2 ^ 32 }
        else if word = 2 then { q with prog := x % 2 ^ 6, rprog := x / 2 ^ 6 % 2 ^ 6, ctx := x / 2 ^ 12 % 2 ^ 8, nwin := x / 2 ^ 20 % 2 ^ 3 }
        else if base then { q with wbase := mapSet 0 q.wbase w (x % 2 ^ 57), wen := mapSet false q.wen w (bitOf x 63) }
        else if 4 ≤ word ∧ word < 12 then { q with wlen := mapSet 0 q.wlen w (x % 2 ^ 32) }
        else q
      (q'.lawful = false → exec (.queueServiceWrite (.descriptor n word v)) s = .next s) ∧
      (q'.lawful = true → s.queueAddrsOk q' false = true → (word = 0 ∨ base → s.queueAddr q'.ctx (x % 2 ^ 57) = true) → (s.setQueue n q').queuesReady = true →
        (q.en = false ∨ q.qfault ≠ 0 ∨ q'.dev = q.dev → exec (.queueServiceWrite (.descriptor n word v)) s = .next (s.setQueue n q')) ∧
        (q.en = true → q.qfault = 0 → q'.dev ≠ q.dev → ∃ u, exec (.queueServiceWrite (.descriptor n word v)) s = .next u ∧ u.queue n = q' ∧ (∀ m, m ≠ n → u.queue m = s.queue m) ∧
          (b2n q'.dev ∈ s.qe.polling ∨ (b2n q'.dev ∈ u.qe.polling ∧ (s.wall + 1, { i := .packetFetch, arg := { x := n, y := b2n q'.dev } }) ∈ u.agenda))))) ∧
    (q.lawful = true ↔ q.rbase % (64 * 2 ^ (q.lsz + 4)) = 0 ∧ q.nwin ≤ 4 ∧ ∀ w < 4, mapGet 0 q.wbase w % 8 = 0 ∧ mapGet 0 q.wlen w % 8 = 0) ∧
    (∀ word v, (s.setQueue n (q.write word v.toNat)).queuesReady = false → exec (.queueServiceWrite (.descriptor n word v)) s = .next s) ∧
    (∀ l v, l < 256 → (∀ m ∈ s.qe.queues, m.2.en = false) → ∃ u, exec (.queueServiceWrite (.tokenLink l v)) s = .next u ∧ (RisingMap s.qe.tokens → mapGet {} u.qe.tokens l =
      { prod := v.toNat % 2 ^ 6, cons := v.toNat / 2 ^ 6 % 2 ^ 6, val := bitOf v.toNat 12, err := bitOf v.toNat 13, count := v.toNat / 2 ^ 16 % 2 ^ 16 })) ∧
    (s.queueReady n q = true → (q.en = false ∨ q.qfault ≠ 0) → ∃ u, exec (.queueEnable n) s = .next u ∧ u.queue n = { q with en := true, qfault := 0, snap := none } ∧
      (b2n q.dev ∈ s.qe.polling ∨ (b2n q.dev ∈ u.qe.polling ∧ (s.wall + 1, { i := .packetFetch, arg := { x := n, y := b2n q.dev } }) ∈ u.agenda))) ∧
    (∃ u, exec (.queueDisable n) s = .next u ∧ u.queue n = { q with en := false } ∧ u.qe.pifo = s.qe.pifo.filter (fun e => e.queue != n) ∧
      (∀ m, m ≠ n → u.queue m = s.queue m)) ∧
    (∀ kind code, let ops := code.map decodeIvloha
      (code.length ≤ 1024 → 1 ≤ code.length → opsOk kind ops = true → nestOk ops = true → pathsOk kind ops = true →
        (∀ x ∈ s.namers n kind, s.codeSuits x.1 x.2 ops = true) →
        ∃ u, exec (.programInstall n kind code none) s = .next u ∧ u.program n = some { kind := kind, code := code } ∧
          (∀ m, m ≠ n → u.program m = s.program m) ∧ u.sec = s.sec) ∧
      (pathsOk kind ops = false ∨ nestOk ops = false → exec (.programInstall n kind code none) s = .next s))

/-- R21, R291, R293, R299, R300, R301, R368: a valid packet at the head of a ring of host memory goes to the rank interpreter, its slot is given back and the path goes on; of a PCIe-only
host it is read twice first; an invalid one leaves the ring as it stands; while 1,024 packets and entries wait none is read (log 46). A path goes on to the next queue above, or, after the last, to the
first: at once where its round has shown a valid slot, else within 2 µs; a queue that is not read is passed over. When the main
interpreter is free, of the entries whose tokens are there the one of least rank, the earliest among equals, takes its tokens and starts its main program, and the kernels that an eligible entry pre-empts are asked to yield. -/
def Sys2Proof.Claims.PacketsAndDispatch : Prop :=
  (∀ (s : State) (g : Grain), let n := s.ev.x; let q := s.queue n; let c := s.ctx q.ctx; let at' := q.rbase + 64 * (q.hseq % 2 ^ (q.lsz + 4))
    let back := q.rbase + 64 * 2 ^ (q.lsz + 4); let bytes := memRange s.host.mem (g.offset at') 64; let word := fun (i : Nat) => bytesNat ((bytes.drop (8 * i)).take 8)
    s.sec.serves = true → q.en = true → q.qfault = 0 → q.dev = false → s.ev.y = 0 → s.ev.grant = .fresh → RisingMap s.qe.queues → Memory.wf s.host.mem = true →
    c.grainKind q.rbase = some 0 → c.grain at' = some g → g.kind = 0 → g.rd = true → g.wr = true → g.covers at' 64 = true → c.grain back = some g → g.covers back 8 = true →
    let entries := s.qe.pifo.length + s.qe.fetched.length + if s.qe.rankRun = none then 0 else 1
    let valid := word 0 / 2 ^ 32 % 2 ^ 8 = 0xC7 ∧ word 0 % 2 ^ 32 = q.hseq ∧ word 7 % 2 ^ 32 = q.hseq
    let packet := (List.range 8).map (fun i => BitVec.ofNat 64 (word i))
    (1024 ≤ entries → exec .packetFetch s = .next (s.pollAt n 39)) ∧
    (entries < 1024 →
      (valid → (s.host.mode ≠ .pcie ∨ q.snap = some packet) → ∃ (v : State) (new : Run), exec .packetFetch s = .next ((v.pollAgain 0).pollNext 0 n) ∧
        new.queue = n ∧ new.pc = 0 ∧ new.packet = packet ∧ (new.reg 1).toNat = q.hseq ∧ new.needs = [] ∧ new.arrival = s.qe.arrival ∧
        (s.qe.rankRun = none → v.qe.rankRun = (s.qe.fetched ++ [new]).head?.map (fun r => { r with due := s.wall + s.opPeriod }) ∧ v.qe.fetched = (s.qe.fetched ++ [new]).tail) ∧
        (s.qe.rankRun ≠ none → v.qe.rankRun = s.qe.rankRun ∧ v.qe.fetched = s.qe.fetched ++ [new]) ∧
        v.queue n = { q with hseq := (q.hseq + 1) % 2 ^ 32, snap := none } ∧ memRange v.host.mem (g.offset back) 8 = natBytes 8 ((q.hseq + 1) % 2 ^ 32) ∧
        v.qe.pifo = s.qe.pifo ∧ v.tiles = s.tiles ∧ v.ctxs = s.ctxs ∧ v.agenda = s.agenda ∧ v.todo = s.todo) ∧
      (valid → s.host.mode = .pcie → q.snap = none → exec .packetFetch s = .next (((s.setQueue n { q with snap := some packet }).pollAgain 0).pollNext 0 n)) ∧
      (¬ valid ∨ (s.host.mode = .pcie ∧ ∃ x, q.snap = some x ∧ x ≠ packet) → exec .packetFetch s = .next ((s.setQueue n { q with snap := none }).pollNext 0 n)))) ∧
  (∀ (s : State) (path n : Nat),
    (s.ev.x = n → s.ev.y = path → s.ev.grant = .fresh → s.asks = [] → n ∉ s.polled path → exec .packetFetch s = .next (s.pollNext path n)) ∧
    (∀ id, s.ev.grant = .waits id → (∀ a ∈ s.asks, a.id ≠ id) → exec .packetFetch s = .next s) ∧
    (∀ m, m ∈ s.polled path ↔ s.sec.serves = true ∧ ∃ q, (m, q) ∈ s.qe.queues ∧ q.en = true ∧ q.qfault = 0 ∧ b2n q.dev = path) ∧
    path ∈ (s.pollAgain path).qe.again ∧ (s.pollAgain path).polled path = s.polled path ∧
    (∀ m rest, (s.polled path).filter (fun m => decide (n < m)) = m :: rest → s.pollNext path n = s.push [{ i := .packetFetch, arg := { x := m, y := path } }]) ∧
    (∀ m rest, (s.polled path).filter (fun m => decide (n < m)) = [] → s.polled path = m :: rest →
      (path ∈ s.qe.again → s.pollNext path n = ({ s with qe := { s.qe with again := s.qe.again.erase path } } : State).pollAt m 1) ∧
      (path ∉ s.qe.again → ∃ w, w ≤ 2000 * 39 ∧ s.pollNext path n = (s.pollAt m w).tickFree)) ∧
    (s.polled path = [] → s.pollNext path n = { s with qe := { s.qe with polling := s.qe.polling.erase path } })) ∧
  ∀ (s : State) (e : Entry), s.qe.mainRun = none → e ∈ s.qe.pifo → s.eligible e = true →
    (∀ f ∈ s.qe.pifo, s.eligible f = true → f ≠ e → e.rank < f.rank ∨ (e.rank = f.rank ∧ e.arrival < f.arrival)) →
    (s.eligible e = true ↔ ∀ l, (∃ n, (l, n) ∈ e.needs) → ((e.needs.filter fun y => y.1 == l).map Prod.snd).sum ≤ (mapGet {} s.qe.tokens l).count) ∧
    ∃ u r, exec .packetDispatch s = .next u ∧ u.qe.mainRun = some r ∧ r.queue = e.queue ∧ r.packet = e.packet ∧ r.pc = 0 ∧ r.rank = e.rank ∧
      r.due = s.wall + s.opPeriod ∧ u.todo = s.preempted.map (fun k => ({ i := .preemptionRequest k } : Due)) ++ s.todo ∧ u.qe.pifo = s.qe.pifo.erase e ∧ u.tiles = s.tiles ∧
      (RisingMap s.qe.tokens → ∀ l, (mapGet {} u.qe.tokens l).count =
        (mapGet {} s.qe.tokens l).count - ((e.needs.filter fun y => y.1 == l).map Prod.snd).sum)

/-- R290, R291, R293, R295, R299, R300, R301, R368: queue service, packets and dispatch. -/
def Obligations.QueueEngine : Prop :=
  Sys2Proof.Claims.QueueService ∧ Sys2Proof.Claims.PacketsAndDispatch

/-- R316, R317, R318, R356: a launch of a loaded context with no kernel is taken: an image that passes every check is a loaded kernel, which waits to be bound; one that fails a check gives
the record of a failed launch with that reason and no effect else; a gang's member sends its link table once, and its load waits while another member's table is missing and nothing but check 9 can
be at fault (log 81). -/
def Sys2Proof.Claims.Loading : Prop :=
  ∀ (s : State) (l : Launch) (rest : List Launch), let c := s.ev.x; let x := s.ctx c; let gang := bitOf (x.descWord 8) 43
    x.launches = l :: rest → x.loaded = none → x.st = .loaded → s.hasKernel c = false → RisingMap s.ctxs → RisingMap s.links →
    (let r := s.readImage c l.image; let tables := s.peerTables c
      let failed := fun (u : State) (f : Nat × Nat) => let v := (u.setCtx c { u.ctx c with launches := rest }).launchFailed c l f.1 f.2
        exec .kernelLoad s = .next (if rest = [] then v else v.loaderSoon .kernelLoad c)
      let used := if gang then r.1.setDie x.die0 { r.1.die x.die0 with peers := [] } else r.1
      (gang = false → tables.isSome = true) ∧
      (r.2 = none → failed r.1 (1, 0)) ∧
      ∀ img dir, r.2 = some (img, dir) → let fault := r.1.imageFault c img dir tables
        (∀ f peers, tables = some peers → fault = some f → failed used f) ∧
        (∀ f, tables = none → fault = some f → (f.1 = 6 → f.2 < 9) → failed r.1 f) ∧
        (tables = none → (fault = none ∨ ∃ d, 9 ≤ d ∧ fault = some (6, d)) → ∃ u w, exec .kernelLoad s = .next u ∧ (u.ctx c).launches = { l with tabled := true } :: rest ∧
          s.wall < w ∧ (w, { i := .kernelLoad, arg := { x := c } }) ∈ u.agenda ∧ u.host = r.1.host ∧ u.tiles = r.1.tiles ∧
          (u.link (4 * x.die0)).reserved = (r.1.link (4 * x.die0)).reserved ++
            if l.tabled then [] else [(s.ltime, .table (x.descWord 8 % 2 ^ 16) (x.descWord 8 / 2 ^ 16 % 2 ^ 13) (imageInfo img l.image).links)]) ∧
        (∀ peers, tables = some peers → fault = none →
          let k : Kernel := { ctx := c, die0 := x.die0, shape := x.shape, st := .loaded, img := imageInfo img l.image, image := img, launch := l, peers := peers }
          ∃ u, exec .kernelLoad s = .next u ∧ u.ctx c = { r.1.ctx c with launches := rest, loaded := some k } ∧
            (∃ w, (w, { i := .kernelBind, arg := { x := c } }) ∈ u.agenda) ∧ u.host = r.1.host ∧ u.tiles = r.1.tiles)) ∧
    (∀ g, x.grain l.image = some g → g.rd = false → l.recAt % 64 = 0 → s.queueAddr c l.recAt = true → rest = [] →
      ∀ h, x.grain l.recAt = some h → h.kind = 0 → h.wr = true → h.covers l.recAt 64 = true → l.wake = false → Memory.wf s.host.mem = true →
      ∃ u, exec .kernelLoad s = .next u ∧ (u.ctx c).launches = [] ∧ (u.ctx c).loaded = none ∧
        memRange u.host.mem (h.offset l.recAt) 64 = natBytes 8 6 ++ natBytes 8 (2 ^ 32) ++ List.replicate 48 0) ∧
    (∀ img dir peers, headerOk img dir = false → s.imageFault c img dir peers = some (1, 0)) ∧
    (∀ img dir peers, headerOk img dir = true → le img 8 16 / 2 ^ 12 ≠ 0 → s.imageFault c img dir peers = some (2, 0)) ∧
    (∀ img dir peers, headerOk img dir = true → le img 8 16 / 2 ^ 12 = 0 → (4 ≤ le img 7 1 ∨ le img 7 1 ≠ x.shape) → s.imageFault c img dir peers = some (3, 0)) ∧
    (∀ img dir peers, headerOk img dir = true → le img 8 16 / 2 ^ 12 = 0 → le img 7 1 < 4 → le img 7 1 = x.shape →
      (bitOf (le img 6 1) 1 = true → c ≠ 0 → s.imageFault c img dir peers = some (4, 0)) ∧
      ((bitOf (le img 6 1) 1 = true → c = 0) → bitOf (le img 6 1) 0 = false → (le img 0x1C 2 ≠ 1 → s.imageFault c img dir peers = some (5, 0)) ∧
        (le img 0x1C 2 = 1 → (le img 0x18 1 = 0 ∨ 32 < le img 0x18 1) → s.imageFault c img dir peers = some (6, 1))))

/-- R179, R225, R316, R318, R319, R320, R329, R345, R346: a loaded kernel is bound to the partition of its context when that is idle, its object list installed, and waits while none is; one
whose pins stand is then launched: its tiles are ready, with idle banks, nothing in flight and what the image gives them; at the start of its timetable every one of them runs, and tstart is the time
of that; a gang's member then sends its entry flit and holds until its slice may start, and one whose slice was aborted before ends with an abort flit. The reserved channel is the model's choice
(log 81). -/
def Sys2Proof.Claims.BindingAndStart : Prop :=
  (∀ (s : State) (k : Kernel), let c := s.ev.x; let x := s.ctx c
    s.boundOf c = none → x.loaded = some k → x.st = .loaded → s.hasKernel c = false → RisingMap s.ctxs → RisingMap s.tiles →
    ((∀ d ∈ x.die0 :: x.places, s.partitionIdle d x.shape = false) → exec .kernelBind s = .next s) ∧
    (s.partitionIdle x.die0 x.shape = true →
      (x.canInstall (objectList k.image) = false → exec .kernelBind s = .next (((s.setCtx c x).launchFailed c k.launch 7 0).launchOver c)) ∧
      (objectList k.image = [] → ∃ u k', exec .kernelBind s = .next u ∧ u.kernel? x.die0 = some k' ∧ k'.st = .bound ∧
          k'.ctx = k.ctx ∧ k'.launch = k.launch ∧ k'.image = k.image ∧ k'.die0 = x.die0 ∧ (u.ctx c).loaded = none ∧ u.host = s.host ∧ u.dies = s.dies ∧
          (∃ w, (w, { i := .kernelBind, arg := { x := c } }) ∈ u.agenda) ∧ (∀ t, (u.tile t).flow = (s.tile t).flow ∧ (u.tile t).regs = (s.tile t).regs) ∧
          ∀ t, t ∉ partTiles x.die0 k.shape → u.tile t = s.tile t))) ∧
  (∀ (s : State) (n : Nat) (k : Kernel), let c := s.ev.x
    s.boundOf c = some (n, k) → (imageDir k.image).length = (partTiles k.die0 k.shape).length → (partTiles k.die0 k.shape).Nodup →
    let q := s.allPins c ((partTiles k.die0 k.shape).zip ((imageDir k.image).map fun e => tileSection k.image e k.img.vmask k.img.nrpl))
    RisingMap q.1.tiles → RisingMap q.1.ctxs →
    match badPin q.2 with
    | some p => exec .kernelBind s = .next (((q.1.launchFailed c k.launch 8 p).leavePartition n).launchOver c)
    | none => ∃ u, exec .kernelBind s = .next u ∧ u.kernel? n = some { k with st := .launched, image := [], begun := (q.1.ctx c).begun } ∧ (u.ctx c).st = .running ∧
      (∃ w, (w, { i := .timetableStart, arg := { x := n } }) ∈ u.agenda) ∧
      ∀ t ∈ partTiles k.die0 k.shape, let y := u.tile t
        y.flow.st = .ready ∧ y.flow.pc = {} ∧ y.flow.loops = [] ∧ y.flight = [] ∧ y.matrix = {} ∧ y.sync = {} ∧ y.perf = {} ∧ y.vault.streams = [] ∧
        y.vault.pages = (q.1.tile t).vault.pages ∧ ∀ b < 128, (y.vault.bank b).st = .idle ∧ (y.vault.bank b).deadline = (vparams false 0).tREFB) ∧
  ∀ (s : State) (k : Kernel), let n := s.ev.x; let d := (s.ctx k.ctx).descWord 8
    s.kernel? n = some k → k.st = .launched → RisingMap s.tiles → k.tiles.Nodup →
    ((s.ctx k.ctx).aborted = false → bitOf d 43 = false →
      ∃ u calls, exec .timetableStart s = .next u ∧
        u.kernel? n = some { k with st := .running, nextWall := s.wall, phase := 0, tstart := if k.restored then k.tstart else s.wall / 39, callFrom := calls } ∧
        (∀ t ∈ k.tiles, (s.tile t).flow.st = .ready → u.tile t = { s.tile t with flow := { (s.tile t).flow with st := .running } }) ∧
        (∀ t, t ∉ k.tiles → u.tile t = s.tile t) ∧ u.host = s.host ∧ u.dies = s.dies) ∧
    ((s.ctx k.ctx).aborted = false → bitOf d 43 = true → k.holdFrom = none → RisingMap s.links → ∃ u k' start, exec .timetableStart s = .next u ∧ u.kernel? n = some k' ∧
      k'.st = .held ∧ k'.holds = 1 :: k.holds ∧ k'.slice = some start ∧
      (u.link (4 * k.die0)).reserved = (s.link (4 * k.die0)).reserved ++ [(s.ltime, .entry (d % 2 ^ 16) (d / 2 ^ 16 % 2 ^ 13))] ∧
      ∃ w, (w, { i := .sliceStartTimeReached, arg := { x := n } }) ∈ u.agenda) ∧
    ((s.ctx k.ctx).aborted = true → k.ending = none → ∃ u k', exec .timetableStart s = .next u ∧ u.kernel? n = some k' ∧ k'.st = .faulted ∧ k'.ending = some 4 ∧
      (bitOf d 43 = true → RisingMap s.ctxs → RisingMap s.links → let l := 4 * (s.ctx k.ctx).die0
        (u.link l).reserved = (s.link l).reserved ++ [(s.ltime, .abort (d % 2 ^ 16) (d / 2 ^ 16 % 2 ^ 13))]))

/-- R27, R28, R29, R30, R178, R321, R322: a replan point at which a tile stands in a stop is cancelled (log 88); at any other a restored loop is taken back and the hottest layer of the partition selects the variant; where it is the one in use the kernel goes on, and otherwise the
partition holds until it has switched; without the variant that a lost loop needs, after 10 ms of waiting for one, or above the layer limit, the kernel ends for thermal overrun. The limit of variant 3 is read from that of the
highest variant (log 55). -/
def Sys2Proof.Claims.ReplanAndThermal : Prop :=
  (∀ (s : State) (k : Kernel), let n := s.ev.x; let sel := s.health.takeBack.select k.die0 k.shape k.variant
    s.kernel? n = some k → k.ending = none → RisingMap s.kernels →
    let due := k.replanAt = none ∨ ∀ t ∈ s.tilesOf k, t.2.flow.st = .running ∨ t.2.flow.st = .halted
    let overruns := fun (i : Instr) => ∃ u k', exec i s = .next u ∧ u.kernel? n = some k' ∧ k'.st = .faulted ∧ k'.ending = some 3 ∧ k'.holds = 9 :: k.holds
    (s.ev.y = 0 → ¬ due → exec .replanSwitch s = .next (s.setKernel n { k with replanAt := none })) ∧
    (s.ev.y = 0 → due → bitOf k.img.vmask sel = true → sel = k.variant → ∃ u, exec .replanSwitch s = .next u ∧ u.kernel? n = some { k with replanAt := none, callFrom := [] } ∧
      u.health = s.health.takeBack ∧ u.tiles = s.tiles ∧ u.host = s.host ∧ u.ctxs = s.ctxs) ∧
    (s.ev.y = 0 → due → bitOf k.img.vmask sel = true → sel ≠ k.variant → ∃ u k', exec .replanSwitch s = .next u ∧ u.kernel? n = some k' ∧ k'.st = .replanning ∧
      k'.holds = 6 :: k.holds ∧ k'.cycle = k.cycle ∧ ∃ w, (w, { i := .replanSwitch, arg := { tile := sel, x := n, y := 1 } }) ∈ u.agenda) ∧
    (s.ev.y = 0 → due → bitOf k.img.vmask 3 = false → sel = 3 → overruns .replanSwitch) ∧
    (s.ev.y = 1 → k.st = .replanning → k.holds = [6] → s.ev.tile < 4 → ∃ u k', exec .replanSwitch s = .next u ∧ u.kernel? n = some k' ∧ k'.variant = s.ev.tile ∧
      k'.slow = (s.ev.tile == 3) ∧ k'.holds = [] ∧ k'.cycle = k.cycle ∧ u.todo.head? = some { i := .holdRelease, arg := { x := n } }) ∧
    ((s.ev.tile, s.ev.y) ∈ k.callFrom → overruns .variantWaitTimeout) ∧ ((s.ev.tile, s.ev.y) ∉ k.callFrom → exec .variantWaitTimeout s = .next s) ∧
    (let limit : Int := if k.variant = 0 then 720 else if k.variant = 1 then 800 else 880; let hot := s.health.hottest k.die0 k.shape
      (limit < hot → overruns .layerLimitExceeded) ∧ (hot ≤ limit → exec .layerLimitExceeded s = .next s))) ∧
  (∀ (h : Health) (die0 shape used : Nat), let t := h.hottest die0 shape; h.upper.lost = none → h.lower.lost = none →
    h.select die0 shape used = if 760 < t ∨ (used = 2 ∧ 720 < t) then 2 else if 680 < t ∨ ((used = 1 ∨ used = 2) ∧ 640 < t) then 1 else 0) ∧
  ∀ (h : Health) (die0 shape used : Nat), (h.upper.lost ≠ none ∨ h.lower.lost ≠ none) → h.select die0 shape used = 3

/-- R325, R326, R327, R328, R331: a kernel that has come to its end writes its record as R327 lays it out, in which it is completed or faulted, and then its context is loaded again, or
faulted, and its partition free; one that ends faulted closes its partition first. The interrupt's number is the context's (log 47). -/
def Sys2Proof.Claims.Completion : Prop :=
  ∀ (s : State) (k : Kernel) (g : Grain), let n := s.ev.x; let c := s.ctx k.ctx; let l := k.launch; let st := k.ending.getD 1
    s.kernel? n = some k → RisingMap s.kernels → RisingMap s.ctxs → Memory.wf s.host.mem = true → st < 16 →
    (s.ev.y = 0 → (∀ t ∈ k.tiles, (s.tile t).vault.retries = [] ∧ (s.tile t).sync.decs = [] ∧ (k.closed = true → (s.tile t).vault.streams = [])) →
      c.grain l.recAt = some g → g.kind = 0 → g.wr = true → g.covers l.recAt 64 = true → l.recAt % 64 = 0 → l.wake = false →
      ∃ u w, exec .kernelComplete s = .next u ∧ u.kernel? n = some { k with st := if st = 1 then .completed else .faulted } ∧ u.ctxs = s.ctxs ∧
        u.todo = ({ i := .kernelComplete, arg := { x := n, y := 2 } } : Due) :: s.todo ∧
        memRange u.host.mem (g.offset l.recAt) 64 = natBytes 8 w ++ (memRange u.host.mem (g.offset l.recAt) 64).drop 8 ∧
        w % 2 ^ 4 = st ∧ (k.variant < 4 → w / 2 ^ 4 % 4 = k.variant) ∧
        (k.first = none → memRange u.host.mem (g.offset l.recAt) 64 = natBytes 8 (st + k.variant * 2 ^ 4 + k.nflt * 2 ^ 32) ++ natBytes 8 0 ++ natBytes 8 (k.tstart % 2 ^ 64) ++
          natBytes 8 (k.tend % 2 ^ 64) ++ natBytes 8 k.holdSum ++ natBytes 8 (k.tcyc % 2 ^ 48) ++
          natBytes 8 (k.lyield.getD (2 ^ 48 - 1) % 2 ^ 48 + min k.nhold 65535 * 2 ^ 48) ++ natBytes 8 k.thash.toNat) ∧
        u.host.irqs = (if l.irq then s.host.irqs ++ [k.ctx] else s.host.irqs)) ∧
    (s.ev.y = 2 → c.launches = [] → st = 4 → k.restored = false → ∃ u, exec .kernelComplete s = .next u ∧ u.kernel? n = none ∧ u.host = s.host ∧
      (c.st ≠ .destroyed → (u.ctx k.ctx).st = .loaded ∧ (u.ctx k.ctx).kernel = none)) ∧
    (s.ev.y = 2 → c.launches = [] → st ≠ 4 → ∃ u, exec .kernelComplete s = .next u ∧ u.kernel? n = none ∧ u.host = s.host ∧ (u.ctx k.ctx).kernel = none ∧
      (u.ctx k.ctx).st = (if c.st = .destroyed then .destroyed else if st = 1 then .loaded else .faulted)) ∧
    (s.ev.y = 1 → k.closed = false → ∃ u k', exec .kernelComplete s = .next u ∧ u.kernel? n = some k' ∧ k'.closed = true ∧ k'.holds = [] ∧ k'.tend = s.wall / 39 ∧
      k'.tcyc = k.cycle ∧ u.todo.getLast? = (s.todo.getLast?.or (some { i := .kernelComplete, arg := { x := n } })))

/-- R27, R28, R29, R30, R178, R179, R225, R316, R317, R318, R319, R320, R322, R325, R326, R327, R328, R331: a kernel is loaded, bound, started, replanned and completed. -/
def Obligations.KernelLife : Prop :=
  Sys2Proof.Claims.Loading ∧ Sys2Proof.Claims.BindingAndStart ∧ Sys2Proof.Claims.ReplanAndThermal ∧ Sys2Proof.Claims.Completion

/-- R215, R329, R330, R331, R332: a descriptor that R330 refuses, or one whose number, queues or save area another context holds, creates no context; an accepted one is assigned with
its grains, and a tenant's with its keys; one for a context that has a descriptor changes it (log 20), and its tables are read anew where they were installed; installed tables make an assigned context loaded, the first of
them the host's (log 48); a faulted context is loaded again when its fault is acknowledged; the system context, which the loader assigns without a descriptor (log 53), is never destroyed, one that
yields is destroyed when its save completes, any other at once, a saved kernel with a record of status 5; a wiped number is free, its keys with it. -/
def Sys2Proof.Claims.ContextLife : Prop :=
  ∀ (s : State) (n : Nat), let c := s.ctx n
    RisingMap s.ctxs →
    (∀ desc, let d : Context := { st := .assigned, desc := desc }; let m := (desc.getD 0 0).toNat % 2 ^ 8; let old := s.ctx m
      let e := old.described desc false (old.loaded.isSome || s.hasKernel m)
      let vacant := old.st = .free ∨ (m = 0 ∧ old.st = .assigned ∧ old.desc = []); let changes := old.desc ≠ [] ∧ old.st ≠ .free ∧ old.st ≠ .destroyed
      let suits := fun (gs : List (List Word)) (f : Context) => grainsOk gs = true ∧ f.grainTableIn = true ∧ f.tableIn (recBits f.desc 1 56 0) (128 * f.objLen) = true ∧
        f.tableIn (recBits f.desc 5 56 0) 16384 = true ∧ f.tableIn (recBits f.desc 6 56 0) 512 = true
      (descOk desc = false ∨ s.sec.serves = false ∨ (¬ vacant ∧ ¬ changes) → exec (.contextCreate desc) s = .next s) ∧
      (vacant → s.saveOk d = false ∨ s.reservable m d = false → exec (.contextCreate desc) s = .next s) ∧
      (¬ vacant → s.saveOk e = false ∨ s.reservable m e = false → exec (.contextCreate desc) s = .next s) ∧
      (∀ v gs, descOk desc = true → s.sec.serves = true → vacant → s.saveOk d = true → s.reservable m d = true → s.readGrains d = (v, gs) →
        suits gs { d with grains := gs } → RisingMap v.ctxs →
        ∃ u, exec (.contextCreate desc) s = .next u ∧ u.ctx m = { d with grains := gs } ∧ u.tiles = v.tiles ∧
          (m = 0 → u.sec = v.sec) ∧ (m ≠ 0 → (mapFind u.sec.keys m).isSome = true)) ∧
      (∀ v gs, descOk desc = true → s.sec.serves = true → ¬ vacant → changes → s.saveOk e = true → s.reservable m e = true → s.readGrains e = (v, gs) →
        suits gs { e with grains := gs } → let u := v.setCtx m { e with grains := gs }
        exec (.contextCreate desc) s = .next (if old.st = .assigned then u else u.placeTables m))) ∧
    (∀ (old : Context) desc kernel, let e := old.described desc false kernel
      { e with desc := old.desc, places := old.places } = old ∧ (kernel = false → e.desc = desc) ∧
      (kernel = true → 8 ≤ desc.length → e.shape = old.shape ∧ e.die0 = old.die0 ∧ e.saveAt = old.saveAt ∧ ∀ i, i ≠ 0 → i ≠ 7 → e.descWord i = (desc.getD i 0).toNat) ∧
      ∀ d, d ∈ e.homes ↔ d = e.die0 ∨ (e.shape = old.shape ∧ d ∈ old.homes)) ∧
    (c.st ≠ .assigned ∨ s.sec.serves = false → exec (.contextTableInstall n) s = .next s) ∧
    (∀ v gs v1 temps v2 rings v3 objs, s.sec.serves = true → c.st = .assigned → c.desc ≠ [] → s.readGrains c = (v, gs) → grainsOk gs = true →
      (v.setCtx n { c with grains := gs }).readTable n (recBits c.desc 5 56 0) 64 256 = (v1, temps) → v1.readTable n (recBits c.desc 6 56 0) 32 16 = (v2, rings) →
      v2.readTable n (recBits c.desc 1 56 0) 128 c.objLen = (v3, objs) →
      ∃ u, exec (.contextTableInstall n) s = .next u ∧ u.host.ctx = some (v3.host.ctx.getD n) ∧
        u.ctx n = { v3.ctx n with st := .loaded, temps := numbered [] temps, rings := numbered {} (rings.map ringOf), objs := numbered [] objs }) ∧
    (s.sec.serves = true → c.st = .faulted → c.launches = [] → exec (.faultAcknowledge n) s = .next (s.setCtx n { c with st := .loaded })) ∧
    (c.st ≠ .faulted ∨ s.sec.serves = false → exec (.faultAcknowledge n) s = .next s) ∧
    exec (.contextDestroy 0) s = .next s ∧ (s.sec.serves = false → exec (.contextDestroy n) s = .next s) ∧
    (s.sec.serves = true → n ≠ 0 → c.st = .yielding → exec (.contextDestroy n) s = .next (s.setCtx n { c with doomed := true })) ∧
    (s.sec.serves = true → n ≠ 0 → c.st ≠ .yielding → c.st ≠ .free → c.st ≠ .destroyed → ∃ u, exec (.contextDestroy n) s = .next u ∧ (u.ctx n).st = .destroyed ∧
      (u.ctx n).kernel = none ∧ (u.ctx n).launches = [] ∧ (u.ctx n).loaded = none ∧
      (∀ m k, u.kernel? m = some k → k.ctx = n → RisingMap s.kernels → k.ending.isSome = true) ∧ ∃ w, (w, { i := .contextWipeComplete, arg := { x := n } }) ∈ u.agenda) ∧
    (∀ k g, s.sec.serves = true → n ≠ 0 → c.st = .saved → c.kernel = some k → c.loaded = none → c.launches = [] → s.boundOf n = none → Memory.wf s.host.mem = true →
      c.grain k.launch.recAt = some g → g.kind = 0 → g.wr = true → g.covers k.launch.recAt 64 = true → k.launch.recAt % 64 = 0 →
      ∃ u, exec (.contextDestroy n) s = .next u ∧ ∃ w, w % 2 ^ 4 = 5 ∧ memRange u.host.mem (g.offset k.launch.recAt) 8 = natBytes 8 w) ∧
    (s.ev.x = n → c.st = .destroyed → s.hasKernel n = false → s.hasStarts n = false →
      ∃ u, exec .contextWipeComplete s = .next u ∧ u.ctx n = {} ∧ u.host.mem = s.host.mem ∧ (RisingMap s.sec.keys → mapFind u.sec.keys n = none ∧
        ∀ m, m ≠ n → mapFind u.sec.keys m = mapFind s.sec.keys m))

/-- R333 to R339: a request stands at the cycle that its kernel has reached; at the yield point every running tile yields, unless a tile stands in a stop there; the agents and the
jobs then finish what they are at, the banks become idle, and the save areas are written; when that is done the partition is free and the kernel is kept in its context; a restore
puts a kernel back at its yield point on an idle partition of its shape that holds the copies of what it had. That a request put off stands on is the model's choice (log 84). -/
def Sys2Proof.Claims.YieldSaveRestore : Prop :=
  (∀ (s : State) (n : Nat) (k : Kernel), s.kernel? n = some k → RisingMap s.kernels → RisingMap s.ctxs → RisingMap s.tiles →
    (s.sec.serves = true → k.request = none → (k.st = .running ∨ k.st = .held ∨ k.st = .replanning) →
      exec (.preemptionRequest n) s = .next (s.setKernel n { k with request := some k.cycle })) ∧
    (k.request.isSome = true ∨ s.sec.serves = false → exec (.preemptionRequest n) s = .next s) ∧
    (∀ y c, s.ev.x = n → k.yieldAt = some (y, c) → k.st = .running → k.ending = none → let all := (s.tilesOf k).all fun t => t.2.flow.st == .running || t.2.flow.st == .halted
      (k.cycle = y → all = true → ∃ u, exec .yieldStop s = .next u ∧ u.kernel? n = some { k with saving := true, request := none, tend := s.wall / 39, tcyc := y } ∧ (u.ctx k.ctx).st = .yielding ∧
        (∀ t ∈ k.tiles, u.tile t = if (s.tile t).flow.st = .running then { s.tile t with flow := { (s.tile t).flow with st := .yielded } } else s.tile t) ∧
        ∃ w, w ≤ s.wall + 39 * 4000 ∧ (w, { i := .contextSaveComplete, arg := { x := n } }) ∈ u.agenda) ∧
      (k.cycle ≠ y ∨ all = false → exec .yieldStop s = .next (s.setKernel n { k with yieldAt := none, agreed := none, request := some (k.request.getD c) }))) ∧
    (∀ y c, s.ev.x = n → k.yieldAt = some (y, c) → k.saving = true →
      (s.ev.y = 0 → s.asks = [] → s.midUnit k.ctx = true → exec .contextSaveComplete s =
        .next { s with agenda := insertDated (s.wall + 1) { i := .contextSaveComplete, arg := { x := n } } s.agenda }) ∧
      (s.ev.y = 0 → s.asks = [] → s.midUnit k.ctx = false → 0 < k.period → ∃ u, exec .contextSaveComplete s = .next u ∧ u.kernel? n = some k ∧
        (∀ t ∈ k.tiles, (u.tile t).staging = (s.tile t).staging ∧ (u.tile t).regs = (s.tile t).regs ∧ (u.tile t).vault.pages = (s.tile t).vault.pages ∧
          ∀ e ∈ (u.tile t).vault.banks, e.2.st = .idle ∧ e.2.lend = 0) ∧
        ∃ w, w ≤ s.wall + 1400 * k.period ∧ (w, { i := .contextSaveComplete, arg := { x := n, y := 1 } }) ∈ u.agenda) ∧
      (s.ev.y = 1 → (s.ctx k.ctx).doomed = false → ∃ u, exec .contextSaveComplete s = .next u ∧ u.kernel? n = none ∧ (u.ctx k.ctx).st = .saved ∧
        (u.ctx k.ctx).kernel = some { k with st := .yielded, lyield := some c, yieldAt := none, cycle := y, saving := false, agreed := none } ∧
        ∀ t ∈ k.tiles, ((s.tile t).flow.handler = false → (u.tile t).flight = []) ∧ (u.tile t).sync.sends = []) ∧
      (s.ev.y = 1 → (s.ctx k.ctx).doomed = true → ∃ u, exec .contextSaveComplete s = .next u ∧ u.kernel? n = none ∧ (u.ctx k.ctx).st = .destroyed))) ∧
  ∀ (s : State) (m d : Nat) (k : Kernel),
    let c := s.ctx m; let c' := if d = c.die0 then c else c.movedTo d
    (c.st ≠ .saved ∨ c.kernel = none ∨ s.sec.serves = false → exec (.restore m d) s = .next s) ∧
    (s.sec.serves = true → c.st = .saved → c.kernel = some k → d % shapeDies c.shape = 0 → d + shapeDies c.shape ≤ 8 → s.partitionIdle d c.shape = true →
    (d ≠ c.die0 → s.copied c d = false → exec (.restore m d) s = .next s) ∧
    (d = c.die0 ∨ s.copied c d = true → c.aborted = false →
      let v := (s.setCtx m c').readSaves c' (List.range (256 * shapeDies c.shape)); let w := v.1.readImage m k.launch.image
      match v.2 with
      | none => exec (.restore m d) s = .next (v.1.updCtx m fun x => { x with desc := c.desc, places := c.places })
      | some saves => match w.2 with
        | none => exec (.restore m d) s = .next (w.1.updCtx m fun x => { x with desc := c.desc, places := c.places })
        | some _ => ∃ u k', exec (.restore m d) s = .next u ∧ u.kernel? d = some k' ∧ k'.st = .launched ∧ k'.restored = true ∧ k'.die0 = d ∧ k'.ctx = k.ctx ∧
          k'.cycle = le (saves.headD []) 0x52308 8 % 2 ^ 48 ∧ k'.variant = le (saves.headD []) 0x52308 8 / 2 ^ 48 % 4 ∧ k'.thash = k.thash ∧ k'.tstart = k.tstart ∧
          (RisingMap w.1.ctxs → (u.ctx m).st = .running) ∧ ∃ t, (t, { i := .timetableStart, arg := { x := d } }) ∈ u.agenda))

/-- R345, R346: a gang slice: the hold before it ends when its link time has come and every other member's entry flit is there; 500 µs after its start time a slice still awaited
is aborted, as an abort flit aborts it, with status 4, and the member sends its own abort flit; a member launched and not yet started will not start, and a saved one is not restored for that slice;
a flit of a link that is down does not come. The link of these flits is the model's choice (log 81). -/
def Sys2Proof.Claims.GangSlices : Prop :=
  (∀ (s : State) (n : Nat) (k : Kernel), let c := s.ctx k.ctx; let size := (c.descWord 8) / 2 ^ 29 % 2 ^ 14; let rank := (c.descWord 8) / 2 ^ 16 % 2 ^ 13
    s.kernel? n = some k → k.ending = none → bitOf (c.descWord 8) 43 = true → RisingMap s.ctxs → RisingMap s.links → s.kernels.find? (fun e => e.2.ctx == k.ctx) = some (n, k) →
    let up := (s.link (4 * c.die0)).down = false
    let goes := fun (u : State) (k' : Kernel) => u.kernel? n = some k' ∧ k'.slice = none ∧ k'.holds = k.holds.erase 1 ∧ (u.ctx k.ctx).entries = []
    let ends := fun (u : State) => u.kernel? n = some { k with st := .faulted, ending := some 4, slice := none } ∧ (u.ctx k.ctx).entries = [] ∧
      (u.link (4 * c.die0)).reserved = (s.link (4 * c.die0)).reserved ++ [(s.ltime, .abort ((c.descWord 8) % 2 ^ 16) rank)]
    (∀ start, k.slice = some start →
      (s.ev.x = n → start ≤ s.ltime → (∀ r < size, r ≠ rank → r ∈ c.entries) → ∃ u k', exec .sliceStartTimeReached s = .next u ∧ goes u k') ∧
      (s.ev.x = n → (s.ltime < start ∨ ∃ r < size, r ≠ rank ∧ r ∉ c.entries) → exec .sliceStartTimeReached s = .next s) ∧
      (∀ m, up → start ≤ s.ltime → (∀ r < size, r ≠ rank → r ∈ m :: c.entries) → ∃ u k', exec (.gangEntryFlit k.ctx m) s = .next u ∧ goes u k') ∧
      (∀ m, ¬ up → exec (.gangEntryFlit k.ctx m) s = .next s) ∧
      (∀ m, up → s.ltime < start → ∃ u, exec (.gangEntryFlit k.ctx m) s = .next u ∧ u.kernels = s.kernels ∧ m ∈ (u.ctx k.ctx).entries) ∧
      (s.ev.x = n → start + 500000 ≤ s.ltime → ∃ u, exec .gangSliceAbort s = .next u ∧ ends u) ∧
      (s.ev.x = n → s.ltime < start + 500000 → exec .gangSliceAbort s = .next s)) ∧
    (up → k.st = .held → k.saving = false → ∃ u, exec (.gangAbortFlit k.ctx) s = .next u ∧ ends u) ∧
    (up → k.st = .launched → ∃ u, exec (.gangAbortFlit k.ctx) s = .next u ∧ u.kernels = s.kernels ∧ (u.ctx k.ctx).aborted = true) ∧
    (¬ up → exec (.gangAbortFlit k.ctx) s = .next s)) ∧
  ∀ (s : State) (m : Nat) (k : Kernel), let c := s.ctx m; let l := 4 * c.die0
    c.st = .saved → c.kernel = some k → c.aborted = false → bitOf (c.descWord 8) 43 = true → (∀ e ∈ s.kernels, e.2.ctx ≠ m) → (s.link l).down = false →
    RisingMap s.ctxs → RisingMap s.links →
    ∃ u, exec (.gangAbortFlit m) s = .next u ∧ (u.ctx m).aborted = true ∧ (u.ctx m).entries = [] ∧
      (u.link l).reserved = (s.link l).reserved ++ [(s.ltime, .abort ((c.descWord 8) % 2 ^ 16) ((c.descWord 8) / 2 ^ 16 % 2 ^ 13))]

/-- R215, R329, R330, R331, R332, R333, R339, R345, R346: a context is created, saved, restored and destroyed; gang slices. -/
def Obligations.ContextLife : Prop :=
  Sys2Proof.Claims.ContextLife ∧ Sys2Proof.Claims.YieldSaveRestore ∧ Sys2Proof.Claims.GangSlices

/-- R351, R352, R353, R354, R358, R361, R369: a flit that the peer's link accepts is on its way, in order, and enters the queue of its link when link time has come to its acceptance plus
the padded latency; an LRECV that it completes goes on; a link down or full takes none; a flit accepted at its port takes a credit and leaves, or waits for one; a returned credit
lets a waiting flit go; a silent link goes down after 100 µs; training measures its worst path, and the latency that is set before a slice is no less than that, and than every one
that the member's table, or a peer's, names for the link, up to 20 µs (log 87); a beacon sets the link time, of the whole package (log 49), and a start that a slice waits for is dated
by it; a replay is counted and delays what is on the wire by at most 200 ns; a hold of cause link receive past 500 µs ends the slice, and the member tells its gang, by the reserved
channels of the first link (log 81). -/
def Sys2Proof.Claims.LinkEvents : Prop :=
  ∀ (s : State) (l : Nat), let x := s.link l
    RisingMap s.links →
    let enters := fun (y : Transit) => x.padded ≤ (s.ltime + 2 ^ 64 - y.accepted) % 2 ^ 64 ∧ (s.ltime + 2 ^ 64 - y.accepted) % 2 ^ 64 < 2 ^ 63 ∧ y.arrive ≤ s.wall
    (∀ ch p, s.ev.x = 0 → x.down = false → x.queue.length + x.transit.length < 2048 → ∃ u y, exec (.linkFlitEnqueue l ch p) s = .next u ∧
      (u.link l).transit = x.transit ++ [y] ∧ y.ch = ch ∧ y.payload = p ∧ y.accepted = s.ltime ∧ s.wall ≤ y.arrive ∧
      (∀ z ∈ x.transit, x.transit.getLast? = some z → z.arrive ≤ y.arrive) ∧ (u.link l).queue = x.queue ∧ (u.link l).seen = s.wall ∧
      (∀ m, m ≠ l → u.link m = s.link m) ∧ u.tiles = s.tiles ∧
      (x.transit = [] → ∃ w, s.wall < w ∧ (w, { i := .linkFlitEnqueue l 0 0, arg := { x := 1 } }) ∈ u.agenda)) ∧
    (∀ ch p, x.down = true ∨ (s.ev.x = 0 ∧ 2048 ≤ x.queue.length + x.transit.length) → exec (.linkFlitEnqueue l ch p) s = .next s) ∧
    (∀ ch p y, s.ev.x = 1 → x.down = false → x.transit = [y] → s.linkKernel l = none →
      (enters y → ∃ u, exec (.linkFlitEnqueue l ch p) s = .next u ∧ u.link l = { x with queue := x.queue ++ [(y.ch, y.payload)], transit := [] }) ∧
      (¬ enters y → ∃ u w, exec (.linkFlitEnqueue l ch p) s = .next u ∧ u.link l = x ∧ s.wall < w ∧ (w, { i := .linkFlitEnqueue l 0 0, arg := { x := 1 } }) ∈ u.agenda)) ∧
    (∀ c p y n k, s.ev.x = 1 → x.down = false → x.transit = [y] → enters y → s.linkKernel l = some n → s.kernel? n = some k →
      k.recv = [(l, y.ch, (s.queued l y.ch).length + 1)] → k.holds = [1] →
      ∃ u k', exec (.linkFlitEnqueue l c p) s = .next u ∧ u.kernel? n = some k' ∧ k'.recv = [] ∧ k'.holds = [] ∧
        u.todo.head? = some { i := .holdRelease, arg := { x := n } }) ∧
    (∀ n k f g ch, s.ev.y = n → s.kernel? n = some k → k.mesh.find? (fun f => f.id == s.ev.x && f.gone.isNone && !f.landed) = some f → f.port = some (l, ch) → ch ≠ 63 →
      k.mesh.find? (fun g => g.sameSend f && g.num + 1 == f.num && g.gone.isNone) = some g →
      let p : BitVec 1024 := f.data ++ g.data
      (0 < x.credits → ∃ u, exec .linkFlitAccept s = .next u ∧ (u.link l).credits = x.credits - 1 ∧ (u.link l).sent = x.sent ++ [(s.ltime, k.peerChannel f.own ch, p)] ∧
        (u.link l).waiting = x.waiting ∧ u.tiles = s.tiles) ∧
      (x.credits = 0 → ∃ u k', exec .linkFlitAccept s = .next u ∧ (u.link l).waiting = x.waiting ++ [(k.peerChannel f.own ch, p)] ∧ (u.link l).sent = x.sent ∧
        u.kernel? n = some k' ∧ k'.holds = 1 :: k.holds)) ∧
    (∀ n ch p rest k, 0 < n → x.waiting = (ch, p) :: rest → n = 1 → x.credits = 0 → s.linkKernel l = some k → ∃ u, exec (.creditReturn l n) s = .next u ∧
      (u.link l).waiting = rest ∧ (u.link l).sent = x.sent ++ [(s.ltime, ch, p)] ∧ (u.link l).credits = 0 ∧
      ∀ y, s.kernel? k = some y → ∃ y', u.kernel? k = some y' ∧ y'.holds = y.holds.erase 1) ∧
    (∀ n, x.waiting = [] → ∃ u, exec (.creditReturn l n) s = .next u ∧ u.link l = { x with credits := min (x.credits + n) 2048 } ∧ u.kernels = s.kernels) ∧
    (x.down = false →
      (x.seen + 39 * 100000 ≤ s.wall → ∃ u, exec (.linkDown l) s = .next u ∧ u.link l = { x with down := true } ∧ ∀ m, m ≠ l → u.link m = s.link m) ∧
      (s.wall < x.seen + 39 * 100000 → exec (.linkDown l) s = .next { s with agenda := insertDated (x.seen + 39 * 100000) { i := .linkDown l } s.agenda })) ∧
    (∀ worst, l < 32 → ∃ u, exec (.linkTraining l worst) s = .next u ∧ u.link l = { x with trained := true, down := false, worst := worst, seen := s.wall } ∧
      (s.wall + 39 * 100000, { i := .linkDown l }) ∈ u.agenda) ∧
    (∀ die0 shape rank info tables i, i < 4 * shapeDies shape → l = 4 * die0 + i → let y := (s.padLinks die0 shape rank info tables).link l
      y = { x with padded := y.padded } ∧ min 20000 (max 1600 x.worst) ≤ y.padded ∧ y.padded ≤ 20000 ∧
      (info.links = [] → tables = [] → y.padded = min 20000 (max 1600 x.worst)) ∧
      (∀ e ∈ info.links, recBits e 0 22 18 = l → min 20000 (recBits e 3 31 0) ≤ y.padded) ∧
      ∀ p ∈ tables, ∀ e ∈ p.2, recBits e 0 35 23 = rank → recBits e 0 40 36 = l → min 20000 (recBits e 3 31 0) ≤ y.padded) ∧
    (∀ time, time < 2 ^ 64 → ∃ u, exec (.linkBeacon time) s = .next u ∧ u.ltime = time ∧ u.wall = s.wall ∧ u.tiles = s.tiles ∧
      (x.trained = true → x.down = false → u.link l = { x with seen := s.wall }) ∧
      ∀ n k start, s.kernels = [(n, k)] → k.slice = some start → time < start → ∃ w, s.wall < w ∧ (w, { i := .sliceStartTimeReached, arg := { x := n } }) ∈ u.agenda) ∧
    (∃ u d, exec (.flitReplay l) s = .next u ∧ d ≤ 39 * 200 ∧ u.link l = { x with replays := min (x.replays + 1) 65535, transit := delayFrom s.wall d x.transit }) ∧
    (∀ k w, s.kernel? s.ev.x = some k → k.linkFrom = some w → k.ending = none →
      (1 ∈ k.holds → w ≤ s.ev.y → let c := s.ctx k.ctx
        ∃ u, exec .linkReceiveTimeout s = .next u ∧ u.kernel? s.ev.x = some { k with st := .faulted, ending := some 4 } ∧ u.tiles = s.tiles ∧
        (bitOf (c.descWord 8) 43 = false → u.links = s.links) ∧ (bitOf (c.descWord 8) 43 = true → (u.link (4 * c.die0)).reserved =
          (s.link (4 * c.die0)).reserved ++ [(s.ltime, .abort ((c.descWord 8) % 2 ^ 16) ((c.descWord 8) / 2 ^ 16 % 2 ^ 13))])) ∧
      (s.ev.y < w → ∃ u, exec .linkReceiveTimeout s = .next u ∧ u.kernel? s.ev.x = some k))

/-- R363, R138, R140, R151: two node values are combined element by element, left first: sums and extremes of i32 as integers, sums of f32 and bf16 rounded to nearest even with nothing
flushed, their extremes as R140 picks them; a top-k holds at most k pairs, each one of those given. -/
def Sys2Proof.Claims.CollectiveCombine : Prop :=
  let env : FpEnv := { mode := .rne, sat := false, ftz := false, daz := false }
  (∀ w l r, recBits w 0 1 0 ≠ 3 → l.length = r.length → (combineNodes w l r).1.length = l.length ∧
    ∀ i < l.length, (combineNodes w l r).1.getD i 0 = (combineElem (recBits w 0 1 0) (recBits w 0 5 2) (l.getD i 0) (r.getD i 0)).1) ∧
  (∀ x y, x < 2 ^ 32 → y < 2 ^ 32 → (combineElem 0 0xB x y).1 = (x + y) % 2 ^ 32 ∧
    ((combineElem 1 0xB x y).1 = if signed y 32 ≤ signed x 32 then x else y) ∧ ((combineElem 2 0xB x y).1 = if signed y 32 ≤ signed x 32 then y else x)) ∧
  (∀ x y, combineElem 0 1 x y = env.add .f32 x y ∧ combineElem 0 2 x y = env.add .bf16 x y ∧ combineElem 1 1 x y = env.pick .f32 true x y ∧
    combineElem 2 2 x y = env.pick .bf16 false x y) ∧
  (∀ w l r, recBits w 0 1 0 = 3 → (combineNodes w l r).1.length ≤ recBits w 0 12 6 ∧ ∀ p ∈ (combineNodes w l r).1, p ∈ l ++ r)

/-- R361, R362, R363, R364, R308: a collective begins with its request block in the engine of its die, when its read of it has been served, and hears what its peers have sent for it
before; a peer's value of a node and its tree hash are kept for it, and asked for again they are sent again; a member that differs from another's hash, or is at fault, tells its peers
and ends with status 2 and fault 5 and no output; one that knows the root and agrees with every member comes to its end; the record of the end waits while its ring is full. That
these flits pass by the die's first link, with the collective's number and the tree hash as node 131,071, is the model's choice (log 81). -/
def Sys2Proof.Claims.CollectiveEvents : Prop :=
  ∀ (s : State), RisingMap s.dies → RisingMap s.links →
    (let d := dieOf s.ev.tile; let a := s.ev.x % 2 ^ 57
      (s.ev.grant = .given ∨ (s.ev.grant = .fresh ∧ (s.ctx s.ev.y).grain a = none) → ∃ u x, exec .collectiveStart s = .next u ∧
        (u.die d).coll = (s.die d).coll ++ [x] ∧ x.ctx = s.ev.y ∧ x.addr = a ∧ x.hasRead = false ∧ x.sent = [] ∧
        ((∀ f ∈ (s.die d).early, f.1 / 2 ^ 17 ≠ x.num) → x.values = [] ∧ x.hashes = [] ∧ x.flags = 0 ∧ (u.die d).early = (s.die d).early) ∧
        (∀ f, (s.die d).early = [f] → f.1 / 2 ^ 17 = x.num → f.1 % 2 ^ 17 ≠ 2 ^ 17 - 1 → x.values = [(f.1 % 2 ^ 17, f.2.1)] ∧ x.flags = f.2.2 ∧ (u.die d).early = []) ∧
        (s.ev.x ≠ a → x.failed = true) ∧ ((s.ctx s.ev.y).grain a = none → x.words = [] ∧ x.failed = true ∧
          x.num = mapGet 0 (s.ctx s.ev.y).begun (d - (s.ctx s.ev.y).die0) ∧
          (RisingMap s.ctxs → (u.ctx s.ev.y).begun = mapSet 0 (s.ctx s.ev.y).begun (d - (s.ctx s.ev.y).die0) (x.num + 1)))) ∧
      (s.ev.grant = .fresh → s.sysNeeds s.ev.y a 64 false ≠ [] → exec .collectiveStart s =
        .next (s.ask 4 { i := .collectiveStart, arg := s.ev } (s.sysNeeds s.ev.y a 64 false)))) ∧
    (∀ d node value flags, let l := s.link (4 * d); let n := node % 2 ^ 17; let num := node / 2 ^ 17; let table := n = 2 ^ 17 - 1 ∧ 2 < value.length
      (l.down = true → exec (.collectiveNodeValue d node value flags) s = .next s) ∧
      (l.down = false → ∃ u, exec (.collectiveNodeValue d node value flags) s = .next u ∧ u.host = s.host ∧ u.tiles = s.tiles ∧ (u.link (4 * d)).seen = s.wall ∧
        (table → (u.die d).peers = mapPut (s.die d).peers (value.headD 0).toNat (linkEntries value.tail) ∧ (u.die d).coll = (s.die d).coll) ∧
        (∀ x before after, ¬ table → (s.die d).coll = before ++ x :: after → x.num = num → (∀ y ∈ before ++ after, y.num ≠ num ∧ y.order ≠ x.order) →
          (n ≠ 2 ^ 17 - 1 → (u.link (4 * d)).reserved = l.reserved ∧
            (u.die d).coll = before ++ { x with values := mapPut x.values n value, flags := x.flags ||| flags } :: after) ∧
          (n = 2 ^ 17 - 1 → (u.die d).coll = before ++ { x with hashes := mapPut x.hashes (value.headD 0).toNat value[1]? } :: after)) ∧
        (¬ table → (∀ y ∈ (s.die d).coll, y.num ≠ num) → ((s.die d).past.map Collective.num ≠ some num → (u.die d).early = (s.die d).early ++ [(node, value, flags)]) ∧
          (∀ x, (s.die d).past = some x → x.num = num → (u.die d) = s.die d ∧
            (n = 2 ^ 17 - 1 → flags.getLsbD 0 = false → (mapFind x.hashes (value.headD 0).toNat).isSome = true → (s.ctx x.ctx).gangSize ≠ 1 → ∃ more,
              (u.link (4 * d)).reserved = l.reserved ++ (s.ltime, .hash num (s.ctx x.ctx).gangRank (some (BitVec.ofNat 64 x.hash)) true) :: more))))) ∧
    (∀ x, let d := s.ev.tile; let rank := (s.ctx x.ctx).gangRank; s.collInHand d = some x → x.order = s.ev.x →
      let ending := fun (u : State) => ∃ w, (w, { i := .collectiveComplete, arg := { tile := d, x := x.order, y := 1 } }) ∈ u.agenda
      (s.ev.y = 0 → x.aborted = false → x.failed = true → ∃ u, exec .collectiveComplete s = .next u ∧ ending u ∧
        (u.link (4 * d)).reserved = (s.link (4 * d)).reserved ++ [(s.ltime, .hash x.num rank none false)]) ∧
      (s.ev.y = 0 → x.aborted = true → ∃ u, exec .collectiveComplete s = .next u ∧ ending u ∧ u.links = s.links) ∧
      (s.ev.y = 0 → x.aborted = false → x.failed = false → x.hasRead = false → s.ev.grant = .given →
        exec .collectiveComplete s = .next ((s.readCollective d x).collectiveSoon d x.order)) ∧
      (s.ev.y = 0 → x.aborted = false → x.failed = false → x.hasRead = true → (∃ h ∈ x.hashes, h.2 ≠ some (BitVec.ofNat 64 x.hash)) → ∃ u,
        exec .collectiveComplete s = .next u ∧ ending u ∧ (∀ y ∈ (u.die d).coll, y.order = x.order → y.failed = true) ∧
        (u.link (4 * d)).reserved.getLast? = some (s.ltime, .hash x.num rank none false)) ∧
      (s.ev.y = 0 → x.aborted = false → x.failed = false → x.hasRead = true → (∀ h ∈ x.hashes, h.2 = some (BitVec.ofNat 64 x.hash)) →
        (∀ r < (s.ctx x.ctx).gangSize, r ≠ rank → (mapFind x.hashes r).isSome = true) → (x.nodeValues (x.tree.map BitVec.toNat) [] 0).1.getLast?.join ≠ none →
        ∃ u, exec .collectiveComplete s = .next u ∧ ending u ∧ u.host = s.host ∧ u.tiles = s.tiles) ∧
      (s.ev.y = 1 → s.ev.grant = .given →
        let ends := fun (o : Option State) => exec .collectiveComplete s = .next (o.getD (s.collectiveSoon d x.order 1))
        (x.aborted = true → ends (s.recordCollective d x 4 8 0 0)) ∧ (x.aborted = false → x.failed = true → ends (s.recordCollective d x 2 5 0 0)) ∧
        (∀ vs fl root, x.aborted = false → x.failed = false → x.nodeValues (x.tree.map BitVec.toNat) [] 0 = (vs, fl) → vs.getLast?.join = some root →
          ends (s.endCollective d x root fl))) ∧
      (s.ev.y = 1 → s.ev.grant = .fresh → (s.ringNow x.ctx (recBits x.words 7 3 0)).2.full = true →
        exec .collectiveComplete s = .next (s.collectiveSoon d x.order 1)))

/-- R351, R352, R353, R354, R361, R369, R363, R138, R140, R151, R362, R364: links, link flits and collectives, with the model's choices of logs 49, 81 and 87. -/
def Obligations.LinksAndCollectives : Prop :=
  Sys2Proof.Claims.LinkEvents ∧ Sys2Proof.Claims.CollectiveCombine ∧ Sys2Proof.Claims.CollectiveEvents

/-- R303, R323, R365, R366, R368: the host: a permitted access waits for its service, and holds the partition after 50 µs; served, a read is answered and a write is made; one that is
not permitted is discarded, a read with the poison indication, and counted, as all are of a PCIe-only host; a start is on its way to its sluice, or is discarded and counted, as all are
while the loader serves no context; a snoop is answered. -/
def Obligations.HostAccesses : Prop :=
  ∀ (s : State) (o : Nat) (line : BitVec 512), let a := o / 64 * 64; let h := s.host
    let refused := min (h.refused + 1) (2 ^ 32 - 1); let discarded := min (h.discarded + 1) (2 ^ 32 - 1)
    (∀ b wr, h.mode = .pcie ∨ s.hostCtx = none → s.hostPlace b wr = none) ∧ s.hostCtx = (if s.sec.serves = true then h.ctx else none) ∧
    (s.ev.grant = .fresh →
      (∀ p, s.hostPlace a false = some p → s.hostNeeds false p ≠ [] → ∃ u, exec (.hostMemRead o) s = .next u ∧
        u.host = { h with waiting := h.waiting ++ [{ write := false, o := a, line := 0, since := s.wall }] } ∧
        (s.wall + 39 * 50000, { i := .hostServiceTimeout, arg := { x := a, y := s.wall } }) ∈ u.agenda) ∧
      (∀ p, s.hostPlace a true = some p → s.hostNeeds true p ≠ [] → ∃ u, exec (.hostMemWrite o line) s = .next u ∧
        u.host = { h with waiting := h.waiting ++ [{ write := true, o := a, line := line, since := s.wall }] } ∧
        (s.wall + 39 * 50000, { i := .hostServiceTimeout, arg := { x := a, y := s.wall } }) ∈ u.agenda) ∧
      (s.hostPlace a false = none → ∃ u, exec (.hostMemRead o) s = .next u ∧ u.host.refused = refused ∧ u.host.replies = h.replies ++ [{ o := a, line := 0, poison := true }] ∧
        u.tiles = s.tiles) ∧
      (s.hostPlace a true = none → ∃ u, exec (.hostMemWrite o line) s = .next u ∧ u.host.refused = refused ∧ u.host.mem = h.mem ∧ u.host.replies = h.replies ∧ u.tiles = s.tiles)) ∧
    (∀ w, s.ev.grant = .given → s.ev.y = w + 1 →
      (s.hostPlace a false = none → ∃ u, exec (.hostMemRead o) s = .next u ∧ u.host.refused = refused ∧
        u.host.replies = h.replies ++ [{ o := a, line := 0, poison := true }] ∧ u.host.waiting = h.waiting.erase { write := false, o := a, line := 0, since := w }) ∧
      (∀ t b pg k v bs, s.hostPlace a false = some (.slot t b pg k) → s.agentRead t 3 b pg 0 k = (v, .ok bs) → v.host = h →
        ∃ u, exec (.hostMemRead o) s = .next u ∧ u.host.replies = h.replies ++ [{ o := a, line := BitVec.ofNat 512 (bytesNat bs), poison := false }] ∧
          u.host.refused = h.refused ∧ u.host.waiting = h.waiting.erase { write := false, o := a, line := 0, since := w }) ∧
      (∀ t b pg k, s.hostPlace a true = some (.slot t b pg k) → RisingMap s.tiles → (s.tile t).vault.meets (b % 4) false = .nothing → RisingMap (s.tile t).vault.pages →
        ∃ u, exec (.hostMemWrite o line) s = .next u ∧ (u.tile t).vault.page (pageKey b pg) = pageWrite ((s.tile t).vault.page (pageKey b pg)) 0 k (natBytes 64 line.toNat) ∧
          (u.tile t).staging = (s.tile t).staging ∧ u.host.waiting = h.waiting.erase { write := true, o := a, line := line, since := w })) ∧
    (∀ x p n k, h.waiting.find? (fun y => y.o == s.ev.x && y.since == s.ev.y) = some x → s.hostPlace x.o x.write = some p → s.kernelOf (s.placeTile p) = some (n, k) →
      s.kernel? n = some k → (7 ∉ k.holds → ∃ u k', exec .hostServiceTimeout s = .next u ∧ u.kernel? n = some k' ∧ k'.holds = 7 :: k.holds ∧ k'.cycle = k.cycle) ∧
      (7 ∈ k.holds → ∃ u, exec .hostServiceTimeout s = .next u ∧ u.kernel? n = some { k with hostFrom := some s.wall } ∧ u.host = h)) ∧
    (∀ data c, s.hostCtx = some c → o % 8 = 0 → o < 4096 → let die := o / 2 ^ 9 % 8
      (inPartition (s.ctx c).die0 (s.ctx c).shape die = true → RisingMap s.dies → ∃ u, exec (.hostApertureStart o 8 data) s = .next u ∧
        (u.die die).arrivals = (s.die die).arrivals ++ [{ id := s.free, host := true, ch := o / 2 ^ 3 % 64, start := { ctx := c, data := data } }] ∧ u.host = h) ∧
      (inPartition (s.ctx c).die0 (s.ctx c).shape die = false → exec (.hostApertureStart o 8 data) s = .next { s with host := { h with discarded := discarded } })) ∧
    (∀ data width, width ≠ 8 ∨ o % 8 ≠ 0 ∨ 4096 ≤ o ∨ s.hostCtx = none → exec (.hostApertureStart o width data) s = .next { s with host := { h with discarded := discarded } }) ∧
    exec (.hostSnoop o) s = .next { s with host := { h with snoops := h.snoops + 1 } }

/-- R19, R20, R21, R22, R23: the power-on: memory, contexts and kernels begin empty and the clock at zero, the fuses kept; a blank device waits to be provisioned, a scrapped one
halts with its lfst in the boot word, any other runs the first of its two images that it takes, with the system context assigned, or halts. -/
def Sys2Proof.Claims.PowerOn : Prop :=
  ∀ s : State, let x := s.sec
    ∃ u, exec .powerOn s = .next u ∧ u.wall = 0 ∧ u.tiles = [] ∧ u.kernels = [] ∧ u.dies = [] ∧ u.links = [] ∧ u.qe = {} ∧ u.todo = [] ∧ u.host.mem = s.host.mem ∧
      u.health = { power := true } ∧ u.sec.fuses = x.fuses ∧ u.sec.lfst = x.fuse ∧ (x.fuses = none → x.fuse = .scrapped) ∧ (∀ l, x.fuses = some l → x.fuse = l) ∧ u.sec.rollback = x.rollback ∧ u.sec.device = x.device ∧ u.sec.seed = x.seed ∧
      u.sec.vendor = x.vendor ∧ u.sec.owner = x.owner ∧ u.sec.flash = x.flash ∧ u.sec.cert = x.cert ∧ u.sec.port = (x.fuse == .debugUnlocked) ∧ u.sec.token = [] ∧ u.sec.report = [] ∧ u.sec.status = 0 ∧ (∀ l < 32, (39 * 100000, { i := .linkDown l }) ∈ u.agenda) ∧
      (x.fuse = .blank → u.sec.boot = .provisioning ∧ u.ctxs = []) ∧
      (x.fuse = .scrapped → u.sec.boot = .halted ∧ u.sec.bootWord = 5 + x.rollback % 256 * 2 ^ 8 ∧ u.ctxs = []) ∧
      (x.fuse ≠ .blank → x.fuse ≠ .scrapped → let ok := fun (f : Firmware) => signedBy f.sig (x.accepted (x.fuse == .owned || x.fuse == .debugUnlocked)) = true ∧ x.rollback ≤ f.version
        ((∃ f ∈ x.flash.take 2, ok f) → u.sec.boot = .running ∧ u.ctxs = [(0, { st := .assigned })]) ∧
        ((∀ f ∈ x.flash.take 2, ¬ ok f) → u.sec.boot = .halted ∧ u.ctxs = []))

/-- R20, R21: the life-cycle commands: each acts in the states that R20 gives it, for a command signed under the keys that it names, and changes nothing otherwise; a returned or a
scrapped device holds no tenant and keeps no key. That a command's body begins with the owner's key hash, or with v, is presumed (log 13). -/
def Sys2Proof.Claims.LifeCycleCommands : Prop :=
  ∀ s : State, let x := s.sec; let running := x.boot = .running; let owner := x.lfst = .owned ∨ x.lfst = .debugUnlocked
    let unchanged := fun (i : Instr) => exec i s = .next s
    (∀ (device : Word) (seed k0 k1 k2 k3 : BitVec 256),
      (x.fuse = .blank ∧ x.boot = .provisioning → exec (.vendorProvisioning device seed k0 k1 k2 k3) s = .next { s with sec := { x with
        fuses := some .provisioned, lfst := .provisioned, device := some device, seed := some seed, cert := some (Config.identityCertificate device seed)
        vendor := [(0, ⟨k0, false⟩), (1, ⟨k1, false⟩), (2, ⟨k2, false⟩), (3, ⟨k3, false⟩)] } }) ∧
      (¬ (x.fuse = .blank ∧ x.boot = .provisioning) → unchanged (.vendorProvisioning device seed k0 k1 k2 k3))) ∧
    ∀ cmd : Signed, let vendorSigned := signedBy cmd (x.accepted false) = true
      (running ∧ x.lfst = .provisioned ∧ vendorSigned → ∃ h : BitVec 256, h.toNat = (cmd.body.take 32).foldl (fun a b => 256 * a + b.toNat) 0 ∧
        exec (.ownerEnrolment cmd) s = .next { s with sec := { x with fuses := some .owned, lfst := .owned, owner := some { hash := h } } }) ∧
      (¬ (running ∧ x.lfst = .provisioned ∧ vendorSigned) → unchanged (.ownerEnrolment cmd)) ∧
      (let mine := ∃ h, x.owner = some h ∧ h.revoked = false ∧ signedBy cmd [h.hash] = true;
        (running ∧ owner ∧ mine → ∃ u, exec (.returnToken cmd) s = .next u ∧ u.sec.fuse = .returned ∧ u.sec.lfst = .returned ∧ u.sec.keys = [] ∧ u.sec.port = false ∧
          u.sec.vendor = x.vendor ∧ (∀ h, u.sec.owner = some h → h.revoked = true) ∧ (RisingMap s.ctxs → ∀ n, n ≠ 0 → (u.ctx n).st = .free ∨ (u.ctx n).st = .destroyed ∨ (u.ctx n).doomed = true)) ∧
        (¬ (running ∧ owner ∧ mine) → unchanged (.returnToken cmd))) ∧
      (let v := ((cmd.body.map BitVec.toNat).getD 0 0); let may := running ∧ (x.lfst = .provisioned ∨ owner) ∧ signedBy cmd (x.accepted (x.lfst == .owned || x.lfst == .debugUnlocked)) = true;
        (may ∧ x.rollback < v → exec (.rollbackAdvance cmd) s = .next { s with sec := { x with rollback := v } }) ∧
        (¬ (may ∧ x.rollback < v) → unchanged (.rollbackAdvance cmd))) ∧
      (running ∧ x.lfst ≠ .scrapped ∧ vendorSigned → ∃ u, exec (.scrapCommand cmd) s = .next u ∧ u.sec.fuse = .scrapped ∧ u.sec.lfst = .scrapped ∧ u.sec.boot = .halted ∧
        u.sec.bootWord = 5 + x.rollback % 256 * 2 ^ 8 ∧ u.sec.port = false ∧ u.sec.keys = [] ∧ (∀ e ∈ u.sec.vendor, e.2.revoked = true) ∧ (∀ h, u.sec.owner = some h → h.revoked = true)) ∧
      (¬ (running ∧ x.lfst ≠ .scrapped ∧ vendorSigned) → unchanged (.scrapCommand cmd))

/-- R23, R24, R25: a measurement register becomes SHA-256 of itself and the digest; the report has the layout of R24 and a signature; a debug token is refused with the status of
the first check that fails, a new nonce drawn and nothing else changed, and one that passes every check wipes the tenants' keys, blows the debug-unlocked fuses, extends meas4, draws a
new nonce, opens the debug port and ends with status 2. The signature and the nonces are values that the model leaves free (log 12); who serves dbgctl.go in a boot is log 54. -/
def Sys2Proof.Claims.MeasureAttestUnlock : Prop :=
  ∀ s : State, let x := s.sec;
    (x.boot = .running → (∀ i d, x.serves = true → 5 ≤ i → i ≤ 7 → RisingMap x.meas → ∃ u, exec (.systemMeasurementExtend i d) s = .next u ∧
      mapGet 0 u.sec.meas i = sha256 (digestBytes (mapGet 0 x.meas i) ++ digestBytes d) ∧ (∀ j, j ≠ i → mapGet 0 u.sec.meas j = mapGet 0 x.meas j)) ∧
    (∀ i d, i < 5 ∨ 7 < i → exec (.systemMeasurementExtend i d) s = .next s) ∧
    (∀ nonce, x.lfst ≠ .blank → x.lfst ≠ .scrapped → ∃ r, exec (.attestationReport nonce) s = .next { s with sec := { x with report := r } } ∧ r.length = 384 ∧
      r.take 4 = natBytes 4 0x4F484154 ∧ (r.drop 4).take 2 = natBytes 2 1 ∧ (r.drop 6).take 2 = natBytes 2 x.lfst.code ∧
      (r.drop 8).take 8 = natBytes 8 (x.device.getD 0).toNat ∧ (r.drop 16).take 16 = natBytes 16 x.rollback ∧ (r.drop 32).take 32 = natBytes 32 nonce.toNat ∧
      ∀ i < 8, (r.drop (64 + 32 * i)).take 32 = digestBytes (mapGet 0 x.meas i))) ∧
    ∀ token, let tok := (token ++ List.replicate 192 0).take 192; let kx := le tok 0x20 32; let ky := le tok 0x40 32; let hash := sha256 ((tok.drop 0x20).take 64)
      let fused := x.fuse = .provisioned ∨ x.fuse = .owned
      let allowed := (x.fuse = .provisioned ∧ ∃ h ∈ x.vendor, h.2.revoked = false ∧ h.2.hash = hash) ∨ (x.fuse = .owned ∧ ∃ h, x.owner = some h ∧ h.revoked = false ∧ h.hash = hash)
      let magic := le tok 0 4 = 0x4F484455; let point := magic ∧ onCurve kx ky = true; let state := point ∧ fused
      let signed := state ∧ allowed ∧ ecdsaVerify (sha256 (tok.take 0x80)) kx ky (le tok 0x80 32) (le tok 0xA0 32) = true
      let device := signed ∧ x.device = some (BitVec.ofNat 64 (le tok 8 8)); let expected := device ∧ le tok 4 1 = x.fuse.code
      let fresh := expected ∧ le tok 0x10 16 = x.nonce.toNat; let vacant := fresh ∧ ∀ c ∈ s.ctxs, c.1 ≠ 0 → c.2.st = .free ∨ c.2.st = .destroyed
      let nonce := Config.freeWord s.free ++ Config.freeWord (s.free + 1)
      let fails := fun st => exec (.dbgctlGo token) s = .next { s with sec := { x with token := tok, status := st, nonce := nonce }, free := s.free + 2 }
      (x.boot = .off ∨ x.boot = .halted ∨ x.status = 1 → exec (.dbgctlGo token) s = .next s) ∧
      (x.boot ≠ .off → x.boot ≠ .halted → x.status ≠ 1 →
        (¬ magic → fails 8) ∧ (magic → ¬ point → fails 3) ∧ (point → ¬ state → fails 5) ∧ (state → ¬ signed → fails 3) ∧ (signed → ¬ device → fails 4) ∧
        (device → ¬ expected → fails 5) ∧ (expected → ¬ fresh → fails 6) ∧ (fresh → ¬ vacant → fails 7) ∧
        (vacant → exec (.dbgctlGo token) s = .next { s with free := s.free + 2, sec := { x with
          token := tok, status := 2, nonce := nonce, keys := [], fuses := some .debugUnlocked, lfst := .debugUnlocked, port := true
          meas := mapSet 0 x.meas 4 (sha256 (digestBytes (mapGet 0 x.meas 4) ++ digestBytes (sha256 tok))) } }))

/-- R26, R27, R28, R29: a sample of readings stands in the health window, and the next comes 100 µs later; one too hot for 1 ms, or both cooling loops lost, takes the power
away, and with it everything that is not fused, in flash or in the host's memory; a loop beyond its limits for 10 ms is lost, and a lost one within them for 1 s may be taken back. That
what a sample reads beyond these inputs is free, and that any hot sensors in succession count as one condition, is log 55; the next sample's readings are a free value. -/
def Sys2Proof.Claims.HealthEvents : Prop :=
  ∀ s : State, let h := s.health; h.power = true →
    (∀ readings : Readings, let hot := readings.dies.any fun d => d.logic.any (fun x => decide (920 < x.toInt)) || d.layers.any fun x => decide (880 < x.toInt)
      let bad := fun (c : Coolant) => decide (100 * c.flow < 60 * c.setPoint) || decide (520 < c.outlet)
      let timers := fun (x y : CoolingLoop) (c : Coolant) => y.lost = x.lost ∧ y.bad = (if bad c then some (x.bad.getD s.wall) else none) ∧
        y.good = (if bad c = false ∧ x.lost ≠ none then some (x.good.getD s.wall) else none) ∧ (bad c = true → y.back = none)
      ∃ u, exec (.healthSample readings) s = .next u ∧ u.health.now = readings ∧ u.health.stamp = s.wall / 39 ∧
        u.health.hotSince = (if hot then some (h.hotSince.getD s.wall) else none) ∧ timers h.upper u.health.upper readings.upper ∧
        timers h.lower u.health.lower readings.lower ∧ u.tiles = s.tiles ∧ u.ctxs = s.ctxs ∧ (∃ w r a, (w, { i := .healthSample r, arg := a }) ∈ u.agenda) ∧
        (hot = true → h.hotSince = none → (s.wall + 39 * 1000000, { i := .packagePowerRemoval, arg := { y := s.wall } }) ∈ u.agenda) ∧
        (bad readings.upper = true → h.upper.bad = none → (s.wall + 39 * 10000000, { i := .coolingLoopLost true, arg := { y := s.wall } }) ∈ u.agenda) ∧
        (bad readings.lower = true → h.lower.bad = none → (s.wall + 39 * 10000000, { i := .coolingLoopLost false, arg := { y := s.wall } }) ∈ u.agenda) ∧
        (bad readings.upper = false → h.upper.lost ≠ none → h.upper.good = none →
          (s.wall + 39 * 1000000000, { i := .coolingLoopRestored true, arg := { y := s.wall } }) ∈ u.agenda) ∧
        (bad readings.lower = false → h.lower.lost ≠ none → h.lower.good = none →
          (s.wall + 39 * 1000000000, { i := .coolingLoopRestored false, arg := { y := s.wall } }) ∈ u.agenda)) ∧
    (h.upper.bad = some s.ev.y → ∃ u, exec (.coolingLoopLost true) s = .next u ∧
      u.health = { h with upper := { h.upper with lost := some (h.upper.lost.getD s.wall) } } ∧
      (h.lower.lost ≠ none → ∃ w, w ≤ s.wall + 39 * 10000000 ∧ (w, { i := .packagePowerRemoval, arg := { x := 1 } }) ∈ u.agenda)) ∧
    (h.lower.bad = some s.ev.y → ∃ u, exec (.coolingLoopLost false) s = .next u ∧ u.health = { h with lower := { h.lower with lost := some (h.lower.lost.getD s.wall) } } ∧
      (h.upper.lost ≠ none → ∃ w, w ≤ s.wall + 39 * 10000000 ∧ (w, { i := .packagePowerRemoval, arg := { x := 1 } }) ∈ u.agenda)) ∧
    (h.upper.bad ≠ some s.ev.y → exec (.coolingLoopLost true) s = .next s) ∧ (h.lower.bad ≠ some s.ev.y → exec (.coolingLoopLost false) s = .next s) ∧
    (h.upper.lost ≠ none → h.upper.good = some s.ev.y → exec (.coolingLoopRestored true) s =
      .next { s with health := { h with upper := { h.upper with back := some s.wall } } }) ∧
    (h.lower.lost ≠ none → h.lower.good = some s.ev.y → exec (.coolingLoopRestored false) s =
      .next { s with health := { h with lower := { h.lower with back := some s.wall } } }) ∧
    (h.upper.good ≠ some s.ev.y → exec (.coolingLoopRestored true) s = .next s) ∧ (h.lower.good ≠ some s.ev.y → exec (.coolingLoopRestored false) s = .next s) ∧
    ((s.ev.x = 0 ∧ h.hotSince = some s.ev.y) ∨ (s.ev.x = 1 ∧ h.upper.lost ≠ none ∧ h.lower.lost ≠ none) → ∃ u, exec .packagePowerRemoval s = .next u ∧
      u.tiles = [] ∧ u.kernels = [] ∧ u.ctxs = [] ∧ u.health.power = false ∧ u.sec.fuses = s.sec.fuses ∧ u.sec.flash = s.sec.flash ∧ u.host.mem = s.host.mem ∧ u.sec.boot = .off) ∧
    (s.ev.x = 0 → h.hotSince ≠ some s.ev.y → exec .packagePowerRemoval s = .next s)

/-- R19, R20, R21, R22, R23, R24, R25, R26, R27, R28, R29: power-on, life cycle, measurement, debug unlock and health, with what logs 12, 13, 54 and 55 settle. -/
def Obligations.PowerAndSecurity : Prop :=
  Sys2Proof.Claims.PowerOn ∧ Sys2Proof.Claims.LifeCycleCommands ∧ Sys2Proof.Claims.MeasureAttestUnlock ∧ Sys2Proof.Claims.HealthEvents

/-- R19, R21, R329: the machine after reset: without power, its first row the power-on, no tile, kernel, context or queue with anything in it, every register of every tile zero
and every byte of staging zero. The blank fuses and the zeros are the model's choice where the spec gives no value (logs 2 and 3). -/
def Obligations.ResetState : Prop :=
  let s := State.reset
  s.todo = [{ i := .powerOn }] ∧ s.agenda = [] ∧ s.wall = 0 ∧ s.health.power = false ∧ s.sec.boot = .off ∧ s.sec.fuses = some .blank ∧ s.kernels = [] ∧
    (∀ n, (s.ctx n).st = .free) ∧ (∀ q, (s.queue q).en = false) ∧
    ∀ t, let x := s.tile t
      x.flow.st = .idle ∧ (∀ r : Reg, x.sreg r = 0) ∧ (∀ r : Reg, x.vreg r = 0) ∧ (∀ a, memGet x.staging a = 0) ∧ x.flight = [] ∧
      (∀ b, (x.vault.bank b).st = .idle) ∧ (∀ d b, s.cword d b = 0)

/-- The canonical forms hold of the machine after reset: those of host memory and staging, and of the lists of tiles, dies, kernels, contexts, links, queues, token links, measurements,
cistern words, sluice channels, vault banks and pages, and numbered registers. -/
def Obligations.ResetMemOk : Prop :=
  State.reset.MemOk

/-- Every step keeps the canonical forms, from every state that has them: the host's memory and every tile's staging keep the form of Memory.wf, and the lists of tiles, dies, kernels,
contexts, links, queues, token links, measurements, cistern words, sluice channels, vault banks and pages, and numbered registers name each entry once, in rising order. -/
def Obligations.StepKeepsMemOk : Prop :=
  ∀ s t : State, s.MemOk → step s = .next t → t.MemOk

/-- R19, R20, R25, R294: every row answers a next state in every state, and none takes a life-cycle fuse back or counts the rollback down, where lfst shows the fuses, as it does after
reset and stays; only the five commands of R20 and a debug unlock change a fuse, the rollback counter, a fused identity or a key hash, and only provisioning the certificate; so it is of
every step. No step ends in a fault, and the only refusal is that of an interpreter whose program counter stands at a word that is no op. -/
def Obligations.RowsCompleteAndFusesOnlyAdvance : Prop :=
  let fused := fun (x : Security) => (x.fuses, x.rollback, x.device, x.seed, x.vendor, x.owner)
  let advances := fun (s t : State) => s.sec.lfst = s.sec.fuse →
    t.sec.lfst = t.sec.fuse ∧ s.sec.fuse.code ≤ t.sec.fuse.code ∧ s.sec.rollback ≤ t.sec.rollback
  State.reset.sec.lfst = State.reset.sec.fuse ∧
  (∀ (i : Instr) (s : State), ∃ t, exec i s = .next t ∧ t.pkg = s.pkg ∧ t.sec.flash = s.sec.flash ∧ advances s t ∧
    ((∀ d e a b c f, i ≠ .vendorProvisioning d e a b c f) → t.sec.cert = s.sec.cert ∧ t.sec.device = s.sec.device ∧ t.sec.seed = s.sec.seed) ∧
    (fused t.sec ≠ fused s.sec → match i with
      | .vendorProvisioning .. | .ownerEnrolment _ | .returnToken _ | .rollbackAdvance _ | .scrapCommand _ | .dbgctlGo _ => True
      | _ => False)) ∧
  (∀ s t : State, step s = .next t → t.pkg = s.pkg ∧ advances s t) ∧
  (∀ (s : State) (f : Fault), step s ≠ .fault f) ∧
  ∀ (s : State) (r : Refusal), step s = .refused r → ∃ w, r = .notAnOp w ∧ s.todo = [] ∧ (s.qe.mainRun.isSome = true ∨ s.qe.rankRun.isSome = true)
end

