-- ==== Sys2Proof/Laws/Exec.lean ====
section
/-!
SUPPORT. Laws/Exec.lean: which meaning exec gives each constructor; a proof rewrites by these before it opens a meaning.
-/

namespace Sys2Proof.Machine

variable (s : State)

theorem exec_vendorProvisioning (device : Word) (seed : BitVec 256) (k0 : BitVec 256) (k1 : BitVec 256) (k2 : BitVec 256) (k3 : BitVec 256) : exec (.vendorProvisioning device seed k0 k1 k2 k3) s = execVendorProvisioning device seed k0 k1 k2 k3 s := rfl
theorem exec_ownerEnrolment (cmd : Signed) : exec (.ownerEnrolment cmd) s = execOwnerEnrolment cmd s := rfl
theorem exec_returnToken (cmd : Signed) : exec (.returnToken cmd) s = execReturnToken cmd s := rfl
theorem exec_rollbackAdvance (cmd : Signed) : exec (.rollbackAdvance cmd) s = execRollbackAdvance cmd s := rfl
theorem exec_scrapCommand (cmd : Signed) : exec (.scrapCommand cmd) s = execScrapCommand cmd s := rfl
theorem exec_attestationReport (nonce : BitVec 256) : exec (.attestationReport nonce) s = execAttestationReport nonce s := rfl
theorem exec_dbgctlGo (token : List Byte) : exec (.dbgctlGo token) s = execDbgctlGo token s := rfl
theorem exec_healthSample (readings : Readings) : exec (.healthSample readings) s = execHealthSample readings s := rfl
theorem exec_coolingLoopLost (upper : Bool) : exec (.coolingLoopLost upper) s = execCoolingLoopLost upper s := rfl
theorem exec_coolingLoopRestored (upper : Bool) : exec (.coolingLoopRestored upper) s = execCoolingLoopRestored upper s := rfl
theorem exec_hint (n : BitVec 4) : exec (.hint n) s = execHint n s := rfl
theorem exec_add (d : Reg) (a : Reg) (b : Src) : exec (.add d a b) s = execAdd d a b s := rfl
theorem exec_sub (d : Reg) (a : Reg) (b : Src) : exec (.sub d a b) s = execSub d a b s := rfl
theorem exec_mul (d : Reg) (a : Reg) (b : Src) : exec (.mul d a b) s = execMul d a b s := rfl
theorem exec_mulh (d : Reg) (a : Reg) (b : Src) : exec (.mulh d a b) s = execMulh d a b s := rfl
theorem exec_mulhu (d : Reg) (a : Reg) (b : Src) : exec (.mulhu d a b) s = execMulhu d a b s := rfl
theorem exec_div (d : Reg) (a : Reg) (b : Src) : exec (.div d a b) s = execDiv d a b s := rfl
theorem exec_divu (d : Reg) (a : Reg) (b : Src) : exec (.divu d a b) s = execDivu d a b s := rfl
theorem exec_rem (d : Reg) (a : Reg) (b : Src) : exec (.rem d a b) s = execRem d a b s := rfl
theorem exec_remu (d : Reg) (a : Reg) (b : Src) : exec (.remu d a b) s = execRemu d a b s := rfl
theorem exec_and (d : Reg) (a : Reg) (b : Src) : exec (.and d a b) s = execAnd d a b s := rfl
theorem exec_or (d : Reg) (a : Reg) (b : Src) : exec (.or d a b) s = execOr d a b s := rfl
theorem exec_xor (d : Reg) (a : Reg) (b : Src) : exec (.xor d a b) s = execXor d a b s := rfl
theorem exec_andn (d : Reg) (a : Reg) (b : Src) : exec (.andn d a b) s = execAndn d a b s := rfl
theorem exec_shl (d : Reg) (a : Reg) (b : Src) : exec (.shl d a b) s = execShl d a b s := rfl
theorem exec_shr (d : Reg) (a : Reg) (b : Src) : exec (.shr d a b) s = execShr d a b s := rfl
theorem exec_sar (d : Reg) (a : Reg) (b : Src) : exec (.sar d a b) s = execSar d a b s := rfl
theorem exec_rot (d : Reg) (a : Reg) (b : Src) : exec (.rot d a b) s = execRot d a b s := rfl
theorem exec_clz (d : Reg) (a : Reg) : exec (.clz d a) s = execClz d a s := rfl
theorem exec_ctz (d : Reg) (a : Reg) : exec (.ctz d a) s = execCtz d a s := rfl
theorem exec_popc (d : Reg) (a : Reg) : exec (.popc d a) s = execPopc d a s := rfl
theorem exec_min (d : Reg) (a : Reg) (b : Src) : exec (.min d a b) s = execMin d a b s := rfl
theorem exec_max (d : Reg) (a : Reg) (b : Src) : exec (.max d a b) s = execMax d a b s := rfl
theorem exec_minu (d : Reg) (a : Reg) (b : Src) : exec (.minu d a b) s = execMinu d a b s := rfl
theorem exec_maxu (d : Reg) (a : Reg) (b : Src) : exec (.maxu d a b) s = execMaxu d a b s := rfl
theorem exec_sel (d : Reg) (a : Reg) (b : Src) (c : Reg) : exec (.sel d a b c) s = execSel d a b c s := rfl
theorem exec_cmp (cc : Cond) (d : Reg) (a : Reg) (b : Src) : exec (.cmp cc d a b) s = execCmp cc d a b s := rfl
theorem exec_movi (d : Reg) (v : Imm) : exec (.movi d v) s = execMovi d v s := rfl
theorem exec_sext (d : Reg) (a : Reg) (n : BitVec 7) : exec (.sext d a n) s = execSext d a n s := rfl
theorem exec_zext (d : Reg) (a : Reg) (n : BitVec 7) : exec (.zext d a n) s = execZext d a n s := rfl
theorem exec_bfx (d : Reg) (a : Reg) (pos : BitVec 6) (len : BitVec 7) (sx : Bool) : exec (.bfx d a pos len sx) s = execBfx d a pos len sx s := rfl
theorem exec_bfi (d : Reg) (a : Reg) (b : Reg) (pos : BitVec 6) (len : BitVec 7) : exec (.bfi d a b pos len) s = execBfi d a b pos len s := rfl
theorem exec_idx (d : Reg) (a : Reg) (b : Reg) (sh : BitVec 6) : exec (.idx d a b sh) s = execIdx d a b sh s := rfl
theorem exec_madd (d : Reg) (a : Reg) (b : Src) (c : Reg) : exec (.madd d a b c) s = execMadd d a b c s := rfl
theorem exec_br (cc : Cond) (a : Reg) (b : Reg) (off : BitVec 20) : exec (.br cc a b off) s = execBr cc a b off s := rfl
theorem exec_j (off : Imm) : exec (.j off) s = execJ off s := rfl
theorem exec_call (d : Reg) (off : Imm) : exec (.call d off) s = execCall d off s := rfl
theorem exec_ret (a : Reg) : exec (.ret a) s = execRet a s := rfl
theorem exec_brme (off : BitVec 20) : exec (.brme off) s = execBrme off s := rfl
theorem exec_loop (a : Reg) (last : BitVec 16) (stages : BitVec 3) : exec (.loop a last stages) s = execLoop a last stages s := rfl
theorem exec_lbrk (a : Reg) (always : Bool) : exec (.lbrk a always) s = execLbrk a always s := rfl
theorem exec_ld (d : Reg) (a : Reg) (w : Width) (sx : Bool) (off : BitVec 17) : exec (.ld d a w sx off) s = execLd d a w sx off s := rfl
theorem exec_st (a : Reg) (b : Reg) (w : Width) (off : BitVec 17) : exec (.st a b w off) s = execSt a b w off s := rfl
theorem exec_stIo (a : Reg) (b : Reg) (off : BitVec 17) : exec (.stIo a b off) s = execStIo a b off s := rfl
theorem exec_fence (sc : Scope) : exec (.fence sc) s = execFence sc s := rfl
theorem exec_amoCas (o : Order) (d : Reg) (a : Reg) (b : Reg) (c : Reg) (fa : Bool) : exec (.amoCas o d a b c fa) s = execAmoCas o d a b c fa s := rfl
theorem exec_amoAdd (o : Order) (d : Reg) (a : Reg) (b : Src) : exec (.amoAdd o d a b) s = execAmoAdd o d a b s := rfl
theorem exec_amoSwp (o : Order) (d : Reg) (a : Reg) (b : Src) : exec (.amoSwp o d a b) s = execAmoSwp o d a b s := rfl
theorem exec_amoMin (o : Order) (d : Reg) (a : Reg) (b : Src) : exec (.amoMin o d a b) s = execAmoMin o d a b s := rfl
theorem exec_amoMax (o : Order) (d : Reg) (a : Reg) (b : Src) : exec (.amoMax o d a b) s = execAmoMax o d a b s := rfl
theorem exec_amoAnd (o : Order) (d : Reg) (a : Reg) (b : Src) : exec (.amoAnd o d a b) s = execAmoAnd o d a b s := rfl
theorem exec_amoOr (o : Order) (d : Reg) (a : Reg) (b : Src) : exec (.amoOr o d a b) s = execAmoOr o d a b s := rfl
theorem exec_objpin (d : Reg) (a : Reg) : exec (.objpin d a) s = execObjpin d a s := rfl
theorem exec_objunp (d : Reg) : exec (.objunp d) s = execObjunp d s := rfl
theorem exec_objq (d : Reg) (a : Reg) (sel : BitVec 5) : exec (.objq d a sel) s = execObjq d a sel s := rfl
theorem exec_objchk (d : Reg) (a : Reg) (b : Reg) (acc : BitVec 2) : exec (.objchk d a b acc) s = execObjchk d a b acc s := rfl
theorem exec_trap (code : BitVec 16) : exec (.trap code) s = execTrap code s := rfl
theorem exec_mfs (d : Reg) (n : BitVec 12) : exec (.mfs d n) s = execMfs d n s := rfl
theorem exec_mts (a : Reg) (n : BitVec 12) : exec (.mts a n) s = execMts a n s := rfl
theorem exec_wfe (d : Reg) : exec (.wfe d) s = execWfe d s := rfl
theorem exec_sev (a : Reg) : exec (.sev a) s = execSev a s := rfl
theorem exec_mark (a : Reg) (tag : BitVec 16) : exec (.mark a tag) s = execMark a tag s := rfl
theorem exec_vfadd (f : Fmt) (rm : Rm) (mt : Bool) (d : Reg) (a : Reg) (b : Src) : exec (.vfadd f rm mt d a b) s = execVfadd f rm mt d a b s := rfl
theorem exec_vfsub (f : Fmt) (rm : Rm) (mt : Bool) (d : Reg) (a : Reg) (b : Src) : exec (.vfsub f rm mt d a b) s = execVfsub f rm mt d a b s := rfl
theorem exec_vfmul (f : Fmt) (rm : Rm) (mt : Bool) (d : Reg) (a : Reg) (b : Src) : exec (.vfmul f rm mt d a b) s = execVfmul f rm mt d a b s := rfl
theorem exec_vfma (f : Fmt) (rm : Rm) (mt : Bool) (d : Reg) (a : Reg) (b : Src) (c : Reg) : exec (.vfma f rm mt d a b c) s = execVfma f rm mt d a b c s := rfl
theorem exec_vfms (f : Fmt) (rm : Rm) (mt : Bool) (d : Reg) (a : Reg) (b : Src) (c : Reg) : exec (.vfms f rm mt d a b c) s = execVfms f rm mt d a b c s := rfl
theorem exec_vfnma (f : Fmt) (rm : Rm) (mt : Bool) (d : Reg) (a : Reg) (b : Src) (c : Reg) : exec (.vfnma f rm mt d a b c) s = execVfnma f rm mt d a b c s := rfl
theorem exec_vfdiv (f : Fmt) (rm : Rm) (mt : Bool) (d : Reg) (a : Reg) (b : Src) : exec (.vfdiv f rm mt d a b) s = execVfdiv f rm mt d a b s := rfl
theorem exec_vfsqrt (f : Fmt) (rm : Rm) (mt : Bool) (d : Reg) (a : Reg) : exec (.vfsqrt f rm mt d a) s = execVfsqrt f rm mt d a s := rfl
theorem exec_vfmin (f : Fmt) (mt : Bool) (d : Reg) (a : Reg) (b : Src) : exec (.vfmin f mt d a b) s = execVfmin f mt d a b s := rfl
theorem exec_vfmax (f : Fmt) (mt : Bool) (d : Reg) (a : Reg) (b : Src) : exec (.vfmax f mt d a b) s = execVfmax f mt d a b s := rfl
theorem exec_vfabs (f : Fmt) (mt : Bool) (d : Reg) (a : Reg) : exec (.vfabs f mt d a) s = execVfabs f mt d a s := rfl
theorem exec_vfneg (f : Fmt) (mt : Bool) (d : Reg) (a : Reg) : exec (.vfneg f mt d a) s = execVfneg f mt d a s := rfl
theorem exec_vfcmp (f : Fmt) (cc : FCond) (mt : Bool) (d : Reg) (a : Reg) (b : Src) : exec (.vfcmp f cc mt d a b) s = execVfcmp f cc mt d a b s := rfl
theorem exec_vfcvt (dst : Fmt) (src : Fmt) (rm : Rm) (mt : Bool) (d : Reg) (a : Reg) (b : Reg) (hi : Bool) : exec (.vfcvt dst src rm mt d a b hi) s = execVfcvt dst src rm mt d a b hi s := rfl
theorem exec_vfrnd (f : Fmt) (rm : Rm) (mt : Bool) (d : Reg) (a : Reg) : exec (.vfrnd f rm mt d a) s = execVfrnd f rm mt d a s := rfl
theorem exec_vscalb (f : Fmt) (rm : Rm) (mt : Bool) (d : Reg) (a : Reg) (b : Src) : exec (.vscalb f rm mt d a b) s = execVscalb f rm mt d a b s := rfl
theorem exec_vexp2 (mt : Bool) (d : Reg) (a : Reg) : exec (.vexp2 mt d a) s = execVexp2 mt d a s := rfl
theorem exec_vlog2 (mt : Bool) (d : Reg) (a : Reg) : exec (.vlog2 mt d a) s = execVlog2 mt d a s := rfl
theorem exec_vrcp (mt : Bool) (d : Reg) (a : Reg) : exec (.vrcp mt d a) s = execVrcp mt d a s := rfl
theorem exec_vrsq (mt : Bool) (d : Reg) (a : Reg) : exec (.vrsq mt d a) s = execVrsq mt d a s := rfl
theorem exec_vadd (mt : Bool) (d : Reg) (a : Reg) (b : Src) : exec (.vadd mt d a b) s = execVadd mt d a b s := rfl
theorem exec_vsub (mt : Bool) (d : Reg) (a : Reg) (b : Src) : exec (.vsub mt d a b) s = execVsub mt d a b s := rfl
theorem exec_vmul (mt : Bool) (d : Reg) (a : Reg) (b : Src) : exec (.vmul mt d a b) s = execVmul mt d a b s := rfl
theorem exec_vmulh (u : Bool) (mt : Bool) (d : Reg) (a : Reg) (b : Src) : exec (.vmulh u mt d a b) s = execVmulh u mt d a b s := rfl
theorem exec_vmad (mt : Bool) (d : Reg) (a : Reg) (b : Src) (c : Reg) : exec (.vmad mt d a b c) s = execVmad mt d a b c s := rfl
theorem exec_vand (mt : Bool) (d : Reg) (a : Reg) (b : Src) : exec (.vand mt d a b) s = execVand mt d a b s := rfl
theorem exec_vor (mt : Bool) (d : Reg) (a : Reg) (b : Src) : exec (.vor mt d a b) s = execVor mt d a b s := rfl
theorem exec_vxor (mt : Bool) (d : Reg) (a : Reg) (b : Src) : exec (.vxor mt d a b) s = execVxor mt d a b s := rfl
theorem exec_vshl (mt : Bool) (d : Reg) (a : Reg) (b : Src) : exec (.vshl mt d a b) s = execVshl mt d a b s := rfl
theorem exec_vshr (mt : Bool) (d : Reg) (a : Reg) (b : Src) : exec (.vshr mt d a b) s = execVshr mt d a b s := rfl
theorem exec_vsar (mt : Bool) (d : Reg) (a : Reg) (b : Src) : exec (.vsar mt d a b) s = execVsar mt d a b s := rfl
theorem exec_vmin (u : Bool) (mt : Bool) (d : Reg) (a : Reg) (b : Src) : exec (.vmin u mt d a b) s = execVmin u mt d a b s := rfl
theorem exec_vmax (u : Bool) (mt : Bool) (d : Reg) (a : Reg) (b : Src) : exec (.vmax u mt d a b) s = execVmax u mt d a b s := rfl
theorem exec_vcmp (cc : Cond) (mt : Bool) (d : Reg) (a : Reg) (b : Src) : exec (.vcmp cc mt d a b) s = execVcmp cc mt d a b s := rfl
theorem exec_vsel (mt : Bool) (d : Reg) (a : Reg) (b : Src) (c : Reg) : exec (.vsel mt d a b c) s = execVsel mt d a b c s := rfl
theorem exec_vabs (mt : Bool) (d : Reg) (a : Reg) : exec (.vabs mt d a) s = execVabs mt d a s := rfl
theorem exec_vclz (mt : Bool) (d : Reg) (a : Reg) : exec (.vclz mt d a) s = execVclz mt d a s := rfl
theorem exec_vpopc (mt : Bool) (d : Reg) (a : Reg) : exec (.vpopc mt d a) s = execVpopc mt d a s := rfl
theorem exec_vclmulLo (mt : Bool) (d : Reg) (a : Reg) (b : Reg) : exec (.vclmulLo mt d a b) s = execVclmulLo mt d a b s := rfl
theorem exec_vclmulHi (mt : Bool) (d : Reg) (a : Reg) (b : Reg) : exec (.vclmulHi mt d a b) s = execVclmulHi mt d a b s := rfl
theorem exec_vperm (mt : Bool) (d : Reg) (a : Reg) (b : Reg) : exec (.vperm mt d a b) s = execVperm mt d a b s := rfl
theorem exec_vshuf (mt : Bool) (d : Reg) (a : Reg) (b : Reg) (c : Reg) : exec (.vshuf mt d a b c) s = execVshuf mt d a b c s := rfl
theorem exec_vbcast (mt : Bool) (d : Reg) (a : Reg) (lane : BitVec 6) : exec (.vbcast mt d a lane) s = execVbcast mt d a lane s := rfl
theorem exec_vredadd (f : Fmt) (mt : Bool) (d : Reg) (a : Reg) : exec (.vredadd f mt d a) s = execVredadd f mt d a s := rfl
theorem exec_vredmax (k : RedKind) (mt : Bool) (d : Reg) (a : Reg) : exec (.vredmax k mt d a) s = execVredmax k mt d a s := rfl
theorem exec_vredmin (k : RedKind) (mt : Bool) (d : Reg) (a : Reg) : exec (.vredmin k mt d a) s = execVredmin k mt d a s := rfl
theorem exec_vscan (k : ScanKind) (mt : Bool) (d : Reg) (a : Reg) : exec (.vscan k mt d a) s = execVscan k mt d a s := rfl
theorem exec_vtopk (mt : Bool) (d : Reg) (a : Reg) (b : Reg) (k : BitVec 7) : exec (.vtopk mt d a b k) s = execVtopk mt d a b k s := rfl
theorem exec_mpush (a : Reg) : exec (.mpush a) s = execMpush a s := rfl
theorem exec_mand (d : Reg) (a : Reg) (b : Reg) : exec (.mand d a b) s = execMand d a b s := rfl
theorem exec_mor (d : Reg) (a : Reg) (b : Reg) : exec (.mor d a b) s = execMor d a b s := rfl
theorem exec_mnot (d : Reg) (a : Reg) : exec (.mnot d a) s = execMnot d a s := rfl
theorem exec_mcnt (d : Reg) (a : Reg) (top : Bool) : exec (.mcnt d a top) s = execMcnt d a top s := rfl
theorem exec_vmov (mt : Bool) (d : Reg) (a : Reg) (pair : Bool) : exec (.vmov mt d a pair) s = execVmov mt d a pair s := rfl
theorem exec_vmovs (k : MovsForm) (mt : Bool) (d : Reg) (a : Reg) : exec (.vmovs k mt d a) s = execVmovs k mt d a s := rfl
theorem exec_vext (d : Reg) (a : Reg) (lane : BitVec 6) (sx : Bool) (pair : Bool) : exec (.vext d a lane sx pair) s = execVext d a lane sx pair s := rfl
theorem exec_mma (d : Reg) (a : Reg) (b : Reg) (k : BitVec 4) : exec (.mma d a b k) s = execMma d a b k s := rfl
theorem exec_mmaZ (d : Reg) (a : Reg) (b : Reg) (k : BitVec 4) : exec (.mmaZ d a b k) s = execMmaZ d a b k s := rfl
theorem exec_mmaN (d : Reg) (a : Reg) (b : Reg) (k : BitVec 4) : exec (.mmaN d a b k) s = execMmaN d a b k s := rfl
theorem exec_accz (d : Reg) : exec (.accz d) s = execAccz d s := rfl
theorem exec_accret (a : Reg) (b : Reg) : exec (.accret a b) s = execAccret a b s := rfl
theorem exec_accretAmax (d : Reg) (a : Reg) (b : Reg) : exec (.accretAmax d a b) s = execAccretAmax d a b s := rfl
theorem exec_accretApply (a : Reg) (b : Reg) (c : Reg) : exec (.accretApply a b c) s = execAccretApply a b c s := rfl
theorem exec_accretDerive (d : Reg) (a : Reg) (b : Reg) : exec (.accretDerive d a b) s = execAccretDerive d a b s := rfl
theorem exec_accrd (d : Reg) (a : Reg) (row : BitVec 6) : exec (.accrd d a row) s = execAccrd d a row s := rfl
theorem exec_accwr (d : Reg) (b : Reg) (row : BitVec 6) (int : Bool) : exec (.accwr d b row int) s = execAccwr d b row int s := rfl
theorem exec_accwait (a : Reg) : exec (.accwait a) s = execAccwait a s := rfl
theorem exec_accst (a : Reg) (b : Reg) : exec (.accst a b) s = execAccst a b s := rfl
theorem exec_opld (d : Reg) (a : Reg) (q : BitVec 2) (cnt : BitVec 2) (bind : Option Reg) : exec (.opld d a q cnt bind) s = execOpld d a q cnt bind s := rfl
theorem exec_opst (a : Reg) (b : Reg) (q : BitVec 2) (cnt : BitVec 2) : exec (.opst a b q cnt) s = execOpst a b q cnt s := rfl
theorem exec_opclr (d : Reg) : exec (.opclr d) s = execOpclr d s := rfl
theorem exec_scld (d : Reg) (a : Reg) (off : BitVec 16) (ip : Bool) : exec (.scld d a off ip) s = execScld d a off ip s := rfl
theorem exec_scst (a : Reg) (b : Reg) (off : BitVec 16) : exec (.scst a b off) s = execScst a b off s := rfl
theorem exec_scmov (d : Reg) (a : Reg) (ip : Bool) : exec (.scmov d a ip) s = execScmov d a ip s := rfl
theorem exec_scmul (d : Reg) (a : Reg) (b : Reg) (ip : Bool) : exec (.scmul d a b ip) s = execScmul d a b ip s := rfl
theorem exec_scmax (d : Reg) (a : Reg) (b : Reg) (ip : Bool) : exec (.scmax d a b ip) s = execScmax d a b ip s := rfl
theorem exec_scmin (d : Reg) (a : Reg) (b : Reg) (ip : Bool) : exec (.scmin d a b ip) s = execScmin d a b ip s := rfl
theorem exec_scq (d : Reg) (a : Reg) (f : Fmt) (ip : Bool) : exec (.scq d a f ip) s = execScq d a f ip s := rfl
theorem exec_scset (d : Reg) (code : BitVec 8) (ip : Bool) : exec (.scset d code ip) s = execScset d code ip s := rfl
theorem exec_scbind (d : Reg) (a : Reg) : exec (.scbind d a) s = execScbind d a s := rfl
theorem exec_screl (d : Reg) : exec (.screl d) s = execScrel d s := rfl
theorem exec_scgen (d : Reg) (a : Reg) (ip : Bool) : exec (.scgen d a ip) s = execScgen d a ip s := rfl
theorem exec_fmt (d : Reg) (b : Src) : exec (.fmt d b) s = execFmt d b s := rfl
theorem exec_ftsel (lvl : BitVec 3) (base : BitVec 4) : exec (.ftsel lvl base) s = execFtsel lvl base s := rfl
theorem exec_act (a : Reg) (b : Reg) : exec (.act a b) s = execAct a b s := rfl
theorem exec_rd (a : Reg) (b : Reg) (c : Reg) (sl : BitVec 6) (n : BitVec 6) : exec (.rd a b c sl n) s = execRd a b c sl n s := rfl
theorem exec_rda (a : Reg) (b : Reg) (c : Reg) (sl : BitVec 6) (n : BitVec 6) : exec (.rda a b c sl n) s = execRda a b c sl n s := rfl
theorem exec_wr (a : Reg) (b : Reg) (c : Reg) (sl : BitVec 6) (n : BitVec 6) : exec (.wr a b c sl n) s = execWr a b c sl n s := rfl
theorem exec_wra (a : Reg) (b : Reg) (c : Reg) (sl : BitVec 6) (n : BitVec 6) : exec (.wra a b c sl n) s = execWra a b c sl n s := rfl
theorem exec_pre (bank : BitVec 7) (lend : BitVec 13) : exec (.pre bank lend) s = execPre bank lend s := rfl
theorem exec_ref (bank : BitVec 7) : exec (.ref bank) s = execRef bank s := rfl
theorem exec_rdop (d : Reg) (a : Reg) (b : Reg) (sl : BitVec 6) (n : BitVec 6) (q : BitVec 2) (bind : Option Reg) : exec (.rdop d a b sl n q bind) s = execRdop d a b sl n q bind s := rfl
theorem exec_rdsc (d : Reg) (a : Reg) (b : Reg) (c : Reg) : exec (.rdsc d a b c) s = execRdsc d a b c s := rfl
theorem exec_vfence (lvl : Level) : exec (.vfence lvl) s = execVfence lvl s := rfl
theorem exec_train (q : BitVec 2) : exec (.train q) s = execTrain q s := rfl
theorem exec_bstat (d : Reg) (bank : BitVec 7) : exec (.bstat d bank) s = execBstat d bank s := rfl
theorem exec_actraw (bank : BitVec 7) (page : BitVec 12) : exec (.actraw bank page) s = execActraw bank page s := rfl
theorem exec_rdraw (c : Reg) (sl : BitVec 6) (n : BitVec 6) (bank : BitVec 7) : exec (.rdraw c sl n bank) s = execRdraw c sl n bank s := rfl
theorem exec_wrraw (c : Reg) (sl : BitVec 6) (n : BitVec 6) (bank : BitVec 7) : exec (.wrraw c sl n bank) s = execWrraw c sl n bank s := rfl
theorem exec_msend (a : Reg) (b : Reg) (c : Reg) (n : BitVec 8) : exec (.msend a b c n) s = execMsend a b c n s := rfl
theorem exec_msendv (a : Reg) (b : Reg) (c : Reg) : exec (.msendv a b c) s = execMsendv a b c s := rfl
theorem exec_mcast (a : Reg) (b : Reg) (c : Reg) (n : BitVec 8) : exec (.mcast a b c n) s = execMcast a b c n s := rfl
theorem exec_lsend (a : Reg) (n : BitVec 8) (ch : BitVec 6) (rel : Bool) : exec (.lsend a n ch rel) s = execLsend a n ch rel s := rfl
theorem exec_lrecv (a : Reg) (n : BitVec 8) (ch : BitVec 6) (acq : Bool) : exec (.lrecv a n ch acq) s = execLrecv a n ch acq s := rfl
theorem exec_vld (mt : Bool) (d : Reg) (a : Reg) (w : Width) (sx : Bool) (pair : Bool) (off : BitVec 16) : exec (.vld mt d a w sx pair off) s = execVld mt d a w sx pair off s := rfl
theorem exec_vst (mt : Bool) (a : Reg) (b : Reg) (w : Width) (pair : Bool) (off : BitVec 16) : exec (.vst mt a b w pair off) s = execVst mt a b w pair off s := rfl
theorem exec_vgath (mt : Bool) (d : Reg) (a : Reg) (b : Reg) (w : Width) (sx : Bool) (pair : Bool) (off : BitVec 16) : exec (.vgath mt d a b w sx pair off) s = execVgath mt d a b w sx pair off s := rfl
theorem exec_vscat (mt : Bool) (a : Reg) (b : Reg) (c : Reg) (w : Width) (pair : Bool) (off : BitVec 16) : exec (.vscat mt a b c w pair off) s = execVscat mt a b c w pair off s := rfl
theorem exec_apst (d : Reg) (a : Reg) (b : Src) : exec (.apst d a b) s = execApst d a b s := rfl
theorem exec_warr (d : Reg) (weir : BitVec 6) (die : BitVec 3) : exec (.warr d weir die) s = execWarr d weir die s := rfl
theorem exec_wwait (d : Reg) (b : Reg) (weir : BitVec 6) (die : BitVec 3) (w : BitVec 11) : exec (.wwait d b weir die w) s = execWwait d b weir die w s := rfl
theorem exec_wpoll (d : Reg) (weir : BitVec 6) (die : BitVec 3) : exec (.wpoll d weir die) s = execWpoll d weir die s := rfl
theorem exec_wpend (d : Reg) (b : Reg) (weir : BitVec 6) (die : BitVec 3) : exec (.wpend d b weir die) s = execWpend d b weir die s := rfl
theorem exec_jcbraise (d : Reg) (a : Reg) (b : Src) : exec (.jcbraise d a b) s = execJcbraise d a b s := rfl
theorem exec_jcbpost (d : Reg) (a : Reg) (b : Src) : exec (.jcbpost d a b) s = execJcbpost d a b s := rfl
theorem exec_jcbwait (d : Reg) (a : Reg) (w : BitVec 16) : exec (.jcbwait d a w) s = execJcbwait d a w s := rfl
theorem exec_queueEnable (q : Nat) : exec (.queueEnable q) s = execQueueEnable q s := rfl
theorem exec_queueDisable (q : Nat) : exec (.queueDisable q) s = execQueueDisable q s := rfl
theorem exec_programInstall (slot : Nat) (kind : ProgKind) (code : List (BitVec 32)) (sig : Option Signed) : exec (.programInstall slot kind code sig) s = execProgramInstall slot kind code sig s := rfl
theorem exec_preemptionRequest (k : Nat) : exec (.preemptionRequest k) s = execPreemptionRequest k s := rfl
theorem exec_ivLdp (d : BitVec 4) (w : BitVec 3) : exec (.ivLdp d w) s = execIvLdp d w s := rfl
theorem exec_ivLdw (d : BitVec 4) (a : BitVec 4) (win : BitVec 2) (o : BitVec 14) : exec (.ivLdw d a win o) s = execIvLdw d a win o s := rfl
theorem exec_ivStw (d : BitVec 4) (a : BitVec 4) (win : BitVec 2) (o : BitVec 14) : exec (.ivStw d a win o) s = execIvStw d a win o s := rfl
theorem exec_ivMovi (d : BitVec 4) (v : BitVec 16) : exec (.ivMovi d v) s = execIvMovi d v s := rfl
theorem exec_ivMovh (d : BitVec 4) (v : BitVec 16) : exec (.ivMovh d v) s = execIvMovh d v s := rfl
theorem exec_ivAdd (d : BitVec 4) (a : BitVec 4) (v : BitVec 16) : exec (.ivAdd d a v) s = execIvAdd d a v s := rfl
theorem exec_ivSub (d : BitVec 4) (a : BitVec 4) (v : BitVec 16) : exec (.ivSub d a v) s = execIvSub d a v s := rfl
theorem exec_ivAnd (d : BitVec 4) (a : BitVec 4) (v : BitVec 16) : exec (.ivAnd d a v) s = execIvAnd d a v s := rfl
theorem exec_ivOr (d : BitVec 4) (a : BitVec 4) (v : BitVec 16) : exec (.ivOr d a v) s = execIvOr d a v s := rfl
theorem exec_ivXor (d : BitVec 4) (a : BitVec 4) (v : BitVec 16) : exec (.ivXor d a v) s = execIvXor d a v s := rfl
theorem exec_ivShl (d : BitVec 4) (a : BitVec 4) (v : BitVec 16) : exec (.ivShl d a v) s = execIvShl d a v s := rfl
theorem exec_ivShr (d : BitVec 4) (a : BitVec 4) (v : BitVec 16) : exec (.ivShr d a v) s = execIvShr d a v s := rfl
theorem exec_ivBeq (d : BitVec 4) (a : BitVec 4) (n : BitVec 16) : exec (.ivBeq d a n) s = execIvBeq d a n s := rfl
theorem exec_ivBne (d : BitVec 4) (a : BitVec 4) (n : BitVec 16) : exec (.ivBne d a n) s = execIvBne d a n s := rfl
theorem exec_ivBltu (d : BitVec 4) (a : BitVec 4) (n : BitVec 16) : exec (.ivBltu d a n) s = execIvBltu d a n s := rfl
theorem exec_ivJf (n : BitVec 16) : exec (.ivJf n) s = execIvJf n s := rfl
theorem exec_ivLoop (a : BitVec 4) (len : BitVec 8) (max : BitVec 8) : exec (.ivLoop a len max) s = execIvLoop a len max s := rfl
theorem exec_ivRank (a : BitVec 4) : exec (.ivRank a) s = execIvRank a s := rfl
theorem exec_ivNeed (link : BitVec 8) (cnt : BitVec 8) : exec (.ivNeed link cnt) s = execIvNeed link cnt s := rfl
theorem exec_ivTokadd (link : BitVec 8) (cnt : BitVec 8) : exec (.ivTokadd link cnt) s = execIvTokadd link cnt s := rfl
theorem exec_ivJob (a : BitVec 4) (die : BitVec 3) (ch : BitVec 6) : exec (.ivJob a die ch) s = execIvJob a die ch s := rfl
theorem exec_ivLaunch (a : BitVec 4) : exec (.ivLaunch a) s = execIvLaunch a s := rfl
theorem exec_ivEvt (a : BitVec 4) : exec (.ivEvt a) s = execIvEvt a s := rfl
theorem exec_contextCreate (desc : List Word) : exec (.contextCreate desc) s = execContextCreate desc s := rfl
theorem exec_contextTableInstall (ctx : Nat) : exec (.contextTableInstall ctx) s = execContextTableInstall ctx s := rfl
theorem exec_contextDestroy (ctx : Nat) : exec (.contextDestroy ctx) s = execContextDestroy ctx s := rfl
theorem exec_faultAcknowledge (ctx : Nat) : exec (.faultAcknowledge ctx) s = execFaultAcknowledge ctx s := rfl
theorem exec_restore (ctx : Nat) (die0 : Nat) : exec (.restore ctx die0) s = execRestore ctx die0 s := rfl
theorem exec_gangEntryFlit (ctx : Nat) (rank : Nat) : exec (.gangEntryFlit ctx rank) s = execGangEntryFlit ctx rank s := rfl
theorem exec_gangAbortFlit (ctx : Nat) : exec (.gangAbortFlit ctx) s = execGangAbortFlit ctx s := rfl
theorem exec_linkFlitEnqueue (link : Nat) (ch : Nat) (payload : BitVec 1024) : exec (.linkFlitEnqueue link ch payload) s = execLinkFlitEnqueue link ch payload s := rfl
theorem exec_flitReplay (link : Nat) : exec (.flitReplay link) s = execFlitReplay link s := rfl
theorem exec_creditReturn (link : Nat) (n : Nat) : exec (.creditReturn link n) s = execCreditReturn link n s := rfl
theorem exec_linkDown (link : Nat) : exec (.linkDown link) s = execLinkDown link s := rfl
theorem exec_linkBeacon (time : Nat) : exec (.linkBeacon time) s = execLinkBeacon time s := rfl
theorem exec_collectiveNodeValue (die : Nat) (node : Nat) (value : List Word) (flags : BitVec 6) : exec (.collectiveNodeValue die node value flags) s = execCollectiveNodeValue die node value flags s := rfl
theorem exec_hostMemRead (o : Nat) : exec (.hostMemRead o) s = execHostMemRead o s := rfl
theorem exec_hostMemWrite (o : Nat) (line : BitVec 512) : exec (.hostMemWrite o line) s = execHostMemWrite o line s := rfl
theorem exec_hostApertureStart (o : Nat) (width : Nat) (data : Word) : exec (.hostApertureStart o width data) s = execHostApertureStart o width data s := rfl
theorem exec_hostSnoop (addr : Nat) : exec (.hostSnoop addr) s = execHostSnoop addr s := rfl
theorem exec_systemMeasurementExtend (v : Nat) (digest : BitVec 256) : exec (.systemMeasurementExtend v digest) s = execSystemMeasurementExtend v digest s := rfl
theorem exec_queueServiceWrite (w : QueueWrite) : exec (.queueServiceWrite w) s = execQueueServiceWrite w s := rfl
theorem exec_linkTraining (link : Nat) (worst : Nat) : exec (.linkTraining link worst) s = execLinkTraining link worst s := rfl
theorem exec_powerOn : exec (.powerOn) s = execPowerOn s := rfl
theorem exec_layerLimitExceeded : exec (.layerLimitExceeded) s = execLayerLimitExceeded s := rfl
theorem exec_packagePowerRemoval : exec (.packagePowerRemoval) s = execPackagePowerRemoval s := rfl
theorem exec_variantWaitTimeout : exec (.variantWaitTimeout) s = execVariantWaitTimeout s := rfl
theorem exec_bundleIssue : exec (.bundleIssue) s = execBundleIssue s := rfl
theorem exec_handlerBundleIssue : exec (.handlerBundleIssue) s = execHandlerBundleIssue s := rfl
theorem exec_resultLanding : exec (.resultLanding) s = execResultLanding s := rfl
theorem exec_formatWriteEffect : exec (.formatWriteEffect) s = execFormatWriteEffect s := rfl
theorem exec_stopHorizon : exec (.stopHorizon) s = execStopHorizon s := rfl
theorem exec_partitionRelease : exec (.partitionRelease) s = execPartitionRelease s := rfl
theorem exec_deferredTrap : exec (.deferredTrap) s = execDeferredTrap s := rfl
theorem exec_tileHalted : exec (.tileHalted) s = execTileHalted s := rfl
theorem exec_holdRelease : exec (.holdRelease) s = execHoldRelease s := rfl
theorem exec_nop : exec (.nop) s = execNop s := rfl
theorem exec_eret : exec (.eret) s = execEret s := rfl
theorem exec_eretSkip : exec (.eretSkip) s = execEretSkip s := rfl
theorem exec_yield : exec (.yield) s = execYield s := rfl
theorem exec_halt : exec (.halt) s = execHalt s := rfl
theorem exec_minv : exec (.minv) s = execMinv s := rfl
theorem exec_mpop : exec (.mpop) s = execMpop s := rfl
theorem exec_prea : exec (.prea) s = execPrea s := rfl
theorem exec_lqEntryDiscard : exec (.lqEntryDiscard) s = execLqEntryDiscard s := rfl
theorem exec_lqFlagsWrite : exec (.lqFlagsWrite) s = execLqFlagsWrite s := rfl
theorem exec_lqvWrite : exec (.lqvWrite) s = execLqvWrite s := rfl
theorem exec_vwdatWrite : exec (.vwdatWrite) s = execVwdatWrite s := rfl
theorem exec_mwdatWrite : exec (.mwdatWrite) s = execMwdatWrite s := rfl
theorem exec_vlcntWrite : exec (.vlcntWrite) s = execVlcntWrite s := rfl
theorem exec_vinjParityInject : exec (.vinjParityInject) s = execVinjParityInject s := rfl
theorem exec_vinjStuckLane : exec (.vinjStuckLane) s = execVinjStuckLane s := rfl
theorem exec_pccClear : exec (.pccClear) s = execPccClear s := rfl
theorem exec_pccReprogram : exec (.pccReprogram) s = execPccReprogram s := rfl
theorem exec_pccOvfClear : exec (.pccOvfClear) s = execPccOvfClear s := rfl
theorem exec_counterOverflow : exec (.counterOverflow) s = execCounterOverflow s := rfl
theorem exec_bankActivationComplete : exec (.bankActivationComplete) s = execBankActivationComplete s := rfl
theorem exec_autoPrecharge : exec (.autoPrecharge) s = execAutoPrecharge s := rfl
theorem exec_prechargeComplete : exec (.prechargeComplete) s = execPrechargeComplete s := rfl
theorem exec_refreshComplete : exec (.refreshComplete) s = execRefreshComplete s := rfl
theorem exec_trainingWindowStart : exec (.trainingWindowStart) s = execTrainingWindowStart s := rfl
theorem exec_trainingWindowEnd : exec (.trainingWindowEnd) s = execTrainingWindowEnd s := rfl
theorem exec_lendEnd : exec (.lendEnd) s = execLendEnd s := rfl
theorem exec_refreshOverdue : exec (.refreshOverdue) s = execRefreshOverdue s := rfl
theorem exec_vaultReadTransfer : exec (.vaultReadTransfer) s = execVaultReadTransfer s := rfl
theorem exec_vaultWriteTransfer : exec (.vaultWriteTransfer) s = execVaultWriteTransfer s := rfl
theorem exec_busRetry : exec (.busRetry) s = execBusRetry s := rfl
theorem exec_laneSwap : exec (.laneSwap) s = execLaneSwap s := rfl
theorem exec_selfRefreshEntry : exec (.selfRefreshEntry) s = execSelfRefreshEntry s := rfl
theorem exec_retrainingDue : exec (.retrainingDue) s = execRetrainingDue s := rfl
theorem exec_forcedRetraining : exec (.forcedRetraining) s = execForcedRetraining s := rfl
theorem exec_segmentCopyComplete : exec (.segmentCopyComplete) s = execSegmentCopyComplete s := rfl
theorem exec_recordLoadComplete : exec (.recordLoadComplete) s = execRecordLoadComplete s := rfl
theorem exec_meshFlitInject : exec (.meshFlitInject) s = execMeshFlitInject s := rfl
theorem exec_meshFlitHop : exec (.meshFlitHop) s = execMeshFlitHop s := rfl
theorem exec_meshFlitArrival : exec (.meshFlitArrival) s = execMeshFlitArrival s := rfl
theorem exec_cisternRequestApply : exec (.cisternRequestApply) s = execCisternRequestApply s := rfl
theorem exec_weirByteDecrement : exec (.weirByteDecrement) s = execWeirByteDecrement s := rfl
theorem exec_eventLatchSet : exec (.eventLatchSet) s = execEventLatchSet s := rfl
theorem exec_packetFetch : exec (.packetFetch) s = execPacketFetch s := rfl
theorem exec_packetDispatch : exec (.packetDispatch) s = execPacketDispatch s := rfl
theorem exec_ivDone : exec (.ivDone) s = execIvDone s := rfl
theorem exec_ivDrop : exec (.ivDrop) s = execIvDrop s := rfl
theorem exec_sluiceStartArrival : exec (.sluiceStartArrival) s = execSluiceStartArrival s := rfl
theorem exec_jobApply : exec (.jobApply) s = execJobApply s := rfl
theorem exec_jobUnit : exec (.jobUnit) s = execJobUnit s := rfl
theorem exec_jobCompletionRecord : exec (.jobCompletionRecord) s = execJobCompletionRecord s := rfl
theorem exec_kernelLoad : exec (.kernelLoad) s = execKernelLoad s := rfl
theorem exec_kernelBind : exec (.kernelBind) s = execKernelBind s := rfl
theorem exec_timetableStart : exec (.timetableStart) s = execTimetableStart s := rfl
theorem exec_replanSwitch : exec (.replanSwitch) s = execReplanSwitch s := rfl
theorem exec_hostServiceTimeout : exec (.hostServiceTimeout) s = execHostServiceTimeout s := rfl
theorem exec_kernelComplete : exec (.kernelComplete) s = execKernelComplete s := rfl
theorem exec_contextWipeComplete : exec (.contextWipeComplete) s = execContextWipeComplete s := rfl
theorem exec_yieldStop : exec (.yieldStop) s = execYieldStop s := rfl
theorem exec_contextSaveComplete : exec (.contextSaveComplete) s = execContextSaveComplete s := rfl
theorem exec_gangSliceAbort : exec (.gangSliceAbort) s = execGangSliceAbort s := rfl
theorem exec_linkReceiveTimeout : exec (.linkReceiveTimeout) s = execLinkReceiveTimeout s := rfl
theorem exec_linkFlitAccept : exec (.linkFlitAccept) s = execLinkFlitAccept s := rfl
theorem exec_collectiveStart : exec (.collectiveStart) s = execCollectiveStart s := rfl
theorem exec_collectiveComplete : exec (.collectiveComplete) s = execCollectiveComplete s := rfl
theorem exec_sliceStartTimeReached : exec (.sliceStartTimeReached) s = execSliceStartTimeReached s := rfl

end Sys2Proof.Machine
end

