-- ==== Sys2Proof/Laws/Maps.lean ====
section
/-!
SUPPORT. Laws/Maps.lean: what reading and writing numbered entries and memory comes to: read after write, and the canonical form of memory,
which every memory operation keeps.
-/

namespace Sys2Proof.Machine

/-! ## Numbered entries -/

@[simp] theorem mapGet_nil {α : Type} (d : α) (k : Nat) : mapGet d [] k = d := rfl
@[simp] theorem mapFind_nil {α : Type} (k : Nat) : mapFind ([] : Map α) k = none := rfl

theorem mapGet_mapPut_self {α : Type} (d : α) (m : Map α) (k : Nat) (v : α) : mapGet d (mapPut m k v) k = v := by
  induction m with
  | nil => simp [mapPut, mapGet]
  | cons e r ih =>
    obtain ⟨j, w⟩ := e
    simp only [mapPut]
    split
    · simp [mapGet]
    · split
      · simp [mapGet]
      · next h => simp [mapGet, ih, Ne.symm h]

theorem mapGet_mapPut_ne {α : Type} (d : α) (m : Map α) {k n : Nat} (v : α) (h : n ≠ k) : mapGet d (mapPut m k v) n = mapGet d m n := by
  induction m with
  | nil => simp [mapPut, mapGet, Ne.symm h]
  | cons e r ih =>
    obtain ⟨j, w⟩ := e
    simp only [mapPut]
    split
    · simp [mapGet, Ne.symm h]
    · split
      · next hk => subst hk; simp [mapGet, Ne.symm h]
      · simp [mapGet, ih]

theorem mapGet_mapDel_ne {α : Type} (d : α) (m : Map α) {k n : Nat} (h : n ≠ k) : mapGet d (mapDel m k) n = mapGet d m n := by
  induction m with
  | nil => rfl
  | cons e r ih =>
    obtain ⟨j, w⟩ := e
    simp only [mapDel]
    split
    · next hk => subst hk; simp [mapGet, Ne.symm h]
    · simp [mapGet, ih]

theorem mapFind_mapPut_self {α : Type} (m : Map α) (k : Nat) (v : α) : mapFind (mapPut m k v) k = some v := by
  induction m with
  | nil => simp [mapPut, mapFind]
  | cons e r ih =>
    obtain ⟨j, w⟩ := e
    simp only [mapPut]
    split
    · simp [mapFind]
    · split
      · simp [mapFind]
      · next h => simp [mapFind, ih, Ne.symm h]

theorem mapFind_mapPut_ne {α : Type} (m : Map α) {k n : Nat} (v : α) (h : n ≠ k) : mapFind (mapPut m k v) n = mapFind m n := by
  induction m with
  | nil => simp [mapPut, mapFind, Ne.symm h]
  | cons e r ih =>
    obtain ⟨j, w⟩ := e
    simp only [mapPut]
    split
    · simp [mapFind, Ne.symm h]
    · split
      · next hk => subst hk; simp [mapFind, Ne.symm h]
      · simp [mapFind, ih]

theorem mapPut_mem {α : Type} (m : Map α) (k : Nat) (v : α) : ∀ e ∈ mapPut m k v, e = (k, v) ∨ e ∈ m := by
  induction m with
  | nil => simp [mapPut]
  | cons c r ih =>
    obtain ⟨j, w⟩ := c
    intro e he
    simp only [mapPut] at he
    split at he
    · simpa using he
    · split at he
      · rcases List.mem_cons.mp he with h | h
        · exact .inl h
        · exact .inr (List.mem_cons_of_mem _ h)
      · rcases List.mem_cons.mp he with h | h
        · exact .inr (by simp [h])
        · rcases ih e h with h | h
          · exact .inl h
          · exact .inr (List.mem_cons_of_mem _ h)

theorem mapPut_rising {α : Type} (m : Map α) (k : Nat) (v : α) (h : RisingMap m) : RisingMap (mapPut m k v) := by
  induction m with
  | nil => simp [mapPut, RisingMap]
  | cons c r ih =>
    obtain ⟨j, w⟩ := c
    rw [RisingMap, List.pairwise_cons] at h
    simp only [mapPut]
    split
    · next hk =>
      rw [RisingMap, List.pairwise_cons, List.pairwise_cons]
      exact ⟨fun e he => by
        rcases List.mem_cons.mp he with he | he
        · simpa [he] using hk
        · exact Nat.lt_trans hk (h.1 e he), h⟩
    · split
      · next hk => subst hk; rw [RisingMap, List.pairwise_cons]; exact h
      · next h1 h2 =>
        rw [RisingMap, List.pairwise_cons]
        refine ⟨fun e he => ?_, ih h.2⟩
        rcases mapPut_mem r k v e he with he | he
        · rw [he]; show j < k; omega
        · exact h.1 e he

theorem mapDel_sublist {α : Type} (m : Map α) (k : Nat) : (mapDel m k).Sublist m := by
  induction m with
  | nil => exact List.Sublist.refl _
  | cons c r ih =>
    obtain ⟨j, w⟩ := c
    simp only [mapDel]
    split
    · exact List.sublist_cons_self _ _
    · exact ih.cons_cons _

theorem mapDel_rising {α : Type} (m : Map α) (k : Nat) (h : RisingMap m) : RisingMap (mapDel m k) := h.sublist (mapDel_sublist m k)

theorem mapGet_mapDel_self {α : Type} (d : α) (m : Map α) (k : Nat) (h : RisingMap m) : mapGet d (mapDel m k) k = d := by
  induction m with
  | nil => rfl
  | cons c r ih =>
    obtain ⟨j, w⟩ := c
    rw [RisingMap, List.pairwise_cons] at h
    simp only [mapDel]
    split
    · next hj =>
      subst hj
      have no : ∀ e ∈ r, j < e.1 := h.1
      clear ih h
      induction r with
      | nil => rfl
      | cons e r ih =>
        have := no e (by simp)
        simp only [mapGet]
        rw [if_neg (by omega)]
        exact ih fun e he => no e (List.mem_cons_of_mem _ he)
    · next hj => simp [mapGet, hj, ih h.2]

/-- What an entry reads as once it is written, in a map whose numbers rise. -/
theorem mapGet_mapSet_self {α : Type} [DecidableEq α] (d : α) (m : Map α) (k : Nat) (v : α) (h : RisingMap m) : mapGet d (mapSet d m k v) k = v := by
  unfold mapSet
  split
  · next hv => rw [hv, mapGet_mapDel_self d m k h]
  · exact mapGet_mapPut_self d m k v

/-- Every other entry reads as before. -/
theorem mapGet_mapSet_ne {α : Type} [DecidableEq α] (d : α) (m : Map α) {k n : Nat} (v : α) (h : n ≠ k) :
    mapGet d (mapSet d m k v) n = mapGet d m n := by
  unfold mapSet
  split
  · exact mapGet_mapDel_ne d m h
  · exact mapGet_mapPut_ne d m v h

theorem mapSet_rising {α : Type} [DecidableEq α] (d : α) (m : Map α) (k : Nat) (v : α) (h : RisingMap m) : RisingMap (mapSet d m k v) := by
  unfold mapSet
  split
  · exact mapDel_rising m k h
  · exact mapPut_rising m k v h

/-! ## The canonical form of memory -/

/-- Memory.wf says that addresses rise strictly and that no zero byte is listed. -/
theorem memWf_iff (m : Mem) : Memory.wf m = true ↔ RisingMap m ∧ ∀ c ∈ m, c.2 ≠ 0 := by
  induction m with
  | nil => simp [Memory.wf, RisingMap]
  | cons c r ih =>
    obtain ⟨a, b⟩ := c
    cases r with
    | nil => simp [Memory.wf, RisingMap]
    | cons e r =>
      obtain ⟨a', b'⟩ := e
      simp only [Memory.wf, Bool.and_eq_true, bne_iff_ne, decide_eq_true_eq, ih, RisingMap, List.pairwise_cons]
      constructor
      · rintro ⟨⟨hb, ha⟩, ⟨hp, hr⟩, hz⟩
        refine ⟨⟨fun x hx => ?_, hp, hr⟩, fun x hx => ?_⟩
        · rcases List.mem_cons.mp hx with hx | hx
          · rw [hx]; exact ha
          · exact Nat.lt_trans ha (hp x hx)
        · rcases List.mem_cons.mp hx with hx | hx
          · rw [hx]; exact hb
          · exact hz x hx
      · rintro ⟨⟨h1, hp, hr⟩, hz⟩
        exact ⟨⟨hz (a, b) (by simp), h1 (a', b') (by simp)⟩, ⟨hp, hr⟩, fun x hx => hz x (List.mem_cons_of_mem _ hx)⟩

@[simp] theorem memWf_nil : Memory.wf [] = true := rfl

/-- Writing one byte keeps the form. -/
theorem memSet_wf (m : Mem) (a : Nat) (b : Byte) (h : Memory.wf m = true) : Memory.wf (memSet m a b) = true := by
  rw [memWf_iff] at h ⊢
  refine ⟨mapSet_rising 0 m a b h.1, fun c hc => ?_⟩
  unfold memSet mapSet at hc
  split at hc
  · exact h.2 c ((mapDel_sublist m a).subset hc)
  · next hb =>
    rcases mapPut_mem m a b c hc with hc | hc
    · rw [hc]; exact hb
    · exact h.2 c hc

theorem memCells_mem (lo : Nat) (bs : List Byte) : ∀ c ∈ memCells lo bs, lo ≤ c.1 ∧ c.1 < lo + bs.length ∧ c.2 ≠ 0 := by
  induction bs generalizing lo with
  | nil => simp [memCells]
  | cons b r ih =>
    intro c hc
    simp only [memCells] at hc
    split at hc
    · have := ih (lo + 1) c hc
      simp only [List.length_cons]; exact ⟨by omega, by omega, this.2.2⟩
    · next hb =>
      rcases List.mem_cons.mp hc with hc | hc
      · rw [hc]; simp only [List.length_cons]; exact ⟨Nat.le_refl _, by omega, hb⟩
      · have := ih (lo + 1) c hc
        simp only [List.length_cons]; exact ⟨by omega, by omega, this.2.2⟩

theorem memCells_rising (lo : Nat) (bs : List Byte) : RisingMap (memCells lo bs) := by
  induction bs generalizing lo with
  | nil => simp [memCells, RisingMap]
  | cons b r ih =>
    simp only [memCells]
    split
    · exact ih (lo + 1)
    · rw [RisingMap, List.pairwise_cons]
      exact ⟨fun c hc => by have := memCells_mem (lo + 1) r c hc; show lo < c.1; omega, ih (lo + 1)⟩

/-- Writing a run of bytes keeps the form. -/
theorem memPutRange_wf (m : Mem) (lo : Nat) (bs : List Byte) (h : Memory.wf m = true) : Memory.wf (memPutRange m lo bs) = true := by
  rw [memWf_iff] at h ⊢
  obtain ⟨hr, hz⟩ := h
  unfold memPutRange
  constructor
  · rw [RisingMap, List.pairwise_append, List.pairwise_append]
    refine ⟨⟨hr.sublist List.filter_sublist, memCells_rising lo bs, fun a ha b hb => ?_⟩, hr.sublist List.filter_sublist, fun a ha b hb => ?_⟩
    · have := memCells_mem lo bs b hb
      have := of_decide_eq_true (List.mem_filter.mp ha).2
      omega
    · have hb' := of_decide_eq_true (List.mem_filter.mp hb).2
      rcases List.mem_append.mp ha with ha | ha
      · have := of_decide_eq_true (List.mem_filter.mp ha).2
        omega
      · have := memCells_mem lo bs a ha
        omega
  · intro c hc
    rcases List.mem_append.mp hc with hc | hc
    · rcases List.mem_append.mp hc with hc | hc
      · exact hz c (List.mem_filter.mp hc).1
      · exact (memCells_mem lo bs c hc).2.2
    · exact hz c (List.mem_filter.mp hc).1

/-- A byte read after it is written. -/
theorem memGet_memSet_self (m : Mem) (a : Nat) (b : Byte) (h : Memory.wf m = true) : memGet (memSet m a b) a = b :=
  mapGet_mapSet_self 0 m a b ((memWf_iff m).mp h).1

/-- Every other byte reads as before. -/
theorem memGet_memSet_ne (m : Mem) {a n : Nat} (b : Byte) (h : n ≠ a) : memGet (memSet m a b) n = memGet m n := mapGet_mapSet_ne 0 m b h

theorem mapGet_append {α : Type} (d : α) (m n : Map α) (k : Nat) (h : ∀ e ∈ m, e.1 ≠ k) : mapGet d (m ++ n) k = mapGet d n k := by
  induction m with
  | nil => rfl
  | cons c r ih =>
    obtain ⟨j, w⟩ := c
    simp only [List.cons_append, mapGet]
    rw [if_neg (h (j, w) (by simp)), ih fun e he => h e (List.mem_cons_of_mem _ he)]

theorem mapGet_append_left {α : Type} (d : α) (m n : Map α) (k : Nat) (h : ∀ e ∈ n, e.1 ≠ k) : mapGet d (m ++ n) k = mapGet d m k := by
  induction m with
  | nil =>
    have := mapGet_append d n [] k h
    simpa using this
  | cons c r ih =>
    obtain ⟨j, w⟩ := c
    simp only [List.cons_append, mapGet, ih]

theorem mapGet_filter {α : Type} (d : α) (m : Map α) (p : Nat → Bool) (k : Nat) (h : p k = true) : mapGet d (m.filter fun c => p c.1) k = mapGet d m k := by
  induction m with
  | nil => rfl
  | cons c r ih =>
    obtain ⟨j, w⟩ := c
    simp only [List.filter_cons]
    split
    · simp only [mapGet, ih]
    · next hj =>
      simp only [mapGet]
      rw [if_neg (by rintro rfl; exact hj h), ih]

/-- A byte outside a run that is written reads as before. -/
theorem memGet_memPutRange_out (m : Mem) (lo : Nat) (bs : List Byte) (a : Nat) (h : a < lo ∨ lo + bs.length ≤ a) :
    memGet (memPutRange m lo bs) a = memGet m a := by
  unfold memPutRange memGet
  rcases h with h | h
  · rw [mapGet_append_left, mapGet_append_left]
    · exact mapGet_filter 0 m (fun x => decide (x < lo)) a (by simpa using h)
    · intro e he; have := memCells_mem lo bs e he; omega
    · intro e he; have := of_decide_eq_true (List.mem_filter.mp he).2; omega
  · rw [mapGet_append]
    · exact mapGet_filter 0 m (fun x => decide (lo + bs.length ≤ x)) a (by simpa using h)
    · intro e he
      rcases List.mem_append.mp he with he | he
      · have := of_decide_eq_true (List.mem_filter.mp he).2; omega
      · have := memCells_mem lo bs e he; omega

theorem mapGet_memCells (lo : Nat) (bs : List Byte) (i : Nat) (h : i < bs.length) : mapGet 0 (memCells lo bs) (lo + i) = bs.getD i 0 := by
  induction bs generalizing lo i with
  | nil => simp at h
  | cons b r ih =>
    cases i with
    | zero =>
      simp only [memCells]
      split
      · next hb =>
        have := mapGet_append (0 : Byte) (memCells (lo + 1) r) [] (lo + 0) (fun e he => by have := memCells_mem (lo + 1) r e he; omega)
        simpa [hb] using this
      · simp [mapGet]
    | succ j =>
      have := ih (lo + 1) j (by simpa using h)
      have e : lo + 1 + j = lo + (j + 1) := by omega
      rw [e] at this
      simp only [memCells]
      split
      · simpa using this
      · simp only [mapGet]; rw [if_neg (by omega)]; simpa using this

/-- A byte of a run reads as it was written. -/
theorem memGet_memPutRange_in (m : Mem) (lo : Nat) (bs : List Byte) (i : Nat) (h : i < bs.length) :
    memGet (memPutRange m lo bs) (lo + i) = bs.getD i 0 := by
  unfold memPutRange memGet
  rw [mapGet_append_left, mapGet_append]
  · exact mapGet_memCells lo bs i h
  · intro e he; have := of_decide_eq_true (List.mem_filter.mp he).2; omega
  · intro e he; have := of_decide_eq_true (List.mem_filter.mp he).2; omega

end Sys2Proof.Machine
end

