-- ==== Sys2Proof/Laws/State.lean ====
section
/-!
SUPPORT. Laws/State.lean: one lemma for each field and each update of the state, and what the reads of its parts come to after an update.
-/

namespace Sys2Proof.Machine

/-! ## setTile -/

@[simp] theorem State.setTile_todo (s : State) (t : TileId) (x : Tile) : (s.setTile t x).todo = s.todo := rfl
@[simp] theorem State.setTile_agenda (s : State) (t : TileId) (x : Tile) : (s.setTile t x).agenda = s.agenda := rfl
@[simp] theorem State.setTile_wall (s : State) (t : TileId) (x : Tile) : (s.setTile t x).wall = s.wall := rfl
@[simp] theorem State.setTile_free (s : State) (t : TileId) (x : Tile) : (s.setTile t x).free = s.free := rfl
@[simp] theorem State.setTile_pkg (s : State) (t : TileId) (x : Tile) : (s.setTile t x).pkg = s.pkg := rfl
@[simp] theorem State.setTile_ev (s : State) (t : TileId) (x : Tile) : (s.setTile t x).ev = s.ev := rfl
@[simp] theorem State.setTile_cur (s : State) (t : TileId) (x : Tile) : (s.setTile t x).cur = s.cur := rfl
@[simp] theorem State.setTile_sec (s : State) (t : TileId) (x : Tile) : (s.setTile t x).sec = s.sec := rfl
@[simp] theorem State.setTile_health (s : State) (t : TileId) (x : Tile) : (s.setTile t x).health = s.health := rfl
@[simp] theorem State.setTile_ctxs (s : State) (t : TileId) (x : Tile) : (s.setTile t x).ctxs = s.ctxs := rfl
@[simp] theorem State.setTile_kernels (s : State) (t : TileId) (x : Tile) : (s.setTile t x).kernels = s.kernels := rfl
@[simp] theorem State.setTile_dies (s : State) (t : TileId) (x : Tile) : (s.setTile t x).dies = s.dies := rfl
@[simp] theorem State.setTile_qe (s : State) (t : TileId) (x : Tile) : (s.setTile t x).qe = s.qe := rfl
@[simp] theorem State.setTile_links (s : State) (t : TileId) (x : Tile) : (s.setTile t x).links = s.links := rfl
@[simp] theorem State.setTile_ltBase (s : State) (t : TileId) (x : Tile) : (s.setTile t x).ltBase = s.ltBase := rfl
@[simp] theorem State.setTile_host (s : State) (t : TileId) (x : Tile) : (s.setTile t x).host = s.host := rfl
@[simp] theorem State.setTile_asks (s : State) (t : TileId) (x : Tile) : (s.setTile t x).asks = s.asks := rfl
@[simp] theorem State.setTile_asked (s : State) (t : TileId) (x : Tile) : (s.setTile t x).asked = s.asked := rfl

/-! ## updTile -/

@[simp] theorem State.updTile_todo (s : State) (t : TileId) (f : Tile → Tile) : (s.updTile t f).todo = s.todo := rfl
@[simp] theorem State.updTile_agenda (s : State) (t : TileId) (f : Tile → Tile) : (s.updTile t f).agenda = s.agenda := rfl
@[simp] theorem State.updTile_wall (s : State) (t : TileId) (f : Tile → Tile) : (s.updTile t f).wall = s.wall := rfl
@[simp] theorem State.updTile_free (s : State) (t : TileId) (f : Tile → Tile) : (s.updTile t f).free = s.free := rfl
@[simp] theorem State.updTile_pkg (s : State) (t : TileId) (f : Tile → Tile) : (s.updTile t f).pkg = s.pkg := rfl
@[simp] theorem State.updTile_ev (s : State) (t : TileId) (f : Tile → Tile) : (s.updTile t f).ev = s.ev := rfl
@[simp] theorem State.updTile_cur (s : State) (t : TileId) (f : Tile → Tile) : (s.updTile t f).cur = s.cur := rfl
@[simp] theorem State.updTile_sec (s : State) (t : TileId) (f : Tile → Tile) : (s.updTile t f).sec = s.sec := rfl
@[simp] theorem State.updTile_health (s : State) (t : TileId) (f : Tile → Tile) : (s.updTile t f).health = s.health := rfl
@[simp] theorem State.updTile_ctxs (s : State) (t : TileId) (f : Tile → Tile) : (s.updTile t f).ctxs = s.ctxs := rfl
@[simp] theorem State.updTile_kernels (s : State) (t : TileId) (f : Tile → Tile) : (s.updTile t f).kernels = s.kernels := rfl
@[simp] theorem State.updTile_dies (s : State) (t : TileId) (f : Tile → Tile) : (s.updTile t f).dies = s.dies := rfl
@[simp] theorem State.updTile_qe (s : State) (t : TileId) (f : Tile → Tile) : (s.updTile t f).qe = s.qe := rfl
@[simp] theorem State.updTile_links (s : State) (t : TileId) (f : Tile → Tile) : (s.updTile t f).links = s.links := rfl
@[simp] theorem State.updTile_ltBase (s : State) (t : TileId) (f : Tile → Tile) : (s.updTile t f).ltBase = s.ltBase := rfl
@[simp] theorem State.updTile_host (s : State) (t : TileId) (f : Tile → Tile) : (s.updTile t f).host = s.host := rfl
@[simp] theorem State.updTile_asks (s : State) (t : TileId) (f : Tile → Tile) : (s.updTile t f).asks = s.asks := rfl
@[simp] theorem State.updTile_asked (s : State) (t : TileId) (f : Tile → Tile) : (s.updTile t f).asked = s.asked := rfl

/-! ## setDie -/

@[simp] theorem State.setDie_todo (s : State) (d : Nat) (x : Die) : (s.setDie d x).todo = s.todo := rfl
@[simp] theorem State.setDie_agenda (s : State) (d : Nat) (x : Die) : (s.setDie d x).agenda = s.agenda := rfl
@[simp] theorem State.setDie_wall (s : State) (d : Nat) (x : Die) : (s.setDie d x).wall = s.wall := rfl
@[simp] theorem State.setDie_free (s : State) (d : Nat) (x : Die) : (s.setDie d x).free = s.free := rfl
@[simp] theorem State.setDie_pkg (s : State) (d : Nat) (x : Die) : (s.setDie d x).pkg = s.pkg := rfl
@[simp] theorem State.setDie_ev (s : State) (d : Nat) (x : Die) : (s.setDie d x).ev = s.ev := rfl
@[simp] theorem State.setDie_cur (s : State) (d : Nat) (x : Die) : (s.setDie d x).cur = s.cur := rfl
@[simp] theorem State.setDie_sec (s : State) (d : Nat) (x : Die) : (s.setDie d x).sec = s.sec := rfl
@[simp] theorem State.setDie_health (s : State) (d : Nat) (x : Die) : (s.setDie d x).health = s.health := rfl
@[simp] theorem State.setDie_ctxs (s : State) (d : Nat) (x : Die) : (s.setDie d x).ctxs = s.ctxs := rfl
@[simp] theorem State.setDie_kernels (s : State) (d : Nat) (x : Die) : (s.setDie d x).kernels = s.kernels := rfl
@[simp] theorem State.setDie_tiles (s : State) (d : Nat) (x : Die) : (s.setDie d x).tiles = s.tiles := rfl
@[simp] theorem State.setDie_qe (s : State) (d : Nat) (x : Die) : (s.setDie d x).qe = s.qe := rfl
@[simp] theorem State.setDie_links (s : State) (d : Nat) (x : Die) : (s.setDie d x).links = s.links := rfl
@[simp] theorem State.setDie_ltBase (s : State) (d : Nat) (x : Die) : (s.setDie d x).ltBase = s.ltBase := rfl
@[simp] theorem State.setDie_host (s : State) (d : Nat) (x : Die) : (s.setDie d x).host = s.host := rfl
@[simp] theorem State.setDie_asks (s : State) (d : Nat) (x : Die) : (s.setDie d x).asks = s.asks := rfl
@[simp] theorem State.setDie_asked (s : State) (d : Nat) (x : Die) : (s.setDie d x).asked = s.asked := rfl

/-! ## updDie -/

@[simp] theorem State.updDie_todo (s : State) (d : Nat) (f : Die → Die) : (s.updDie d f).todo = s.todo := rfl
@[simp] theorem State.updDie_agenda (s : State) (d : Nat) (f : Die → Die) : (s.updDie d f).agenda = s.agenda := rfl
@[simp] theorem State.updDie_wall (s : State) (d : Nat) (f : Die → Die) : (s.updDie d f).wall = s.wall := rfl
@[simp] theorem State.updDie_free (s : State) (d : Nat) (f : Die → Die) : (s.updDie d f).free = s.free := rfl
@[simp] theorem State.updDie_pkg (s : State) (d : Nat) (f : Die → Die) : (s.updDie d f).pkg = s.pkg := rfl
@[simp] theorem State.updDie_ev (s : State) (d : Nat) (f : Die → Die) : (s.updDie d f).ev = s.ev := rfl
@[simp] theorem State.updDie_cur (s : State) (d : Nat) (f : Die → Die) : (s.updDie d f).cur = s.cur := rfl
@[simp] theorem State.updDie_sec (s : State) (d : Nat) (f : Die → Die) : (s.updDie d f).sec = s.sec := rfl
@[simp] theorem State.updDie_health (s : State) (d : Nat) (f : Die → Die) : (s.updDie d f).health = s.health := rfl
@[simp] theorem State.updDie_ctxs (s : State) (d : Nat) (f : Die → Die) : (s.updDie d f).ctxs = s.ctxs := rfl
@[simp] theorem State.updDie_kernels (s : State) (d : Nat) (f : Die → Die) : (s.updDie d f).kernels = s.kernels := rfl
@[simp] theorem State.updDie_tiles (s : State) (d : Nat) (f : Die → Die) : (s.updDie d f).tiles = s.tiles := rfl
@[simp] theorem State.updDie_qe (s : State) (d : Nat) (f : Die → Die) : (s.updDie d f).qe = s.qe := rfl
@[simp] theorem State.updDie_links (s : State) (d : Nat) (f : Die → Die) : (s.updDie d f).links = s.links := rfl
@[simp] theorem State.updDie_ltBase (s : State) (d : Nat) (f : Die → Die) : (s.updDie d f).ltBase = s.ltBase := rfl
@[simp] theorem State.updDie_host (s : State) (d : Nat) (f : Die → Die) : (s.updDie d f).host = s.host := rfl
@[simp] theorem State.updDie_asks (s : State) (d : Nat) (f : Die → Die) : (s.updDie d f).asks = s.asks := rfl
@[simp] theorem State.updDie_asked (s : State) (d : Nat) (f : Die → Die) : (s.updDie d f).asked = s.asked := rfl

/-! ## setCtx -/

@[simp] theorem State.setCtx_todo (s : State) (c : Nat) (x : Context) : (s.setCtx c x).todo = s.todo := rfl
@[simp] theorem State.setCtx_agenda (s : State) (c : Nat) (x : Context) : (s.setCtx c x).agenda = s.agenda := rfl
@[simp] theorem State.setCtx_wall (s : State) (c : Nat) (x : Context) : (s.setCtx c x).wall = s.wall := rfl
@[simp] theorem State.setCtx_free (s : State) (c : Nat) (x : Context) : (s.setCtx c x).free = s.free := rfl
@[simp] theorem State.setCtx_pkg (s : State) (c : Nat) (x : Context) : (s.setCtx c x).pkg = s.pkg := rfl
@[simp] theorem State.setCtx_ev (s : State) (c : Nat) (x : Context) : (s.setCtx c x).ev = s.ev := rfl
@[simp] theorem State.setCtx_cur (s : State) (c : Nat) (x : Context) : (s.setCtx c x).cur = s.cur := rfl
@[simp] theorem State.setCtx_sec (s : State) (c : Nat) (x : Context) : (s.setCtx c x).sec = s.sec := rfl
@[simp] theorem State.setCtx_health (s : State) (c : Nat) (x : Context) : (s.setCtx c x).health = s.health := rfl
@[simp] theorem State.setCtx_kernels (s : State) (c : Nat) (x : Context) : (s.setCtx c x).kernels = s.kernels := rfl
@[simp] theorem State.setCtx_tiles (s : State) (c : Nat) (x : Context) : (s.setCtx c x).tiles = s.tiles := rfl
@[simp] theorem State.setCtx_dies (s : State) (c : Nat) (x : Context) : (s.setCtx c x).dies = s.dies := rfl
@[simp] theorem State.setCtx_qe (s : State) (c : Nat) (x : Context) : (s.setCtx c x).qe = s.qe := rfl
@[simp] theorem State.setCtx_links (s : State) (c : Nat) (x : Context) : (s.setCtx c x).links = s.links := rfl
@[simp] theorem State.setCtx_ltBase (s : State) (c : Nat) (x : Context) : (s.setCtx c x).ltBase = s.ltBase := rfl
@[simp] theorem State.setCtx_host (s : State) (c : Nat) (x : Context) : (s.setCtx c x).host = s.host := rfl
@[simp] theorem State.setCtx_asks (s : State) (c : Nat) (x : Context) : (s.setCtx c x).asks = s.asks := rfl
@[simp] theorem State.setCtx_asked (s : State) (c : Nat) (x : Context) : (s.setCtx c x).asked = s.asked := rfl

/-! ## updCtx -/

@[simp] theorem State.updCtx_todo (s : State) (c : Nat) (f : Context → Context) : (s.updCtx c f).todo = s.todo := rfl
@[simp] theorem State.updCtx_agenda (s : State) (c : Nat) (f : Context → Context) : (s.updCtx c f).agenda = s.agenda := rfl
@[simp] theorem State.updCtx_wall (s : State) (c : Nat) (f : Context → Context) : (s.updCtx c f).wall = s.wall := rfl
@[simp] theorem State.updCtx_free (s : State) (c : Nat) (f : Context → Context) : (s.updCtx c f).free = s.free := rfl
@[simp] theorem State.updCtx_pkg (s : State) (c : Nat) (f : Context → Context) : (s.updCtx c f).pkg = s.pkg := rfl
@[simp] theorem State.updCtx_ev (s : State) (c : Nat) (f : Context → Context) : (s.updCtx c f).ev = s.ev := rfl
@[simp] theorem State.updCtx_cur (s : State) (c : Nat) (f : Context → Context) : (s.updCtx c f).cur = s.cur := rfl
@[simp] theorem State.updCtx_sec (s : State) (c : Nat) (f : Context → Context) : (s.updCtx c f).sec = s.sec := rfl
@[simp] theorem State.updCtx_health (s : State) (c : Nat) (f : Context → Context) : (s.updCtx c f).health = s.health := rfl
@[simp] theorem State.updCtx_kernels (s : State) (c : Nat) (f : Context → Context) : (s.updCtx c f).kernels = s.kernels := rfl
@[simp] theorem State.updCtx_tiles (s : State) (c : Nat) (f : Context → Context) : (s.updCtx c f).tiles = s.tiles := rfl
@[simp] theorem State.updCtx_dies (s : State) (c : Nat) (f : Context → Context) : (s.updCtx c f).dies = s.dies := rfl
@[simp] theorem State.updCtx_qe (s : State) (c : Nat) (f : Context → Context) : (s.updCtx c f).qe = s.qe := rfl
@[simp] theorem State.updCtx_links (s : State) (c : Nat) (f : Context → Context) : (s.updCtx c f).links = s.links := rfl
@[simp] theorem State.updCtx_ltBase (s : State) (c : Nat) (f : Context → Context) : (s.updCtx c f).ltBase = s.ltBase := rfl
@[simp] theorem State.updCtx_host (s : State) (c : Nat) (f : Context → Context) : (s.updCtx c f).host = s.host := rfl
@[simp] theorem State.updCtx_asks (s : State) (c : Nat) (f : Context → Context) : (s.updCtx c f).asks = s.asks := rfl
@[simp] theorem State.updCtx_asked (s : State) (c : Nat) (f : Context → Context) : (s.updCtx c f).asked = s.asked := rfl

/-! ## setKernel -/

@[simp] theorem State.setKernel_todo (s : State) (n : Nat) (k : Kernel) : (s.setKernel n k).todo = s.todo := rfl
@[simp] theorem State.setKernel_agenda (s : State) (n : Nat) (k : Kernel) : (s.setKernel n k).agenda = s.agenda := rfl
@[simp] theorem State.setKernel_wall (s : State) (n : Nat) (k : Kernel) : (s.setKernel n k).wall = s.wall := rfl
@[simp] theorem State.setKernel_free (s : State) (n : Nat) (k : Kernel) : (s.setKernel n k).free = s.free := rfl
@[simp] theorem State.setKernel_pkg (s : State) (n : Nat) (k : Kernel) : (s.setKernel n k).pkg = s.pkg := rfl
@[simp] theorem State.setKernel_ev (s : State) (n : Nat) (k : Kernel) : (s.setKernel n k).ev = s.ev := rfl
@[simp] theorem State.setKernel_cur (s : State) (n : Nat) (k : Kernel) : (s.setKernel n k).cur = s.cur := rfl
@[simp] theorem State.setKernel_sec (s : State) (n : Nat) (k : Kernel) : (s.setKernel n k).sec = s.sec := rfl
@[simp] theorem State.setKernel_health (s : State) (n : Nat) (k : Kernel) : (s.setKernel n k).health = s.health := rfl
@[simp] theorem State.setKernel_ctxs (s : State) (n : Nat) (k : Kernel) : (s.setKernel n k).ctxs = s.ctxs := rfl
@[simp] theorem State.setKernel_tiles (s : State) (n : Nat) (k : Kernel) : (s.setKernel n k).tiles = s.tiles := rfl
@[simp] theorem State.setKernel_dies (s : State) (n : Nat) (k : Kernel) : (s.setKernel n k).dies = s.dies := rfl
@[simp] theorem State.setKernel_qe (s : State) (n : Nat) (k : Kernel) : (s.setKernel n k).qe = s.qe := rfl
@[simp] theorem State.setKernel_links (s : State) (n : Nat) (k : Kernel) : (s.setKernel n k).links = s.links := rfl
@[simp] theorem State.setKernel_ltBase (s : State) (n : Nat) (k : Kernel) : (s.setKernel n k).ltBase = s.ltBase := rfl
@[simp] theorem State.setKernel_host (s : State) (n : Nat) (k : Kernel) : (s.setKernel n k).host = s.host := rfl
@[simp] theorem State.setKernel_asks (s : State) (n : Nat) (k : Kernel) : (s.setKernel n k).asks = s.asks := rfl
@[simp] theorem State.setKernel_asked (s : State) (n : Nat) (k : Kernel) : (s.setKernel n k).asked = s.asked := rfl

/-! ## delKernel -/

@[simp] theorem State.delKernel_todo (s : State) (n : Nat) : (s.delKernel n).todo = s.todo := rfl
@[simp] theorem State.delKernel_agenda (s : State) (n : Nat) : (s.delKernel n).agenda = s.agenda := rfl
@[simp] theorem State.delKernel_wall (s : State) (n : Nat) : (s.delKernel n).wall = s.wall := rfl
@[simp] theorem State.delKernel_free (s : State) (n : Nat) : (s.delKernel n).free = s.free := rfl
@[simp] theorem State.delKernel_pkg (s : State) (n : Nat) : (s.delKernel n).pkg = s.pkg := rfl
@[simp] theorem State.delKernel_ev (s : State) (n : Nat) : (s.delKernel n).ev = s.ev := rfl
@[simp] theorem State.delKernel_cur (s : State) (n : Nat) : (s.delKernel n).cur = s.cur := rfl
@[simp] theorem State.delKernel_sec (s : State) (n : Nat) : (s.delKernel n).sec = s.sec := rfl
@[simp] theorem State.delKernel_health (s : State) (n : Nat) : (s.delKernel n).health = s.health := rfl
@[simp] theorem State.delKernel_ctxs (s : State) (n : Nat) : (s.delKernel n).ctxs = s.ctxs := rfl
@[simp] theorem State.delKernel_tiles (s : State) (n : Nat) : (s.delKernel n).tiles = s.tiles := rfl
@[simp] theorem State.delKernel_dies (s : State) (n : Nat) : (s.delKernel n).dies = s.dies := rfl
@[simp] theorem State.delKernel_qe (s : State) (n : Nat) : (s.delKernel n).qe = s.qe := rfl
@[simp] theorem State.delKernel_links (s : State) (n : Nat) : (s.delKernel n).links = s.links := rfl
@[simp] theorem State.delKernel_ltBase (s : State) (n : Nat) : (s.delKernel n).ltBase = s.ltBase := rfl
@[simp] theorem State.delKernel_host (s : State) (n : Nat) : (s.delKernel n).host = s.host := rfl
@[simp] theorem State.delKernel_asks (s : State) (n : Nat) : (s.delKernel n).asks = s.asks := rfl
@[simp] theorem State.delKernel_asked (s : State) (n : Nat) : (s.delKernel n).asked = s.asked := rfl

/-! ## updLink -/

@[simp] theorem State.updLink_todo (s : State) (l : Nat) (f : Link → Link) : (s.updLink l f).todo = s.todo := rfl
@[simp] theorem State.updLink_agenda (s : State) (l : Nat) (f : Link → Link) : (s.updLink l f).agenda = s.agenda := rfl
@[simp] theorem State.updLink_wall (s : State) (l : Nat) (f : Link → Link) : (s.updLink l f).wall = s.wall := rfl
@[simp] theorem State.updLink_free (s : State) (l : Nat) (f : Link → Link) : (s.updLink l f).free = s.free := rfl
@[simp] theorem State.updLink_pkg (s : State) (l : Nat) (f : Link → Link) : (s.updLink l f).pkg = s.pkg := rfl
@[simp] theorem State.updLink_ev (s : State) (l : Nat) (f : Link → Link) : (s.updLink l f).ev = s.ev := rfl
@[simp] theorem State.updLink_cur (s : State) (l : Nat) (f : Link → Link) : (s.updLink l f).cur = s.cur := rfl
@[simp] theorem State.updLink_sec (s : State) (l : Nat) (f : Link → Link) : (s.updLink l f).sec = s.sec := rfl
@[simp] theorem State.updLink_health (s : State) (l : Nat) (f : Link → Link) : (s.updLink l f).health = s.health := rfl
@[simp] theorem State.updLink_ctxs (s : State) (l : Nat) (f : Link → Link) : (s.updLink l f).ctxs = s.ctxs := rfl
@[simp] theorem State.updLink_kernels (s : State) (l : Nat) (f : Link → Link) : (s.updLink l f).kernels = s.kernels := rfl
@[simp] theorem State.updLink_tiles (s : State) (l : Nat) (f : Link → Link) : (s.updLink l f).tiles = s.tiles := rfl
@[simp] theorem State.updLink_dies (s : State) (l : Nat) (f : Link → Link) : (s.updLink l f).dies = s.dies := rfl
@[simp] theorem State.updLink_qe (s : State) (l : Nat) (f : Link → Link) : (s.updLink l f).qe = s.qe := rfl
@[simp] theorem State.updLink_ltBase (s : State) (l : Nat) (f : Link → Link) : (s.updLink l f).ltBase = s.ltBase := rfl
@[simp] theorem State.updLink_host (s : State) (l : Nat) (f : Link → Link) : (s.updLink l f).host = s.host := rfl
@[simp] theorem State.updLink_asks (s : State) (l : Nat) (f : Link → Link) : (s.updLink l f).asks = s.asks := rfl
@[simp] theorem State.updLink_asked (s : State) (l : Nat) (f : Link → Link) : (s.updLink l f).asked = s.asked := rfl

/-! ## at -/

@[simp] theorem State.at_todo (s : State) (w : Nat) (d : Due) : (s.at w d).todo = s.todo := rfl
@[simp] theorem State.at_wall (s : State) (w : Nat) (d : Due) : (s.at w d).wall = s.wall := rfl
@[simp] theorem State.at_free (s : State) (w : Nat) (d : Due) : (s.at w d).free = s.free := rfl
@[simp] theorem State.at_pkg (s : State) (w : Nat) (d : Due) : (s.at w d).pkg = s.pkg := rfl
@[simp] theorem State.at_ev (s : State) (w : Nat) (d : Due) : (s.at w d).ev = s.ev := rfl
@[simp] theorem State.at_cur (s : State) (w : Nat) (d : Due) : (s.at w d).cur = s.cur := rfl
@[simp] theorem State.at_sec (s : State) (w : Nat) (d : Due) : (s.at w d).sec = s.sec := rfl
@[simp] theorem State.at_health (s : State) (w : Nat) (d : Due) : (s.at w d).health = s.health := rfl
@[simp] theorem State.at_ctxs (s : State) (w : Nat) (d : Due) : (s.at w d).ctxs = s.ctxs := rfl
@[simp] theorem State.at_kernels (s : State) (w : Nat) (d : Due) : (s.at w d).kernels = s.kernels := rfl
@[simp] theorem State.at_tiles (s : State) (w : Nat) (d : Due) : (s.at w d).tiles = s.tiles := rfl
@[simp] theorem State.at_dies (s : State) (w : Nat) (d : Due) : (s.at w d).dies = s.dies := rfl
@[simp] theorem State.at_qe (s : State) (w : Nat) (d : Due) : (s.at w d).qe = s.qe := rfl
@[simp] theorem State.at_links (s : State) (w : Nat) (d : Due) : (s.at w d).links = s.links := rfl
@[simp] theorem State.at_ltBase (s : State) (w : Nat) (d : Due) : (s.at w d).ltBase = s.ltBase := rfl
@[simp] theorem State.at_host (s : State) (w : Nat) (d : Due) : (s.at w d).host = s.host := rfl
@[simp] theorem State.at_asks (s : State) (w : Nat) (d : Due) : (s.at w d).asks = s.asks := rfl
@[simp] theorem State.at_asked (s : State) (w : Nat) (d : Due) : (s.at w d).asked = s.asked := rfl

/-! ## push -/

@[simp] theorem State.push_agenda (s : State) (ds : List Due) : (s.push ds).agenda = s.agenda := rfl
@[simp] theorem State.push_wall (s : State) (ds : List Due) : (s.push ds).wall = s.wall := rfl
@[simp] theorem State.push_free (s : State) (ds : List Due) : (s.push ds).free = s.free := rfl
@[simp] theorem State.push_pkg (s : State) (ds : List Due) : (s.push ds).pkg = s.pkg := rfl
@[simp] theorem State.push_ev (s : State) (ds : List Due) : (s.push ds).ev = s.ev := rfl
@[simp] theorem State.push_cur (s : State) (ds : List Due) : (s.push ds).cur = s.cur := rfl
@[simp] theorem State.push_sec (s : State) (ds : List Due) : (s.push ds).sec = s.sec := rfl
@[simp] theorem State.push_health (s : State) (ds : List Due) : (s.push ds).health = s.health := rfl
@[simp] theorem State.push_ctxs (s : State) (ds : List Due) : (s.push ds).ctxs = s.ctxs := rfl
@[simp] theorem State.push_kernels (s : State) (ds : List Due) : (s.push ds).kernels = s.kernels := rfl
@[simp] theorem State.push_tiles (s : State) (ds : List Due) : (s.push ds).tiles = s.tiles := rfl
@[simp] theorem State.push_dies (s : State) (ds : List Due) : (s.push ds).dies = s.dies := rfl
@[simp] theorem State.push_qe (s : State) (ds : List Due) : (s.push ds).qe = s.qe := rfl
@[simp] theorem State.push_links (s : State) (ds : List Due) : (s.push ds).links = s.links := rfl
@[simp] theorem State.push_ltBase (s : State) (ds : List Due) : (s.push ds).ltBase = s.ltBase := rfl
@[simp] theorem State.push_host (s : State) (ds : List Due) : (s.push ds).host = s.host := rfl
@[simp] theorem State.push_asks (s : State) (ds : List Due) : (s.push ds).asks = s.asks := rfl
@[simp] theorem State.push_asked (s : State) (ds : List Due) : (s.push ds).asked = s.asked := rfl

/-! ## tickFree -/

@[simp] theorem State.tickFree_todo (s : State) : (s.tickFree ).todo = s.todo := rfl
@[simp] theorem State.tickFree_agenda (s : State) : (s.tickFree ).agenda = s.agenda := rfl
@[simp] theorem State.tickFree_wall (s : State) : (s.tickFree ).wall = s.wall := rfl
@[simp] theorem State.tickFree_pkg (s : State) : (s.tickFree ).pkg = s.pkg := rfl
@[simp] theorem State.tickFree_ev (s : State) : (s.tickFree ).ev = s.ev := rfl
@[simp] theorem State.tickFree_cur (s : State) : (s.tickFree ).cur = s.cur := rfl
@[simp] theorem State.tickFree_sec (s : State) : (s.tickFree ).sec = s.sec := rfl
@[simp] theorem State.tickFree_health (s : State) : (s.tickFree ).health = s.health := rfl
@[simp] theorem State.tickFree_ctxs (s : State) : (s.tickFree ).ctxs = s.ctxs := rfl
@[simp] theorem State.tickFree_kernels (s : State) : (s.tickFree ).kernels = s.kernels := rfl
@[simp] theorem State.tickFree_tiles (s : State) : (s.tickFree ).tiles = s.tiles := rfl
@[simp] theorem State.tickFree_dies (s : State) : (s.tickFree ).dies = s.dies := rfl
@[simp] theorem State.tickFree_qe (s : State) : (s.tickFree ).qe = s.qe := rfl
@[simp] theorem State.tickFree_links (s : State) : (s.tickFree ).links = s.links := rfl
@[simp] theorem State.tickFree_ltBase (s : State) : (s.tickFree ).ltBase = s.ltBase := rfl
@[simp] theorem State.tickFree_host (s : State) : (s.tickFree ).host = s.host := rfl
@[simp] theorem State.tickFree_asks (s : State) : (s.tickFree ).asks = s.asks := rfl
@[simp] theorem State.tickFree_asked (s : State) : (s.tickFree ).asked = s.asked := rfl

/-! ## What an update makes of its own field -/

@[simp] theorem State.push_todo (s : State) (ds : List Due) : (s.push ds).todo = ds ++ s.todo := rfl
@[simp] theorem State.tickFree_free (s : State) : s.tickFree.free = s.free + 1 := rfl
@[simp] theorem State.at_agenda (s : State) (w : Nat) (d : Due) : (s.at w d).agenda = insertDated w d s.agenda := rfl
@[simp] theorem State.setTile_tiles (s : State) (t : TileId) (x : Tile) : (s.setTile t x).tiles = mapSet {} s.tiles t x := rfl
@[simp] theorem State.setDie_dies (s : State) (d : Nat) (x : Die) : (s.setDie d x).dies = mapSet {} s.dies d x := rfl
@[simp] theorem State.setCtx_ctxs (s : State) (c : Nat) (x : Context) : (s.setCtx c x).ctxs = mapSet {} s.ctxs c x := rfl
@[simp] theorem State.setKernel_kernels (s : State) (n : Nat) (k : Kernel) : (s.setKernel n k).kernels = mapPut s.kernels n k := rfl

/-- A tile written is not another tile. -/
theorem State.tile_setTile_ne (s : State) {t u : TileId} (x : Tile) (h : u ≠ t) : (s.setTile t x).tile u = s.tile u :=
  mapGet_mapSet_ne ({} : Tile) s.tiles x h
/-- A tile written is read back. -/
theorem State.tile_setTile_self (s : State) (t : TileId) (x : Tile) (h : RisingMap s.tiles) : (s.setTile t x).tile t = x :=
  mapGet_mapSet_self ({} : Tile) s.tiles t x h
/-- A tile changed is not another tile. -/
theorem State.tile_updTile_ne (s : State) {t u : TileId} (f : Tile → Tile) (h : u ≠ t) : (s.updTile t f).tile u = s.tile u :=
  s.tile_setTile_ne _ h
/-- A tile changed is read back. -/
theorem State.tile_updTile_self (s : State) (t : TileId) (f : Tile → Tile) (h : RisingMap s.tiles) : (s.updTile t f).tile t = f (s.tile t) :=
  s.tile_setTile_self t _ h
/-- A die written is read back. -/
theorem State.die_setDie_self (s : State) (d : Nat) (x : Die) (h : RisingMap s.dies) : (s.setDie d x).die d = x :=
  mapGet_mapSet_self ({} : Die) s.dies d x h
/-- A die written is not another die. -/
theorem State.die_setDie_ne (s : State) {d e : Nat} (x : Die) (h : e ≠ d) : (s.setDie d x).die e = s.die e :=
  mapGet_mapSet_ne ({} : Die) s.dies x h
/-- A context written is read back. -/
theorem State.ctx_setCtx_self (s : State) (c : Nat) (x : Context) (h : RisingMap s.ctxs) : (s.setCtx c x).ctx c = x :=
  mapGet_mapSet_self ({} : Context) s.ctxs c x h
/-- A context written is not another context. -/
theorem State.ctx_setCtx_ne (s : State) {c e : Nat} (x : Context) (h : e ≠ c) : (s.setCtx c x).ctx e = s.ctx e :=
  mapGet_mapSet_ne ({} : Context) s.ctxs x h
/-- A kernel written is read back. -/
theorem State.kernel_setKernel_self (s : State) (n : Nat) (k : Kernel) : (s.setKernel n k).kernel? n = some k := mapFind_mapPut_self s.kernels n k
/-- A kernel written is not another kernel. -/
theorem State.kernel_setKernel_ne (s : State) {n m : Nat} (k : Kernel) (h : m ≠ n) : (s.setKernel n k).kernel? m = s.kernel? m :=
  mapFind_mapPut_ne s.kernels k h

@[simp] theorem State.tile_setDie (s : State) (d : Nat) (x : Die) (u : TileId) : (s.setDie d x).tile u = s.tile u := rfl
@[simp] theorem State.tile_updDie (s : State) (d : Nat) (f : Die → Die) (u : TileId) : (s.updDie d f).tile u = s.tile u := rfl
@[simp] theorem State.tile_setCtx (s : State) (c : Nat) (x : Context) (u : TileId) : (s.setCtx c x).tile u = s.tile u := rfl
@[simp] theorem State.tile_updCtx (s : State) (c : Nat) (f : Context → Context) (u : TileId) : (s.updCtx c f).tile u = s.tile u := rfl
@[simp] theorem State.tile_setKernel (s : State) (n : Nat) (k : Kernel) (u : TileId) : (s.setKernel n k).tile u = s.tile u := rfl
@[simp] theorem State.tile_delKernel (s : State) (n : Nat) (u : TileId) : (s.delKernel n).tile u = s.tile u := rfl
@[simp] theorem State.tile_updLink (s : State) (l : Nat) (f : Link → Link) (u : TileId) : (s.updLink l f).tile u = s.tile u := rfl
@[simp] theorem State.tile_at (s : State) (w : Nat) (d : Due) (u : TileId) : (s.at w d).tile u = s.tile u := rfl
@[simp] theorem State.tile_push (s : State) (ds : List Due) (u : TileId) : (s.push ds).tile u = s.tile u := rfl
@[simp] theorem State.tile_tickFree (s : State) (u : TileId) : (s.tickFree ).tile u = s.tile u := rfl
@[simp] theorem State.die_setTile (s : State) (t : TileId) (x : Tile) (u : Nat) : (s.setTile t x).die u = s.die u := rfl
@[simp] theorem State.die_updTile (s : State) (t : TileId) (f : Tile → Tile) (u : Nat) : (s.updTile t f).die u = s.die u := rfl
@[simp] theorem State.die_setCtx (s : State) (c : Nat) (x : Context) (u : Nat) : (s.setCtx c x).die u = s.die u := rfl
@[simp] theorem State.die_updCtx (s : State) (c : Nat) (f : Context → Context) (u : Nat) : (s.updCtx c f).die u = s.die u := rfl
@[simp] theorem State.die_setKernel (s : State) (n : Nat) (k : Kernel) (u : Nat) : (s.setKernel n k).die u = s.die u := rfl
@[simp] theorem State.die_delKernel (s : State) (n : Nat) (u : Nat) : (s.delKernel n).die u = s.die u := rfl
@[simp] theorem State.die_updLink (s : State) (l : Nat) (f : Link → Link) (u : Nat) : (s.updLink l f).die u = s.die u := rfl
@[simp] theorem State.die_at (s : State) (w : Nat) (d : Due) (u : Nat) : (s.at w d).die u = s.die u := rfl
@[simp] theorem State.die_push (s : State) (ds : List Due) (u : Nat) : (s.push ds).die u = s.die u := rfl
@[simp] theorem State.die_tickFree (s : State) (u : Nat) : (s.tickFree ).die u = s.die u := rfl
@[simp] theorem State.ctx_setTile (s : State) (t : TileId) (x : Tile) (u : Nat) : (s.setTile t x).ctx u = s.ctx u := rfl
@[simp] theorem State.ctx_updTile (s : State) (t : TileId) (f : Tile → Tile) (u : Nat) : (s.updTile t f).ctx u = s.ctx u := rfl
@[simp] theorem State.ctx_setDie (s : State) (d : Nat) (x : Die) (u : Nat) : (s.setDie d x).ctx u = s.ctx u := rfl
@[simp] theorem State.ctx_updDie (s : State) (d : Nat) (f : Die → Die) (u : Nat) : (s.updDie d f).ctx u = s.ctx u := rfl
@[simp] theorem State.ctx_setKernel (s : State) (n : Nat) (k : Kernel) (u : Nat) : (s.setKernel n k).ctx u = s.ctx u := rfl
@[simp] theorem State.ctx_delKernel (s : State) (n : Nat) (u : Nat) : (s.delKernel n).ctx u = s.ctx u := rfl
@[simp] theorem State.ctx_updLink (s : State) (l : Nat) (f : Link → Link) (u : Nat) : (s.updLink l f).ctx u = s.ctx u := rfl
@[simp] theorem State.ctx_at (s : State) (w : Nat) (d : Due) (u : Nat) : (s.at w d).ctx u = s.ctx u := rfl
@[simp] theorem State.ctx_push (s : State) (ds : List Due) (u : Nat) : (s.push ds).ctx u = s.ctx u := rfl
@[simp] theorem State.ctx_tickFree (s : State) (u : Nat) : (s.tickFree ).ctx u = s.ctx u := rfl
@[simp] theorem State.kernel_setTile (s : State) (t : TileId) (x : Tile) (u : Nat) : (s.setTile t x).kernel? u = s.kernel? u := rfl
@[simp] theorem State.kernel_updTile (s : State) (t : TileId) (f : Tile → Tile) (u : Nat) : (s.updTile t f).kernel? u = s.kernel? u := rfl
@[simp] theorem State.kernel_setDie (s : State) (d : Nat) (x : Die) (u : Nat) : (s.setDie d x).kernel? u = s.kernel? u := rfl
@[simp] theorem State.kernel_updDie (s : State) (d : Nat) (f : Die → Die) (u : Nat) : (s.updDie d f).kernel? u = s.kernel? u := rfl
@[simp] theorem State.kernel_setCtx (s : State) (c : Nat) (x : Context) (u : Nat) : (s.setCtx c x).kernel? u = s.kernel? u := rfl
@[simp] theorem State.kernel_updCtx (s : State) (c : Nat) (f : Context → Context) (u : Nat) : (s.updCtx c f).kernel? u = s.kernel? u := rfl
@[simp] theorem State.kernel_updLink (s : State) (l : Nat) (f : Link → Link) (u : Nat) : (s.updLink l f).kernel? u = s.kernel? u := rfl
@[simp] theorem State.kernel_at (s : State) (w : Nat) (d : Due) (u : Nat) : (s.at w d).kernel? u = s.kernel? u := rfl
@[simp] theorem State.kernel_push (s : State) (ds : List Due) (u : Nat) : (s.push ds).kernel? u = s.kernel? u := rfl
@[simp] theorem State.kernel_tickFree (s : State) (u : Nat) : (s.tickFree ).kernel? u = s.kernel? u := rfl
@[simp] theorem State.link_setTile (s : State) (t : TileId) (x : Tile) (u : Nat) : (s.setTile t x).link u = s.link u := rfl
@[simp] theorem State.link_updTile (s : State) (t : TileId) (f : Tile → Tile) (u : Nat) : (s.updTile t f).link u = s.link u := rfl
@[simp] theorem State.link_setDie (s : State) (d : Nat) (x : Die) (u : Nat) : (s.setDie d x).link u = s.link u := rfl
@[simp] theorem State.link_updDie (s : State) (d : Nat) (f : Die → Die) (u : Nat) : (s.updDie d f).link u = s.link u := rfl
@[simp] theorem State.link_setCtx (s : State) (c : Nat) (x : Context) (u : Nat) : (s.setCtx c x).link u = s.link u := rfl
@[simp] theorem State.link_updCtx (s : State) (c : Nat) (f : Context → Context) (u : Nat) : (s.updCtx c f).link u = s.link u := rfl
@[simp] theorem State.link_setKernel (s : State) (n : Nat) (k : Kernel) (u : Nat) : (s.setKernel n k).link u = s.link u := rfl
@[simp] theorem State.link_delKernel (s : State) (n : Nat) (u : Nat) : (s.delKernel n).link u = s.link u := rfl
@[simp] theorem State.link_at (s : State) (w : Nat) (d : Due) (u : Nat) : (s.at w d).link u = s.link u := rfl
@[simp] theorem State.link_push (s : State) (ds : List Due) (u : Nat) : (s.push ds).link u = s.link u := rfl
@[simp] theorem State.link_tickFree (s : State) (u : Nat) : (s.tickFree ).link u = s.link u := rfl
@[simp] theorem State.kernelOf_setTile (s : State) (t : TileId) (x : Tile) (u : TileId) : (s.setTile t x).kernelOf u = s.kernelOf u := rfl
@[simp] theorem State.kernelOf_updTile (s : State) (t : TileId) (f : Tile → Tile) (u : TileId) : (s.updTile t f).kernelOf u = s.kernelOf u := rfl
@[simp] theorem State.kernelOf_setDie (s : State) (d : Nat) (x : Die) (u : TileId) : (s.setDie d x).kernelOf u = s.kernelOf u := rfl
@[simp] theorem State.kernelOf_updDie (s : State) (d : Nat) (f : Die → Die) (u : TileId) : (s.updDie d f).kernelOf u = s.kernelOf u := rfl
@[simp] theorem State.kernelOf_setCtx (s : State) (c : Nat) (x : Context) (u : TileId) : (s.setCtx c x).kernelOf u = s.kernelOf u := rfl
@[simp] theorem State.kernelOf_updCtx (s : State) (c : Nat) (f : Context → Context) (u : TileId) : (s.updCtx c f).kernelOf u = s.kernelOf u := rfl
@[simp] theorem State.kernelOf_updLink (s : State) (l : Nat) (f : Link → Link) (u : TileId) : (s.updLink l f).kernelOf u = s.kernelOf u := rfl
@[simp] theorem State.kernelOf_at (s : State) (w : Nat) (d : Due) (u : TileId) : (s.at w d).kernelOf u = s.kernelOf u := rfl
@[simp] theorem State.kernelOf_push (s : State) (ds : List Due) (u : TileId) : (s.push ds).kernelOf u = s.kernelOf u := rfl
@[simp] theorem State.kernelOf_tickFree (s : State) (u : TileId) : (s.tickFree ).kernelOf u = s.kernelOf u := rfl

/-- What changing a kernel leaves alone. -/
theorem State.updKernel_parts (s : State) (n : Nat) (f : Kernel → Kernel) :
    (s.updKernel n f).tiles = s.tiles ∧ (s.updKernel n f).host = s.host ∧ (s.updKernel n f).cur = s.cur ∧ (s.updKernel n f).todo = s.todo ∧
      (s.updKernel n f).dies = s.dies ∧ (s.updKernel n f).ctxs = s.ctxs ∧ (s.updKernel n f).agenda = s.agenda ∧ (s.updKernel n f).free = s.free ∧
      (s.updKernel n f).wall = s.wall ∧ (s.updKernel n f).links = s.links ∧ (s.updKernel n f).qe = s.qe ∧ (s.updKernel n f).sec = s.sec ∧
      (s.updKernel n f).health = s.health := by
  unfold State.updKernel
  split <;> simp

end Sys2Proof.Machine
end

