-- ==== Sys2Proof/Laws/Memory.lean ====
section
/-!
SUPPORT. Laws/Memory.lean: every operation on staging and on host memory keeps the canonical form, and what a byte reads as after it.
-/

namespace Sys2Proof.Machine

/-! ## Staging -/

theorem stagingPut_wf (m : Mem) (a : Nat) (bs : List Byte) (h : Memory.wf m = true) : Memory.wf (stagingPut m a bs) = true := by
  unfold stagingPut; dsimp only; split
  · exact memPutRange_wf _ _ _ h
  · exact memPutRange_wf _ _ _ (memPutRange_wf _ _ _ h)

theorem putSByte_wf (m : Mem) (b : SByte) (h : Memory.wf m = true) : Memory.wf (putSByte m b) = true := memSet_wf _ _ _ h

theorem putSBytes_wf (m : Mem) (bs : List SByte) (h : Memory.wf m = true) : Memory.wf (putSBytes m bs) = true := by
  have key : ∀ (bs : List SByte) (m : Mem), Memory.wf m = true → Memory.wf (bs.foldl putSByte m) = true := by
    intro bs; induction bs with
    | nil => exact fun _ h => h
    | cons b r ih => exact fun m h => ih _ (putSByte_wf m b h)
  cases bs with
  | nil => exact h
  | cons b r =>
    simp only [putSBytes]; split
    · exact memPutRange_wf _ _ _ h
    · exact key _ _ h

theorem extents_wf (img : List Byte) (n o : Nat) (m : Mem) (h : Memory.wf m = true) : Memory.wf (extents img n o m).2 = true := by
  induction n generalizing o m with
  | zero => exact h
  | succ n ih => exact ih _ _ (stagingPut_wf _ _ _ h)

/-- A byte outside a write that does not pass the end of staging. -/
theorem memGet_stagingPut_out (m : Mem) (a : Nat) (bs : List Byte) (x : Nat) (h : a % stagingSize + bs.length ≤ stagingSize)
    (hx : x < a % stagingSize ∨ a % stagingSize + bs.length ≤ x) : memGet (stagingPut m a bs) x = memGet m x := by
  unfold stagingPut; dsimp only; rw [if_pos h]
  exact memGet_memPutRange_out _ _ _ _ hx

/-- A byte inside a write that does not pass the end of staging. -/
theorem memGet_stagingPut_in (m : Mem) (a : Nat) (bs : List Byte) (i : Nat) (h : a % stagingSize + bs.length ≤ stagingSize)
    (hi : i < bs.length) : memGet (stagingPut m a bs) (a % stagingSize + i) = bs.getD i 0 := by
  unfold stagingPut; dsimp only; rw [if_pos h]
  exact memGet_memPutRange_in _ _ _ _ hi

theorem memGet_putSByte_ne (m : Mem) (b : SByte) {x : Nat} (h : x ≠ b.addr) : memGet (putSByte m b) x = memGet m x := memGet_memSet_ne m _ h

theorem memGet_putSByte_self (m : Mem) (b : SByte) (h : Memory.wf m = true) :
    memGet (putSByte m b) b.addr = (memGet m b.addr &&& ~~~b.mask) ||| (b.val &&& b.mask) := memGet_memSet_self m _ _ h

theorem contiguous_addr (a : Nat) (bs : List SByte) (h : contiguous a bs = true) : ∀ b ∈ bs, a ≤ b.addr ∧ b.addr < a + bs.length := by
  induction bs generalizing a with
  | nil => simp
  | cons c r ih =>
    simp only [contiguous, Bool.and_eq_true, beq_iff_eq] at h
    intro b hb
    simp only [List.length_cons]
    rcases List.mem_cons.mp hb with rfl | hb
    · omega
    · have := ih _ h.2 b hb; omega

theorem contiguous_covers (a : Nat) (bs : List SByte) (h : contiguous a bs = true) (x : Nat) (h1 : a ≤ x) (h2 : x < a + bs.length) :
    ∃ b ∈ bs, b.addr = x := by
  induction bs generalizing a with
  | nil => simp at h2; omega
  | cons c r ih =>
    simp only [contiguous, Bool.and_eq_true, beq_iff_eq] at h
    simp only [List.length_cons] at h2
    by_cases hx : x = a
    · exact ⟨c, by simp, by omega⟩
    · obtain ⟨b, hb, e⟩ := ih _ h.2 (by omega) (by omega)
      exact ⟨b, by simp [hb], e⟩

/-- A byte that no byte of a write names. -/
theorem memGet_putSBytes_out (m : Mem) (bs : List SByte) (x : Nat) (h : ∀ b ∈ bs, x ≠ b.addr) : memGet (putSBytes m bs) x = memGet m x := by
  have key : ∀ (bs : List SByte) (m : Mem), (∀ b ∈ bs, x ≠ b.addr) → memGet (bs.foldl putSByte m) x = memGet m x := by
    intro bs; induction bs with
    | nil => exact fun _ _ => rfl
    | cons b r ih =>
      intro m h
      rw [List.foldl_cons, ih _ fun c hc => h c (by simp [hc]), memGet_putSByte_ne _ _ (h b (by simp))]
  cases bs with
  | nil => rfl
  | cons b r =>
    simp only [putSBytes]; split
    · next hc =>
      apply memGet_memPutRange_out
      by_contra hn
      obtain ⟨c, hm, e⟩ := contiguous_covers _ _ hc x (by omega) (by simp at hn; simp; omega)
      exact h c hm e.symm
    · exact key _ _ h

/-! ## Pages and vaults -/

theorem pagePut_rising (p : Mem) (lo : Nat) (bs : List Byte) (h : RisingMap p) : RisingMap (pagePut p lo bs) := by
  have mid : ∀ (bs : List Byte) (k : Nat), (List.zipIdx bs k).Pairwise fun a b => a.2 < b.2 := by
    intro bs; induction bs with
    | nil => simp
    | cons b r ih =>
      intro k
      rw [List.zipIdx_cons, List.pairwise_cons]
      exact ⟨fun e he => by have := List.mem_zipIdx he; simp; omega, ih _⟩
  unfold pagePut
  rw [RisingMap, List.pairwise_append, List.pairwise_append, List.pairwise_map]
  refine ⟨⟨h.filter _, (mid bs 0).imp fun h => by dsimp only; omega, ?_⟩, h.filter _, ?_⟩
  · intro a ha b hb
    simp only [List.mem_filter, decide_eq_true_eq, List.mem_map] at ha hb
    obtain ⟨x, _, rfl⟩ := hb
    dsimp only; omega
  · intro a ha b hb
    simp only [List.mem_append, List.mem_filter, decide_eq_true_eq, List.mem_map] at ha hb
    obtain ⟨_, ha⟩ | ⟨x, hx, rfl⟩ := ha
    · omega
    · have := List.mem_zipIdx hx
      dsimp only; omega

theorem pageWrite_rising (p : Mem) (lvl slot : Nat) (bs : List Byte) (h : RisingMap p) : RisingMap (pageWrite p lvl slot bs) := by
  have h1 := pagePut_rising p (64 * slot) bs h
  unfold pageWrite; dsimp only; split
  · exact pagePut_rising _ _ _ h1
  · split
    · exact pagePut_rising _ _ _ (pagePut_rising _ _ _ h1)
    · exact h1

theorem mapGet_of_mem {α : Type} {P : α → Prop} (d : α) (m : Map α) (k : Nat) (hd : P d) (h : ∀ e ∈ m, P e.2) : P (mapGet d m k) := by
  induction m with
  | nil => exact hd
  | cons c r ih =>
    simp only [mapGet]; split
    · exact h c (by simp)
    · exact ih fun e he => h e (by simp [he])

theorem mapPut_all {α : Type} {P : α → Prop} (m : Map α) (k : Nat) {v : α} (h : ∀ e ∈ m, P e.2) (hv : P v) : ∀ e ∈ mapPut m k v, P e.2 := by
  intro e he
  rcases mapPut_mem _ _ _ e he with rfl | he
  · exact hv
  · exact h e he

theorem mapSet_all {α : Type} [DecidableEq α] {P : α → Prop} (d : α) (m : Map α) (k : Nat) {v : α} (h : ∀ e ∈ m, P e.2) (hv : P v) :
    ∀ e ∈ mapSet d m k v, P e.2 := by
  intro e he
  simp only [mapSet] at he
  split at he
  · exact h e ((mapDel_sublist _ _).subset he)
  · exact mapPut_all m k h hv e he

/-- Kept depends on the banks and the pages of a vault alone. -/
theorem Vault.Kept.congr {v w : Vault} (h : v.Kept) (h1 : w.banks = v.banks) (h2 : w.pages = v.pages) : w.Kept := by
  simp only [Vault.Kept, h1, h2]; exact h

theorem Vault.Kept.page {v : Vault} (h : v.Kept) (key : Nat) : RisingMap (v.page key) := mapGet_of_mem _ _ _ List.Pairwise.nil h.2.2

theorem Vault.Kept.setPage {v : Vault} (h : v.Kept) (key : Nat) {p : Mem} (hp : RisingMap p) : (v.setPage key p).Kept :=
  ⟨h.1, mapSet_rising _ _ _ _ h.2.1, mapSet_all _ _ _ h.2.2 hp⟩

theorem Vault.Kept.setBank {v : Vault} (h : v.Kept) (b : Nat) (x : Bank) : (v.setBank b x).Kept := ⟨mapSet_rising _ _ _ _ h.1, h.2⟩

theorem Vault.Kept.logFinding {v : Vault} (h : v.Kept) (f : Finding) (req lvl bank page slot cyc : Nat) : (v.logFinding f req lvl bank page slot cyc).Kept := by
  unfold Vault.logFinding; split <;> exact h

theorem Vault.Kept.agentRetry {v : Vault} (h : v.Kept) (q g n l : Nat) (entry : Nat → Nat → Nat → Nat) (cyc : Nat) :
    (v.agentRetry q g n l entry cyc).1.Kept := by
  unfold Vault.agentRetry; dsimp only; repeat' split
  all_goals exact h

theorem Vault.Kept.agentCross {v : Vault} (h : v.Kept) (req bank page slot cyc : Nat) (read : Bool) : (v.agentCross req bank page slot cyc read).1.Kept := by
  unfold Vault.agentCross; dsimp only; split
  · exact h
  · exact h
  · refine Vault.Kept.agentRetry ?_ _ _ _ _ _ _
    exact h
  · refine Vault.Kept.agentRetry ?_ _ _ _ _ _ _
    split <;> exact h
  · refine Vault.Kept.agentRetry ?_ _ _ _ _ _ _
    exact h

theorem Vault.Kept.touch {v : Vault} (h : v.Kept) (key slot : Nat) : (v.touch key slot).Kept := by unfold Vault.touch; split <;> exact h

/-! ## The state -/

theorem Tile.Kept.updVault {t : Tile} (h : t.Kept) {v : Vault} (hv : v.Kept) : ({ t with vault := v } : Tile).Kept := ⟨h.1, hv, h.2.2⟩

theorem Tile.kept_default : ({} : Tile).Kept := by simp [Tile.Kept, Vault.Kept, RisingMap]

theorem Die.kept_default : ({} : Die).Kept := by simp [Die.Kept, RisingMap]

theorem State.MemOk.tile {s : State} (h : s.MemOk) (t : TileId) : (s.tile t).Kept := mapGet_of_mem _ _ _ Tile.kept_default h.2.2.1

theorem State.MemOk.die {s : State} (h : s.MemOk) (d : Nat) : (s.die d).Kept := mapGet_of_mem _ _ _ Die.kept_default h.2.2.2.2.2.1

theorem State.MemOk.rings {s : State} (h : s.MemOk) (c : Nat) : RisingMap (s.ctx c).rings := by
  obtain ⟨-, -, -, -, -, -, -, -, h, -⟩ := h
  exact mapGet_of_mem (P := fun x : Context => RisingMap x.rings) _ _ _ List.Pairwise.nil h

theorem State.MemOk.staging {s : State} (h : s.MemOk) (t : TileId) : Memory.wf (s.tile t).staging = true := (h.tile t).1

theorem State.MemOk.setTile {s : State} (h : s.MemOk) (t : TileId) {x : Tile} (hx : x.Kept) : (s.setTile t x).MemOk := by
  obtain ⟨h1, h2, h3, h4⟩ := h
  exact ⟨mapSet_rising _ _ _ _ h1, h2, mapSet_all _ _ _ h3 hx, h4⟩

theorem State.MemOk.updTile {s : State} (h : s.MemOk) (t : TileId) {f : Tile → Tile} (hf : (s.tile t).Kept → (f (s.tile t)).Kept) :
    (s.updTile t f).MemOk := h.setTile t (hf (h.tile t))

theorem State.MemOk.setDie {s : State} (h : s.MemOk) (d : Nat) {x : Die} (hx : x.Kept) : (s.setDie d x).MemOk := by
  obtain ⟨h1, h2, h3, h4, h5, h6, h7⟩ := h
  exact ⟨h1, h2, h3, h4, mapSet_rising _ _ _ _ h5, mapSet_all _ _ _ h6 hx, h7⟩

theorem State.MemOk.setKernel {s : State} (h : s.MemOk) (n : Nat) (k : Kernel) : (s.setKernel n k).MemOk := by
  obtain ⟨h1, h2, h3, h4, h5, h6, h7, h8⟩ := h
  exact ⟨h1, h2, h3, h4, h5, h6, mapPut_rising _ _ _ h7, h8⟩

theorem State.MemOk.setCtx {s : State} (h : s.MemOk) (c : Nat) {x : Context} (hx : RisingMap x.rings) : (s.setCtx c x).MemOk := by
  obtain ⟨h1, h2, h3, h4, h5, h6, h7, h8, h9, h10⟩ := h
  exact ⟨h1, h2, h3, h4, h5, h6, h7, mapSet_rising _ _ _ _ h8, mapSet_all (P := fun x : Context => RisingMap x.rings) _ _ _ h9 hx, h10⟩

theorem State.MemOk.at {s : State} (h : s.MemOk) (w : Nat) (d : Due) : (s.at w d).MemOk := h

theorem State.MemOk.updTiles {s : State} (h : s.MemOk) (ts : List TileId) {f : Tile → Tile} (hf : ∀ t, t.Kept → (f t).Kept) :
    (s.updTiles ts f).MemOk := by
  unfold State.updTiles
  induction ts generalizing s with
  | nil => exact h
  | cons t r ih => exact ih (h.updTile t (hf _))

theorem Tile.Kept.count {t : Tile} (h : t.Kept) (ev n : Nat) : (t.count ev n).Kept := by unfold Tile.count; split <;> exact h

theorem State.MemOk.holdTiles {s : State} (h : s.MemOk) (k : Kernel) (held : Bool) : (s.holdTiles k held).MemOk := h.updTiles _ fun _ h => h

theorem State.MemOk.updKernel {s : State} (h : s.MemOk) (n : Nat) (f : Kernel → Kernel) : (s.updKernel n f).MemOk := by
  unfold State.updKernel; split
  · exact h.setKernel _ _
  · exact h

theorem State.MemOk.ctxHeld {s : State} (h : s.MemOk) (c : Nat) (held : Bool) : (s.ctxHeld c held).MemOk :=
  h.setCtx c (by dsimp only; repeat' split
                 all_goals exact h.rings c)

theorem State.MemOk.openHold {s : State} (h : s.MemOk) (n r : Nat) : (s.openHold n r).MemOk := by
  unfold State.openHold; split
  · exact h
  · dsimp only; split
    · exact h.setKernel _ _
    · refine State.MemOk.at (State.MemOk.updTiles (State.MemOk.holdTiles ?_ _ _) _ fun t h => h.count 7 1) _ _
      exact (h.ctxHeld _ _).setKernel _ _

theorem State.MemOk.beginHold {s : State} (h : s.MemOk) (n r : Nat) : (s.beginHold n r).MemOk := by
  have h1 := h.openHold n r
  unfold State.beginHold; dsimp only; split
  · exact (h1.updKernel _ _).at _ _
  · split
    · exact h1.updKernel _ _
    · exact h1

/-! ## Reads and writes by agents -/

theorem State.MemOk.agentHold {s : State} (h : s.MemOk) (t : TileId) (q ns : Nat) : (s.agentHold t q ns).MemOk := by
  unfold State.agentHold; split
  · exact h
  · split
    · exact ((h.updTile t fun h => h).beginHold _ _).at _ _
    · exact h

theorem State.MemOk.agentRead {s : State} (h : s.MemOk) (t : TileId) (req b g lvl sl : Nat) : (s.agentRead t req b g lvl sl).1.MemOk := by
  have hs := h.tile t
  have h' : s.tickFree.MemOk := h
  unfold State.agentRead; dsimp only; split
  · exact State.MemOk.setTile h' t (hs.updVault (hs.2.1.logFinding ..))
  · exact State.MemOk.agentHold (State.MemOk.setTile h' t (hs.updVault (Vault.Kept.agentCross (hs.2.1.logFinding ..) ..))) _ _ _

theorem State.MemOk.agentWrite {s : State} (h : s.MemOk) (t : TileId) (req b g lvl sl : Nat) (bs : List Byte) :
    (s.agentWrite t req b g lvl sl bs).1.MemOk := by
  have hs := h.tile t
  have h1 := hs.2.1.agentCross req b g sl (s.agentCycle t) false
  have h2 := h1.setPage (pageKey b g) (pageWrite_rising _ lvl sl bs (h1.page (pageKey b g)))
  unfold State.agentWrite; dsimp only
  refine State.MemOk.agentHold (State.MemOk.setTile h t (hs.updVault ?_)) _ _ _
  repeat' split
  all_goals first | exact (Vault.Kept.touch ‹_› ..) | assumption

theorem State.MemOk.slotsRead {s : State} (h : s.MemOk) (t : TileId) (req o n : Nat) : (s.slotsRead t req o n).1.MemOk := by
  induction n generalizing s o with
  | zero => exact h
  | succ n ih =>
    have h1 := h.agentRead t req (strongBank o) (strongPage o) 0 (strongSlot o)
    unfold State.slotsRead
    split
    · next e => rw [e] at h1; exact h1
    · next e =>
      rw [e] at h1
      have h2 := ih h1 (o + 64)
      split <;> (next e => rw [e] at h2; exact h2)

theorem State.MemOk.vaultRead {s : State} (h : s.MemOk) (t : TileId) (req o n : Nat) : (s.vaultRead t req o n).1.MemOk := by
  have h1 := h.slotsRead t req (o / 64 * 64) ((o % 64 + n + 63) / 64)
  unfold State.vaultRead
  split <;> (next e => rw [e] at h1; exact h1)

theorem State.MemOk.slotsWrite {s : State} (h : s.MemOk) (t : TileId) (req o : Nat) (bs : List Byte) (n : Nat) :
    (s.slotsWrite t req o bs n).1.MemOk := by
  induction n generalizing s o bs with
  | zero => exact h
  | succ n ih =>
    have h1 := h.agentWrite t req (strongBank o) (strongPage o) 0 (strongSlot o) (bs.take 64)
    unfold State.slotsWrite
    split
    · next e => rw [e] at h1; exact h1
    · next e => rw [e] at h1; exact ih h1 _ _

theorem State.MemOk.vaultWrite {s : State} (h : s.MemOk) (t : TileId) (req o : Nat) (bs : List Byte) : (s.vaultWrite t req o bs).1.MemOk := by
  have h1 := h.slotsRead t req (o / 64 * 64) ((o % 64 + bs.length + 63) / 64)
  unfold State.vaultWrite; dsimp only; split
  · exact h.slotsWrite _ _ _ _ _
  · split
    · next e => rw [e] at h1; exact h1
    · next e => rw [e] at h1; exact h1.slotsWrite _ _ _ _ _

theorem State.MemOk.sysRead {s : State} (h : s.MemOk) (c req a n : Nat) : (s.sysRead c req a n).1.MemOk := by
  unfold State.sysRead
  split
  · exact h
  · repeat' split
    · exact h
    · exact h
    · exact h
    · exact h.vaultRead _ _ _ _

theorem State.MemOk.sysWrite {s : State} (h : s.MemOk) (c req a : Nat) (bs : List Byte) : (s.sysWrite c req a bs).1.MemOk := by
  unfold State.sysWrite
  split
  · exact h
  · repeat' split
    · exact h
    · exact h
    · exact ⟨h.1, memPutRange_wf _ _ _ h.2.1, h.2.2⟩
    · exact h.vaultWrite _ _ _ _

end Sys2Proof.Machine
end

