-- ==== Sys2Proof/Laws/Ops.lean ====
section
/-!
SUPPORT. Laws/Ops.lean: for the shared operations that slot meanings run in, one lemma each that says all they can do.
-/

namespace Sys2Proof.Machine

open Sys2Proof.Claims

/-- A slot whose meaning is a tile. -/
theorem runSlot_ok {part : Nat} {s : State} {f : Ctx → Tile → SlotRes} {t : Tile} (h : f s.slotCtx (mine s) = .ok t) :
    runSlot part s f = .next (slotDone s t) := by
  unfold runSlot; dsimp only
  simp only [mine] at h
  rw [h]; rfl

/-- A slot whose meaning is a trap. -/
theorem runSlot_trap {part cause info : Nat} {s : State} {f : Ctx → Tile → SlotRes} (h : f s.slotCtx (mine s) = .trap cause info) :
    runSlot part s f =
      .next (({ s with todo := [] } : State).takeTrap s.cur.tile s.cur.pre cause part info s.cur.now 0 false) := by
  unfold runSlot; dsimp only
  simp only [mine] at h
  rw [h]; rfl

/-- A slot that waits. -/
theorem runSlot_wait {part reason : Nat} {s : State} {f : Ctx → Tile → SlotRes} (h : f s.slotCtx (mine s) = .wait reason) :
    runSlot part s f = .next (s.waitCycle reason) := by
  unfold runSlot; dsimp only
  simp only [mine] at h
  rw [h]

/-- The image cycle that a result gets. -/
def Ctx.img (c : Ctx) (t : Tile) (cls : LatClass) (lat : Nat) : Nat := if c.handler then 0 else c.imgDue t cls lat

/-- A result for anything but s0. -/
theorem Ctx.land_fly {s : State} {t : Tile} {cls : LatClass} {d : Dest} {v lat : Nat} {f : FlagSet} (h : d ≠ .sreg 0) :
    s.slotCtx.land t cls d v lat f = fly s t d v lat f 0 (s.slotCtx.img t cls lat) := by
  simp only [Ctx.land, Tile.launch, if_neg h]; rfl

/-- A scalar result. -/
theorem Ctx.land_flyS {s : State} {t : Tile} {cls : LatClass} {d : Reg} {v lat : Nat} :
    s.slotCtx.land t cls (.sreg d.toNat) v lat = flyS s t d v lat (s.slotCtx.img t cls lat) := by
  by_cases h : d = 0
  · subst h; simp only [Ctx.land, Tile.launch, flyS]; rfl
  · have : (Dest.sreg d.toNat) ≠ .sreg 0 := by
      intro e; injection e with e; exact h (BitVec.eq_of_toNat_eq (by simpa using e))
    rw [Ctx.land_fly this, flyS, if_neg h]

/-- The scalar instructions of R102 to R104. -/
theorem scalarOp_next (s : State) (cls : LatClass) (lat : Nat) (d : Reg) (f : Tile → Word) :
    scalarOp s cls lat d f =
      .next (slotDone s (flyS s (mine s) d (f (mine s)).toNat lat (s.slotCtx.img (mine s) cls lat))) :=
  runSlot_ok (by rw [Ctx.land_flyS])

end Sys2Proof.Machine
end

