-- ==== Sys2Proof/Laws/PerInstr.lean ====
section
/-!
SUPPORT. PerInstr.lean: for each instruction, that the frame (or Ivloha word) written for it is read back as it, every operand kept.
-/

namespace Sys2Proof.Laws.RoundTrip

/-- The map of some part reads the frame of a well-formed slot instruction as that instruction, and the Ivloha decoder the word of an op. -/
def Statement (i : Instr) : Prop :=
  i.wf = true →
    (∀ f, encodeFrame i = some f → ∃ p, decodePart p f = some i) ∧ (∀ w, encodeIvloha i = some w → decodeIvloha w = some i)

theorem fmtOf_fmtCode (f : Fmt) : fmtOf (fmtCode f) = some f := by cases f <;> rfl
theorem condOf_condCode (f : Cond) : condOf (condCode f) = some f := by cases f <;> rfl
theorem orderOf_orderCode (f : Order) : orderOf (orderCode f) = some f := by cases f <;> rfl
theorem scopeOf_scopeCode (f : Scope) : scopeOf (scopeCode f) = some f := by cases f <;> rfl
theorem levelOf_levelCode (f : Level) : levelOf (levelCode f) = some f := by cases f <;> rfl
theorem rmOf_rmCode (f : Rm) : rmOf (rmCode f) = some f := by cases f <;> rfl
theorem redOf_redCode (f : RedKind) : redOf (redCode f) = some f := by cases f <;> rfl
theorem scanOf_scanCode (f : ScanKind) : scanOf (scanCode f) = some f := by cases f <;> rfl
theorem movsOf_movsCode (f : MovsForm) : movsOf (0#18 ++ movsCode f) = some f := by cases f <;> rfl
theorem boolReg_mask (u : Bool) : (boolReg u &&& 0b111110#6 == 0#6) = true := by cases u <;> rfl
theorem boolReg_bit (u : Bool) : (boolReg u).getLsbD 0 = u := by cases u <;> rfl
theorem vfcmp_imm_mask (cc : FCond) : ((0#17 ++ fcondCode cc : BitVec 20) &&& 0xFFFF8#20 == 0#20) = true := by cases cc <;> rfl
theorem vfcmp_c_mask (cc : FCond) : ((0#3 ++ fcondCode cc : BitVec 6) &&& 0b111000#6 == 0#6) = true := by cases cc <;> rfl
theorem fcondOf_fcondCode (f : FCond) : fcondOf (fcondCode f) = f := by cases f <;> rfl
theorem split_imm (v : BitVec 52) : BitVec.extractLsb' 20 32 v ++ BitVec.extractLsb' 0 20 v = v := by
  rw [BitVec.extractLsb'_append_extractLsb'_eq_extractLsb' (by rfl)]; simp
end Sys2Proof.Laws.RoundTrip

set_option linter.unusedSimpArgs false
set_option linter.unusedVariables false

namespace Sys2Proof
open Laws.RoundTrip

theorem Laws.RoundTrip.vendorProvisioning (device : Word) (seed k0 k1 k2 k3 : BitVec 256) : Statement (.vendorProvisioning device seed k0 k1 k2 k3) := fun _ => ⟨nofun, nofun⟩

theorem Laws.RoundTrip.ownerEnrolment (cmd : Signed) : Statement (.ownerEnrolment cmd) := fun _ => ⟨nofun, nofun⟩

theorem Laws.RoundTrip.returnToken (cmd : Signed) : Statement (.returnToken cmd) := fun _ => ⟨nofun, nofun⟩

theorem Laws.RoundTrip.rollbackAdvance (cmd : Signed) : Statement (.rollbackAdvance cmd) := fun _ => ⟨nofun, nofun⟩

theorem Laws.RoundTrip.scrapCommand (cmd : Signed) : Statement (.scrapCommand cmd) := fun _ => ⟨nofun, nofun⟩

theorem Laws.RoundTrip.attestationReport (nonce : BitVec 256) : Statement (.attestationReport nonce) := fun _ => ⟨nofun, nofun⟩

theorem Laws.RoundTrip.dbgctlGo (token : List Byte) : Statement (.dbgctlGo token) := fun _ => ⟨nofun, nofun⟩

theorem Laws.RoundTrip.healthSample (readings : Readings) : Statement (.healthSample readings) := fun _ => ⟨nofun, nofun⟩

theorem Laws.RoundTrip.coolingLoopLost (upper : Bool) : Statement (.coolingLoopLost upper) := fun _ => ⟨nofun, nofun⟩

theorem Laws.RoundTrip.coolingLoopRestored (upper : Bool) : Statement (.coolingLoopRestored upper) := fun _ => ⟨nofun, nofun⟩

theorem Laws.RoundTrip.hint (n : BitVec 4) : Statement (.hint n) := by
  have all : ∀ m : BitVec 4, decodePart .c { op := 0xF#4 ++ m } = some (.hint m) := by decide
  exact fun _ => ⟨fun f hf => ⟨.c, by cases hf; exact all n⟩, nofun⟩

theorem Laws.RoundTrip.add (d a : Reg) (b : Src) : Statement (.add d a b) := by
  refine fun _ => ⟨fun f hf => ⟨.c, ?_⟩, nofun⟩
  cases hf
  have key (op sub d a b c ib kx rm mt imm k) (h : op = 0x01#8) : decodePart .c ⟨op, sub, d, a, b, c, ib, kx, rm, mt, imm, k⟩ =
      (fun f : Frame => (if f.fits { d := true, a := true, src := true } then some (.add f.d f.a (f.src f.k)) else none : Option Instr)) ⟨op, sub, d, a, b, c, ib, kx, rm, mt, imm, k⟩ := by cases h; rfl
  rcases b with r | (v | v) <;> refine (key _ _ _ _ _ _ _ _ _ _ _ _ rfl).trans ?_
  all_goals simp (disch := decide) only [Frame.fits, ↓reduceIte, BEq.rfl, Bool.or_true, Bool.true_or, Bool.not_false, Bool.and_true, Bool.true_and, Bool.false_eq_true, BitVec.ofNat_eq_ofNat, Frame.withSrc, Frame.withImm, Frame.src, Frame.immv, split_imm]

theorem Laws.RoundTrip.sub (d a : Reg) (b : Src) : Statement (.sub d a b) := by
  refine fun _ => ⟨fun f hf => ⟨.c, ?_⟩, nofun⟩
  cases hf
  have key (op sub d a b c ib kx rm mt imm k) (h : op = 0x02#8) : decodePart .c ⟨op, sub, d, a, b, c, ib, kx, rm, mt, imm, k⟩ =
      (fun f : Frame => (if f.fits { d := true, a := true, src := true } then some (.sub f.d f.a (f.src f.k)) else none : Option Instr)) ⟨op, sub, d, a, b, c, ib, kx, rm, mt, imm, k⟩ := by cases h; rfl
  rcases b with r | (v | v) <;> refine (key _ _ _ _ _ _ _ _ _ _ _ _ rfl).trans ?_
  all_goals simp (disch := decide) only [Frame.fits, ↓reduceIte, BEq.rfl, Bool.or_true, Bool.true_or, Bool.not_false, Bool.and_true, Bool.true_and, Bool.false_eq_true, BitVec.ofNat_eq_ofNat, Frame.withSrc, Frame.withImm, Frame.src, Frame.immv, split_imm]

theorem Laws.RoundTrip.mul (d a : Reg) (b : Src) : Statement (.mul d a b) := by
  refine fun _ => ⟨fun f hf => ⟨.c, ?_⟩, nofun⟩
  cases hf
  have key (op sub d a b c ib kx rm mt imm k) (h : op = 0x03#8) : decodePart .c ⟨op, sub, d, a, b, c, ib, kx, rm, mt, imm, k⟩ =
      (fun f : Frame => (if f.fits { d := true, a := true, src := true } then some (.mul f.d f.a (f.src f.k)) else none : Option Instr)) ⟨op, sub, d, a, b, c, ib, kx, rm, mt, imm, k⟩ := by cases h; rfl
  rcases b with r | (v | v) <;> refine (key _ _ _ _ _ _ _ _ _ _ _ _ rfl).trans ?_
  all_goals simp (disch := decide) only [Frame.fits, ↓reduceIte, BEq.rfl, Bool.or_true, Bool.true_or, Bool.not_false, Bool.and_true, Bool.true_and, Bool.false_eq_true, BitVec.ofNat_eq_ofNat, Frame.withSrc, Frame.withImm, Frame.src, Frame.immv, split_imm]

theorem Laws.RoundTrip.mulh (d a : Reg) (b : Src) : Statement (.mulh d a b) := by
  refine fun _ => ⟨fun f hf => ⟨.c, ?_⟩, nofun⟩
  cases hf
  have key (op sub d a b c ib kx rm mt imm k) (h : op = 0x04#8) : decodePart .c ⟨op, sub, d, a, b, c, ib, kx, rm, mt, imm, k⟩ =
      (fun f : Frame => (if f.fits { d := true, a := true, src := true } then some (.mulh f.d f.a (f.src f.k)) else none : Option Instr)) ⟨op, sub, d, a, b, c, ib, kx, rm, mt, imm, k⟩ := by cases h; rfl
  rcases b with r | (v | v) <;> refine (key _ _ _ _ _ _ _ _ _ _ _ _ rfl).trans ?_
  all_goals simp (disch := decide) only [Frame.fits, ↓reduceIte, BEq.rfl, Bool.or_true, Bool.true_or, Bool.not_false, Bool.and_true, Bool.true_and, Bool.false_eq_true, BitVec.ofNat_eq_ofNat, Frame.withSrc, Frame.withImm, Frame.src, Frame.immv, split_imm]

theorem Laws.RoundTrip.mulhu (d a : Reg) (b : Src) : Statement (.mulhu d a b) := by
  refine fun _ => ⟨fun f hf => ⟨.c, ?_⟩, nofun⟩
  cases hf
  have key (op sub d a b c ib kx rm mt imm k) (h : op = 0x05#8) : decodePart .c ⟨op, sub, d, a, b, c, ib, kx, rm, mt, imm, k⟩ =
      (fun f : Frame => (if f.fits { d := true, a := true, src := true } then some (.mulhu f.d f.a (f.src f.k)) else none : Option Instr)) ⟨op, sub, d, a, b, c, ib, kx, rm, mt, imm, k⟩ := by cases h; rfl
  rcases b with r | (v | v) <;> refine (key _ _ _ _ _ _ _ _ _ _ _ _ rfl).trans ?_
  all_goals simp (disch := decide) only [Frame.fits, ↓reduceIte, BEq.rfl, Bool.or_true, Bool.true_or, Bool.not_false, Bool.and_true, Bool.true_and, Bool.false_eq_true, BitVec.ofNat_eq_ofNat, Frame.withSrc, Frame.withImm, Frame.src, Frame.immv, split_imm]

theorem Laws.RoundTrip.div (d a : Reg) (b : Src) : Statement (.div d a b) := by
  refine fun _ => ⟨fun f hf => ⟨.c, ?_⟩, nofun⟩
  cases hf
  have key (op sub d a b c ib kx rm mt imm k) (h : op = 0x06#8) : decodePart .c ⟨op, sub, d, a, b, c, ib, kx, rm, mt, imm, k⟩ =
      (fun f : Frame => (if f.fits { d := true, a := true, src := true } then some (.div f.d f.a (f.src f.k)) else none : Option Instr)) ⟨op, sub, d, a, b, c, ib, kx, rm, mt, imm, k⟩ := by cases h; rfl
  rcases b with r | (v | v) <;> refine (key _ _ _ _ _ _ _ _ _ _ _ _ rfl).trans ?_
  all_goals simp (disch := decide) only [Frame.fits, ↓reduceIte, BEq.rfl, Bool.or_true, Bool.true_or, Bool.not_false, Bool.and_true, Bool.true_and, Bool.false_eq_true, BitVec.ofNat_eq_ofNat, Frame.withSrc, Frame.withImm, Frame.src, Frame.immv, split_imm]

theorem Laws.RoundTrip.divu (d a : Reg) (b : Src) : Statement (.divu d a b) := by
  refine fun _ => ⟨fun f hf => ⟨.c, ?_⟩, nofun⟩
  cases hf
  have key (op sub d a b c ib kx rm mt imm k) (h : op = 0x07#8) : decodePart .c ⟨op, sub, d, a, b, c, ib, kx, rm, mt, imm, k⟩ =
      (fun f : Frame => (if f.fits { d := true, a := true, src := true } then some (.divu f.d f.a (f.src f.k)) else none : Option Instr)) ⟨op, sub, d, a, b, c, ib, kx, rm, mt, imm, k⟩ := by cases h; rfl
  rcases b with r | (v | v) <;> refine (key _ _ _ _ _ _ _ _ _ _ _ _ rfl).trans ?_
  all_goals simp (disch := decide) only [Frame.fits, ↓reduceIte, BEq.rfl, Bool.or_true, Bool.true_or, Bool.not_false, Bool.and_true, Bool.true_and, Bool.false_eq_true, BitVec.ofNat_eq_ofNat, Frame.withSrc, Frame.withImm, Frame.src, Frame.immv, split_imm]

theorem Laws.RoundTrip.rem (d a : Reg) (b : Src) : Statement (.rem d a b) := by
  refine fun _ => ⟨fun f hf => ⟨.c, ?_⟩, nofun⟩
  cases hf
  have key (op sub d a b c ib kx rm mt imm k) (h : op = 0x08#8) : decodePart .c ⟨op, sub, d, a, b, c, ib, kx, rm, mt, imm, k⟩ =
      (fun f : Frame => (if f.fits { d := true, a := true, src := true } then some (.rem f.d f.a (f.src f.k)) else none : Option Instr)) ⟨op, sub, d, a, b, c, ib, kx, rm, mt, imm, k⟩ := by cases h; rfl
  rcases b with r | (v | v) <;> refine (key _ _ _ _ _ _ _ _ _ _ _ _ rfl).trans ?_
  all_goals simp (disch := decide) only [Frame.fits, ↓reduceIte, BEq.rfl, Bool.or_true, Bool.true_or, Bool.not_false, Bool.and_true, Bool.true_and, Bool.false_eq_true, BitVec.ofNat_eq_ofNat, Frame.withSrc, Frame.withImm, Frame.src, Frame.immv, split_imm]

theorem Laws.RoundTrip.remu (d a : Reg) (b : Src) : Statement (.remu d a b) := by
  refine fun _ => ⟨fun f hf => ⟨.c, ?_⟩, nofun⟩
  cases hf
  have key (op sub d a b c ib kx rm mt imm k) (h : op = 0x09#8) : decodePart .c ⟨op, sub, d, a, b, c, ib, kx, rm, mt, imm, k⟩ =
      (fun f : Frame => (if f.fits { d := true, a := true, src := true } then some (.remu f.d f.a (f.src f.k)) else none : Option Instr)) ⟨op, sub, d, a, b, c, ib, kx, rm, mt, imm, k⟩ := by cases h; rfl
  rcases b with r | (v | v) <;> refine (key _ _ _ _ _ _ _ _ _ _ _ _ rfl).trans ?_
  all_goals simp (disch := decide) only [Frame.fits, ↓reduceIte, BEq.rfl, Bool.or_true, Bool.true_or, Bool.not_false, Bool.and_true, Bool.true_and, Bool.false_eq_true, BitVec.ofNat_eq_ofNat, Frame.withSrc, Frame.withImm, Frame.src, Frame.immv, split_imm]

theorem Laws.RoundTrip.and (d a : Reg) (b : Src) : Statement (.and d a b) := by
  refine fun _ => ⟨fun f hf => ⟨.c, ?_⟩, nofun⟩
  cases hf
  have key (op sub d a b c ib kx rm mt imm k) (h : op = 0x0A#8) : decodePart .c ⟨op, sub, d, a, b, c, ib, kx, rm, mt, imm, k⟩ =
      (fun f : Frame => (if f.fits { d := true, a := true, src := true } then some (.and f.d f.a (f.src f.k)) else none : Option Instr)) ⟨op, sub, d, a, b, c, ib, kx, rm, mt, imm, k⟩ := by cases h; rfl
  rcases b with r | (v | v) <;> refine (key _ _ _ _ _ _ _ _ _ _ _ _ rfl).trans ?_
  all_goals simp (disch := decide) only [Frame.fits, ↓reduceIte, BEq.rfl, Bool.or_true, Bool.true_or, Bool.not_false, Bool.and_true, Bool.true_and, Bool.false_eq_true, BitVec.ofNat_eq_ofNat, Frame.withSrc, Frame.withImm, Frame.src, Frame.immv, split_imm]

theorem Laws.RoundTrip.or (d a : Reg) (b : Src) : Statement (.or d a b) := by
  refine fun _ => ⟨fun f hf => ⟨.c, ?_⟩, nofun⟩
  cases hf
  have key (op sub d a b c ib kx rm mt imm k) (h : op = 0x0B#8) : decodePart .c ⟨op, sub, d, a, b, c, ib, kx, rm, mt, imm, k⟩ =
      (fun f : Frame => (if f.fits { d := true, a := true, src := true } then some (.or f.d f.a (f.src f.k)) else none : Option Instr)) ⟨op, sub, d, a, b, c, ib, kx, rm, mt, imm, k⟩ := by cases h; rfl
  rcases b with r | (v | v) <;> refine (key _ _ _ _ _ _ _ _ _ _ _ _ rfl).trans ?_
  all_goals simp (disch := decide) only [Frame.fits, ↓reduceIte, BEq.rfl, Bool.or_true, Bool.true_or, Bool.not_false, Bool.and_true, Bool.true_and, Bool.false_eq_true, BitVec.ofNat_eq_ofNat, Frame.withSrc, Frame.withImm, Frame.src, Frame.immv, split_imm]

theorem Laws.RoundTrip.xor (d a : Reg) (b : Src) : Statement (.xor d a b) := by
  refine fun _ => ⟨fun f hf => ⟨.c, ?_⟩, nofun⟩
  cases hf
  have key (op sub d a b c ib kx rm mt imm k) (h : op = 0x0C#8) : decodePart .c ⟨op, sub, d, a, b, c, ib, kx, rm, mt, imm, k⟩ =
      (fun f : Frame => (if f.fits { d := true, a := true, src := true } then some (.xor f.d f.a (f.src f.k)) else none : Option Instr)) ⟨op, sub, d, a, b, c, ib, kx, rm, mt, imm, k⟩ := by cases h; rfl
  rcases b with r | (v | v) <;> refine (key _ _ _ _ _ _ _ _ _ _ _ _ rfl).trans ?_
  all_goals simp (disch := decide) only [Frame.fits, ↓reduceIte, BEq.rfl, Bool.or_true, Bool.true_or, Bool.not_false, Bool.and_true, Bool.true_and, Bool.false_eq_true, BitVec.ofNat_eq_ofNat, Frame.withSrc, Frame.withImm, Frame.src, Frame.immv, split_imm]

theorem Laws.RoundTrip.andn (d a : Reg) (b : Src) : Statement (.andn d a b) := by
  refine fun _ => ⟨fun f hf => ⟨.c, ?_⟩, nofun⟩
  cases hf
  have key (op sub d a b c ib kx rm mt imm k) (h : op = 0x0D#8) : decodePart .c ⟨op, sub, d, a, b, c, ib, kx, rm, mt, imm, k⟩ =
      (fun f : Frame => (if f.fits { d := true, a := true, src := true } then some (.andn f.d f.a (f.src f.k)) else none : Option Instr)) ⟨op, sub, d, a, b, c, ib, kx, rm, mt, imm, k⟩ := by cases h; rfl
  rcases b with r | (v | v) <;> refine (key _ _ _ _ _ _ _ _ _ _ _ _ rfl).trans ?_
  all_goals simp (disch := decide) only [Frame.fits, ↓reduceIte, BEq.rfl, Bool.or_true, Bool.true_or, Bool.not_false, Bool.and_true, Bool.true_and, Bool.false_eq_true, BitVec.ofNat_eq_ofNat, Frame.withSrc, Frame.withImm, Frame.src, Frame.immv, split_imm]

theorem Laws.RoundTrip.shl (d a : Reg) (b : Src) : Statement (.shl d a b) := by
  refine fun _ => ⟨fun f hf => ⟨.c, ?_⟩, nofun⟩
  cases hf
  have key (op sub d a b c ib kx rm mt imm k) (h : op = 0x0E#8) : decodePart .c ⟨op, sub, d, a, b, c, ib, kx, rm, mt, imm, k⟩ =
      (fun f : Frame => (if f.fits { d := true, a := true, src := true } then some (.shl f.d f.a (f.src f.k)) else none : Option Instr)) ⟨op, sub, d, a, b, c, ib, kx, rm, mt, imm, k⟩ := by cases h; rfl
  rcases b with r | (v | v) <;> refine (key _ _ _ _ _ _ _ _ _ _ _ _ rfl).trans ?_
  all_goals simp (disch := decide) only [Frame.fits, ↓reduceIte, BEq.rfl, Bool.or_true, Bool.true_or, Bool.not_false, Bool.and_true, Bool.true_and, Bool.false_eq_true, BitVec.ofNat_eq_ofNat, Frame.withSrc, Frame.withImm, Frame.src, Frame.immv, split_imm]

theorem Laws.RoundTrip.shr (d a : Reg) (b : Src) : Statement (.shr d a b) := by
  refine fun _ => ⟨fun f hf => ⟨.c, ?_⟩, nofun⟩
  cases hf
  have key (op sub d a b c ib kx rm mt imm k) (h : op = 0x0F#8) : decodePart .c ⟨op, sub, d, a, b, c, ib, kx, rm, mt, imm, k⟩ =
      (fun f : Frame => (if f.fits { d := true, a := true, src := true } then some (.shr f.d f.a (f.src f.k)) else none : Option Instr)) ⟨op, sub, d, a, b, c, ib, kx, rm, mt, imm, k⟩ := by cases h; rfl
  rcases b with r | (v | v) <;> refine (key _ _ _ _ _ _ _ _ _ _ _ _ rfl).trans ?_
  all_goals simp (disch := decide) only [Frame.fits, ↓reduceIte, BEq.rfl, Bool.or_true, Bool.true_or, Bool.not_false, Bool.and_true, Bool.true_and, Bool.false_eq_true, BitVec.ofNat_eq_ofNat, Frame.withSrc, Frame.withImm, Frame.src, Frame.immv, split_imm]

theorem Laws.RoundTrip.sar (d a : Reg) (b : Src) : Statement (.sar d a b) := by
  refine fun _ => ⟨fun f hf => ⟨.c, ?_⟩, nofun⟩
  cases hf
  have key (op sub d a b c ib kx rm mt imm k) (h : op = 0x10#8) : decodePart .c ⟨op, sub, d, a, b, c, ib, kx, rm, mt, imm, k⟩ =
      (fun f : Frame => (if f.fits { d := true, a := true, src := true } then some (.sar f.d f.a (f.src f.k)) else none : Option Instr)) ⟨op, sub, d, a, b, c, ib, kx, rm, mt, imm, k⟩ := by cases h; rfl
  rcases b with r | (v | v) <;> refine (key _ _ _ _ _ _ _ _ _ _ _ _ rfl).trans ?_
  all_goals simp (disch := decide) only [Frame.fits, ↓reduceIte, BEq.rfl, Bool.or_true, Bool.true_or, Bool.not_false, Bool.and_true, Bool.true_and, Bool.false_eq_true, BitVec.ofNat_eq_ofNat, Frame.withSrc, Frame.withImm, Frame.src, Frame.immv, split_imm]

theorem Laws.RoundTrip.rot (d a : Reg) (b : Src) : Statement (.rot d a b) := by
  refine fun _ => ⟨fun f hf => ⟨.c, ?_⟩, nofun⟩
  cases hf
  have key (op sub d a b c ib kx rm mt imm k) (h : op = 0x11#8) : decodePart .c ⟨op, sub, d, a, b, c, ib, kx, rm, mt, imm, k⟩ =
      (fun f : Frame => (if f.fits { d := true, a := true, src := true } then some (.rot f.d f.a (f.src f.k)) else none : Option Instr)) ⟨op, sub, d, a, b, c, ib, kx, rm, mt, imm, k⟩ := by cases h; rfl
  rcases b with r | (v | v) <;> refine (key _ _ _ _ _ _ _ _ _ _ _ _ rfl).trans ?_
  all_goals simp (disch := decide) only [Frame.fits, ↓reduceIte, BEq.rfl, Bool.or_true, Bool.true_or, Bool.not_false, Bool.and_true, Bool.true_and, Bool.false_eq_true, BitVec.ofNat_eq_ofNat, Frame.withSrc, Frame.withImm, Frame.src, Frame.immv, split_imm]

theorem Laws.RoundTrip.clz (d a : Reg) : Statement (.clz d a) := by
  refine fun _ => ⟨fun f hf => ⟨.c, ?_⟩, nofun⟩
  cases hf
  have key (op sub d a b c ib kx rm mt imm k) (h : op = 0x12#8) : decodePart .c ⟨op, sub, d, a, b, c, ib, kx, rm, mt, imm, k⟩ =
      (fun f : Frame => (if f.fits { d := true, a := true } then some (.clz f.d f.a) else none : Option Instr)) ⟨op, sub, d, a, b, c, ib, kx, rm, mt, imm, k⟩ := by cases h; rfl
  refine (key _ _ _ _ _ _ _ _ _ _ _ _ rfl).trans ?_
  simp (disch := decide) only [Frame.fits, ↓reduceIte, BEq.rfl, Bool.or_true, Bool.true_or, Bool.not_false, Bool.and_true, Bool.true_and, Bool.false_eq_true, BitVec.ofNat_eq_ofNat]

theorem Laws.RoundTrip.ctz (d a : Reg) : Statement (.ctz d a) := by
  refine fun _ => ⟨fun f hf => ⟨.c, ?_⟩, nofun⟩
  cases hf
  have key (op sub d a b c ib kx rm mt imm k) (h : op = 0x13#8) : decodePart .c ⟨op, sub, d, a, b, c, ib, kx, rm, mt, imm, k⟩ =
      (fun f : Frame => (if f.fits { d := true, a := true } then some (.ctz f.d f.a) else none : Option Instr)) ⟨op, sub, d, a, b, c, ib, kx, rm, mt, imm, k⟩ := by cases h; rfl
  refine (key _ _ _ _ _ _ _ _ _ _ _ _ rfl).trans ?_
  simp (disch := decide) only [Frame.fits, ↓reduceIte, BEq.rfl, Bool.or_true, Bool.true_or, Bool.not_false, Bool.and_true, Bool.true_and, Bool.false_eq_true, BitVec.ofNat_eq_ofNat]

theorem Laws.RoundTrip.popc (d a : Reg) : Statement (.popc d a) := by
  refine fun _ => ⟨fun f hf => ⟨.c, ?_⟩, nofun⟩
  cases hf
  have key (op sub d a b c ib kx rm mt imm k) (h : op = 0x14#8) : decodePart .c ⟨op, sub, d, a, b, c, ib, kx, rm, mt, imm, k⟩ =
      (fun f : Frame => (if f.fits { d := true, a := true } then some (.popc f.d f.a) else none : Option Instr)) ⟨op, sub, d, a, b, c, ib, kx, rm, mt, imm, k⟩ := by cases h; rfl
  refine (key _ _ _ _ _ _ _ _ _ _ _ _ rfl).trans ?_
  simp (disch := decide) only [Frame.fits, ↓reduceIte, BEq.rfl, Bool.or_true, Bool.true_or, Bool.not_false, Bool.and_true, Bool.true_and, Bool.false_eq_true, BitVec.ofNat_eq_ofNat]

theorem Laws.RoundTrip.min (d a : Reg) (b : Src) : Statement (.min d a b) := by
  refine fun _ => ⟨fun f hf => ⟨.c, ?_⟩, nofun⟩
  cases hf
  have key (op sub d a b c ib kx rm mt imm k) (h : op = 0x15#8) : decodePart .c ⟨op, sub, d, a, b, c, ib, kx, rm, mt, imm, k⟩ =
      (fun f : Frame => (if f.fits { d := true, a := true, src := true } then some (.min f.d f.a (f.src f.k)) else none : Option Instr)) ⟨op, sub, d, a, b, c, ib, kx, rm, mt, imm, k⟩ := by cases h; rfl
  rcases b with r | (v | v) <;> refine (key _ _ _ _ _ _ _ _ _ _ _ _ rfl).trans ?_
  all_goals simp (disch := decide) only [Frame.fits, ↓reduceIte, BEq.rfl, Bool.or_true, Bool.true_or, Bool.not_false, Bool.and_true, Bool.true_and, Bool.false_eq_true, BitVec.ofNat_eq_ofNat, Frame.withSrc, Frame.withImm, Frame.src, Frame.immv, split_imm]

theorem Laws.RoundTrip.max (d a : Reg) (b : Src) : Statement (.max d a b) := by
  refine fun _ => ⟨fun f hf => ⟨.c, ?_⟩, nofun⟩
  cases hf
  have key (op sub d a b c ib kx rm mt imm k) (h : op = 0x16#8) : decodePart .c ⟨op, sub, d, a, b, c, ib, kx, rm, mt, imm, k⟩ =
      (fun f : Frame => (if f.fits { d := true, a := true, src := true } then some (.max f.d f.a (f.src f.k)) else none : Option Instr)) ⟨op, sub, d, a, b, c, ib, kx, rm, mt, imm, k⟩ := by cases h; rfl
  rcases b with r | (v | v) <;> refine (key _ _ _ _ _ _ _ _ _ _ _ _ rfl).trans ?_
  all_goals simp (disch := decide) only [Frame.fits, ↓reduceIte, BEq.rfl, Bool.or_true, Bool.true_or, Bool.not_false, Bool.and_true, Bool.true_and, Bool.false_eq_true, BitVec.ofNat_eq_ofNat, Frame.withSrc, Frame.withImm, Frame.src, Frame.immv, split_imm]

theorem Laws.RoundTrip.minu (d a : Reg) (b : Src) : Statement (.minu d a b) := by
  refine fun _ => ⟨fun f hf => ⟨.c, ?_⟩, nofun⟩
  cases hf
  have key (op sub d a b c ib kx rm mt imm k) (h : op = 0x17#8) : decodePart .c ⟨op, sub, d, a, b, c, ib, kx, rm, mt, imm, k⟩ =
      (fun f : Frame => (if f.fits { d := true, a := true, src := true } then some (.minu f.d f.a (f.src f.k)) else none : Option Instr)) ⟨op, sub, d, a, b, c, ib, kx, rm, mt, imm, k⟩ := by cases h; rfl
  rcases b with r | (v | v) <;> refine (key _ _ _ _ _ _ _ _ _ _ _ _ rfl).trans ?_
  all_goals simp (disch := decide) only [Frame.fits, ↓reduceIte, BEq.rfl, Bool.or_true, Bool.true_or, Bool.not_false, Bool.and_true, Bool.true_and, Bool.false_eq_true, BitVec.ofNat_eq_ofNat, Frame.withSrc, Frame.withImm, Frame.src, Frame.immv, split_imm]

theorem Laws.RoundTrip.maxu (d a : Reg) (b : Src) : Statement (.maxu d a b) := by
  refine fun _ => ⟨fun f hf => ⟨.c, ?_⟩, nofun⟩
  cases hf
  have key (op sub d a b c ib kx rm mt imm k) (h : op = 0x18#8) : decodePart .c ⟨op, sub, d, a, b, c, ib, kx, rm, mt, imm, k⟩ =
      (fun f : Frame => (if f.fits { d := true, a := true, src := true } then some (.maxu f.d f.a (f.src f.k)) else none : Option Instr)) ⟨op, sub, d, a, b, c, ib, kx, rm, mt, imm, k⟩ := by cases h; rfl
  rcases b with r | (v | v) <;> refine (key _ _ _ _ _ _ _ _ _ _ _ _ rfl).trans ?_
  all_goals simp (disch := decide) only [Frame.fits, ↓reduceIte, BEq.rfl, Bool.or_true, Bool.true_or, Bool.not_false, Bool.and_true, Bool.true_and, Bool.false_eq_true, BitVec.ofNat_eq_ofNat, Frame.withSrc, Frame.withImm, Frame.src, Frame.immv, split_imm]

theorem Laws.RoundTrip.sel (d a : Reg) (b : Src) (c : Reg) : Statement (.sel d a b c) := by
  refine fun _ => ⟨fun f hf => ⟨.c, ?_⟩, nofun⟩
  cases hf
  have key (op sub d a b c ib kx rm mt imm k) (h : op = 0x19#8) : decodePart .c ⟨op, sub, d, a, b, c, ib, kx, rm, mt, imm, k⟩ =
      (fun f : Frame => (if f.fits { d := true, a := true, c := true, src := true } then some (.sel f.d f.a (f.src f.k) f.c) else none : Option Instr)) ⟨op, sub, d, a, b, c, ib, kx, rm, mt, imm, k⟩ := by cases h; rfl
  rcases b with r | (v | v) <;> refine (key _ _ _ _ _ _ _ _ _ _ _ _ rfl).trans ?_
  all_goals simp (disch := decide) only [Frame.fits, ↓reduceIte, BEq.rfl, Bool.or_true, Bool.true_or, Bool.not_false, Bool.and_true, Bool.true_and, Bool.false_eq_true, BitVec.ofNat_eq_ofNat, Frame.withSrc, Frame.withImm, Frame.src, Frame.immv, split_imm]

theorem Laws.RoundTrip.cmp (cc : Cond) (d a : Reg) (b : Src) : Statement (.cmp cc d a b) := by
  refine fun _ => ⟨fun f hf => ⟨.c, ?_⟩, nofun⟩
  cases hf
  have key (op sub d a b c ib kx rm mt imm k) (h : op = 0x1A#8) : decodePart .c ⟨op, sub, d, a, b, c, ib, kx, rm, mt, imm, k⟩ =
      (fun f : Frame => (if f.fits { sub := true, d := true, a := true, src := true } then (condOf f.sub).bind fun cc => some (.cmp cc f.d f.a (f.src f.k)) else none : Option Instr)) ⟨op, sub, d, a, b, c, ib, kx, rm, mt, imm, k⟩ := by cases h; rfl
  rcases b with r | (v | v) <;> refine (key _ _ _ _ _ _ _ _ _ _ _ _ rfl).trans ?_
  all_goals simp (disch := decide) only [Frame.fits, ↓reduceIte, BEq.rfl, Bool.or_true, Bool.true_or, Bool.not_false, Bool.and_true, Bool.true_and, Bool.false_eq_true, BitVec.ofNat_eq_ofNat, condOf_condCode, Frame.withSrc, Frame.withImm, Frame.src, Frame.immv, split_imm, Option.bind_some]

theorem Laws.RoundTrip.movi (d : Reg) (v : Imm) : Statement (.movi d v) := by
  refine fun _ => ⟨fun f hf => ⟨.c, ?_⟩, nofun⟩
  cases hf
  have key (op sub d a b c ib kx rm mt imm k) (h : op = 0x1B#8) : decodePart .c ⟨op, sub, d, a, b, c, ib, kx, rm, mt, imm, k⟩ =
      (fun f : Frame => (if f.fits { d := true, immk := true } then some (.movi f.d (f.immv f.k)) else none : Option Instr)) ⟨op, sub, d, a, b, c, ib, kx, rm, mt, imm, k⟩ := by cases h; rfl
  rcases v with v | v <;> refine (key _ _ _ _ _ _ _ _ _ _ _ _ rfl).trans ?_
  all_goals simp (disch := decide) only [Frame.fits, ↓reduceIte, BEq.rfl, Bool.or_true, Bool.true_or, Bool.not_false, Bool.and_true, Bool.true_and, Bool.false_eq_true, BitVec.ofNat_eq_ofNat, Frame.withImm, Frame.immv, split_imm]

theorem Laws.RoundTrip.sext (d a : Reg) (n : BitVec 7) : Statement (.sext d a n) := by
  have h : (0#13 ++ n : BitVec 20) &&& 0xFFF80#20 = 0x00000#20 := by
    change (0#13 ++ n) &&& (0x1FFF#13 ++ 0x0#7) = 0x00000#20
    rw [BitVec.and_append]; simp only [BitVec.and_zero, BitVec.zero_and, BitVec.reduceAnd, BitVec.reduceAppend]
  refine fun _ => ⟨fun f hf => ⟨.c, ?_⟩, nofun⟩
  cases hf
  have key (op sub d a b c ib kx rm mt imm k) (h : op = 0x1C#8) : decodePart .c ⟨op, sub, d, a, b, c, ib, kx, rm, mt, imm, k⟩ =
      (fun f : Frame => (if f.fits { d := true, a := true, imm := true } && f.imm &&& 0xFFF80#20 == 0x00000#20 then some (.sext f.d f.a (f.imm.extractLsb' 0 7)) else none : Option Instr)) ⟨op, sub, d, a, b, c, ib, kx, rm, mt, imm, k⟩ := by cases h; rfl
  refine (key _ _ _ _ _ _ _ _ _ _ _ _ rfl).trans ?_
  simp (disch := decide) only [Frame.fits, h, ↓reduceIte, BEq.rfl, Bool.or_true, Bool.true_or, Bool.not_false, Bool.and_true, Bool.true_and, Bool.false_eq_true, BitVec.ofNat_eq_ofNat, BitVec.extractLsb'_append_eq_of_le, BitVec.extractLsb'_append_eq_of_add_le, Nat.reduceSub, BitVec.extractLsb'_eq_self]

theorem Laws.RoundTrip.zext (d a : Reg) (n : BitVec 7) : Statement (.zext d a n) := by
  have h : (0#13 ++ n : BitVec 20) &&& 0xFFF80#20 = 0x00000#20 := by
    change (0#13 ++ n) &&& (0x1FFF#13 ++ 0x0#7) = 0x00000#20
    rw [BitVec.and_append]; simp only [BitVec.and_zero, BitVec.zero_and, BitVec.reduceAnd, BitVec.reduceAppend]
  refine fun _ => ⟨fun f hf => ⟨.c, ?_⟩, nofun⟩
  cases hf
  have key (op sub d a b c ib kx rm mt imm k) (h : op = 0x1D#8) : decodePart .c ⟨op, sub, d, a, b, c, ib, kx, rm, mt, imm, k⟩ =
      (fun f : Frame => (if f.fits { d := true, a := true, imm := true } && f.imm &&& 0xFFF80#20 == 0x00000#20 then some (.zext f.d f.a (f.imm.extractLsb' 0 7)) else none : Option Instr)) ⟨op, sub, d, a, b, c, ib, kx, rm, mt, imm, k⟩ := by cases h; rfl
  refine (key _ _ _ _ _ _ _ _ _ _ _ _ rfl).trans ?_
  simp (disch := decide) only [Frame.fits, h, ↓reduceIte, BEq.rfl, Bool.or_true, Bool.true_or, Bool.not_false, Bool.and_true, Bool.true_and, Bool.false_eq_true, BitVec.ofNat_eq_ofNat, BitVec.extractLsb'_append_eq_of_le, BitVec.extractLsb'_append_eq_of_add_le, Nat.reduceSub, BitVec.extractLsb'_eq_self]

theorem Laws.RoundTrip.bfx (d a : Reg) (pos : BitVec 6) (len : BitVec 7) (sx : Bool) : Statement (.bfx d a pos len sx) := by
  have h : (0#6 ++ BitVec.ofBool sx ++ len ++ pos : BitVec 20) &&& 0xFC000#20 = 0x00000#20 := by
    change (0#6 ++ BitVec.ofBool sx ++ len ++ pos) &&& (0x3F#6 ++ 0x0#1 ++ 0x0#7 ++ 0x0#6) = 0x00000#20
    rw [BitVec.and_append, BitVec.and_append, BitVec.and_append]; simp only [BitVec.and_zero, BitVec.zero_and, BitVec.reduceAnd, BitVec.reduceAppend]
  refine fun _ => ⟨fun f hf => ⟨.c, ?_⟩, nofun⟩
  cases hf
  have key (op sub d a b c ib kx rm mt imm k) (h : op = 0x1E#8) : decodePart .c ⟨op, sub, d, a, b, c, ib, kx, rm, mt, imm, k⟩ =
      (fun f : Frame => (if f.fits { d := true, a := true, imm := true } && f.imm &&& 0xFC000#20 == 0x00000#20 then some (.bfx f.d f.a (f.imm.extractLsb' 0 6) (f.imm.extractLsb' 6 7) (f.imm.getLsbD 13)) else none : Option Instr)) ⟨op, sub, d, a, b, c, ib, kx, rm, mt, imm, k⟩ := by cases h; rfl
  refine (key _ _ _ _ _ _ _ _ _ _ _ _ rfl).trans ?_
  simp (disch := decide) only [Frame.fits, h, ↓reduceIte, BEq.rfl, Bool.or_true, Bool.true_or, Bool.not_false, Bool.and_true, Bool.true_and, Bool.false_eq_true, BitVec.ofNat_eq_ofNat, BitVec.extractLsb'_append_eq_of_le, BitVec.extractLsb'_append_eq_of_add_le, Nat.reduceSub, BitVec.extractLsb'_eq_self, BitVec.getLsbD_append, Nat.reduceLT, BitVec.getLsbD_ofBool, decide_true]

theorem Laws.RoundTrip.bfi (d a b : Reg) (pos : BitVec 6) (len : BitVec 7) : Statement (.bfi d a b pos len) := by
  have h : (0#7 ++ len ++ pos : BitVec 20) &&& 0xFE000#20 = 0x00000#20 := by
    change (0#7 ++ len ++ pos) &&& (0x7F#7 ++ 0x0#7 ++ 0x0#6) = 0x00000#20
    rw [BitVec.and_append, BitVec.and_append]; simp only [BitVec.and_zero, BitVec.zero_and, BitVec.reduceAnd, BitVec.reduceAppend]
  refine fun _ => ⟨fun f hf => ⟨.c, ?_⟩, nofun⟩
  cases hf
  have key (op sub d a b c ib kx rm mt imm k) (h : op = 0x1F#8) : decodePart .c ⟨op, sub, d, a, b, c, ib, kx, rm, mt, imm, k⟩ =
      (fun f : Frame => (if f.fits { d := true, a := true, b := true, imm := true } && f.imm &&& 0xFE000#20 == 0x00000#20 then some (.bfi f.d f.a f.b (f.imm.extractLsb' 0 6) (f.imm.extractLsb' 6 7)) else none : Option Instr)) ⟨op, sub, d, a, b, c, ib, kx, rm, mt, imm, k⟩ := by cases h; rfl
  refine (key _ _ _ _ _ _ _ _ _ _ _ _ rfl).trans ?_
  simp (disch := decide) only [Frame.fits, h, ↓reduceIte, BEq.rfl, Bool.or_true, Bool.true_or, Bool.not_false, Bool.and_true, Bool.true_and, Bool.false_eq_true, BitVec.ofNat_eq_ofNat, BitVec.extractLsb'_append_eq_of_le, BitVec.extractLsb'_append_eq_of_add_le, Nat.reduceSub, BitVec.extractLsb'_eq_self]

theorem Laws.RoundTrip.idx (d a b : Reg) (sh : BitVec 6) : Statement (.idx d a b sh) := by
  have h : (0#14 ++ sh : BitVec 20) &&& 0xFFFC0#20 = 0x00000#20 := by
    change (0#14 ++ sh) &&& (0x3FFF#14 ++ 0x0#6) = 0x00000#20
    rw [BitVec.and_append]; simp only [BitVec.and_zero, BitVec.zero_and, BitVec.reduceAnd, BitVec.reduceAppend]
  refine fun _ => ⟨fun f hf => ⟨.c, ?_⟩, nofun⟩
  cases hf
  have key (op sub d a b c ib kx rm mt imm k) (h : op = 0x20#8) : decodePart .c ⟨op, sub, d, a, b, c, ib, kx, rm, mt, imm, k⟩ =
      (fun f : Frame => (if f.fits { d := true, a := true, b := true, imm := true } && f.imm &&& 0xFFFC0#20 == 0x00000#20 then some (.idx f.d f.a f.b (f.imm.extractLsb' 0 6)) else none : Option Instr)) ⟨op, sub, d, a, b, c, ib, kx, rm, mt, imm, k⟩ := by cases h; rfl
  refine (key _ _ _ _ _ _ _ _ _ _ _ _ rfl).trans ?_
  simp (disch := decide) only [Frame.fits, h, ↓reduceIte, BEq.rfl, Bool.or_true, Bool.true_or, Bool.not_false, Bool.and_true, Bool.true_and, Bool.false_eq_true, BitVec.ofNat_eq_ofNat, BitVec.extractLsb'_append_eq_of_le, BitVec.extractLsb'_append_eq_of_add_le, Nat.reduceSub, BitVec.extractLsb'_eq_self]

theorem Laws.RoundTrip.madd (d a : Reg) (b : Src) (c : Reg) : Statement (.madd d a b c) := by
  refine fun _ => ⟨fun f hf => ⟨.c, ?_⟩, nofun⟩
  cases hf
  have key (op sub d a b c ib kx rm mt imm k) (h : op = 0x21#8) : decodePart .c ⟨op, sub, d, a, b, c, ib, kx, rm, mt, imm, k⟩ =
      (fun f : Frame => (if f.fits { d := true, a := true, c := true, src := true } then some (.madd f.d f.a (f.src f.k) f.c) else none : Option Instr)) ⟨op, sub, d, a, b, c, ib, kx, rm, mt, imm, k⟩ := by cases h; rfl
  rcases b with r | (v | v) <;> refine (key _ _ _ _ _ _ _ _ _ _ _ _ rfl).trans ?_
  all_goals simp (disch := decide) only [Frame.fits, ↓reduceIte, BEq.rfl, Bool.or_true, Bool.true_or, Bool.not_false, Bool.and_true, Bool.true_and, Bool.false_eq_true, BitVec.ofNat_eq_ofNat, Frame.withSrc, Frame.withImm, Frame.src, Frame.immv, split_imm]

theorem Laws.RoundTrip.br (cc : Cond) (a b : Reg) (off : BitVec 20) : Statement (.br cc a b off) := by
  refine fun _ => ⟨fun f hf => ⟨.c, ?_⟩, nofun⟩
  cases hf
  have key (op sub d a b c ib kx rm mt imm k) (h : op = 0x40#8) : decodePart .c ⟨op, sub, d, a, b, c, ib, kx, rm, mt, imm, k⟩ =
      (fun f : Frame => (if f.fits { sub := true, a := true, b := true, imm := true } then (condOf f.sub).bind fun cc => some (.br cc f.a f.b (f.imm.extractLsb' 0 20)) else none : Option Instr)) ⟨op, sub, d, a, b, c, ib, kx, rm, mt, imm, k⟩ := by cases h; rfl
  refine (key _ _ _ _ _ _ _ _ _ _ _ _ rfl).trans ?_
  simp (disch := decide) only [Frame.fits, ↓reduceIte, BEq.rfl, Bool.or_true, Bool.true_or, Bool.not_false, Bool.and_true, Bool.true_and, Bool.false_eq_true, BitVec.ofNat_eq_ofNat, condOf_condCode, BitVec.extractLsb'_append_eq_of_le, BitVec.extractLsb'_append_eq_of_add_le, Nat.reduceSub, BitVec.extractLsb'_eq_self, Option.bind_some]

theorem Laws.RoundTrip.j (off : Imm) : Statement (.j off) := by
  refine fun _ => ⟨fun f hf => ⟨.c, ?_⟩, nofun⟩
  cases hf
  have key (op sub d a b c ib kx rm mt imm k) (h : op = 0x41#8) : decodePart .c ⟨op, sub, d, a, b, c, ib, kx, rm, mt, imm, k⟩ =
      (fun f : Frame => (if f.fits { immk := true } then some (.j (f.immv f.k)) else none : Option Instr)) ⟨op, sub, d, a, b, c, ib, kx, rm, mt, imm, k⟩ := by cases h; rfl
  rcases off with v | v <;> refine (key _ _ _ _ _ _ _ _ _ _ _ _ rfl).trans ?_
  all_goals simp (disch := decide) only [Frame.fits, ↓reduceIte, BEq.rfl, Bool.or_true, Bool.true_or, Bool.not_false, Bool.and_true, Bool.true_and, Bool.false_eq_true, BitVec.ofNat_eq_ofNat, Frame.withImm, Frame.immv, split_imm]

theorem Laws.RoundTrip.call (d : Reg) (off : Imm) : Statement (.call d off) := by
  refine fun _ => ⟨fun f hf => ⟨.c, ?_⟩, nofun⟩
  cases hf
  have key (op sub d a b c ib kx rm mt imm k) (h : op = 0x42#8) : decodePart .c ⟨op, sub, d, a, b, c, ib, kx, rm, mt, imm, k⟩ =
      (fun f : Frame => (if f.fits { d := true, immk := true } then some (.call f.d (f.immv f.k)) else none : Option Instr)) ⟨op, sub, d, a, b, c, ib, kx, rm, mt, imm, k⟩ := by cases h; rfl
  rcases off with v | v <;> refine (key _ _ _ _ _ _ _ _ _ _ _ _ rfl).trans ?_
  all_goals simp (disch := decide) only [Frame.fits, ↓reduceIte, BEq.rfl, Bool.or_true, Bool.true_or, Bool.not_false, Bool.and_true, Bool.true_and, Bool.false_eq_true, BitVec.ofNat_eq_ofNat, Frame.withImm, Frame.immv, split_imm]

theorem Laws.RoundTrip.ret (a : Reg) : Statement (.ret a) := by
  refine fun _ => ⟨fun f hf => ⟨.c, ?_⟩, nofun⟩
  cases hf
  have key (op sub d a b c ib kx rm mt imm k) (h : op = 0x43#8) : decodePart .c ⟨op, sub, d, a, b, c, ib, kx, rm, mt, imm, k⟩ =
      (fun f : Frame => (if f.fits { a := true } then some (.ret f.a) else none : Option Instr)) ⟨op, sub, d, a, b, c, ib, kx, rm, mt, imm, k⟩ := by cases h; rfl
  refine (key _ _ _ _ _ _ _ _ _ _ _ _ rfl).trans ?_
  simp (disch := decide) only [Frame.fits, ↓reduceIte, BEq.rfl, Bool.or_true, Bool.true_or, Bool.not_false, Bool.and_true, Bool.true_and, Bool.false_eq_true, BitVec.ofNat_eq_ofNat]

theorem Laws.RoundTrip.brme (off : BitVec 20) : Statement (.brme off) := by
  refine fun _ => ⟨fun f hf => ⟨.c, ?_⟩, nofun⟩
  cases hf
  have key (op sub d a b c ib kx rm mt imm k) (h : op = 0x44#8) : decodePart .c ⟨op, sub, d, a, b, c, ib, kx, rm, mt, imm, k⟩ =
      (fun f : Frame => (if f.fits { imm := true } then some (.brme (f.imm.extractLsb' 0 20)) else none : Option Instr)) ⟨op, sub, d, a, b, c, ib, kx, rm, mt, imm, k⟩ := by cases h; rfl
  refine (key _ _ _ _ _ _ _ _ _ _ _ _ rfl).trans ?_
  simp (disch := decide) only [Frame.fits, ↓reduceIte, BEq.rfl, Bool.or_true, Bool.true_or, Bool.not_false, Bool.and_true, Bool.true_and, Bool.false_eq_true, BitVec.ofNat_eq_ofNat, BitVec.extractLsb'_append_eq_of_le, BitVec.extractLsb'_append_eq_of_add_le, Nat.reduceSub, BitVec.extractLsb'_eq_self]

theorem Laws.RoundTrip.loop (a : Reg) (last : BitVec 16) (stages : BitVec 3) : Statement (.loop a last stages) := by
  have h : (0#1 ++ stages ++ last : BitVec 20) &&& 0x80000#20 = 0x00000#20 := by
    change (0#1 ++ stages ++ last) &&& (0x1#1 ++ 0x0#3 ++ 0x0#16) = 0x00000#20
    rw [BitVec.and_append, BitVec.and_append]; simp only [BitVec.and_zero, BitVec.zero_and, BitVec.reduceAnd, BitVec.reduceAppend]
  refine fun _ => ⟨fun f hf => ⟨.c, ?_⟩, nofun⟩
  cases hf
  have key (op sub d a b c ib kx rm mt imm k) (h : op = 0x45#8) : decodePart .c ⟨op, sub, d, a, b, c, ib, kx, rm, mt, imm, k⟩ =
      (fun f : Frame => (if f.fits { a := true, imm := true } && f.imm &&& 0x80000#20 == 0x00000#20 then some (.loop f.a (f.imm.extractLsb' 0 16) (f.imm.extractLsb' 16 3)) else none : Option Instr)) ⟨op, sub, d, a, b, c, ib, kx, rm, mt, imm, k⟩ := by cases h; rfl
  refine (key _ _ _ _ _ _ _ _ _ _ _ _ rfl).trans ?_
  simp (disch := decide) only [Frame.fits, h, ↓reduceIte, BEq.rfl, Bool.or_true, Bool.true_or, Bool.not_false, Bool.and_true, Bool.true_and, Bool.false_eq_true, BitVec.ofNat_eq_ofNat, BitVec.extractLsb'_append_eq_of_le, BitVec.extractLsb'_append_eq_of_add_le, Nat.reduceSub, BitVec.extractLsb'_eq_self]

theorem Laws.RoundTrip.lbrk (a : Reg) (always : Bool) : Statement (.lbrk a always) := by
  have h : (0#19 ++ BitVec.ofBool always : BitVec 20) &&& 0xFFFFE#20 = 0x00000#20 := by
    change (0#19 ++ BitVec.ofBool always) &&& (0x7FFFF#19 ++ 0x0#1) = 0x00000#20
    rw [BitVec.and_append]; simp only [BitVec.and_zero, BitVec.zero_and, BitVec.reduceAnd, BitVec.reduceAppend]
  refine fun _ => ⟨fun f hf => ⟨.c, ?_⟩, nofun⟩
  cases hf
  have key (op sub d a b c ib kx rm mt imm k) (h : op = 0x46#8) : decodePart .c ⟨op, sub, d, a, b, c, ib, kx, rm, mt, imm, k⟩ =
      (fun f : Frame => (if f.fits { a := true, imm := true } && f.imm &&& 0xFFFFE#20 == 0x00000#20 then some (.lbrk f.a (f.imm.getLsbD 0)) else none : Option Instr)) ⟨op, sub, d, a, b, c, ib, kx, rm, mt, imm, k⟩ := by cases h; rfl
  refine (key _ _ _ _ _ _ _ _ _ _ _ _ rfl).trans ?_
  simp (disch := decide) only [Frame.fits, h, ↓reduceIte, BEq.rfl, Bool.or_true, Bool.true_or, Bool.not_false, Bool.and_true, Bool.true_and, Bool.false_eq_true, BitVec.ofNat_eq_ofNat, BitVec.extractLsb'_append_eq_of_le, BitVec.extractLsb'_append_eq_of_add_le, Nat.reduceSub, BitVec.extractLsb'_eq_self, BitVec.getLsbD_append, Nat.reduceLT, BitVec.getLsbD_ofBool, decide_true]

theorem Laws.RoundTrip.ld (d a : Reg) (w : Width) (sx : Bool) (off : BitVec 17) : Statement (.ld d a w sx off) := by
  refine fun _ => ⟨fun f hf => ⟨.c, ?_⟩, nofun⟩
  cases hf
  have key (op sub d a b c ib kx rm mt imm k) (h : op = 0x60#8) : decodePart .c ⟨op, sub, d, a, b, c, ib, kx, rm, mt, imm, k⟩ =
      (fun f : Frame => (if f.fits { d := true, a := true, imm := true } then some (.ld f.d f.a (f.imm.extractLsb' 18 2) (f.imm.getLsbD 17) (f.imm.extractLsb' 0 17)) else none : Option Instr)) ⟨op, sub, d, a, b, c, ib, kx, rm, mt, imm, k⟩ := by cases h; rfl
  refine (key _ _ _ _ _ _ _ _ _ _ _ _ rfl).trans ?_
  simp (disch := decide) only [Frame.fits, ↓reduceIte, BEq.rfl, Bool.or_true, Bool.true_or, Bool.not_false, Bool.and_true, Bool.true_and, Bool.false_eq_true, BitVec.ofNat_eq_ofNat, BitVec.extractLsb'_append_eq_of_le, BitVec.extractLsb'_append_eq_of_add_le, Nat.reduceSub, BitVec.extractLsb'_eq_self, BitVec.getLsbD_append, Nat.reduceLT, BitVec.getLsbD_ofBool, decide_true]

theorem Laws.RoundTrip.st (a b : Reg) (w : Width) (off : BitVec 17) : Statement (.st a b w off) := by
  have h : (w ++ 0#1 ++ off : BitVec 20) &&& 0x20000#20 = 0x00000#20 := by
    change (w ++ 0#1 ++ off) &&& (0x0#2 ++ 0x1#1 ++ 0x0#17) = 0x00000#20
    rw [BitVec.and_append, BitVec.and_append]; simp only [BitVec.and_zero, BitVec.zero_and, BitVec.reduceAnd, BitVec.reduceAppend]
  refine fun _ => ⟨fun f hf => ⟨.c, ?_⟩, nofun⟩
  cases hf
  have key (op sub d a b c ib kx rm mt imm k) (h : op = 0x61#8) : decodePart .c ⟨op, sub, d, a, b, c, ib, kx, rm, mt, imm, k⟩ =
      (fun f : Frame => (if f.fits { a := true, b := true, imm := true } && f.imm &&& 0x20000#20 == 0x00000#20 then some (.st f.a f.b (f.imm.extractLsb' 18 2) (f.imm.extractLsb' 0 17)) else none : Option Instr)) ⟨op, sub, d, a, b, c, ib, kx, rm, mt, imm, k⟩ := by cases h; rfl
  refine (key _ _ _ _ _ _ _ _ _ _ _ _ rfl).trans ?_
  simp (disch := decide) only [Frame.fits, h, ↓reduceIte, BEq.rfl, Bool.or_true, Bool.true_or, Bool.not_false, Bool.and_true, Bool.true_and, Bool.false_eq_true, BitVec.ofNat_eq_ofNat, BitVec.extractLsb'_append_eq_of_le, BitVec.extractLsb'_append_eq_of_add_le, Nat.reduceSub, BitVec.extractLsb'_eq_self]

theorem Laws.RoundTrip.stIo (a b : Reg) (off : BitVec 17) : Statement (.stIo a b off) := by
  have h : (6#3 ++ off : BitVec 20) &&& 0xE0000#20 = 0xC0000#20 := by
    change (6#3 ++ off) &&& (0x7#3 ++ 0x0#17) = 0xC0000#20
    rw [BitVec.and_append]; simp only [BitVec.and_zero, BitVec.zero_and, BitVec.reduceAnd, BitVec.reduceAppend]
  refine fun _ => ⟨fun f hf => ⟨.c, ?_⟩, nofun⟩
  cases hf
  have key (op sub d a b c ib kx rm mt imm k) (h : op = 0x62#8) : decodePart .c ⟨op, sub, d, a, b, c, ib, kx, rm, mt, imm, k⟩ =
      (fun f : Frame => (if f.fits { a := true, b := true, imm := true } && f.imm &&& 0xE0000#20 == 0xC0000#20 then some (.stIo f.a f.b (f.imm.extractLsb' 0 17)) else none : Option Instr)) ⟨op, sub, d, a, b, c, ib, kx, rm, mt, imm, k⟩ := by cases h; rfl
  refine (key _ _ _ _ _ _ _ _ _ _ _ _ rfl).trans ?_
  simp (disch := decide) only [Frame.fits, h, ↓reduceIte, BEq.rfl, Bool.or_true, Bool.true_or, Bool.not_false, Bool.and_true, Bool.true_and, Bool.false_eq_true, BitVec.ofNat_eq_ofNat, BitVec.extractLsb'_append_eq_of_le, BitVec.extractLsb'_append_eq_of_add_le, Nat.reduceSub, BitVec.extractLsb'_eq_self]

theorem Laws.RoundTrip.fence (sc : Scope) : Statement (.fence sc) := by
  refine fun _ => ⟨fun f hf => ⟨.c, ?_⟩, nofun⟩
  cases hf
  have key (op sub d a b c ib kx rm mt imm k) (h : op = 0x63#8) : decodePart .c ⟨op, sub, d, a, b, c, ib, kx, rm, mt, imm, k⟩ =
      (fun f : Frame => (if f.fits { sub := true } then (scopeOf f.sub).bind fun sc => some (.fence sc) else none : Option Instr)) ⟨op, sub, d, a, b, c, ib, kx, rm, mt, imm, k⟩ := by cases h; rfl
  refine (key _ _ _ _ _ _ _ _ _ _ _ _ rfl).trans ?_
  simp (disch := decide) only [Frame.fits, ↓reduceIte, BEq.rfl, Bool.or_true, Bool.true_or, Bool.not_false, Bool.and_true, Bool.true_and, Bool.false_eq_true, BitVec.ofNat_eq_ofNat, scopeOf_scopeCode, Option.bind_some]

theorem Laws.RoundTrip.amoCas (o : Order) (d a b c : Reg) (fa : Bool) : Statement (.amoCas o d a b c fa) := by
  have h : (0#19 ++ BitVec.ofBool fa : BitVec 20) &&& 0xFFFFE#20 = 0x00000#20 := by
    change (0#19 ++ BitVec.ofBool fa) &&& (0x7FFFF#19 ++ 0x0#1) = 0x00000#20
    rw [BitVec.and_append]; simp only [BitVec.and_zero, BitVec.zero_and, BitVec.reduceAnd, BitVec.reduceAppend]
  refine fun _ => ⟨fun f hf => ⟨.c, ?_⟩, nofun⟩
  cases hf
  have key (op sub d a b c ib kx rm mt imm k) (h : op = 0x64#8) : decodePart .c ⟨op, sub, d, a, b, c, ib, kx, rm, mt, imm, k⟩ =
      (fun f : Frame => (if f.fits { sub := true, d := true, a := true, b := true, c := true, imm := true } && f.imm &&& 0xFFFFE#20 == 0x00000#20 then (orderOf f.sub).bind fun o => some (.amoCas o f.d f.a f.b f.c (f.imm.getLsbD 0)) else none : Option Instr)) ⟨op, sub, d, a, b, c, ib, kx, rm, mt, imm, k⟩ := by cases h; rfl
  refine (key _ _ _ _ _ _ _ _ _ _ _ _ rfl).trans ?_
  simp (disch := decide) only [Frame.fits, h, ↓reduceIte, BEq.rfl, Bool.or_true, Bool.true_or, Bool.not_false, Bool.and_true, Bool.true_and, Bool.false_eq_true, BitVec.ofNat_eq_ofNat, orderOf_orderCode, BitVec.extractLsb'_append_eq_of_le, BitVec.extractLsb'_append_eq_of_add_le, Nat.reduceSub, BitVec.extractLsb'_eq_self, BitVec.getLsbD_append, Nat.reduceLT, BitVec.getLsbD_ofBool, decide_true, Option.bind_some]

theorem Laws.RoundTrip.amoAdd (o : Order) (d a : Reg) (b : Src) : Statement (.amoAdd o d a b) := by
  refine fun _ => ⟨fun f hf => ⟨.c, ?_⟩, nofun⟩
  cases hf
  have key (op sub d a b c ib kx rm mt imm k) (h : op = 0x65#8) : decodePart .c ⟨op, sub, d, a, b, c, ib, kx, rm, mt, imm, k⟩ =
      (fun f : Frame => (if f.fits { sub := true, d := true, a := true, src := true } then (orderOf f.sub).bind fun o => some (.amoAdd o f.d f.a (f.src f.k)) else none : Option Instr)) ⟨op, sub, d, a, b, c, ib, kx, rm, mt, imm, k⟩ := by cases h; rfl
  rcases b with r | (v | v) <;> refine (key _ _ _ _ _ _ _ _ _ _ _ _ rfl).trans ?_
  all_goals simp (disch := decide) only [Frame.fits, ↓reduceIte, BEq.rfl, Bool.or_true, Bool.true_or, Bool.not_false, Bool.and_true, Bool.true_and, Bool.false_eq_true, BitVec.ofNat_eq_ofNat, orderOf_orderCode, Frame.withSrc, Frame.withImm, Frame.src, Frame.immv, split_imm, Option.bind_some]

theorem Laws.RoundTrip.amoSwp (o : Order) (d a : Reg) (b : Src) : Statement (.amoSwp o d a b) := by
  refine fun _ => ⟨fun f hf => ⟨.c, ?_⟩, nofun⟩
  cases hf
  have key (op sub d a b c ib kx rm mt imm k) (h : op = 0x66#8) : decodePart .c ⟨op, sub, d, a, b, c, ib, kx, rm, mt, imm, k⟩ =
      (fun f : Frame => (if f.fits { sub := true, d := true, a := true, src := true } then (orderOf f.sub).bind fun o => some (.amoSwp o f.d f.a (f.src f.k)) else none : Option Instr)) ⟨op, sub, d, a, b, c, ib, kx, rm, mt, imm, k⟩ := by cases h; rfl
  rcases b with r | (v | v) <;> refine (key _ _ _ _ _ _ _ _ _ _ _ _ rfl).trans ?_
  all_goals simp (disch := decide) only [Frame.fits, ↓reduceIte, BEq.rfl, Bool.or_true, Bool.true_or, Bool.not_false, Bool.and_true, Bool.true_and, Bool.false_eq_true, BitVec.ofNat_eq_ofNat, orderOf_orderCode, Frame.withSrc, Frame.withImm, Frame.src, Frame.immv, split_imm, Option.bind_some]

theorem Laws.RoundTrip.amoMin (o : Order) (d a : Reg) (b : Src) : Statement (.amoMin o d a b) := by
  refine fun _ => ⟨fun f hf => ⟨.c, ?_⟩, nofun⟩
  cases hf
  have key (op sub d a b c ib kx rm mt imm k) (h : op = 0x67#8) : decodePart .c ⟨op, sub, d, a, b, c, ib, kx, rm, mt, imm, k⟩ =
      (fun f : Frame => (if f.fits { sub := true, d := true, a := true, src := true } then (orderOf f.sub).bind fun o => some (.amoMin o f.d f.a (f.src f.k)) else none : Option Instr)) ⟨op, sub, d, a, b, c, ib, kx, rm, mt, imm, k⟩ := by cases h; rfl
  rcases b with r | (v | v) <;> refine (key _ _ _ _ _ _ _ _ _ _ _ _ rfl).trans ?_
  all_goals simp (disch := decide) only [Frame.fits, ↓reduceIte, BEq.rfl, Bool.or_true, Bool.true_or, Bool.not_false, Bool.and_true, Bool.true_and, Bool.false_eq_true, BitVec.ofNat_eq_ofNat, orderOf_orderCode, Frame.withSrc, Frame.withImm, Frame.src, Frame.immv, split_imm, Option.bind_some]

theorem Laws.RoundTrip.amoMax (o : Order) (d a : Reg) (b : Src) : Statement (.amoMax o d a b) := by
  refine fun _ => ⟨fun f hf => ⟨.c, ?_⟩, nofun⟩
  cases hf
  have key (op sub d a b c ib kx rm mt imm k) (h : op = 0x68#8) : decodePart .c ⟨op, sub, d, a, b, c, ib, kx, rm, mt, imm, k⟩ =
      (fun f : Frame => (if f.fits { sub := true, d := true, a := true, src := true } then (orderOf f.sub).bind fun o => some (.amoMax o f.d f.a (f.src f.k)) else none : Option Instr)) ⟨op, sub, d, a, b, c, ib, kx, rm, mt, imm, k⟩ := by cases h; rfl
  rcases b with r | (v | v) <;> refine (key _ _ _ _ _ _ _ _ _ _ _ _ rfl).trans ?_
  all_goals simp (disch := decide) only [Frame.fits, ↓reduceIte, BEq.rfl, Bool.or_true, Bool.true_or, Bool.not_false, Bool.and_true, Bool.true_and, Bool.false_eq_true, BitVec.ofNat_eq_ofNat, orderOf_orderCode, Frame.withSrc, Frame.withImm, Frame.src, Frame.immv, split_imm, Option.bind_some]

theorem Laws.RoundTrip.amoAnd (o : Order) (d a : Reg) (b : Src) : Statement (.amoAnd o d a b) := by
  refine fun _ => ⟨fun f hf => ⟨.c, ?_⟩, nofun⟩
  cases hf
  have key (op sub d a b c ib kx rm mt imm k) (h : op = 0x69#8) : decodePart .c ⟨op, sub, d, a, b, c, ib, kx, rm, mt, imm, k⟩ =
      (fun f : Frame => (if f.fits { sub := true, d := true, a := true, src := true } then (orderOf f.sub).bind fun o => some (.amoAnd o f.d f.a (f.src f.k)) else none : Option Instr)) ⟨op, sub, d, a, b, c, ib, kx, rm, mt, imm, k⟩ := by cases h; rfl
  rcases b with r | (v | v) <;> refine (key _ _ _ _ _ _ _ _ _ _ _ _ rfl).trans ?_
  all_goals simp (disch := decide) only [Frame.fits, ↓reduceIte, BEq.rfl, Bool.or_true, Bool.true_or, Bool.not_false, Bool.and_true, Bool.true_and, Bool.false_eq_true, BitVec.ofNat_eq_ofNat, orderOf_orderCode, Frame.withSrc, Frame.withImm, Frame.src, Frame.immv, split_imm, Option.bind_some]

theorem Laws.RoundTrip.amoOr (o : Order) (d a : Reg) (b : Src) : Statement (.amoOr o d a b) := by
  refine fun _ => ⟨fun f hf => ⟨.c, ?_⟩, nofun⟩
  cases hf
  have key (op sub d a b c ib kx rm mt imm k) (h : op = 0x6A#8) : decodePart .c ⟨op, sub, d, a, b, c, ib, kx, rm, mt, imm, k⟩ =
      (fun f : Frame => (if f.fits { sub := true, d := true, a := true, src := true } then (orderOf f.sub).bind fun o => some (.amoOr o f.d f.a (f.src f.k)) else none : Option Instr)) ⟨op, sub, d, a, b, c, ib, kx, rm, mt, imm, k⟩ := by cases h; rfl
  rcases b with r | (v | v) <;> refine (key _ _ _ _ _ _ _ _ _ _ _ _ rfl).trans ?_
  all_goals simp (disch := decide) only [Frame.fits, ↓reduceIte, BEq.rfl, Bool.or_true, Bool.true_or, Bool.not_false, Bool.and_true, Bool.true_and, Bool.false_eq_true, BitVec.ofNat_eq_ofNat, orderOf_orderCode, Frame.withSrc, Frame.withImm, Frame.src, Frame.immv, split_imm, Option.bind_some]

theorem Laws.RoundTrip.objpin (d a : Reg) : Statement (.objpin d a) := by
  refine fun _ => ⟨fun f hf => ⟨.c, ?_⟩, nofun⟩
  cases hf
  have key (op sub d a b c ib kx rm mt imm k) (h : op = 0x80#8) : decodePart .c ⟨op, sub, d, a, b, c, ib, kx, rm, mt, imm, k⟩ =
      (fun f : Frame => (if f.fits { d := true, a := true } then some (.objpin f.d f.a) else none : Option Instr)) ⟨op, sub, d, a, b, c, ib, kx, rm, mt, imm, k⟩ := by cases h; rfl
  refine (key _ _ _ _ _ _ _ _ _ _ _ _ rfl).trans ?_
  simp (disch := decide) only [Frame.fits, ↓reduceIte, BEq.rfl, Bool.or_true, Bool.true_or, Bool.not_false, Bool.and_true, Bool.true_and, Bool.false_eq_true, BitVec.ofNat_eq_ofNat]

theorem Laws.RoundTrip.objunp (d : Reg) : Statement (.objunp d) := by
  refine fun _ => ⟨fun f hf => ⟨.c, ?_⟩, nofun⟩
  cases hf
  have key (op sub d a b c ib kx rm mt imm k) (h : op = 0x81#8) : decodePart .c ⟨op, sub, d, a, b, c, ib, kx, rm, mt, imm, k⟩ =
      (fun f : Frame => (if f.fits { d := true } then some (.objunp f.d) else none : Option Instr)) ⟨op, sub, d, a, b, c, ib, kx, rm, mt, imm, k⟩ := by cases h; rfl
  refine (key _ _ _ _ _ _ _ _ _ _ _ _ rfl).trans ?_
  simp (disch := decide) only [Frame.fits, ↓reduceIte, BEq.rfl, Bool.or_true, Bool.true_or, Bool.not_false, Bool.and_true, Bool.true_and, Bool.false_eq_true, BitVec.ofNat_eq_ofNat]

theorem Laws.RoundTrip.objq (d a : Reg) (sel : BitVec 5) : Statement (.objq d a sel) := by
  have h : (0#15 ++ sel : BitVec 20) &&& 0xFFFE0#20 = 0x00000#20 := by
    change (0#15 ++ sel) &&& (0x7FFF#15 ++ 0x0#5) = 0x00000#20
    rw [BitVec.and_append]; simp only [BitVec.and_zero, BitVec.zero_and, BitVec.reduceAnd, BitVec.reduceAppend]
  refine fun _ => ⟨fun f hf => ⟨.c, ?_⟩, nofun⟩
  cases hf
  have key (op sub d a b c ib kx rm mt imm k) (h : op = 0x82#8) : decodePart .c ⟨op, sub, d, a, b, c, ib, kx, rm, mt, imm, k⟩ =
      (fun f : Frame => (if f.fits { d := true, a := true, imm := true } && f.imm &&& 0xFFFE0#20 == 0x00000#20 then some (.objq f.d f.a (f.imm.extractLsb' 0 5)) else none : Option Instr)) ⟨op, sub, d, a, b, c, ib, kx, rm, mt, imm, k⟩ := by cases h; rfl
  refine (key _ _ _ _ _ _ _ _ _ _ _ _ rfl).trans ?_
  simp (disch := decide) only [Frame.fits, h, ↓reduceIte, BEq.rfl, Bool.or_true, Bool.true_or, Bool.not_false, Bool.and_true, Bool.true_and, Bool.false_eq_true, BitVec.ofNat_eq_ofNat, BitVec.extractLsb'_append_eq_of_le, BitVec.extractLsb'_append_eq_of_add_le, Nat.reduceSub, BitVec.extractLsb'_eq_self]

theorem Laws.RoundTrip.objchk (d a b : Reg) (acc : BitVec 2) : Statement (.objchk d a b acc) := by
  have h : (0#18 ++ acc : BitVec 20) &&& 0xFFFFC#20 = 0x00000#20 := by
    change (0#18 ++ acc) &&& (0x3FFFF#18 ++ 0x0#2) = 0x00000#20
    rw [BitVec.and_append]; simp only [BitVec.and_zero, BitVec.zero_and, BitVec.reduceAnd, BitVec.reduceAppend]
  refine fun _ => ⟨fun f hf => ⟨.c, ?_⟩, nofun⟩
  cases hf
  have key (op sub d a b c ib kx rm mt imm k) (h : op = 0x83#8) : decodePart .c ⟨op, sub, d, a, b, c, ib, kx, rm, mt, imm, k⟩ =
      (fun f : Frame => (if f.fits { d := true, a := true, b := true, imm := true } && f.imm &&& 0xFFFFC#20 == 0x00000#20 then some (.objchk f.d f.a f.b (f.imm.extractLsb' 0 2)) else none : Option Instr)) ⟨op, sub, d, a, b, c, ib, kx, rm, mt, imm, k⟩ := by cases h; rfl
  refine (key _ _ _ _ _ _ _ _ _ _ _ _ rfl).trans ?_
  simp (disch := decide) only [Frame.fits, h, ↓reduceIte, BEq.rfl, Bool.or_true, Bool.true_or, Bool.not_false, Bool.and_true, Bool.true_and, Bool.false_eq_true, BitVec.ofNat_eq_ofNat, BitVec.extractLsb'_append_eq_of_le, BitVec.extractLsb'_append_eq_of_add_le, Nat.reduceSub, BitVec.extractLsb'_eq_self]

theorem Laws.RoundTrip.trap (code : BitVec 16) : Statement (.trap code) := by
  have h : (0#4 ++ code : BitVec 20) &&& 0xF0000#20 = 0x00000#20 := by
    change (0#4 ++ code) &&& (0xF#4 ++ 0x0#16) = 0x00000#20
    rw [BitVec.and_append]; simp only [BitVec.and_zero, BitVec.zero_and, BitVec.reduceAnd, BitVec.reduceAppend]
  refine fun _ => ⟨fun f hf => ⟨.c, ?_⟩, nofun⟩
  cases hf
  have key (op sub d a b c ib kx rm mt imm k) (h : op = 0xA0#8) : decodePart .c ⟨op, sub, d, a, b, c, ib, kx, rm, mt, imm, k⟩ =
      (fun f : Frame => (if f.fits { imm := true } && f.imm &&& 0xF0000#20 == 0x00000#20 then some (.trap (f.imm.extractLsb' 0 16)) else none : Option Instr)) ⟨op, sub, d, a, b, c, ib, kx, rm, mt, imm, k⟩ := by cases h; rfl
  refine (key _ _ _ _ _ _ _ _ _ _ _ _ rfl).trans ?_
  simp (disch := decide) only [Frame.fits, h, ↓reduceIte, BEq.rfl, Bool.or_true, Bool.true_or, Bool.not_false, Bool.and_true, Bool.true_and, Bool.false_eq_true, BitVec.ofNat_eq_ofNat, BitVec.extractLsb'_append_eq_of_le, BitVec.extractLsb'_append_eq_of_add_le, Nat.reduceSub, BitVec.extractLsb'_eq_self]

theorem Laws.RoundTrip.mfs (d : Reg) (n : BitVec 12) : Statement (.mfs d n) := by
  have h : (0#8 ++ n : BitVec 20) &&& 0xFF000#20 = 0x00000#20 := by
    change (0#8 ++ n) &&& (0xFF#8 ++ 0x0#12) = 0x00000#20
    rw [BitVec.and_append]; simp only [BitVec.and_zero, BitVec.zero_and, BitVec.reduceAnd, BitVec.reduceAppend]
  refine fun _ => ⟨fun f hf => ⟨.c, ?_⟩, nofun⟩
  cases hf
  have key (op sub d a b c ib kx rm mt imm k) (h : op = 0xA2#8) : decodePart .c ⟨op, sub, d, a, b, c, ib, kx, rm, mt, imm, k⟩ =
      (fun f : Frame => (if f.fits { d := true, imm := true } && f.imm &&& 0xFF000#20 == 0x00000#20 then some (.mfs f.d (f.imm.extractLsb' 0 12)) else none : Option Instr)) ⟨op, sub, d, a, b, c, ib, kx, rm, mt, imm, k⟩ := by cases h; rfl
  refine (key _ _ _ _ _ _ _ _ _ _ _ _ rfl).trans ?_
  simp (disch := decide) only [Frame.fits, h, ↓reduceIte, BEq.rfl, Bool.or_true, Bool.true_or, Bool.not_false, Bool.and_true, Bool.true_and, Bool.false_eq_true, BitVec.ofNat_eq_ofNat, BitVec.extractLsb'_append_eq_of_le, BitVec.extractLsb'_append_eq_of_add_le, Nat.reduceSub, BitVec.extractLsb'_eq_self]

theorem Laws.RoundTrip.mts (a : Reg) (n : BitVec 12) : Statement (.mts a n) := by
  have h : (0#8 ++ n : BitVec 20) &&& 0xFF000#20 = 0x00000#20 := by
    change (0#8 ++ n) &&& (0xFF#8 ++ 0x0#12) = 0x00000#20
    rw [BitVec.and_append]; simp only [BitVec.and_zero, BitVec.zero_and, BitVec.reduceAnd, BitVec.reduceAppend]
  refine fun _ => ⟨fun f hf => ⟨.c, ?_⟩, nofun⟩
  cases hf
  have key (op sub d a b c ib kx rm mt imm k) (h : op = 0xA3#8) : decodePart .c ⟨op, sub, d, a, b, c, ib, kx, rm, mt, imm, k⟩ =
      (fun f : Frame => (if f.fits { a := true, imm := true } && f.imm &&& 0xFF000#20 == 0x00000#20 then some (.mts f.a (f.imm.extractLsb' 0 12)) else none : Option Instr)) ⟨op, sub, d, a, b, c, ib, kx, rm, mt, imm, k⟩ := by cases h; rfl
  refine (key _ _ _ _ _ _ _ _ _ _ _ _ rfl).trans ?_
  simp (disch := decide) only [Frame.fits, h, ↓reduceIte, BEq.rfl, Bool.or_true, Bool.true_or, Bool.not_false, Bool.and_true, Bool.true_and, Bool.false_eq_true, BitVec.ofNat_eq_ofNat, BitVec.extractLsb'_append_eq_of_le, BitVec.extractLsb'_append_eq_of_add_le, Nat.reduceSub, BitVec.extractLsb'_eq_self]

theorem Laws.RoundTrip.wfe (d : Reg) : Statement (.wfe d) := by
  refine fun _ => ⟨fun f hf => ⟨.c, ?_⟩, nofun⟩
  cases hf
  have key (op sub d a b c ib kx rm mt imm k) (h : op = 0xA4#8) : decodePart .c ⟨op, sub, d, a, b, c, ib, kx, rm, mt, imm, k⟩ =
      (fun f : Frame => (if f.fits { d := true } then some (.wfe f.d) else none : Option Instr)) ⟨op, sub, d, a, b, c, ib, kx, rm, mt, imm, k⟩ := by cases h; rfl
  refine (key _ _ _ _ _ _ _ _ _ _ _ _ rfl).trans ?_
  simp (disch := decide) only [Frame.fits, ↓reduceIte, BEq.rfl, Bool.or_true, Bool.true_or, Bool.not_false, Bool.and_true, Bool.true_and, Bool.false_eq_true, BitVec.ofNat_eq_ofNat]

theorem Laws.RoundTrip.sev (a : Reg) : Statement (.sev a) := by
  refine fun _ => ⟨fun f hf => ⟨.c, ?_⟩, nofun⟩
  cases hf
  have key (op sub d a b c ib kx rm mt imm k) (h : op = 0xA5#8) : decodePart .c ⟨op, sub, d, a, b, c, ib, kx, rm, mt, imm, k⟩ =
      (fun f : Frame => (if f.fits { a := true } then some (.sev f.a) else none : Option Instr)) ⟨op, sub, d, a, b, c, ib, kx, rm, mt, imm, k⟩ := by cases h; rfl
  refine (key _ _ _ _ _ _ _ _ _ _ _ _ rfl).trans ?_
  simp (disch := decide) only [Frame.fits, ↓reduceIte, BEq.rfl, Bool.or_true, Bool.true_or, Bool.not_false, Bool.and_true, Bool.true_and, Bool.false_eq_true, BitVec.ofNat_eq_ofNat]

theorem Laws.RoundTrip.mark (a : Reg) (tag : BitVec 16) : Statement (.mark a tag) := by
  have h : (0#4 ++ tag : BitVec 20) &&& 0xF0000#20 = 0x00000#20 := by
    change (0#4 ++ tag) &&& (0xF#4 ++ 0x0#16) = 0x00000#20
    rw [BitVec.and_append]; simp only [BitVec.and_zero, BitVec.zero_and, BitVec.reduceAnd, BitVec.reduceAppend]
  refine fun _ => ⟨fun f hf => ⟨.c, ?_⟩, nofun⟩
  cases hf
  have key (op sub d a b c ib kx rm mt imm k) (h : op = 0xA7#8) : decodePart .c ⟨op, sub, d, a, b, c, ib, kx, rm, mt, imm, k⟩ =
      (fun f : Frame => (if f.fits { a := true, imm := true } && f.imm &&& 0xF0000#20 == 0x00000#20 then some (.mark f.a (f.imm.extractLsb' 0 16)) else none : Option Instr)) ⟨op, sub, d, a, b, c, ib, kx, rm, mt, imm, k⟩ := by cases h; rfl
  refine (key _ _ _ _ _ _ _ _ _ _ _ _ rfl).trans ?_
  simp (disch := decide) only [Frame.fits, h, ↓reduceIte, BEq.rfl, Bool.or_true, Bool.true_or, Bool.not_false, Bool.and_true, Bool.true_and, Bool.false_eq_true, BitVec.ofNat_eq_ofNat, BitVec.extractLsb'_append_eq_of_le, BitVec.extractLsb'_append_eq_of_add_le, Nat.reduceSub, BitVec.extractLsb'_eq_self]

theorem Laws.RoundTrip.vfadd (f : Fmt) (rm : Rm) (mt : Bool) (d a : Reg) (b : Src) : Statement (.vfadd f rm mt d a b) := by
  refine fun _ => ⟨fun f hf => ⟨.v, ?_⟩, nofun⟩
  cases hf
  have key (op sub d a b c ib kx rm mt imm k) (h : op = 0x01#8) : decodePart .v ⟨op, sub, d, a, b, c, ib, kx, rm, mt, imm, k⟩ =
      (fun f : Frame => (if f.fits { sub := true, d := true, a := true, src := true, rm := true, mt := true } then (fmtOf f.sub).bind fun fm => (rmOf f.rm).bind fun rm => some (.vfadd fm rm f.mt f.d f.a (f.src f.k)) else none : Option Instr)) ⟨op, sub, d, a, b, c, ib, kx, rm, mt, imm, k⟩ := by cases h; rfl
  rcases b with r | (v | v) <;> refine (key _ _ _ _ _ _ _ _ _ _ _ _ rfl).trans ?_
  all_goals simp (disch := decide) only [Frame.fits, ↓reduceIte, BEq.rfl, Bool.or_true, Bool.true_or, Bool.not_false, Bool.and_true, Bool.true_and, Bool.false_eq_true, BitVec.ofNat_eq_ofNat, fmtOf_fmtCode, rmOf_rmCode, Frame.withSrc, Frame.withImm, Frame.src, Frame.immv, split_imm, Option.bind_some]

theorem Laws.RoundTrip.vfsub (f : Fmt) (rm : Rm) (mt : Bool) (d a : Reg) (b : Src) : Statement (.vfsub f rm mt d a b) := by
  refine fun _ => ⟨fun f hf => ⟨.v, ?_⟩, nofun⟩
  cases hf
  have key (op sub d a b c ib kx rm mt imm k) (h : op = 0x02#8) : decodePart .v ⟨op, sub, d, a, b, c, ib, kx, rm, mt, imm, k⟩ =
      (fun f : Frame => (if f.fits { sub := true, d := true, a := true, src := true, rm := true, mt := true } then (fmtOf f.sub).bind fun fm => (rmOf f.rm).bind fun rm => some (.vfsub fm rm f.mt f.d f.a (f.src f.k)) else none : Option Instr)) ⟨op, sub, d, a, b, c, ib, kx, rm, mt, imm, k⟩ := by cases h; rfl
  rcases b with r | (v | v) <;> refine (key _ _ _ _ _ _ _ _ _ _ _ _ rfl).trans ?_
  all_goals simp (disch := decide) only [Frame.fits, ↓reduceIte, BEq.rfl, Bool.or_true, Bool.true_or, Bool.not_false, Bool.and_true, Bool.true_and, Bool.false_eq_true, BitVec.ofNat_eq_ofNat, fmtOf_fmtCode, rmOf_rmCode, Frame.withSrc, Frame.withImm, Frame.src, Frame.immv, split_imm, Option.bind_some]

theorem Laws.RoundTrip.vfmul (f : Fmt) (rm : Rm) (mt : Bool) (d a : Reg) (b : Src) : Statement (.vfmul f rm mt d a b) := by
  refine fun _ => ⟨fun f hf => ⟨.v, ?_⟩, nofun⟩
  cases hf
  have key (op sub d a b c ib kx rm mt imm k) (h : op = 0x03#8) : decodePart .v ⟨op, sub, d, a, b, c, ib, kx, rm, mt, imm, k⟩ =
      (fun f : Frame => (if f.fits { sub := true, d := true, a := true, src := true, rm := true, mt := true } then (fmtOf f.sub).bind fun fm => (rmOf f.rm).bind fun rm => some (.vfmul fm rm f.mt f.d f.a (f.src f.k)) else none : Option Instr)) ⟨op, sub, d, a, b, c, ib, kx, rm, mt, imm, k⟩ := by cases h; rfl
  rcases b with r | (v | v) <;> refine (key _ _ _ _ _ _ _ _ _ _ _ _ rfl).trans ?_
  all_goals simp (disch := decide) only [Frame.fits, ↓reduceIte, BEq.rfl, Bool.or_true, Bool.true_or, Bool.not_false, Bool.and_true, Bool.true_and, Bool.false_eq_true, BitVec.ofNat_eq_ofNat, fmtOf_fmtCode, rmOf_rmCode, Frame.withSrc, Frame.withImm, Frame.src, Frame.immv, split_imm, Option.bind_some]

theorem Laws.RoundTrip.vfma (f : Fmt) (rm : Rm) (mt : Bool) (d a : Reg) (b : Src) (c : Reg) : Statement (.vfma f rm mt d a b c) := by
  refine fun _ => ⟨fun f hf => ⟨.v, ?_⟩, nofun⟩
  cases hf
  have key (op sub d a b c ib kx rm mt imm k) (h : op = 0x04#8) : decodePart .v ⟨op, sub, d, a, b, c, ib, kx, rm, mt, imm, k⟩ =
      (fun f : Frame => (if f.fits { sub := true, d := true, a := true, c := true, src := true, rm := true, mt := true } then (fmtOf f.sub).bind fun fm => (rmOf f.rm).bind fun rm => some (.vfma fm rm f.mt f.d f.a (f.src f.k) f.c) else none : Option Instr)) ⟨op, sub, d, a, b, c, ib, kx, rm, mt, imm, k⟩ := by cases h; rfl
  rcases b with r | (v | v) <;> refine (key _ _ _ _ _ _ _ _ _ _ _ _ rfl).trans ?_
  all_goals simp (disch := decide) only [Frame.fits, ↓reduceIte, BEq.rfl, Bool.or_true, Bool.true_or, Bool.not_false, Bool.and_true, Bool.true_and, Bool.false_eq_true, BitVec.ofNat_eq_ofNat, fmtOf_fmtCode, rmOf_rmCode, Frame.withSrc, Frame.withImm, Frame.src, Frame.immv, split_imm, Option.bind_some]

theorem Laws.RoundTrip.vfms (f : Fmt) (rm : Rm) (mt : Bool) (d a : Reg) (b : Src) (c : Reg) : Statement (.vfms f rm mt d a b c) := by
  refine fun _ => ⟨fun f hf => ⟨.v, ?_⟩, nofun⟩
  cases hf
  have key (op sub d a b c ib kx rm mt imm k) (h : op = 0x05#8) : decodePart .v ⟨op, sub, d, a, b, c, ib, kx, rm, mt, imm, k⟩ =
      (fun f : Frame => (if f.fits { sub := true, d := true, a := true, c := true, src := true, rm := true, mt := true } then (fmtOf f.sub).bind fun fm => (rmOf f.rm).bind fun rm => some (.vfms fm rm f.mt f.d f.a (f.src f.k) f.c) else none : Option Instr)) ⟨op, sub, d, a, b, c, ib, kx, rm, mt, imm, k⟩ := by cases h; rfl
  rcases b with r | (v | v) <;> refine (key _ _ _ _ _ _ _ _ _ _ _ _ rfl).trans ?_
  all_goals simp (disch := decide) only [Frame.fits, ↓reduceIte, BEq.rfl, Bool.or_true, Bool.true_or, Bool.not_false, Bool.and_true, Bool.true_and, Bool.false_eq_true, BitVec.ofNat_eq_ofNat, fmtOf_fmtCode, rmOf_rmCode, Frame.withSrc, Frame.withImm, Frame.src, Frame.immv, split_imm, Option.bind_some]

theorem Laws.RoundTrip.vfnma (f : Fmt) (rm : Rm) (mt : Bool) (d a : Reg) (b : Src) (c : Reg) : Statement (.vfnma f rm mt d a b c) := by
  refine fun _ => ⟨fun f hf => ⟨.v, ?_⟩, nofun⟩
  cases hf
  have key (op sub d a b c ib kx rm mt imm k) (h : op = 0x06#8) : decodePart .v ⟨op, sub, d, a, b, c, ib, kx, rm, mt, imm, k⟩ =
      (fun f : Frame => (if f.fits { sub := true, d := true, a := true, c := true, src := true, rm := true, mt := true } then (fmtOf f.sub).bind fun fm => (rmOf f.rm).bind fun rm => some (.vfnma fm rm f.mt f.d f.a (f.src f.k) f.c) else none : Option Instr)) ⟨op, sub, d, a, b, c, ib, kx, rm, mt, imm, k⟩ := by cases h; rfl
  rcases b with r | (v | v) <;> refine (key _ _ _ _ _ _ _ _ _ _ _ _ rfl).trans ?_
  all_goals simp (disch := decide) only [Frame.fits, ↓reduceIte, BEq.rfl, Bool.or_true, Bool.true_or, Bool.not_false, Bool.and_true, Bool.true_and, Bool.false_eq_true, BitVec.ofNat_eq_ofNat, fmtOf_fmtCode, rmOf_rmCode, Frame.withSrc, Frame.withImm, Frame.src, Frame.immv, split_imm, Option.bind_some]

theorem Laws.RoundTrip.vfdiv (f : Fmt) (rm : Rm) (mt : Bool) (d a : Reg) (b : Src) : Statement (.vfdiv f rm mt d a b) := by
  refine fun _ => ⟨fun f hf => ⟨.v, ?_⟩, nofun⟩
  cases hf
  have key (op sub d a b c ib kx rm mt imm k) (h : op = 0x07#8) : decodePart .v ⟨op, sub, d, a, b, c, ib, kx, rm, mt, imm, k⟩ =
      (fun f : Frame => (if f.fits { sub := true, d := true, a := true, src := true, rm := true, mt := true } then (fmtOf f.sub).bind fun fm => (rmOf f.rm).bind fun rm => some (.vfdiv fm rm f.mt f.d f.a (f.src f.k)) else none : Option Instr)) ⟨op, sub, d, a, b, c, ib, kx, rm, mt, imm, k⟩ := by cases h; rfl
  rcases b with r | (v | v) <;> refine (key _ _ _ _ _ _ _ _ _ _ _ _ rfl).trans ?_
  all_goals simp (disch := decide) only [Frame.fits, ↓reduceIte, BEq.rfl, Bool.or_true, Bool.true_or, Bool.not_false, Bool.and_true, Bool.true_and, Bool.false_eq_true, BitVec.ofNat_eq_ofNat, fmtOf_fmtCode, rmOf_rmCode, Frame.withSrc, Frame.withImm, Frame.src, Frame.immv, split_imm, Option.bind_some]

theorem Laws.RoundTrip.vfsqrt (f : Fmt) (rm : Rm) (mt : Bool) (d a : Reg) : Statement (.vfsqrt f rm mt d a) := by
  refine fun _ => ⟨fun f hf => ⟨.v, ?_⟩, nofun⟩
  cases hf
  have key (op sub d a b c ib kx rm mt imm k) (h : op = 0x08#8) : decodePart .v ⟨op, sub, d, a, b, c, ib, kx, rm, mt, imm, k⟩ =
      (fun f : Frame => (if f.fits { sub := true, d := true, a := true, rm := true, mt := true } then (fmtOf f.sub).bind fun fm => (rmOf f.rm).bind fun rm => some (.vfsqrt fm rm f.mt f.d f.a) else none : Option Instr)) ⟨op, sub, d, a, b, c, ib, kx, rm, mt, imm, k⟩ := by cases h; rfl
  refine (key _ _ _ _ _ _ _ _ _ _ _ _ rfl).trans ?_
  simp (disch := decide) only [Frame.fits, ↓reduceIte, BEq.rfl, Bool.or_true, Bool.true_or, Bool.not_false, Bool.and_true, Bool.true_and, Bool.false_eq_true, BitVec.ofNat_eq_ofNat, fmtOf_fmtCode, rmOf_rmCode, Option.bind_some]

theorem Laws.RoundTrip.vfmin (f : Fmt) (mt : Bool) (d a : Reg) (b : Src) : Statement (.vfmin f mt d a b) := by
  refine fun _ => ⟨fun f hf => ⟨.v, ?_⟩, nofun⟩
  cases hf
  have key (op sub d a b c ib kx rm mt imm k) (h : op = 0x09#8) : decodePart .v ⟨op, sub, d, a, b, c, ib, kx, rm, mt, imm, k⟩ =
      (fun f : Frame => (if f.fits { sub := true, d := true, a := true, src := true, mt := true } then (fmtOf f.sub).bind fun fm => some (.vfmin fm f.mt f.d f.a (f.src f.k)) else none : Option Instr)) ⟨op, sub, d, a, b, c, ib, kx, rm, mt, imm, k⟩ := by cases h; rfl
  rcases b with r | (v | v) <;> refine (key _ _ _ _ _ _ _ _ _ _ _ _ rfl).trans ?_
  all_goals simp (disch := decide) only [Frame.fits, ↓reduceIte, BEq.rfl, Bool.or_true, Bool.true_or, Bool.not_false, Bool.and_true, Bool.true_and, Bool.false_eq_true, BitVec.ofNat_eq_ofNat, fmtOf_fmtCode, Frame.withSrc, Frame.withImm, Frame.src, Frame.immv, split_imm, Option.bind_some]

theorem Laws.RoundTrip.vfmax (f : Fmt) (mt : Bool) (d a : Reg) (b : Src) : Statement (.vfmax f mt d a b) := by
  refine fun _ => ⟨fun f hf => ⟨.v, ?_⟩, nofun⟩
  cases hf
  have key (op sub d a b c ib kx rm mt imm k) (h : op = 0x0A#8) : decodePart .v ⟨op, sub, d, a, b, c, ib, kx, rm, mt, imm, k⟩ =
      (fun f : Frame => (if f.fits { sub := true, d := true, a := true, src := true, mt := true } then (fmtOf f.sub).bind fun fm => some (.vfmax fm f.mt f.d f.a (f.src f.k)) else none : Option Instr)) ⟨op, sub, d, a, b, c, ib, kx, rm, mt, imm, k⟩ := by cases h; rfl
  rcases b with r | (v | v) <;> refine (key _ _ _ _ _ _ _ _ _ _ _ _ rfl).trans ?_
  all_goals simp (disch := decide) only [Frame.fits, ↓reduceIte, BEq.rfl, Bool.or_true, Bool.true_or, Bool.not_false, Bool.and_true, Bool.true_and, Bool.false_eq_true, BitVec.ofNat_eq_ofNat, fmtOf_fmtCode, Frame.withSrc, Frame.withImm, Frame.src, Frame.immv, split_imm, Option.bind_some]

theorem Laws.RoundTrip.vfabs (f : Fmt) (mt : Bool) (d a : Reg) : Statement (.vfabs f mt d a) := by
  refine fun _ => ⟨fun f hf => ⟨.v, ?_⟩, nofun⟩
  cases hf
  have key (op sub d a b c ib kx rm mt imm k) (h : op = 0x0B#8) : decodePart .v ⟨op, sub, d, a, b, c, ib, kx, rm, mt, imm, k⟩ =
      (fun f : Frame => (if f.fits { sub := true, d := true, a := true, mt := true } then (fmtOf f.sub).bind fun fm => some (.vfabs fm f.mt f.d f.a) else none : Option Instr)) ⟨op, sub, d, a, b, c, ib, kx, rm, mt, imm, k⟩ := by cases h; rfl
  refine (key _ _ _ _ _ _ _ _ _ _ _ _ rfl).trans ?_
  simp (disch := decide) only [Frame.fits, ↓reduceIte, BEq.rfl, Bool.or_true, Bool.true_or, Bool.not_false, Bool.and_true, Bool.true_and, Bool.false_eq_true, BitVec.ofNat_eq_ofNat, fmtOf_fmtCode, Option.bind_some]

theorem Laws.RoundTrip.vfneg (f : Fmt) (mt : Bool) (d a : Reg) : Statement (.vfneg f mt d a) := by
  refine fun _ => ⟨fun f hf => ⟨.v, ?_⟩, nofun⟩
  cases hf
  have key (op sub d a b c ib kx rm mt imm k) (h : op = 0x0C#8) : decodePart .v ⟨op, sub, d, a, b, c, ib, kx, rm, mt, imm, k⟩ =
      (fun f : Frame => (if f.fits { sub := true, d := true, a := true, mt := true } then (fmtOf f.sub).bind fun fm => some (.vfneg fm f.mt f.d f.a) else none : Option Instr)) ⟨op, sub, d, a, b, c, ib, kx, rm, mt, imm, k⟩ := by cases h; rfl
  refine (key _ _ _ _ _ _ _ _ _ _ _ _ rfl).trans ?_
  simp (disch := decide) only [Frame.fits, ↓reduceIte, BEq.rfl, Bool.or_true, Bool.true_or, Bool.not_false, Bool.and_true, Bool.true_and, Bool.false_eq_true, BitVec.ofNat_eq_ofNat, fmtOf_fmtCode, Option.bind_some]

theorem Laws.RoundTrip.vfcmp (f : Fmt) (cc : FCond) (mt : Bool) (d a : Reg) (b : Src) : Statement (.vfcmp f cc mt d a b) := by
  refine fun _ => ⟨fun f hf => ⟨.v, ?_⟩, nofun⟩
  cases hf
  have key (op sub d a b c ib kx rm mt imm k) (h : op = 0x0D#8) : decodePart .v ⟨op, sub, d, a, b, c, ib, kx, rm, mt, imm, k⟩ =
      (fun f : Frame => (if f.fits { sub := true, d := true, a := true, c := true, src := true, imm := true, mt := true } && f.c &&& 0b111000#6 == 0#6 && (if f.ib then true else f.c == 0 && f.imm &&& 0xFFFF8#20 == 0#20 && !f.kx) then (fmtOf f.sub).bind fun fm => some (.vfcmp fm (fcondOf (if f.ib then f.c.extractLsb' 0 3 else f.imm.extractLsb' 0 3)) f.mt f.d f.a (f.src f.k)) else none : Option Instr)) ⟨op, sub, d, a, b, c, ib, kx, rm, mt, imm, k⟩ := by cases h; rfl
  rcases b with r | (v | v) <;> refine (key _ _ _ _ _ _ _ _ _ _ _ _ rfl).trans ?_
  all_goals simp (disch := decide) only [Frame.fits, ↓reduceIte, BEq.rfl, Bool.or_true, Bool.true_or, Bool.not_false, Bool.and_true, Bool.true_and, Bool.false_eq_true, BitVec.ofNat_eq_ofNat, fmtOf_fmtCode, encodeVfcmp, vfcmp_imm_mask, vfcmp_c_mask, fcondOf_fcondCode, BitVec.zero_and, Frame.withSrc, Frame.withImm, Frame.src, Frame.immv, split_imm, Option.bind_some, BitVec.extractLsb'_append_eq_of_le, BitVec.extractLsb'_append_eq_of_add_le, Nat.reduceSub, BitVec.extractLsb'_eq_self]

theorem Laws.RoundTrip.vfcvt (dst src : Fmt) (rm : Rm) (mt : Bool) (d a b : Reg) (hi : Bool) : Statement (.vfcvt dst src rm mt d a b hi) := by
  have h : (0#15 ++ BitVec.ofBool hi ++ fmtCode src : BitVec 20) &&& 0xFFFE0#20 = 0x00000#20 := by
    change (0#15 ++ BitVec.ofBool hi ++ fmtCode src) &&& (0x7FFF#15 ++ 0x0#1 ++ 0x0#4) = 0x00000#20
    rw [BitVec.and_append, BitVec.and_append]; simp only [BitVec.and_zero, BitVec.zero_and, BitVec.reduceAnd, BitVec.reduceAppend]
  refine fun _ => ⟨fun f hf => ⟨.v, ?_⟩, nofun⟩
  cases hf
  have key (op sub d a b c ib kx rm mt imm k) (h : op = 0x0E#8) : decodePart .v ⟨op, sub, d, a, b, c, ib, kx, rm, mt, imm, k⟩ =
      (fun f : Frame => (if f.fits { sub := true, d := true, a := true, b := true, imm := true, rm := true, mt := true } && f.imm &&& 0xFFFE0#20 == 0x00000#20 then (fmtOf f.sub).bind fun dst => (fmtOf (f.imm.extractLsb' 0 4)).bind fun src => (rmOf f.rm).bind fun rm => some (.vfcvt dst src rm f.mt f.d f.a f.b (f.imm.getLsbD 4)) else none : Option Instr)) ⟨op, sub, d, a, b, c, ib, kx, rm, mt, imm, k⟩ := by cases h; rfl
  refine (key _ _ _ _ _ _ _ _ _ _ _ _ rfl).trans ?_
  simp (disch := decide) only [Frame.fits, h, ↓reduceIte, BEq.rfl, Bool.or_true, Bool.true_or, Bool.not_false, Bool.and_true, Bool.true_and, Bool.false_eq_true, BitVec.ofNat_eq_ofNat, fmtOf_fmtCode, rmOf_rmCode, BitVec.extractLsb'_append_eq_of_le, BitVec.extractLsb'_append_eq_of_add_le, Nat.reduceSub, BitVec.extractLsb'_eq_self, BitVec.getLsbD_append, Nat.reduceLT, BitVec.getLsbD_ofBool, decide_true, Option.bind_some]

theorem Laws.RoundTrip.vfrnd (f : Fmt) (rm : Rm) (mt : Bool) (d a : Reg) : Statement (.vfrnd f rm mt d a) := by
  refine fun _ => ⟨fun f hf => ⟨.v, ?_⟩, nofun⟩
  cases hf
  have key (op sub d a b c ib kx rm mt imm k) (h : op = 0x0F#8) : decodePart .v ⟨op, sub, d, a, b, c, ib, kx, rm, mt, imm, k⟩ =
      (fun f : Frame => (if f.fits { sub := true, d := true, a := true, rm := true, mt := true } then (fmtOf f.sub).bind fun fm => (rmOf f.rm).bind fun rm => some (.vfrnd fm rm f.mt f.d f.a) else none : Option Instr)) ⟨op, sub, d, a, b, c, ib, kx, rm, mt, imm, k⟩ := by cases h; rfl
  refine (key _ _ _ _ _ _ _ _ _ _ _ _ rfl).trans ?_
  simp (disch := decide) only [Frame.fits, ↓reduceIte, BEq.rfl, Bool.or_true, Bool.true_or, Bool.not_false, Bool.and_true, Bool.true_and, Bool.false_eq_true, BitVec.ofNat_eq_ofNat, fmtOf_fmtCode, rmOf_rmCode, Option.bind_some]

theorem Laws.RoundTrip.vscalb (f : Fmt) (rm : Rm) (mt : Bool) (d a : Reg) (b : Src) : Statement (.vscalb f rm mt d a b) := by
  refine fun _ => ⟨fun f hf => ⟨.v, ?_⟩, nofun⟩
  cases hf
  have key (op sub d a b c ib kx rm mt imm k) (h : op = 0x10#8) : decodePart .v ⟨op, sub, d, a, b, c, ib, kx, rm, mt, imm, k⟩ =
      (fun f : Frame => (if f.fits { sub := true, d := true, a := true, src := true, rm := true, mt := true } then (fmtOf f.sub).bind fun fm => (rmOf f.rm).bind fun rm => some (.vscalb fm rm f.mt f.d f.a (f.src f.k)) else none : Option Instr)) ⟨op, sub, d, a, b, c, ib, kx, rm, mt, imm, k⟩ := by cases h; rfl
  rcases b with r | (v | v) <;> refine (key _ _ _ _ _ _ _ _ _ _ _ _ rfl).trans ?_
  all_goals simp (disch := decide) only [Frame.fits, ↓reduceIte, BEq.rfl, Bool.or_true, Bool.true_or, Bool.not_false, Bool.and_true, Bool.true_and, Bool.false_eq_true, BitVec.ofNat_eq_ofNat, fmtOf_fmtCode, rmOf_rmCode, Frame.withSrc, Frame.withImm, Frame.src, Frame.immv, split_imm, Option.bind_some]

theorem Laws.RoundTrip.vexp2 (mt : Bool) (d a : Reg) : Statement (.vexp2 mt d a) := by
  refine fun _ => ⟨fun f hf => ⟨.v, ?_⟩, nofun⟩
  cases hf
  have key (op sub d a b c ib kx rm mt imm k) (h : op = 0x11#8) : decodePart .v ⟨op, sub, d, a, b, c, ib, kx, rm, mt, imm, k⟩ =
      (fun f : Frame => (if f.fits { sub := true, d := true, a := true, mt := true } && f.sub == 0x1#4 then some (.vexp2 f.mt f.d f.a) else none : Option Instr)) ⟨op, sub, d, a, b, c, ib, kx, rm, mt, imm, k⟩ := by cases h; rfl
  refine (key _ _ _ _ _ _ _ _ _ _ _ _ rfl).trans ?_
  simp (disch := decide) only [Frame.fits, ↓reduceIte, BEq.rfl, Bool.or_true, Bool.true_or, Bool.not_false, Bool.and_true, Bool.true_and, Bool.false_eq_true, BitVec.ofNat_eq_ofNat]

theorem Laws.RoundTrip.vlog2 (mt : Bool) (d a : Reg) : Statement (.vlog2 mt d a) := by
  refine fun _ => ⟨fun f hf => ⟨.v, ?_⟩, nofun⟩
  cases hf
  have key (op sub d a b c ib kx rm mt imm k) (h : op = 0x12#8) : decodePart .v ⟨op, sub, d, a, b, c, ib, kx, rm, mt, imm, k⟩ =
      (fun f : Frame => (if f.fits { sub := true, d := true, a := true, mt := true } && f.sub == 0x1#4 then some (.vlog2 f.mt f.d f.a) else none : Option Instr)) ⟨op, sub, d, a, b, c, ib, kx, rm, mt, imm, k⟩ := by cases h; rfl
  refine (key _ _ _ _ _ _ _ _ _ _ _ _ rfl).trans ?_
  simp (disch := decide) only [Frame.fits, ↓reduceIte, BEq.rfl, Bool.or_true, Bool.true_or, Bool.not_false, Bool.and_true, Bool.true_and, Bool.false_eq_true, BitVec.ofNat_eq_ofNat]

theorem Laws.RoundTrip.vrcp (mt : Bool) (d a : Reg) : Statement (.vrcp mt d a) := by
  refine fun _ => ⟨fun f hf => ⟨.v, ?_⟩, nofun⟩
  cases hf
  have key (op sub d a b c ib kx rm mt imm k) (h : op = 0x13#8) : decodePart .v ⟨op, sub, d, a, b, c, ib, kx, rm, mt, imm, k⟩ =
      (fun f : Frame => (if f.fits { sub := true, d := true, a := true, mt := true } && f.sub == 0x1#4 then some (.vrcp f.mt f.d f.a) else none : Option Instr)) ⟨op, sub, d, a, b, c, ib, kx, rm, mt, imm, k⟩ := by cases h; rfl
  refine (key _ _ _ _ _ _ _ _ _ _ _ _ rfl).trans ?_
  simp (disch := decide) only [Frame.fits, ↓reduceIte, BEq.rfl, Bool.or_true, Bool.true_or, Bool.not_false, Bool.and_true, Bool.true_and, Bool.false_eq_true, BitVec.ofNat_eq_ofNat]

theorem Laws.RoundTrip.vrsq (mt : Bool) (d a : Reg) : Statement (.vrsq mt d a) := by
  refine fun _ => ⟨fun f hf => ⟨.v, ?_⟩, nofun⟩
  cases hf
  have key (op sub d a b c ib kx rm mt imm k) (h : op = 0x14#8) : decodePart .v ⟨op, sub, d, a, b, c, ib, kx, rm, mt, imm, k⟩ =
      (fun f : Frame => (if f.fits { sub := true, d := true, a := true, mt := true } && f.sub == 0x1#4 then some (.vrsq f.mt f.d f.a) else none : Option Instr)) ⟨op, sub, d, a, b, c, ib, kx, rm, mt, imm, k⟩ := by cases h; rfl
  refine (key _ _ _ _ _ _ _ _ _ _ _ _ rfl).trans ?_
  simp (disch := decide) only [Frame.fits, ↓reduceIte, BEq.rfl, Bool.or_true, Bool.true_or, Bool.not_false, Bool.and_true, Bool.true_and, Bool.false_eq_true, BitVec.ofNat_eq_ofNat]

theorem Laws.RoundTrip.vadd (mt : Bool) (d a : Reg) (b : Src) : Statement (.vadd mt d a b) := by
  refine fun _ => ⟨fun f hf => ⟨.v, ?_⟩, nofun⟩
  cases hf
  have key (op sub d a b c ib kx rm mt imm k) (h : op = 0x20#8) : decodePart .v ⟨op, sub, d, a, b, c, ib, kx, rm, mt, imm, k⟩ =
      (fun f : Frame => (if f.fits { d := true, a := true, src := true, mt := true } then some (.vadd f.mt f.d f.a (f.src f.k)) else none : Option Instr)) ⟨op, sub, d, a, b, c, ib, kx, rm, mt, imm, k⟩ := by cases h; rfl
  rcases b with r | (v | v) <;> refine (key _ _ _ _ _ _ _ _ _ _ _ _ rfl).trans ?_
  all_goals simp (disch := decide) only [Frame.fits, ↓reduceIte, BEq.rfl, Bool.or_true, Bool.true_or, Bool.not_false, Bool.and_true, Bool.true_and, Bool.false_eq_true, BitVec.ofNat_eq_ofNat, Frame.withSrc, Frame.withImm, Frame.src, Frame.immv, split_imm]

theorem Laws.RoundTrip.vsub (mt : Bool) (d a : Reg) (b : Src) : Statement (.vsub mt d a b) := by
  refine fun _ => ⟨fun f hf => ⟨.v, ?_⟩, nofun⟩
  cases hf
  have key (op sub d a b c ib kx rm mt imm k) (h : op = 0x21#8) : decodePart .v ⟨op, sub, d, a, b, c, ib, kx, rm, mt, imm, k⟩ =
      (fun f : Frame => (if f.fits { d := true, a := true, src := true, mt := true } then some (.vsub f.mt f.d f.a (f.src f.k)) else none : Option Instr)) ⟨op, sub, d, a, b, c, ib, kx, rm, mt, imm, k⟩ := by cases h; rfl
  rcases b with r | (v | v) <;> refine (key _ _ _ _ _ _ _ _ _ _ _ _ rfl).trans ?_
  all_goals simp (disch := decide) only [Frame.fits, ↓reduceIte, BEq.rfl, Bool.or_true, Bool.true_or, Bool.not_false, Bool.and_true, Bool.true_and, Bool.false_eq_true, BitVec.ofNat_eq_ofNat, Frame.withSrc, Frame.withImm, Frame.src, Frame.immv, split_imm]

theorem Laws.RoundTrip.vmul (mt : Bool) (d a : Reg) (b : Src) : Statement (.vmul mt d a b) := by
  refine fun _ => ⟨fun f hf => ⟨.v, ?_⟩, nofun⟩
  cases hf
  have key (op sub d a b c ib kx rm mt imm k) (h : op = 0x22#8) : decodePart .v ⟨op, sub, d, a, b, c, ib, kx, rm, mt, imm, k⟩ =
      (fun f : Frame => (if f.fits { d := true, a := true, src := true, mt := true } then some (.vmul f.mt f.d f.a (f.src f.k)) else none : Option Instr)) ⟨op, sub, d, a, b, c, ib, kx, rm, mt, imm, k⟩ := by cases h; rfl
  rcases b with r | (v | v) <;> refine (key _ _ _ _ _ _ _ _ _ _ _ _ rfl).trans ?_
  all_goals simp (disch := decide) only [Frame.fits, ↓reduceIte, BEq.rfl, Bool.or_true, Bool.true_or, Bool.not_false, Bool.and_true, Bool.true_and, Bool.false_eq_true, BitVec.ofNat_eq_ofNat, Frame.withSrc, Frame.withImm, Frame.src, Frame.immv, split_imm]

theorem Laws.RoundTrip.vmulh (u : Bool) (mt : Bool) (d a : Reg) (b : Src) : Statement (.vmulh u mt d a b) := by
  refine fun _ => ⟨fun f hf => ⟨.v, ?_⟩, nofun⟩
  cases hf
  have key (op sub d a b c ib kx rm mt imm k) (h : op = 0x23#8) : decodePart .v ⟨op, sub, d, a, b, c, ib, kx, rm, mt, imm, k⟩ =
      (fun f : Frame => (if f.fits { d := true, a := true, c := true, src := true, mt := true } && f.c &&& 0b111110#6 == 0#6 then some (.vmulh (f.c.getLsbD 0) f.mt f.d f.a (f.src f.k)) else none : Option Instr)) ⟨op, sub, d, a, b, c, ib, kx, rm, mt, imm, k⟩ := by cases h; rfl
  rcases b with r | (v | v) <;> refine (key _ _ _ _ _ _ _ _ _ _ _ _ rfl).trans ?_
  all_goals simp (disch := decide) only [Frame.fits, ↓reduceIte, BEq.rfl, Bool.or_true, Bool.true_or, Bool.not_false, Bool.and_true, Bool.true_and, Bool.false_eq_true, BitVec.ofNat_eq_ofNat, boolReg_mask, boolReg_bit, Frame.withSrc, Frame.withImm, Frame.src, Frame.immv, split_imm]

theorem Laws.RoundTrip.vmad (mt : Bool) (d a : Reg) (b : Src) (c : Reg) : Statement (.vmad mt d a b c) := by
  refine fun _ => ⟨fun f hf => ⟨.v, ?_⟩, nofun⟩
  cases hf
  have key (op sub d a b c ib kx rm mt imm k) (h : op = 0x24#8) : decodePart .v ⟨op, sub, d, a, b, c, ib, kx, rm, mt, imm, k⟩ =
      (fun f : Frame => (if f.fits { d := true, a := true, c := true, src := true, mt := true } then some (.vmad f.mt f.d f.a (f.src f.k) f.c) else none : Option Instr)) ⟨op, sub, d, a, b, c, ib, kx, rm, mt, imm, k⟩ := by cases h; rfl
  rcases b with r | (v | v) <;> refine (key _ _ _ _ _ _ _ _ _ _ _ _ rfl).trans ?_
  all_goals simp (disch := decide) only [Frame.fits, ↓reduceIte, BEq.rfl, Bool.or_true, Bool.true_or, Bool.not_false, Bool.and_true, Bool.true_and, Bool.false_eq_true, BitVec.ofNat_eq_ofNat, Frame.withSrc, Frame.withImm, Frame.src, Frame.immv, split_imm]

theorem Laws.RoundTrip.vand (mt : Bool) (d a : Reg) (b : Src) : Statement (.vand mt d a b) := by
  refine fun _ => ⟨fun f hf => ⟨.v, ?_⟩, nofun⟩
  cases hf
  have key (op sub d a b c ib kx rm mt imm k) (h : op = 0x25#8) : decodePart .v ⟨op, sub, d, a, b, c, ib, kx, rm, mt, imm, k⟩ =
      (fun f : Frame => (if f.fits { d := true, a := true, src := true, mt := true } then some (.vand f.mt f.d f.a (f.src f.k)) else none : Option Instr)) ⟨op, sub, d, a, b, c, ib, kx, rm, mt, imm, k⟩ := by cases h; rfl
  rcases b with r | (v | v) <;> refine (key _ _ _ _ _ _ _ _ _ _ _ _ rfl).trans ?_
  all_goals simp (disch := decide) only [Frame.fits, ↓reduceIte, BEq.rfl, Bool.or_true, Bool.true_or, Bool.not_false, Bool.and_true, Bool.true_and, Bool.false_eq_true, BitVec.ofNat_eq_ofNat, Frame.withSrc, Frame.withImm, Frame.src, Frame.immv, split_imm]

theorem Laws.RoundTrip.vor (mt : Bool) (d a : Reg) (b : Src) : Statement (.vor mt d a b) := by
  refine fun _ => ⟨fun f hf => ⟨.v, ?_⟩, nofun⟩
  cases hf
  have key (op sub d a b c ib kx rm mt imm k) (h : op = 0x26#8) : decodePart .v ⟨op, sub, d, a, b, c, ib, kx, rm, mt, imm, k⟩ =
      (fun f : Frame => (if f.fits { d := true, a := true, src := true, mt := true } then some (.vor f.mt f.d f.a (f.src f.k)) else none : Option Instr)) ⟨op, sub, d, a, b, c, ib, kx, rm, mt, imm, k⟩ := by cases h; rfl
  rcases b with r | (v | v) <;> refine (key _ _ _ _ _ _ _ _ _ _ _ _ rfl).trans ?_
  all_goals simp (disch := decide) only [Frame.fits, ↓reduceIte, BEq.rfl, Bool.or_true, Bool.true_or, Bool.not_false, Bool.and_true, Bool.true_and, Bool.false_eq_true, BitVec.ofNat_eq_ofNat, Frame.withSrc, Frame.withImm, Frame.src, Frame.immv, split_imm]

theorem Laws.RoundTrip.vxor (mt : Bool) (d a : Reg) (b : Src) : Statement (.vxor mt d a b) := by
  refine fun _ => ⟨fun f hf => ⟨.v, ?_⟩, nofun⟩
  cases hf
  have key (op sub d a b c ib kx rm mt imm k) (h : op = 0x27#8) : decodePart .v ⟨op, sub, d, a, b, c, ib, kx, rm, mt, imm, k⟩ =
      (fun f : Frame => (if f.fits { d := true, a := true, src := true, mt := true } then some (.vxor f.mt f.d f.a (f.src f.k)) else none : Option Instr)) ⟨op, sub, d, a, b, c, ib, kx, rm, mt, imm, k⟩ := by cases h; rfl
  rcases b with r | (v | v) <;> refine (key _ _ _ _ _ _ _ _ _ _ _ _ rfl).trans ?_
  all_goals simp (disch := decide) only [Frame.fits, ↓reduceIte, BEq.rfl, Bool.or_true, Bool.true_or, Bool.not_false, Bool.and_true, Bool.true_and, Bool.false_eq_true, BitVec.ofNat_eq_ofNat, Frame.withSrc, Frame.withImm, Frame.src, Frame.immv, split_imm]

theorem Laws.RoundTrip.vshl (mt : Bool) (d a : Reg) (b : Src) : Statement (.vshl mt d a b) := by
  refine fun _ => ⟨fun f hf => ⟨.v, ?_⟩, nofun⟩
  cases hf
  have key (op sub d a b c ib kx rm mt imm k) (h : op = 0x28#8) : decodePart .v ⟨op, sub, d, a, b, c, ib, kx, rm, mt, imm, k⟩ =
      (fun f : Frame => (if f.fits { d := true, a := true, src := true, mt := true } then some (.vshl f.mt f.d f.a (f.src f.k)) else none : Option Instr)) ⟨op, sub, d, a, b, c, ib, kx, rm, mt, imm, k⟩ := by cases h; rfl
  rcases b with r | (v | v) <;> refine (key _ _ _ _ _ _ _ _ _ _ _ _ rfl).trans ?_
  all_goals simp (disch := decide) only [Frame.fits, ↓reduceIte, BEq.rfl, Bool.or_true, Bool.true_or, Bool.not_false, Bool.and_true, Bool.true_and, Bool.false_eq_true, BitVec.ofNat_eq_ofNat, Frame.withSrc, Frame.withImm, Frame.src, Frame.immv, split_imm]

theorem Laws.RoundTrip.vshr (mt : Bool) (d a : Reg) (b : Src) : Statement (.vshr mt d a b) := by
  refine fun _ => ⟨fun f hf => ⟨.v, ?_⟩, nofun⟩
  cases hf
  have key (op sub d a b c ib kx rm mt imm k) (h : op = 0x29#8) : decodePart .v ⟨op, sub, d, a, b, c, ib, kx, rm, mt, imm, k⟩ =
      (fun f : Frame => (if f.fits { d := true, a := true, src := true, mt := true } then some (.vshr f.mt f.d f.a (f.src f.k)) else none : Option Instr)) ⟨op, sub, d, a, b, c, ib, kx, rm, mt, imm, k⟩ := by cases h; rfl
  rcases b with r | (v | v) <;> refine (key _ _ _ _ _ _ _ _ _ _ _ _ rfl).trans ?_
  all_goals simp (disch := decide) only [Frame.fits, ↓reduceIte, BEq.rfl, Bool.or_true, Bool.true_or, Bool.not_false, Bool.and_true, Bool.true_and, Bool.false_eq_true, BitVec.ofNat_eq_ofNat, Frame.withSrc, Frame.withImm, Frame.src, Frame.immv, split_imm]

theorem Laws.RoundTrip.vsar (mt : Bool) (d a : Reg) (b : Src) : Statement (.vsar mt d a b) := by
  refine fun _ => ⟨fun f hf => ⟨.v, ?_⟩, nofun⟩
  cases hf
  have key (op sub d a b c ib kx rm mt imm k) (h : op = 0x2A#8) : decodePart .v ⟨op, sub, d, a, b, c, ib, kx, rm, mt, imm, k⟩ =
      (fun f : Frame => (if f.fits { d := true, a := true, src := true, mt := true } then some (.vsar f.mt f.d f.a (f.src f.k)) else none : Option Instr)) ⟨op, sub, d, a, b, c, ib, kx, rm, mt, imm, k⟩ := by cases h; rfl
  rcases b with r | (v | v) <;> refine (key _ _ _ _ _ _ _ _ _ _ _ _ rfl).trans ?_
  all_goals simp (disch := decide) only [Frame.fits, ↓reduceIte, BEq.rfl, Bool.or_true, Bool.true_or, Bool.not_false, Bool.and_true, Bool.true_and, Bool.false_eq_true, BitVec.ofNat_eq_ofNat, Frame.withSrc, Frame.withImm, Frame.src, Frame.immv, split_imm]

theorem Laws.RoundTrip.vmin (u : Bool) (mt : Bool) (d a : Reg) (b : Src) : Statement (.vmin u mt d a b) := by
  refine fun _ => ⟨fun f hf => ⟨.v, ?_⟩, nofun⟩
  cases hf
  have key (op sub d a b c ib kx rm mt imm k) (h : op = 0x2B#8) : decodePart .v ⟨op, sub, d, a, b, c, ib, kx, rm, mt, imm, k⟩ =
      (fun f : Frame => (if f.fits { d := true, a := true, c := true, src := true, mt := true } && f.c &&& 0b111110#6 == 0#6 then some (.vmin (f.c.getLsbD 0) f.mt f.d f.a (f.src f.k)) else none : Option Instr)) ⟨op, sub, d, a, b, c, ib, kx, rm, mt, imm, k⟩ := by cases h; rfl
  rcases b with r | (v | v) <;> refine (key _ _ _ _ _ _ _ _ _ _ _ _ rfl).trans ?_
  all_goals simp (disch := decide) only [Frame.fits, ↓reduceIte, BEq.rfl, Bool.or_true, Bool.true_or, Bool.not_false, Bool.and_true, Bool.true_and, Bool.false_eq_true, BitVec.ofNat_eq_ofNat, boolReg_mask, boolReg_bit, Frame.withSrc, Frame.withImm, Frame.src, Frame.immv, split_imm]

theorem Laws.RoundTrip.vmax (u : Bool) (mt : Bool) (d a : Reg) (b : Src) : Statement (.vmax u mt d a b) := by
  refine fun _ => ⟨fun f hf => ⟨.v, ?_⟩, nofun⟩
  cases hf
  have key (op sub d a b c ib kx rm mt imm k) (h : op = 0x2C#8) : decodePart .v ⟨op, sub, d, a, b, c, ib, kx, rm, mt, imm, k⟩ =
      (fun f : Frame => (if f.fits { d := true, a := true, c := true, src := true, mt := true } && f.c &&& 0b111110#6 == 0#6 then some (.vmax (f.c.getLsbD 0) f.mt f.d f.a (f.src f.k)) else none : Option Instr)) ⟨op, sub, d, a, b, c, ib, kx, rm, mt, imm, k⟩ := by cases h; rfl
  rcases b with r | (v | v) <;> refine (key _ _ _ _ _ _ _ _ _ _ _ _ rfl).trans ?_
  all_goals simp (disch := decide) only [Frame.fits, ↓reduceIte, BEq.rfl, Bool.or_true, Bool.true_or, Bool.not_false, Bool.and_true, Bool.true_and, Bool.false_eq_true, BitVec.ofNat_eq_ofNat, boolReg_mask, boolReg_bit, Frame.withSrc, Frame.withImm, Frame.src, Frame.immv, split_imm]

theorem Laws.RoundTrip.vcmp (cc : Cond) (mt : Bool) (d a : Reg) (b : Src) : Statement (.vcmp cc mt d a b) := by
  refine fun _ => ⟨fun f hf => ⟨.v, ?_⟩, nofun⟩
  cases hf
  have key (op sub d a b c ib kx rm mt imm k) (h : op = 0x2D#8) : decodePart .v ⟨op, sub, d, a, b, c, ib, kx, rm, mt, imm, k⟩ =
      (fun f : Frame => (if f.fits { sub := true, d := true, a := true, src := true, mt := true } then (condOf f.sub).bind fun cc => some (.vcmp cc f.mt f.d f.a (f.src f.k)) else none : Option Instr)) ⟨op, sub, d, a, b, c, ib, kx, rm, mt, imm, k⟩ := by cases h; rfl
  rcases b with r | (v | v) <;> refine (key _ _ _ _ _ _ _ _ _ _ _ _ rfl).trans ?_
  all_goals simp (disch := decide) only [Frame.fits, ↓reduceIte, BEq.rfl, Bool.or_true, Bool.true_or, Bool.not_false, Bool.and_true, Bool.true_and, Bool.false_eq_true, BitVec.ofNat_eq_ofNat, condOf_condCode, Frame.withSrc, Frame.withImm, Frame.src, Frame.immv, split_imm, Option.bind_some]

theorem Laws.RoundTrip.vsel (mt : Bool) (d a : Reg) (b : Src) (c : Reg) : Statement (.vsel mt d a b c) := by
  refine fun _ => ⟨fun f hf => ⟨.v, ?_⟩, nofun⟩
  cases hf
  have key (op sub d a b c ib kx rm mt imm k) (h : op = 0x2E#8) : decodePart .v ⟨op, sub, d, a, b, c, ib, kx, rm, mt, imm, k⟩ =
      (fun f : Frame => (if f.fits { d := true, a := true, c := true, src := true, mt := true } then some (.vsel f.mt f.d f.a (f.src f.k) f.c) else none : Option Instr)) ⟨op, sub, d, a, b, c, ib, kx, rm, mt, imm, k⟩ := by cases h; rfl
  rcases b with r | (v | v) <;> refine (key _ _ _ _ _ _ _ _ _ _ _ _ rfl).trans ?_
  all_goals simp (disch := decide) only [Frame.fits, ↓reduceIte, BEq.rfl, Bool.or_true, Bool.true_or, Bool.not_false, Bool.and_true, Bool.true_and, Bool.false_eq_true, BitVec.ofNat_eq_ofNat, Frame.withSrc, Frame.withImm, Frame.src, Frame.immv, split_imm]

theorem Laws.RoundTrip.vabs (mt : Bool) (d a : Reg) : Statement (.vabs mt d a) := by
  refine fun _ => ⟨fun f hf => ⟨.v, ?_⟩, nofun⟩
  cases hf
  have key (op sub d a b c ib kx rm mt imm k) (h : op = 0x2F#8) : decodePart .v ⟨op, sub, d, a, b, c, ib, kx, rm, mt, imm, k⟩ =
      (fun f : Frame => (if f.fits { d := true, a := true, mt := true } then some (.vabs f.mt f.d f.a) else none : Option Instr)) ⟨op, sub, d, a, b, c, ib, kx, rm, mt, imm, k⟩ := by cases h; rfl
  refine (key _ _ _ _ _ _ _ _ _ _ _ _ rfl).trans ?_
  simp (disch := decide) only [Frame.fits, ↓reduceIte, BEq.rfl, Bool.or_true, Bool.true_or, Bool.not_false, Bool.and_true, Bool.true_and, Bool.false_eq_true, BitVec.ofNat_eq_ofNat]

theorem Laws.RoundTrip.vclz (mt : Bool) (d a : Reg) : Statement (.vclz mt d a) := by
  refine fun _ => ⟨fun f hf => ⟨.v, ?_⟩, nofun⟩
  cases hf
  have key (op sub d a b c ib kx rm mt imm k) (h : op = 0x30#8) : decodePart .v ⟨op, sub, d, a, b, c, ib, kx, rm, mt, imm, k⟩ =
      (fun f : Frame => (if f.fits { d := true, a := true, mt := true } then some (.vclz f.mt f.d f.a) else none : Option Instr)) ⟨op, sub, d, a, b, c, ib, kx, rm, mt, imm, k⟩ := by cases h; rfl
  refine (key _ _ _ _ _ _ _ _ _ _ _ _ rfl).trans ?_
  simp (disch := decide) only [Frame.fits, ↓reduceIte, BEq.rfl, Bool.or_true, Bool.true_or, Bool.not_false, Bool.and_true, Bool.true_and, Bool.false_eq_true, BitVec.ofNat_eq_ofNat]

theorem Laws.RoundTrip.vpopc (mt : Bool) (d a : Reg) : Statement (.vpopc mt d a) := by
  refine fun _ => ⟨fun f hf => ⟨.v, ?_⟩, nofun⟩
  cases hf
  have key (op sub d a b c ib kx rm mt imm k) (h : op = 0x31#8) : decodePart .v ⟨op, sub, d, a, b, c, ib, kx, rm, mt, imm, k⟩ =
      (fun f : Frame => (if f.fits { d := true, a := true, mt := true } then some (.vpopc f.mt f.d f.a) else none : Option Instr)) ⟨op, sub, d, a, b, c, ib, kx, rm, mt, imm, k⟩ := by cases h; rfl
  refine (key _ _ _ _ _ _ _ _ _ _ _ _ rfl).trans ?_
  simp (disch := decide) only [Frame.fits, ↓reduceIte, BEq.rfl, Bool.or_true, Bool.true_or, Bool.not_false, Bool.and_true, Bool.true_and, Bool.false_eq_true, BitVec.ofNat_eq_ofNat]

theorem Laws.RoundTrip.vclmulLo (mt : Bool) (d a b : Reg) : Statement (.vclmulLo mt d a b) := by
  refine fun _ => ⟨fun f hf => ⟨.v, ?_⟩, nofun⟩
  cases hf
  have key (op sub d a b c ib kx rm mt imm k) (h : op = 0x32#8) : decodePart .v ⟨op, sub, d, a, b, c, ib, kx, rm, mt, imm, k⟩ =
      (fun f : Frame => (if f.fits { d := true, a := true, b := true, mt := true } then some (.vclmulLo f.mt f.d f.a f.b) else none : Option Instr)) ⟨op, sub, d, a, b, c, ib, kx, rm, mt, imm, k⟩ := by cases h; rfl
  refine (key _ _ _ _ _ _ _ _ _ _ _ _ rfl).trans ?_
  simp (disch := decide) only [Frame.fits, ↓reduceIte, BEq.rfl, Bool.or_true, Bool.true_or, Bool.not_false, Bool.and_true, Bool.true_and, Bool.false_eq_true, BitVec.ofNat_eq_ofNat]

theorem Laws.RoundTrip.vclmulHi (mt : Bool) (d a b : Reg) : Statement (.vclmulHi mt d a b) := by
  refine fun _ => ⟨fun f hf => ⟨.v, ?_⟩, nofun⟩
  cases hf
  have key (op sub d a b c ib kx rm mt imm k) (h : op = 0x33#8) : decodePart .v ⟨op, sub, d, a, b, c, ib, kx, rm, mt, imm, k⟩ =
      (fun f : Frame => (if f.fits { d := true, a := true, b := true, mt := true } then some (.vclmulHi f.mt f.d f.a f.b) else none : Option Instr)) ⟨op, sub, d, a, b, c, ib, kx, rm, mt, imm, k⟩ := by cases h; rfl
  refine (key _ _ _ _ _ _ _ _ _ _ _ _ rfl).trans ?_
  simp (disch := decide) only [Frame.fits, ↓reduceIte, BEq.rfl, Bool.or_true, Bool.true_or, Bool.not_false, Bool.and_true, Bool.true_and, Bool.false_eq_true, BitVec.ofNat_eq_ofNat]

theorem Laws.RoundTrip.vperm (mt : Bool) (d a b : Reg) : Statement (.vperm mt d a b) := by
  refine fun _ => ⟨fun f hf => ⟨.v, ?_⟩, nofun⟩
  cases hf
  have key (op sub d a b c ib kx rm mt imm k) (h : op = 0x40#8) : decodePart .v ⟨op, sub, d, a, b, c, ib, kx, rm, mt, imm, k⟩ =
      (fun f : Frame => (if f.fits { d := true, a := true, b := true, mt := true } then some (.vperm f.mt f.d f.a f.b) else none : Option Instr)) ⟨op, sub, d, a, b, c, ib, kx, rm, mt, imm, k⟩ := by cases h; rfl
  refine (key _ _ _ _ _ _ _ _ _ _ _ _ rfl).trans ?_
  simp (disch := decide) only [Frame.fits, ↓reduceIte, BEq.rfl, Bool.or_true, Bool.true_or, Bool.not_false, Bool.and_true, Bool.true_and, Bool.false_eq_true, BitVec.ofNat_eq_ofNat]

theorem Laws.RoundTrip.vshuf (mt : Bool) (d a b c : Reg) : Statement (.vshuf mt d a b c) := by
  refine fun _ => ⟨fun f hf => ⟨.v, ?_⟩, nofun⟩
  cases hf
  have key (op sub d a b c ib kx rm mt imm k) (h : op = 0x41#8) : decodePart .v ⟨op, sub, d, a, b, c, ib, kx, rm, mt, imm, k⟩ =
      (fun f : Frame => (if f.fits { d := true, a := true, b := true, c := true, mt := true } then some (.vshuf f.mt f.d f.a f.b f.c) else none : Option Instr)) ⟨op, sub, d, a, b, c, ib, kx, rm, mt, imm, k⟩ := by cases h; rfl
  refine (key _ _ _ _ _ _ _ _ _ _ _ _ rfl).trans ?_
  simp (disch := decide) only [Frame.fits, ↓reduceIte, BEq.rfl, Bool.or_true, Bool.true_or, Bool.not_false, Bool.and_true, Bool.true_and, Bool.false_eq_true, BitVec.ofNat_eq_ofNat]

theorem Laws.RoundTrip.vbcast (mt : Bool) (d a : Reg) (lane : BitVec 6) : Statement (.vbcast mt d a lane) := by
  have h : (0#14 ++ lane : BitVec 20) &&& 0xFFFC0#20 = 0x00000#20 := by
    change (0#14 ++ lane) &&& (0x3FFF#14 ++ 0x0#6) = 0x00000#20
    rw [BitVec.and_append]; simp only [BitVec.and_zero, BitVec.zero_and, BitVec.reduceAnd, BitVec.reduceAppend]
  refine fun _ => ⟨fun f hf => ⟨.v, ?_⟩, nofun⟩
  cases hf
  have key (op sub d a b c ib kx rm mt imm k) (h : op = 0x42#8) : decodePart .v ⟨op, sub, d, a, b, c, ib, kx, rm, mt, imm, k⟩ =
      (fun f : Frame => (if f.fits { d := true, a := true, imm := true, mt := true } && f.imm &&& 0xFFFC0#20 == 0x00000#20 then some (.vbcast f.mt f.d f.a (f.imm.extractLsb' 0 6)) else none : Option Instr)) ⟨op, sub, d, a, b, c, ib, kx, rm, mt, imm, k⟩ := by cases h; rfl
  refine (key _ _ _ _ _ _ _ _ _ _ _ _ rfl).trans ?_
  simp (disch := decide) only [Frame.fits, h, ↓reduceIte, BEq.rfl, Bool.or_true, Bool.true_or, Bool.not_false, Bool.and_true, Bool.true_and, Bool.false_eq_true, BitVec.ofNat_eq_ofNat, BitVec.extractLsb'_append_eq_of_le, BitVec.extractLsb'_append_eq_of_add_le, Nat.reduceSub, BitVec.extractLsb'_eq_self]

theorem Laws.RoundTrip.vredadd (f : Fmt) (mt : Bool) (d a : Reg) : Statement (.vredadd f mt d a) := by
  refine fun _ => ⟨fun f hf => ⟨.v, ?_⟩, nofun⟩
  cases hf
  have key (op sub d a b c ib kx rm mt imm k) (h : op = 0x43#8) : decodePart .v ⟨op, sub, d, a, b, c, ib, kx, rm, mt, imm, k⟩ =
      (fun f : Frame => (if f.fits { sub := true, d := true, a := true, mt := true } then (fmtOf f.sub).bind fun fm => some (.vredadd fm f.mt f.d f.a) else none : Option Instr)) ⟨op, sub, d, a, b, c, ib, kx, rm, mt, imm, k⟩ := by cases h; rfl
  refine (key _ _ _ _ _ _ _ _ _ _ _ _ rfl).trans ?_
  simp (disch := decide) only [Frame.fits, ↓reduceIte, BEq.rfl, Bool.or_true, Bool.true_or, Bool.not_false, Bool.and_true, Bool.true_and, Bool.false_eq_true, BitVec.ofNat_eq_ofNat, fmtOf_fmtCode, Option.bind_some]

theorem Laws.RoundTrip.vredmax (k : RedKind) (mt : Bool) (d a : Reg) : Statement (.vredmax k mt d a) := by
  refine fun _ => ⟨fun f hf => ⟨.v, ?_⟩, nofun⟩
  cases hf
  have key (op sub d a b c ib kx rm mt imm k) (h : op = 0x44#8) : decodePart .v ⟨op, sub, d, a, b, c, ib, kx, rm, mt, imm, k⟩ =
      (fun f : Frame => (if f.fits { d := true, a := true, c := true, mt := true } then (redOf f.c).bind fun rk => some (.vredmax rk f.mt f.d f.a) else none : Option Instr)) ⟨op, sub, d, a, b, c, ib, kx, rm, mt, imm, k⟩ := by cases h; rfl
  refine (key _ _ _ _ _ _ _ _ _ _ _ _ rfl).trans ?_
  simp (disch := decide) only [Frame.fits, ↓reduceIte, BEq.rfl, Bool.or_true, Bool.true_or, Bool.not_false, Bool.and_true, Bool.true_and, Bool.false_eq_true, BitVec.ofNat_eq_ofNat, redOf_redCode, Option.bind_some]

theorem Laws.RoundTrip.vredmin (k : RedKind) (mt : Bool) (d a : Reg) : Statement (.vredmin k mt d a) := by
  refine fun _ => ⟨fun f hf => ⟨.v, ?_⟩, nofun⟩
  cases hf
  have key (op sub d a b c ib kx rm mt imm k) (h : op = 0x45#8) : decodePart .v ⟨op, sub, d, a, b, c, ib, kx, rm, mt, imm, k⟩ =
      (fun f : Frame => (if f.fits { d := true, a := true, c := true, mt := true } then (redOf f.c).bind fun rk => some (.vredmin rk f.mt f.d f.a) else none : Option Instr)) ⟨op, sub, d, a, b, c, ib, kx, rm, mt, imm, k⟩ := by cases h; rfl
  refine (key _ _ _ _ _ _ _ _ _ _ _ _ rfl).trans ?_
  simp (disch := decide) only [Frame.fits, ↓reduceIte, BEq.rfl, Bool.or_true, Bool.true_or, Bool.not_false, Bool.and_true, Bool.true_and, Bool.false_eq_true, BitVec.ofNat_eq_ofNat, redOf_redCode, Option.bind_some]

theorem Laws.RoundTrip.vscan (k : ScanKind) (mt : Bool) (d a : Reg) : Statement (.vscan k mt d a) := by
  refine fun _ => ⟨fun f hf => ⟨.v, ?_⟩, nofun⟩
  cases hf
  have key (op sub d a b c ib kx rm mt imm k) (h : op = 0x46#8) : decodePart .v ⟨op, sub, d, a, b, c, ib, kx, rm, mt, imm, k⟩ =
      (fun f : Frame => (if f.fits { d := true, a := true, c := true, mt := true } then (scanOf f.c).bind fun sk => some (.vscan sk f.mt f.d f.a) else none : Option Instr)) ⟨op, sub, d, a, b, c, ib, kx, rm, mt, imm, k⟩ := by cases h; rfl
  refine (key _ _ _ _ _ _ _ _ _ _ _ _ rfl).trans ?_
  simp (disch := decide) only [Frame.fits, ↓reduceIte, BEq.rfl, Bool.or_true, Bool.true_or, Bool.not_false, Bool.and_true, Bool.true_and, Bool.false_eq_true, BitVec.ofNat_eq_ofNat, scanOf_scanCode, Option.bind_some]

theorem Laws.RoundTrip.vtopk (mt : Bool) (d a b : Reg) (k : BitVec 7) : Statement (.vtopk mt d a b k) := by
  have h : (0#13 ++ k : BitVec 20) &&& 0xFFF80#20 = 0x00000#20 := by
    change (0#13 ++ k) &&& (0x1FFF#13 ++ 0x0#7) = 0x00000#20
    rw [BitVec.and_append]; simp only [BitVec.and_zero, BitVec.zero_and, BitVec.reduceAnd, BitVec.reduceAppend]
  refine fun _ => ⟨fun f hf => ⟨.v, ?_⟩, nofun⟩
  cases hf
  have key (op sub d a b c ib kx rm mt imm k) (h : op = 0x47#8) : decodePart .v ⟨op, sub, d, a, b, c, ib, kx, rm, mt, imm, k⟩ =
      (fun f : Frame => (if f.fits { d := true, a := true, b := true, imm := true, mt := true } && f.imm &&& 0xFFF80#20 == 0x00000#20 then some (.vtopk f.mt f.d f.a f.b (f.imm.extractLsb' 0 7)) else none : Option Instr)) ⟨op, sub, d, a, b, c, ib, kx, rm, mt, imm, k⟩ := by cases h; rfl
  refine (key _ _ _ _ _ _ _ _ _ _ _ _ rfl).trans ?_
  simp (disch := decide) only [Frame.fits, h, ↓reduceIte, BEq.rfl, Bool.or_true, Bool.true_or, Bool.not_false, Bool.and_true, Bool.true_and, Bool.false_eq_true, BitVec.ofNat_eq_ofNat, BitVec.extractLsb'_append_eq_of_le, BitVec.extractLsb'_append_eq_of_add_le, Nat.reduceSub, BitVec.extractLsb'_eq_self]

theorem Laws.RoundTrip.mpush (a : Reg) : Statement (.mpush a) := by
  refine fun _ => ⟨fun f hf => ⟨.v, ?_⟩, nofun⟩
  cases hf
  have key (op sub d a b c ib kx rm mt imm k) (h : op = 0x60#8) : decodePart .v ⟨op, sub, d, a, b, c, ib, kx, rm, mt, imm, k⟩ =
      (fun f : Frame => (if f.fits { a := true } then some (.mpush f.a) else none : Option Instr)) ⟨op, sub, d, a, b, c, ib, kx, rm, mt, imm, k⟩ := by cases h; rfl
  refine (key _ _ _ _ _ _ _ _ _ _ _ _ rfl).trans ?_
  simp (disch := decide) only [Frame.fits, ↓reduceIte, BEq.rfl, Bool.or_true, Bool.true_or, Bool.not_false, Bool.and_true, Bool.true_and, Bool.false_eq_true, BitVec.ofNat_eq_ofNat]

theorem Laws.RoundTrip.mand (d a b : Reg) : Statement (.mand d a b) := by
  refine fun _ => ⟨fun f hf => ⟨.v, ?_⟩, nofun⟩
  cases hf
  have key (op sub d a b c ib kx rm mt imm k) (h : op = 0x63#8) : decodePart .v ⟨op, sub, d, a, b, c, ib, kx, rm, mt, imm, k⟩ =
      (fun f : Frame => (if f.fits { d := true, a := true, b := true } then some (.mand f.d f.a f.b) else none : Option Instr)) ⟨op, sub, d, a, b, c, ib, kx, rm, mt, imm, k⟩ := by cases h; rfl
  refine (key _ _ _ _ _ _ _ _ _ _ _ _ rfl).trans ?_
  simp (disch := decide) only [Frame.fits, ↓reduceIte, BEq.rfl, Bool.or_true, Bool.true_or, Bool.not_false, Bool.and_true, Bool.true_and, Bool.false_eq_true, BitVec.ofNat_eq_ofNat]

theorem Laws.RoundTrip.mor (d a b : Reg) : Statement (.mor d a b) := by
  refine fun _ => ⟨fun f hf => ⟨.v, ?_⟩, nofun⟩
  cases hf
  have key (op sub d a b c ib kx rm mt imm k) (h : op = 0x64#8) : decodePart .v ⟨op, sub, d, a, b, c, ib, kx, rm, mt, imm, k⟩ =
      (fun f : Frame => (if f.fits { d := true, a := true, b := true } then some (.mor f.d f.a f.b) else none : Option Instr)) ⟨op, sub, d, a, b, c, ib, kx, rm, mt, imm, k⟩ := by cases h; rfl
  refine (key _ _ _ _ _ _ _ _ _ _ _ _ rfl).trans ?_
  simp (disch := decide) only [Frame.fits, ↓reduceIte, BEq.rfl, Bool.or_true, Bool.true_or, Bool.not_false, Bool.and_true, Bool.true_and, Bool.false_eq_true, BitVec.ofNat_eq_ofNat]

theorem Laws.RoundTrip.mnot (d a : Reg) : Statement (.mnot d a) := by
  refine fun _ => ⟨fun f hf => ⟨.v, ?_⟩, nofun⟩
  cases hf
  have key (op sub d a b c ib kx rm mt imm k) (h : op = 0x65#8) : decodePart .v ⟨op, sub, d, a, b, c, ib, kx, rm, mt, imm, k⟩ =
      (fun f : Frame => (if f.fits { d := true, a := true } then some (.mnot f.d f.a) else none : Option Instr)) ⟨op, sub, d, a, b, c, ib, kx, rm, mt, imm, k⟩ := by cases h; rfl
  refine (key _ _ _ _ _ _ _ _ _ _ _ _ rfl).trans ?_
  simp (disch := decide) only [Frame.fits, ↓reduceIte, BEq.rfl, Bool.or_true, Bool.true_or, Bool.not_false, Bool.and_true, Bool.true_and, Bool.false_eq_true, BitVec.ofNat_eq_ofNat]

theorem Laws.RoundTrip.mcnt (d a : Reg) (top : Bool) : Statement (.mcnt d a top) := by
  have h : (0#19 ++ BitVec.ofBool top : BitVec 20) &&& 0xFFFFE#20 = 0x00000#20 := by
    change (0#19 ++ BitVec.ofBool top) &&& (0x7FFFF#19 ++ 0x0#1) = 0x00000#20
    rw [BitVec.and_append]; simp only [BitVec.and_zero, BitVec.zero_and, BitVec.reduceAnd, BitVec.reduceAppend]
  refine fun _ => ⟨fun f hf => ⟨.v, ?_⟩, nofun⟩
  cases hf
  have key (op sub d a b c ib kx rm mt imm k) (h : op = 0x66#8) : decodePart .v ⟨op, sub, d, a, b, c, ib, kx, rm, mt, imm, k⟩ =
      (fun f : Frame => (if f.fits { d := true, a := true, imm := true } && f.imm &&& 0xFFFFE#20 == 0x00000#20 then some (.mcnt f.d f.a (f.imm.getLsbD 0)) else none : Option Instr)) ⟨op, sub, d, a, b, c, ib, kx, rm, mt, imm, k⟩ := by cases h; rfl
  refine (key _ _ _ _ _ _ _ _ _ _ _ _ rfl).trans ?_
  simp (disch := decide) only [Frame.fits, h, ↓reduceIte, BEq.rfl, Bool.or_true, Bool.true_or, Bool.not_false, Bool.and_true, Bool.true_and, Bool.false_eq_true, BitVec.ofNat_eq_ofNat, BitVec.extractLsb'_append_eq_of_le, BitVec.extractLsb'_append_eq_of_add_le, Nat.reduceSub, BitVec.extractLsb'_eq_self, BitVec.getLsbD_append, Nat.reduceLT, BitVec.getLsbD_ofBool, decide_true]

theorem Laws.RoundTrip.vmov (mt : Bool) (d a : Reg) (pair : Bool) : Statement (.vmov mt d a pair) := by
  have h : (0#19 ++ BitVec.ofBool pair : BitVec 20) &&& 0xFFFFE#20 = 0x00000#20 := by
    change (0#19 ++ BitVec.ofBool pair) &&& (0x7FFFF#19 ++ 0x0#1) = 0x00000#20
    rw [BitVec.and_append]; simp only [BitVec.and_zero, BitVec.zero_and, BitVec.reduceAnd, BitVec.reduceAppend]
  refine fun _ => ⟨fun f hf => ⟨.v, ?_⟩, nofun⟩
  cases hf
  have key (op sub d a b c ib kx rm mt imm k) (h : op = 0x70#8) : decodePart .v ⟨op, sub, d, a, b, c, ib, kx, rm, mt, imm, k⟩ =
      (fun f : Frame => (if f.fits { d := true, a := true, imm := true, mt := true } && f.imm &&& 0xFFFFE#20 == 0x00000#20 then some (.vmov f.mt f.d f.a (f.imm.getLsbD 0)) else none : Option Instr)) ⟨op, sub, d, a, b, c, ib, kx, rm, mt, imm, k⟩ := by cases h; rfl
  refine (key _ _ _ _ _ _ _ _ _ _ _ _ rfl).trans ?_
  simp (disch := decide) only [Frame.fits, h, ↓reduceIte, BEq.rfl, Bool.or_true, Bool.true_or, Bool.not_false, Bool.and_true, Bool.true_and, Bool.false_eq_true, BitVec.ofNat_eq_ofNat, BitVec.extractLsb'_append_eq_of_le, BitVec.extractLsb'_append_eq_of_add_le, Nat.reduceSub, BitVec.extractLsb'_eq_self, BitVec.getLsbD_append, Nat.reduceLT, BitVec.getLsbD_ofBool, decide_true]

theorem Laws.RoundTrip.vmovs (k : MovsForm) (mt : Bool) (d a : Reg) : Statement (.vmovs k mt d a) := by
  have h : (0#18 ++ movsCode k : BitVec 20) &&& 0xFFFFC#20 = 0x00000#20 := by
    change (0#18 ++ movsCode k) &&& (0x3FFFF#18 ++ 0x0#2) = 0x00000#20
    rw [BitVec.and_append]; simp only [BitVec.and_zero, BitVec.zero_and, BitVec.reduceAnd, BitVec.reduceAppend]
  refine fun _ => ⟨fun f hf => ⟨.v, ?_⟩, nofun⟩
  cases hf
  have key (op sub d a b c ib kx rm mt imm k) (h : op = 0x71#8) : decodePart .v ⟨op, sub, d, a, b, c, ib, kx, rm, mt, imm, k⟩ =
      (fun f : Frame => (if f.fits { d := true, a := true, imm := true, mt := true } && f.imm &&& 0xFFFFC#20 == 0x00000#20 then (movsOf f.imm).bind fun mf => some (.vmovs mf f.mt f.d f.a) else none : Option Instr)) ⟨op, sub, d, a, b, c, ib, kx, rm, mt, imm, k⟩ := by cases h; rfl
  refine (key _ _ _ _ _ _ _ _ _ _ _ _ rfl).trans ?_
  simp (disch := decide) only [Frame.fits, h, ↓reduceIte, BEq.rfl, Bool.or_true, Bool.true_or, Bool.not_false, Bool.and_true, Bool.true_and, Bool.false_eq_true, BitVec.ofNat_eq_ofNat, movsOf_movsCode, BitVec.extractLsb'_append_eq_of_le, BitVec.extractLsb'_append_eq_of_add_le, Nat.reduceSub, BitVec.extractLsb'_eq_self, Option.bind_some]

theorem Laws.RoundTrip.vext (d a : Reg) (lane : BitVec 6) (sx pair : Bool) : Statement (.vext d a lane sx pair) := by
  have h : (0#12 ++ BitVec.ofBool pair ++ BitVec.ofBool sx ++ lane : BitVec 20) &&& 0xFFF00#20 = 0x00000#20 := by
    change (0#12 ++ BitVec.ofBool pair ++ BitVec.ofBool sx ++ lane) &&& (0xFFF#12 ++ 0x0#1 ++ 0x0#1 ++ 0x0#6) = 0x00000#20
    rw [BitVec.and_append, BitVec.and_append, BitVec.and_append]; simp only [BitVec.and_zero, BitVec.zero_and, BitVec.reduceAnd, BitVec.reduceAppend]
  refine fun _ => ⟨fun f hf => ⟨.v, ?_⟩, nofun⟩
  cases hf
  have key (op sub d a b c ib kx rm mt imm k) (h : op = 0x72#8) : decodePart .v ⟨op, sub, d, a, b, c, ib, kx, rm, mt, imm, k⟩ =
      (fun f : Frame => (if f.fits { d := true, a := true, imm := true } && f.imm &&& 0xFFF00#20 == 0x00000#20 then some (.vext f.d f.a (f.imm.extractLsb' 0 6) (f.imm.getLsbD 6) (f.imm.getLsbD 7)) else none : Option Instr)) ⟨op, sub, d, a, b, c, ib, kx, rm, mt, imm, k⟩ := by cases h; rfl
  refine (key _ _ _ _ _ _ _ _ _ _ _ _ rfl).trans ?_
  simp (disch := decide) only [Frame.fits, h, ↓reduceIte, BEq.rfl, Bool.or_true, Bool.true_or, Bool.not_false, Bool.and_true, Bool.true_and, Bool.false_eq_true, BitVec.ofNat_eq_ofNat, BitVec.extractLsb'_append_eq_of_le, BitVec.extractLsb'_append_eq_of_add_le, Nat.reduceSub, BitVec.extractLsb'_eq_self, BitVec.getLsbD_append, Nat.reduceLT, BitVec.getLsbD_ofBool, decide_true]

theorem Laws.RoundTrip.mma (d a b : Reg) (k : BitVec 4) : Statement (.mma d a b k) := by
  have h : (0#16 ++ k : BitVec 20) &&& 0xFFFF0#20 = 0x00000#20 := by
    change (0#16 ++ k) &&& (0xFFFF#16 ++ 0x0#4) = 0x00000#20
    rw [BitVec.and_append]; simp only [BitVec.and_zero, BitVec.zero_and, BitVec.reduceAnd, BitVec.reduceAppend]
  refine fun _ => ⟨fun f hf => ⟨.m, ?_⟩, nofun⟩
  cases hf
  have key (op sub d a b c ib kx rm mt imm k) (h : op = 0x01#8) : decodePart .m ⟨op, sub, d, a, b, c, ib, kx, rm, mt, imm, k⟩ =
      (fun f : Frame => (if f.fits { d := true, a := true, b := true, imm := true } && f.imm &&& 0xFFFF0#20 == 0x00000#20 then some (.mma f.d f.a f.b (f.imm.extractLsb' 0 4)) else none : Option Instr)) ⟨op, sub, d, a, b, c, ib, kx, rm, mt, imm, k⟩ := by cases h; rfl
  refine (key _ _ _ _ _ _ _ _ _ _ _ _ rfl).trans ?_
  simp (disch := decide) only [Frame.fits, h, ↓reduceIte, BEq.rfl, Bool.or_true, Bool.true_or, Bool.not_false, Bool.and_true, Bool.true_and, Bool.false_eq_true, BitVec.ofNat_eq_ofNat, BitVec.extractLsb'_append_eq_of_le, BitVec.extractLsb'_append_eq_of_add_le, Nat.reduceSub, BitVec.extractLsb'_eq_self]

theorem Laws.RoundTrip.mmaZ (d a b : Reg) (k : BitVec 4) : Statement (.mmaZ d a b k) := by
  have h : (0#16 ++ k : BitVec 20) &&& 0xFFFF0#20 = 0x00000#20 := by
    change (0#16 ++ k) &&& (0xFFFF#16 ++ 0x0#4) = 0x00000#20
    rw [BitVec.and_append]; simp only [BitVec.and_zero, BitVec.zero_and, BitVec.reduceAnd, BitVec.reduceAppend]
  refine fun _ => ⟨fun f hf => ⟨.m, ?_⟩, nofun⟩
  cases hf
  have key (op sub d a b c ib kx rm mt imm k) (h : op = 0x02#8) : decodePart .m ⟨op, sub, d, a, b, c, ib, kx, rm, mt, imm, k⟩ =
      (fun f : Frame => (if f.fits { d := true, a := true, b := true, imm := true } && f.imm &&& 0xFFFF0#20 == 0x00000#20 then some (.mmaZ f.d f.a f.b (f.imm.extractLsb' 0 4)) else none : Option Instr)) ⟨op, sub, d, a, b, c, ib, kx, rm, mt, imm, k⟩ := by cases h; rfl
  refine (key _ _ _ _ _ _ _ _ _ _ _ _ rfl).trans ?_
  simp (disch := decide) only [Frame.fits, h, ↓reduceIte, BEq.rfl, Bool.or_true, Bool.true_or, Bool.not_false, Bool.and_true, Bool.true_and, Bool.false_eq_true, BitVec.ofNat_eq_ofNat, BitVec.extractLsb'_append_eq_of_le, BitVec.extractLsb'_append_eq_of_add_le, Nat.reduceSub, BitVec.extractLsb'_eq_self]

theorem Laws.RoundTrip.mmaN (d a b : Reg) (k : BitVec 4) : Statement (.mmaN d a b k) := by
  have h : (0#16 ++ k : BitVec 20) &&& 0xFFFF0#20 = 0x00000#20 := by
    change (0#16 ++ k) &&& (0xFFFF#16 ++ 0x0#4) = 0x00000#20
    rw [BitVec.and_append]; simp only [BitVec.and_zero, BitVec.zero_and, BitVec.reduceAnd, BitVec.reduceAppend]
  refine fun _ => ⟨fun f hf => ⟨.m, ?_⟩, nofun⟩
  cases hf
  have key (op sub d a b c ib kx rm mt imm k) (h : op = 0x03#8) : decodePart .m ⟨op, sub, d, a, b, c, ib, kx, rm, mt, imm, k⟩ =
      (fun f : Frame => (if f.fits { d := true, a := true, b := true, imm := true } && f.imm &&& 0xFFFF0#20 == 0x00000#20 then some (.mmaN f.d f.a f.b (f.imm.extractLsb' 0 4)) else none : Option Instr)) ⟨op, sub, d, a, b, c, ib, kx, rm, mt, imm, k⟩ := by cases h; rfl
  refine (key _ _ _ _ _ _ _ _ _ _ _ _ rfl).trans ?_
  simp (disch := decide) only [Frame.fits, h, ↓reduceIte, BEq.rfl, Bool.or_true, Bool.true_or, Bool.not_false, Bool.and_true, Bool.true_and, Bool.false_eq_true, BitVec.ofNat_eq_ofNat, BitVec.extractLsb'_append_eq_of_le, BitVec.extractLsb'_append_eq_of_add_le, Nat.reduceSub, BitVec.extractLsb'_eq_self]

theorem Laws.RoundTrip.accz (d : Reg) : Statement (.accz d) := by
  refine fun _ => ⟨fun f hf => ⟨.m, ?_⟩, nofun⟩
  cases hf
  have key (op sub d a b c ib kx rm mt imm k) (h : op = 0x10#8) : decodePart .m ⟨op, sub, d, a, b, c, ib, kx, rm, mt, imm, k⟩ =
      (fun f : Frame => (if f.fits { d := true } then some (.accz f.d) else none : Option Instr)) ⟨op, sub, d, a, b, c, ib, kx, rm, mt, imm, k⟩ := by cases h; rfl
  refine (key _ _ _ _ _ _ _ _ _ _ _ _ rfl).trans ?_
  simp (disch := decide) only [Frame.fits, ↓reduceIte, BEq.rfl, Bool.or_true, Bool.true_or, Bool.not_false, Bool.and_true, Bool.true_and, Bool.false_eq_true, BitVec.ofNat_eq_ofNat]

theorem Laws.RoundTrip.accret (a b : Reg) : Statement (.accret a b) := by
  have e0 : ((0#18 ++ 0#2 : BitVec 20) &&& 0xFFFFF#20 == 0x00000#20) = true := rfl
  refine fun _ => ⟨fun f hf => ⟨.m, ?_⟩, nofun⟩
  cases hf
  have key (op sub d a b c ib kx rm mt imm k) (h : op = 0x11#8) : decodePart .m ⟨op, sub, d, a, b, c, ib, kx, rm, mt, imm, k⟩ =
      (fun f : Frame => (if f.fits { a := true, b := true, imm := true } && f.imm &&& 0xFFFFF#20 == 0x00000#20 then some (.accret f.a f.b) else if f.fits { d := true, a := true, b := true, imm := true } && f.imm &&& 0xFFFFF#20 == 0x00001#20 then some (.accretAmax f.d f.a f.b) else if f.fits { a := true, b := true, c := true, imm := true } && f.imm &&& 0xFFFFF#20 == 0x00002#20 then some (.accretApply f.a f.b f.c) else if f.fits { d := true, a := true, b := true, imm := true } && f.imm &&& 0xFFFFF#20 == 0x00003#20 then some (.accretDerive f.d f.a f.b) else none : Option Instr)) ⟨op, sub, d, a, b, c, ib, kx, rm, mt, imm, k⟩ := by cases h; rfl
  refine (key _ _ _ _ _ _ _ _ _ _ _ _ rfl).trans ?_
  simp (disch := decide) only [Frame.fits, ↓reduceIte, BEq.rfl, Bool.or_true, Bool.true_or, Bool.not_false, Bool.and_true, Bool.true_and, Bool.false_eq_true, BitVec.ofNat_eq_ofNat, Bool.and_false, e0, BitVec.extractLsb'_append_eq_of_le, BitVec.extractLsb'_append_eq_of_add_le, Nat.reduceSub, BitVec.extractLsb'_eq_self]

theorem Laws.RoundTrip.accretAmax (d a b : Reg) : Statement (.accretAmax d a b) := by
  have e0 : ((0#18 ++ 1#2 : BitVec 20) &&& 0xFFFFF#20 == 0x00000#20) = false := rfl
  have e1 : ((0#18 ++ 1#2 : BitVec 20) &&& 0xFFFFF#20 == 0x00001#20) = true := rfl
  refine fun _ => ⟨fun f hf => ⟨.m, ?_⟩, nofun⟩
  cases hf
  have key (op sub d a b c ib kx rm mt imm k) (h : op = 0x11#8) : decodePart .m ⟨op, sub, d, a, b, c, ib, kx, rm, mt, imm, k⟩ =
      (fun f : Frame => (if f.fits { a := true, b := true, imm := true } && f.imm &&& 0xFFFFF#20 == 0x00000#20 then some (.accret f.a f.b) else if f.fits { d := true, a := true, b := true, imm := true } && f.imm &&& 0xFFFFF#20 == 0x00001#20 then some (.accretAmax f.d f.a f.b) else if f.fits { a := true, b := true, c := true, imm := true } && f.imm &&& 0xFFFFF#20 == 0x00002#20 then some (.accretApply f.a f.b f.c) else if f.fits { d := true, a := true, b := true, imm := true } && f.imm &&& 0xFFFFF#20 == 0x00003#20 then some (.accretDerive f.d f.a f.b) else none : Option Instr)) ⟨op, sub, d, a, b, c, ib, kx, rm, mt, imm, k⟩ := by cases h; rfl
  refine (key _ _ _ _ _ _ _ _ _ _ _ _ rfl).trans ?_
  simp (disch := decide) only [Frame.fits, ↓reduceIte, BEq.rfl, Bool.or_true, Bool.true_or, Bool.not_false, Bool.and_true, Bool.true_and, Bool.false_eq_true, BitVec.ofNat_eq_ofNat, Bool.and_false, e0, e1, BitVec.extractLsb'_append_eq_of_le, BitVec.extractLsb'_append_eq_of_add_le, Nat.reduceSub, BitVec.extractLsb'_eq_self]

theorem Laws.RoundTrip.accretApply (a b c : Reg) : Statement (.accretApply a b c) := by
  have e0 : ((0#18 ++ 2#2 : BitVec 20) &&& 0xFFFFF#20 == 0x00000#20) = false := rfl
  have e1 : ((0#18 ++ 2#2 : BitVec 20) &&& 0xFFFFF#20 == 0x00001#20) = false := rfl
  have e2 : ((0#18 ++ 2#2 : BitVec 20) &&& 0xFFFFF#20 == 0x00002#20) = true := rfl
  refine fun _ => ⟨fun f hf => ⟨.m, ?_⟩, nofun⟩
  cases hf
  have key (op sub d a b c ib kx rm mt imm k) (h : op = 0x11#8) : decodePart .m ⟨op, sub, d, a, b, c, ib, kx, rm, mt, imm, k⟩ =
      (fun f : Frame => (if f.fits { a := true, b := true, imm := true } && f.imm &&& 0xFFFFF#20 == 0x00000#20 then some (.accret f.a f.b) else if f.fits { d := true, a := true, b := true, imm := true } && f.imm &&& 0xFFFFF#20 == 0x00001#20 then some (.accretAmax f.d f.a f.b) else if f.fits { a := true, b := true, c := true, imm := true } && f.imm &&& 0xFFFFF#20 == 0x00002#20 then some (.accretApply f.a f.b f.c) else if f.fits { d := true, a := true, b := true, imm := true } && f.imm &&& 0xFFFFF#20 == 0x00003#20 then some (.accretDerive f.d f.a f.b) else none : Option Instr)) ⟨op, sub, d, a, b, c, ib, kx, rm, mt, imm, k⟩ := by cases h; rfl
  refine (key _ _ _ _ _ _ _ _ _ _ _ _ rfl).trans ?_
  simp (disch := decide) only [Frame.fits, ↓reduceIte, BEq.rfl, Bool.or_true, Bool.true_or, Bool.not_false, Bool.and_true, Bool.true_and, Bool.false_eq_true, BitVec.ofNat_eq_ofNat, Bool.and_false, e0, e1, e2, BitVec.extractLsb'_append_eq_of_le, BitVec.extractLsb'_append_eq_of_add_le, Nat.reduceSub, BitVec.extractLsb'_eq_self]

theorem Laws.RoundTrip.accretDerive (d a b : Reg) : Statement (.accretDerive d a b) := by
  have e0 : ((0#18 ++ 3#2 : BitVec 20) &&& 0xFFFFF#20 == 0x00000#20) = false := rfl
  have e1 : ((0#18 ++ 3#2 : BitVec 20) &&& 0xFFFFF#20 == 0x00001#20) = false := rfl
  have e2 : ((0#18 ++ 3#2 : BitVec 20) &&& 0xFFFFF#20 == 0x00002#20) = false := rfl
  have e3 : ((0#18 ++ 3#2 : BitVec 20) &&& 0xFFFFF#20 == 0x00003#20) = true := rfl
  refine fun _ => ⟨fun f hf => ⟨.m, ?_⟩, nofun⟩
  cases hf
  have key (op sub d a b c ib kx rm mt imm k) (h : op = 0x11#8) : decodePart .m ⟨op, sub, d, a, b, c, ib, kx, rm, mt, imm, k⟩ =
      (fun f : Frame => (if f.fits { a := true, b := true, imm := true } && f.imm &&& 0xFFFFF#20 == 0x00000#20 then some (.accret f.a f.b) else if f.fits { d := true, a := true, b := true, imm := true } && f.imm &&& 0xFFFFF#20 == 0x00001#20 then some (.accretAmax f.d f.a f.b) else if f.fits { a := true, b := true, c := true, imm := true } && f.imm &&& 0xFFFFF#20 == 0x00002#20 then some (.accretApply f.a f.b f.c) else if f.fits { d := true, a := true, b := true, imm := true } && f.imm &&& 0xFFFFF#20 == 0x00003#20 then some (.accretDerive f.d f.a f.b) else none : Option Instr)) ⟨op, sub, d, a, b, c, ib, kx, rm, mt, imm, k⟩ := by cases h; rfl
  refine (key _ _ _ _ _ _ _ _ _ _ _ _ rfl).trans ?_
  simp (disch := decide) only [Frame.fits, ↓reduceIte, BEq.rfl, Bool.or_true, Bool.true_or, Bool.not_false, Bool.and_true, Bool.true_and, Bool.false_eq_true, BitVec.ofNat_eq_ofNat, Bool.and_false, e0, e1, e2, e3, BitVec.extractLsb'_append_eq_of_le, BitVec.extractLsb'_append_eq_of_add_le, Nat.reduceSub, BitVec.extractLsb'_eq_self]

theorem Laws.RoundTrip.accrd (d a : Reg) (row : BitVec 6) : Statement (.accrd d a row) := by
  have h : (0#14 ++ row : BitVec 20) &&& 0xFFFC0#20 = 0x00000#20 := by
    change (0#14 ++ row) &&& (0x3FFF#14 ++ 0x0#6) = 0x00000#20
    rw [BitVec.and_append]; simp only [BitVec.and_zero, BitVec.zero_and, BitVec.reduceAnd, BitVec.reduceAppend]
  refine fun _ => ⟨fun f hf => ⟨.m, ?_⟩, nofun⟩
  cases hf
  have key (op sub d a b c ib kx rm mt imm k) (h : op = 0x12#8) : decodePart .m ⟨op, sub, d, a, b, c, ib, kx, rm, mt, imm, k⟩ =
      (fun f : Frame => (if f.fits { d := true, a := true, imm := true } && f.imm &&& 0xFFFC0#20 == 0x00000#20 then some (.accrd f.d f.a (f.imm.extractLsb' 0 6)) else none : Option Instr)) ⟨op, sub, d, a, b, c, ib, kx, rm, mt, imm, k⟩ := by cases h; rfl
  refine (key _ _ _ _ _ _ _ _ _ _ _ _ rfl).trans ?_
  simp (disch := decide) only [Frame.fits, h, ↓reduceIte, BEq.rfl, Bool.or_true, Bool.true_or, Bool.not_false, Bool.and_true, Bool.true_and, Bool.false_eq_true, BitVec.ofNat_eq_ofNat, BitVec.extractLsb'_append_eq_of_le, BitVec.extractLsb'_append_eq_of_add_le, Nat.reduceSub, BitVec.extractLsb'_eq_self]

theorem Laws.RoundTrip.accwr (d b : Reg) (row : BitVec 6) (int : Bool) : Statement (.accwr d b row int) := by
  have h : (0#13 ++ BitVec.ofBool int ++ row : BitVec 20) &&& 0xFFF80#20 = 0x00000#20 := by
    change (0#13 ++ BitVec.ofBool int ++ row) &&& (0x1FFF#13 ++ 0x0#1 ++ 0x0#6) = 0x00000#20
    rw [BitVec.and_append, BitVec.and_append]; simp only [BitVec.and_zero, BitVec.zero_and, BitVec.reduceAnd, BitVec.reduceAppend]
  refine fun _ => ⟨fun f hf => ⟨.m, ?_⟩, nofun⟩
  cases hf
  have key (op sub d a b c ib kx rm mt imm k) (h : op = 0x13#8) : decodePart .m ⟨op, sub, d, a, b, c, ib, kx, rm, mt, imm, k⟩ =
      (fun f : Frame => (if f.fits { d := true, b := true, imm := true } && f.imm &&& 0xFFF80#20 == 0x00000#20 then some (.accwr f.d f.b (f.imm.extractLsb' 0 6) (f.imm.getLsbD 6)) else none : Option Instr)) ⟨op, sub, d, a, b, c, ib, kx, rm, mt, imm, k⟩ := by cases h; rfl
  refine (key _ _ _ _ _ _ _ _ _ _ _ _ rfl).trans ?_
  simp (disch := decide) only [Frame.fits, h, ↓reduceIte, BEq.rfl, Bool.or_true, Bool.true_or, Bool.not_false, Bool.and_true, Bool.true_and, Bool.false_eq_true, BitVec.ofNat_eq_ofNat, BitVec.extractLsb'_append_eq_of_le, BitVec.extractLsb'_append_eq_of_add_le, Nat.reduceSub, BitVec.extractLsb'_eq_self, BitVec.getLsbD_append, Nat.reduceLT, BitVec.getLsbD_ofBool, decide_true]

theorem Laws.RoundTrip.accwait (a : Reg) : Statement (.accwait a) := by
  refine fun _ => ⟨fun f hf => ⟨.m, ?_⟩, nofun⟩
  cases hf
  have key (op sub d a b c ib kx rm mt imm k) (h : op = 0x14#8) : decodePart .m ⟨op, sub, d, a, b, c, ib, kx, rm, mt, imm, k⟩ =
      (fun f : Frame => (if f.fits { a := true } then some (.accwait f.a) else none : Option Instr)) ⟨op, sub, d, a, b, c, ib, kx, rm, mt, imm, k⟩ := by cases h; rfl
  refine (key _ _ _ _ _ _ _ _ _ _ _ _ rfl).trans ?_
  simp (disch := decide) only [Frame.fits, ↓reduceIte, BEq.rfl, Bool.or_true, Bool.true_or, Bool.not_false, Bool.and_true, Bool.true_and, Bool.false_eq_true, BitVec.ofNat_eq_ofNat]

theorem Laws.RoundTrip.accst (a b : Reg) : Statement (.accst a b) := by
  refine fun _ => ⟨fun f hf => ⟨.m, ?_⟩, nofun⟩
  cases hf
  have key (op sub d a b c ib kx rm mt imm k) (h : op = 0x15#8) : decodePart .m ⟨op, sub, d, a, b, c, ib, kx, rm, mt, imm, k⟩ =
      (fun f : Frame => (if f.fits { a := true, b := true } then some (.accst f.a f.b) else none : Option Instr)) ⟨op, sub, d, a, b, c, ib, kx, rm, mt, imm, k⟩ := by cases h; rfl
  refine (key _ _ _ _ _ _ _ _ _ _ _ _ rfl).trans ?_
  simp (disch := decide) only [Frame.fits, ↓reduceIte, BEq.rfl, Bool.or_true, Bool.true_or, Bool.not_false, Bool.and_true, Bool.true_and, Bool.false_eq_true, BitVec.ofNat_eq_ofNat]

theorem Laws.RoundTrip.opld (d a : Reg) (q cnt : BitVec 2) (bind : Option Reg) : Statement (.opld d a q cnt bind) := by
  have h (x : Bool) : (0#15 ++ BitVec.ofBool x ++ cnt ++ q : BitVec 20) &&& 0xFFFE0#20 = 0x00000#20 := by
    change (0#15 ++ BitVec.ofBool x ++ cnt ++ q) &&& (0x7FFF#15 ++ 0x0#1 ++ 0x0#2 ++ 0x0#2) = 0x00000#20
    rw [BitVec.and_append, BitVec.and_append, BitVec.and_append]; simp only [BitVec.and_zero, BitVec.zero_and, BitVec.reduceAnd, BitVec.reduceAppend]
  refine fun _ => ⟨fun f hf => ⟨.m, ?_⟩, nofun⟩
  cases hf
  have key (op sub d a b c ib kx rm mt imm k) (h : op = 0x20#8) : decodePart .m ⟨op, sub, d, a, b, c, ib, kx, rm, mt, imm, k⟩ =
      (fun f : Frame => (if f.fits { d := true, a := true, c := true, imm := true } && f.imm &&& 0xFFFE0#20 == 0x00000#20 && (f.imm.getLsbD 4 || f.c == 0) then some (.opld f.d f.a (f.imm.extractLsb' 0 2) (f.imm.extractLsb' 2 2) (if f.imm.getLsbD 4 then some f.c else none)) else none : Option Instr)) ⟨op, sub, d, a, b, c, ib, kx, rm, mt, imm, k⟩ := by cases h; rfl
  rcases bind with _ | r <;> refine (key _ _ _ _ _ _ _ _ _ _ _ _ rfl).trans ?_
  all_goals simp (disch := decide) only [Frame.fits, h, ↓reduceIte, BEq.rfl, Bool.or_true, Bool.true_or, Bool.not_false, Bool.and_true, Bool.true_and, Bool.false_eq_true, BitVec.ofNat_eq_ofNat, Option.isSome_none, Option.isSome_some, Option.getD_none, Option.getD_some, BitVec.extractLsb'_append_eq_of_le, BitVec.extractLsb'_append_eq_of_add_le, Nat.reduceSub, BitVec.extractLsb'_eq_self, BitVec.getLsbD_append, Nat.reduceLT, BitVec.getLsbD_ofBool, decide_true]

theorem Laws.RoundTrip.opst (a b : Reg) (q cnt : BitVec 2) : Statement (.opst a b q cnt) := by
  have h : (0#16 ++ cnt ++ q : BitVec 20) &&& 0xFFFF0#20 = 0x00000#20 := by
    change (0#16 ++ cnt ++ q) &&& (0xFFFF#16 ++ 0x0#2 ++ 0x0#2) = 0x00000#20
    rw [BitVec.and_append, BitVec.and_append]; simp only [BitVec.and_zero, BitVec.zero_and, BitVec.reduceAnd, BitVec.reduceAppend]
  refine fun _ => ⟨fun f hf => ⟨.m, ?_⟩, nofun⟩
  cases hf
  have key (op sub d a b c ib kx rm mt imm k) (h : op = 0x21#8) : decodePart .m ⟨op, sub, d, a, b, c, ib, kx, rm, mt, imm, k⟩ =
      (fun f : Frame => (if f.fits { a := true, b := true, imm := true } && f.imm &&& 0xFFFF0#20 == 0x00000#20 then some (.opst f.a f.b (f.imm.extractLsb' 0 2) (f.imm.extractLsb' 2 2)) else none : Option Instr)) ⟨op, sub, d, a, b, c, ib, kx, rm, mt, imm, k⟩ := by cases h; rfl
  refine (key _ _ _ _ _ _ _ _ _ _ _ _ rfl).trans ?_
  simp (disch := decide) only [Frame.fits, h, ↓reduceIte, BEq.rfl, Bool.or_true, Bool.true_or, Bool.not_false, Bool.and_true, Bool.true_and, Bool.false_eq_true, BitVec.ofNat_eq_ofNat, BitVec.extractLsb'_append_eq_of_le, BitVec.extractLsb'_append_eq_of_add_le, Nat.reduceSub, BitVec.extractLsb'_eq_self]

theorem Laws.RoundTrip.opclr (d : Reg) : Statement (.opclr d) := by
  refine fun _ => ⟨fun f hf => ⟨.m, ?_⟩, nofun⟩
  cases hf
  have key (op sub d a b c ib kx rm mt imm k) (h : op = 0x22#8) : decodePart .m ⟨op, sub, d, a, b, c, ib, kx, rm, mt, imm, k⟩ =
      (fun f : Frame => (if f.fits { d := true } then some (.opclr f.d) else none : Option Instr)) ⟨op, sub, d, a, b, c, ib, kx, rm, mt, imm, k⟩ := by cases h; rfl
  refine (key _ _ _ _ _ _ _ _ _ _ _ _ rfl).trans ?_
  simp (disch := decide) only [Frame.fits, ↓reduceIte, BEq.rfl, Bool.or_true, Bool.true_or, Bool.not_false, Bool.and_true, Bool.true_and, Bool.false_eq_true, BitVec.ofNat_eq_ofNat]

theorem Laws.RoundTrip.scld (d a : Reg) (off : BitVec 16) (ip : Bool) : Statement (.scld d a off ip) := by
  have h : (BitVec.ofBool ip ++ 0#3 ++ off : BitVec 20) &&& 0x70000#20 = 0x00000#20 := by
    change (BitVec.ofBool ip ++ 0#3 ++ off) &&& (0x0#1 ++ 0x7#3 ++ 0x0#16) = 0x00000#20
    rw [BitVec.and_append, BitVec.and_append]; simp only [BitVec.and_zero, BitVec.zero_and, BitVec.reduceAnd, BitVec.reduceAppend]
  refine fun _ => ⟨fun f hf => ⟨.m, ?_⟩, nofun⟩
  cases hf
  have key (op sub d a b c ib kx rm mt imm k) (h : op = 0x30#8) : decodePart .m ⟨op, sub, d, a, b, c, ib, kx, rm, mt, imm, k⟩ =
      (fun f : Frame => (if f.fits { d := true, a := true, imm := true } && f.imm &&& 0x70000#20 == 0x00000#20 then some (.scld f.d f.a (f.imm.extractLsb' 0 16) (f.imm.getLsbD 19)) else none : Option Instr)) ⟨op, sub, d, a, b, c, ib, kx, rm, mt, imm, k⟩ := by cases h; rfl
  refine (key _ _ _ _ _ _ _ _ _ _ _ _ rfl).trans ?_
  simp (disch := decide) only [Frame.fits, h, ↓reduceIte, BEq.rfl, Bool.or_true, Bool.true_or, Bool.not_false, Bool.and_true, Bool.true_and, Bool.false_eq_true, BitVec.ofNat_eq_ofNat, BitVec.extractLsb'_append_eq_of_le, BitVec.extractLsb'_append_eq_of_add_le, Nat.reduceSub, BitVec.extractLsb'_eq_self, BitVec.getLsbD_append, Nat.reduceLT, BitVec.getLsbD_ofBool, decide_true]

theorem Laws.RoundTrip.scst (a b : Reg) (off : BitVec 16) : Statement (.scst a b off) := by
  have h : (0#4 ++ off : BitVec 20) &&& 0xF0000#20 = 0x00000#20 := by
    change (0#4 ++ off) &&& (0xF#4 ++ 0x0#16) = 0x00000#20
    rw [BitVec.and_append]; simp only [BitVec.and_zero, BitVec.zero_and, BitVec.reduceAnd, BitVec.reduceAppend]
  refine fun _ => ⟨fun f hf => ⟨.m, ?_⟩, nofun⟩
  cases hf
  have key (op sub d a b c ib kx rm mt imm k) (h : op = 0x31#8) : decodePart .m ⟨op, sub, d, a, b, c, ib, kx, rm, mt, imm, k⟩ =
      (fun f : Frame => (if f.fits { a := true, b := true, imm := true } && f.imm &&& 0xF0000#20 == 0x00000#20 then some (.scst f.a f.b (f.imm.extractLsb' 0 16)) else none : Option Instr)) ⟨op, sub, d, a, b, c, ib, kx, rm, mt, imm, k⟩ := by cases h; rfl
  refine (key _ _ _ _ _ _ _ _ _ _ _ _ rfl).trans ?_
  simp (disch := decide) only [Frame.fits, h, ↓reduceIte, BEq.rfl, Bool.or_true, Bool.true_or, Bool.not_false, Bool.and_true, Bool.true_and, Bool.false_eq_true, BitVec.ofNat_eq_ofNat, BitVec.extractLsb'_append_eq_of_le, BitVec.extractLsb'_append_eq_of_add_le, Nat.reduceSub, BitVec.extractLsb'_eq_self]

theorem Laws.RoundTrip.scmov (d a : Reg) (ip : Bool) : Statement (.scmov d a ip) := by
  have h : (BitVec.ofBool ip ++ 0#19 : BitVec 20) &&& 0x7FFFF#20 = 0x00000#20 := by
    change (BitVec.ofBool ip ++ 0#19) &&& (0x0#1 ++ 0x7FFFF#19) = 0x00000#20
    rw [BitVec.and_append]; simp only [BitVec.and_zero, BitVec.zero_and, BitVec.reduceAnd, BitVec.reduceAppend]
  refine fun _ => ⟨fun f hf => ⟨.m, ?_⟩, nofun⟩
  cases hf
  have key (op sub d a b c ib kx rm mt imm k) (h : op = 0x32#8) : decodePart .m ⟨op, sub, d, a, b, c, ib, kx, rm, mt, imm, k⟩ =
      (fun f : Frame => (if f.fits { d := true, a := true, imm := true } && f.imm &&& 0x7FFFF#20 == 0x00000#20 then some (.scmov f.d f.a (f.imm.getLsbD 19)) else none : Option Instr)) ⟨op, sub, d, a, b, c, ib, kx, rm, mt, imm, k⟩ := by cases h; rfl
  refine (key _ _ _ _ _ _ _ _ _ _ _ _ rfl).trans ?_
  simp (disch := decide) only [Frame.fits, h, ↓reduceIte, BEq.rfl, Bool.or_true, Bool.true_or, Bool.not_false, Bool.and_true, Bool.true_and, Bool.false_eq_true, BitVec.ofNat_eq_ofNat, BitVec.extractLsb'_append_eq_of_le, BitVec.extractLsb'_append_eq_of_add_le, Nat.reduceSub, BitVec.extractLsb'_eq_self, BitVec.getLsbD_append, Nat.reduceLT, BitVec.getLsbD_ofBool, decide_true]

theorem Laws.RoundTrip.scmul (d a b : Reg) (ip : Bool) : Statement (.scmul d a b ip) := by
  have h : (BitVec.ofBool ip ++ 0#19 : BitVec 20) &&& 0x7FFFF#20 = 0x00000#20 := by
    change (BitVec.ofBool ip ++ 0#19) &&& (0x0#1 ++ 0x7FFFF#19) = 0x00000#20
    rw [BitVec.and_append]; simp only [BitVec.and_zero, BitVec.zero_and, BitVec.reduceAnd, BitVec.reduceAppend]
  refine fun _ => ⟨fun f hf => ⟨.m, ?_⟩, nofun⟩
  cases hf
  have key (op sub d a b c ib kx rm mt imm k) (h : op = 0x33#8) : decodePart .m ⟨op, sub, d, a, b, c, ib, kx, rm, mt, imm, k⟩ =
      (fun f : Frame => (if f.fits { d := true, a := true, b := true, imm := true } && f.imm &&& 0x7FFFF#20 == 0x00000#20 then some (.scmul f.d f.a f.b (f.imm.getLsbD 19)) else none : Option Instr)) ⟨op, sub, d, a, b, c, ib, kx, rm, mt, imm, k⟩ := by cases h; rfl
  refine (key _ _ _ _ _ _ _ _ _ _ _ _ rfl).trans ?_
  simp (disch := decide) only [Frame.fits, h, ↓reduceIte, BEq.rfl, Bool.or_true, Bool.true_or, Bool.not_false, Bool.and_true, Bool.true_and, Bool.false_eq_true, BitVec.ofNat_eq_ofNat, BitVec.extractLsb'_append_eq_of_le, BitVec.extractLsb'_append_eq_of_add_le, Nat.reduceSub, BitVec.extractLsb'_eq_self, BitVec.getLsbD_append, Nat.reduceLT, BitVec.getLsbD_ofBool, decide_true]

theorem Laws.RoundTrip.scmax (d a b : Reg) (ip : Bool) : Statement (.scmax d a b ip) := by
  have h : (BitVec.ofBool ip ++ 0#19 : BitVec 20) &&& 0x7FFFF#20 = 0x00000#20 := by
    change (BitVec.ofBool ip ++ 0#19) &&& (0x0#1 ++ 0x7FFFF#19) = 0x00000#20
    rw [BitVec.and_append]; simp only [BitVec.and_zero, BitVec.zero_and, BitVec.reduceAnd, BitVec.reduceAppend]
  refine fun _ => ⟨fun f hf => ⟨.m, ?_⟩, nofun⟩
  cases hf
  have key (op sub d a b c ib kx rm mt imm k) (h : op = 0x34#8) : decodePart .m ⟨op, sub, d, a, b, c, ib, kx, rm, mt, imm, k⟩ =
      (fun f : Frame => (if f.fits { d := true, a := true, b := true, imm := true } && f.imm &&& 0x7FFFF#20 == 0x00000#20 then some (.scmax f.d f.a f.b (f.imm.getLsbD 19)) else none : Option Instr)) ⟨op, sub, d, a, b, c, ib, kx, rm, mt, imm, k⟩ := by cases h; rfl
  refine (key _ _ _ _ _ _ _ _ _ _ _ _ rfl).trans ?_
  simp (disch := decide) only [Frame.fits, h, ↓reduceIte, BEq.rfl, Bool.or_true, Bool.true_or, Bool.not_false, Bool.and_true, Bool.true_and, Bool.false_eq_true, BitVec.ofNat_eq_ofNat, BitVec.extractLsb'_append_eq_of_le, BitVec.extractLsb'_append_eq_of_add_le, Nat.reduceSub, BitVec.extractLsb'_eq_self, BitVec.getLsbD_append, Nat.reduceLT, BitVec.getLsbD_ofBool, decide_true]

theorem Laws.RoundTrip.scmin (d a b : Reg) (ip : Bool) : Statement (.scmin d a b ip) := by
  have h : (BitVec.ofBool ip ++ 0#19 : BitVec 20) &&& 0x7FFFF#20 = 0x00000#20 := by
    change (BitVec.ofBool ip ++ 0#19) &&& (0x0#1 ++ 0x7FFFF#19) = 0x00000#20
    rw [BitVec.and_append]; simp only [BitVec.and_zero, BitVec.zero_and, BitVec.reduceAnd, BitVec.reduceAppend]
  refine fun _ => ⟨fun f hf => ⟨.m, ?_⟩, nofun⟩
  cases hf
  have key (op sub d a b c ib kx rm mt imm k) (h : op = 0x35#8) : decodePart .m ⟨op, sub, d, a, b, c, ib, kx, rm, mt, imm, k⟩ =
      (fun f : Frame => (if f.fits { d := true, a := true, b := true, imm := true } && f.imm &&& 0x7FFFF#20 == 0x00000#20 then some (.scmin f.d f.a f.b (f.imm.getLsbD 19)) else none : Option Instr)) ⟨op, sub, d, a, b, c, ib, kx, rm, mt, imm, k⟩ := by cases h; rfl
  refine (key _ _ _ _ _ _ _ _ _ _ _ _ rfl).trans ?_
  simp (disch := decide) only [Frame.fits, h, ↓reduceIte, BEq.rfl, Bool.or_true, Bool.true_or, Bool.not_false, Bool.and_true, Bool.true_and, Bool.false_eq_true, BitVec.ofNat_eq_ofNat, BitVec.extractLsb'_append_eq_of_le, BitVec.extractLsb'_append_eq_of_add_le, Nat.reduceSub, BitVec.extractLsb'_eq_self, BitVec.getLsbD_append, Nat.reduceLT, BitVec.getLsbD_ofBool, decide_true]

theorem Laws.RoundTrip.scq (d a : Reg) (f : Fmt) (ip : Bool) : Statement (.scq d a f ip) := by
  have h : (BitVec.ofBool ip ++ 0#15 ++ fmtCode f : BitVec 20) &&& 0x7FFF0#20 = 0x00000#20 := by
    change (BitVec.ofBool ip ++ 0#15 ++ fmtCode f) &&& (0x0#1 ++ 0x7FFF#15 ++ 0x0#4) = 0x00000#20
    rw [BitVec.and_append, BitVec.and_append]; simp only [BitVec.and_zero, BitVec.zero_and, BitVec.reduceAnd, BitVec.reduceAppend]
  refine fun _ => ⟨fun f hf => ⟨.m, ?_⟩, nofun⟩
  cases hf
  have key (op sub d a b c ib kx rm mt imm k) (h : op = 0x36#8) : decodePart .m ⟨op, sub, d, a, b, c, ib, kx, rm, mt, imm, k⟩ =
      (fun f : Frame => (if f.fits { d := true, a := true, imm := true } && f.imm &&& 0x7FFF0#20 == 0x00000#20 then (fmtOf (f.imm.extractLsb' 0 4)).bind fun fm => some (.scq f.d f.a fm (f.imm.getLsbD 19)) else none : Option Instr)) ⟨op, sub, d, a, b, c, ib, kx, rm, mt, imm, k⟩ := by cases h; rfl
  refine (key _ _ _ _ _ _ _ _ _ _ _ _ rfl).trans ?_
  simp (disch := decide) only [Frame.fits, h, ↓reduceIte, BEq.rfl, Bool.or_true, Bool.true_or, Bool.not_false, Bool.and_true, Bool.true_and, Bool.false_eq_true, BitVec.ofNat_eq_ofNat, fmtOf_fmtCode, BitVec.extractLsb'_append_eq_of_le, BitVec.extractLsb'_append_eq_of_add_le, Nat.reduceSub, BitVec.extractLsb'_eq_self, BitVec.getLsbD_append, Nat.reduceLT, BitVec.getLsbD_ofBool, decide_true, Option.bind_some]

theorem Laws.RoundTrip.scset (d : Reg) (code : BitVec 8) (ip : Bool) : Statement (.scset d code ip) := by
  have h : (BitVec.ofBool ip ++ 0#11 ++ code : BitVec 20) &&& 0x7FF00#20 = 0x00000#20 := by
    change (BitVec.ofBool ip ++ 0#11 ++ code) &&& (0x0#1 ++ 0x7FF#11 ++ 0x0#8) = 0x00000#20
    rw [BitVec.and_append, BitVec.and_append]; simp only [BitVec.and_zero, BitVec.zero_and, BitVec.reduceAnd, BitVec.reduceAppend]
  refine fun _ => ⟨fun f hf => ⟨.m, ?_⟩, nofun⟩
  cases hf
  have key (op sub d a b c ib kx rm mt imm k) (h : op = 0x37#8) : decodePart .m ⟨op, sub, d, a, b, c, ib, kx, rm, mt, imm, k⟩ =
      (fun f : Frame => (if f.fits { d := true, imm := true } && f.imm &&& 0x7FF00#20 == 0x00000#20 then some (.scset f.d (f.imm.extractLsb' 0 8) (f.imm.getLsbD 19)) else none : Option Instr)) ⟨op, sub, d, a, b, c, ib, kx, rm, mt, imm, k⟩ := by cases h; rfl
  refine (key _ _ _ _ _ _ _ _ _ _ _ _ rfl).trans ?_
  simp (disch := decide) only [Frame.fits, h, ↓reduceIte, BEq.rfl, Bool.or_true, Bool.true_or, Bool.not_false, Bool.and_true, Bool.true_and, Bool.false_eq_true, BitVec.ofNat_eq_ofNat, BitVec.extractLsb'_append_eq_of_le, BitVec.extractLsb'_append_eq_of_add_le, Nat.reduceSub, BitVec.extractLsb'_eq_self, BitVec.getLsbD_append, Nat.reduceLT, BitVec.getLsbD_ofBool, decide_true]

theorem Laws.RoundTrip.scbind (d a : Reg) : Statement (.scbind d a) := by
  refine fun _ => ⟨fun f hf => ⟨.m, ?_⟩, nofun⟩
  cases hf
  have key (op sub d a b c ib kx rm mt imm k) (h : op = 0x38#8) : decodePart .m ⟨op, sub, d, a, b, c, ib, kx, rm, mt, imm, k⟩ =
      (fun f : Frame => (if f.fits { d := true, a := true } then some (.scbind f.d f.a) else none : Option Instr)) ⟨op, sub, d, a, b, c, ib, kx, rm, mt, imm, k⟩ := by cases h; rfl
  refine (key _ _ _ _ _ _ _ _ _ _ _ _ rfl).trans ?_
  simp (disch := decide) only [Frame.fits, ↓reduceIte, BEq.rfl, Bool.or_true, Bool.true_or, Bool.not_false, Bool.and_true, Bool.true_and, Bool.false_eq_true, BitVec.ofNat_eq_ofNat]

theorem Laws.RoundTrip.screl (d : Reg) : Statement (.screl d) := by
  refine fun _ => ⟨fun f hf => ⟨.m, ?_⟩, nofun⟩
  cases hf
  have key (op sub d a b c ib kx rm mt imm k) (h : op = 0x39#8) : decodePart .m ⟨op, sub, d, a, b, c, ib, kx, rm, mt, imm, k⟩ =
      (fun f : Frame => (if f.fits { d := true } then some (.screl f.d) else none : Option Instr)) ⟨op, sub, d, a, b, c, ib, kx, rm, mt, imm, k⟩ := by cases h; rfl
  refine (key _ _ _ _ _ _ _ _ _ _ _ _ rfl).trans ?_
  simp (disch := decide) only [Frame.fits, ↓reduceIte, BEq.rfl, Bool.or_true, Bool.true_or, Bool.not_false, Bool.and_true, Bool.true_and, Bool.false_eq_true, BitVec.ofNat_eq_ofNat]

theorem Laws.RoundTrip.scgen (d a : Reg) (ip : Bool) : Statement (.scgen d a ip) := by
  have h : (BitVec.ofBool ip ++ 0#19 : BitVec 20) &&& 0x7FFFF#20 = 0x00000#20 := by
    change (BitVec.ofBool ip ++ 0#19) &&& (0x0#1 ++ 0x7FFFF#19) = 0x00000#20
    rw [BitVec.and_append]; simp only [BitVec.and_zero, BitVec.zero_and, BitVec.reduceAnd, BitVec.reduceAppend]
  refine fun _ => ⟨fun f hf => ⟨.m, ?_⟩, nofun⟩
  cases hf
  have key (op sub d a b c ib kx rm mt imm k) (h : op = 0x3A#8) : decodePart .m ⟨op, sub, d, a, b, c, ib, kx, rm, mt, imm, k⟩ =
      (fun f : Frame => (if f.fits { d := true, a := true, imm := true } && f.imm &&& 0x7FFFF#20 == 0x00000#20 then some (.scgen f.d f.a (f.imm.getLsbD 19)) else none : Option Instr)) ⟨op, sub, d, a, b, c, ib, kx, rm, mt, imm, k⟩ := by cases h; rfl
  refine (key _ _ _ _ _ _ _ _ _ _ _ _ rfl).trans ?_
  simp (disch := decide) only [Frame.fits, h, ↓reduceIte, BEq.rfl, Bool.or_true, Bool.true_or, Bool.not_false, Bool.and_true, Bool.true_and, Bool.false_eq_true, BitVec.ofNat_eq_ofNat, BitVec.extractLsb'_append_eq_of_le, BitVec.extractLsb'_append_eq_of_add_le, Nat.reduceSub, BitVec.extractLsb'_eq_self, BitVec.getLsbD_append, Nat.reduceLT, BitVec.getLsbD_ofBool, decide_true]

theorem Laws.RoundTrip.fmt (d : Reg) (b : Src) : Statement (.fmt d b) := by
  refine fun _ => ⟨fun f hf => ⟨.m, ?_⟩, nofun⟩
  cases hf
  have key (op sub d a b c ib kx rm mt imm k) (h : op = 0x40#8) : decodePart .m ⟨op, sub, d, a, b, c, ib, kx, rm, mt, imm, k⟩ =
      (fun f : Frame => (if f.fits { d := true, src := true } then some (.fmt f.d (f.src f.k)) else none : Option Instr)) ⟨op, sub, d, a, b, c, ib, kx, rm, mt, imm, k⟩ := by cases h; rfl
  rcases b with r | (v | v) <;> refine (key _ _ _ _ _ _ _ _ _ _ _ _ rfl).trans ?_
  all_goals simp (disch := decide) only [Frame.fits, ↓reduceIte, BEq.rfl, Bool.or_true, Bool.true_or, Bool.not_false, Bool.and_true, Bool.true_and, Bool.false_eq_true, BitVec.ofNat_eq_ofNat, Frame.withSrc, Frame.withImm, Frame.src, Frame.immv, split_imm]

theorem Laws.RoundTrip.ftsel (lvl : BitVec 3) (base : BitVec 4) : Statement (.ftsel lvl base) := by
  have h : (0#13 ++ lvl ++ base : BitVec 20) &&& 0xFFF80#20 = 0x00000#20 := by
    change (0#13 ++ lvl ++ base) &&& (0x1FFF#13 ++ 0x0#3 ++ 0x0#4) = 0x00000#20
    rw [BitVec.and_append, BitVec.and_append]; simp only [BitVec.and_zero, BitVec.zero_and, BitVec.reduceAnd, BitVec.reduceAppend]
  refine fun _ => ⟨fun f hf => ⟨.m, ?_⟩, nofun⟩
  cases hf
  have key (op sub d a b c ib kx rm mt imm k) (h : op = 0x41#8) : decodePart .m ⟨op, sub, d, a, b, c, ib, kx, rm, mt, imm, k⟩ =
      (fun f : Frame => (if f.fits { imm := true } && f.imm &&& 0xFFF80#20 == 0x00000#20 then some (.ftsel (f.imm.extractLsb' 4 3) (f.imm.extractLsb' 0 4)) else none : Option Instr)) ⟨op, sub, d, a, b, c, ib, kx, rm, mt, imm, k⟩ := by cases h; rfl
  refine (key _ _ _ _ _ _ _ _ _ _ _ _ rfl).trans ?_
  simp (disch := decide) only [Frame.fits, h, ↓reduceIte, BEq.rfl, Bool.or_true, Bool.true_or, Bool.not_false, Bool.and_true, Bool.true_and, Bool.false_eq_true, BitVec.ofNat_eq_ofNat, BitVec.extractLsb'_append_eq_of_le, BitVec.extractLsb'_append_eq_of_add_le, Nat.reduceSub, BitVec.extractLsb'_eq_self]

theorem Laws.RoundTrip.act (a b : Reg) : Statement (.act a b) := by
  refine fun _ => ⟨fun f hf => ⟨.d, ?_⟩, nofun⟩
  cases hf
  have key (op sub d a b c ib kx rm mt imm k) (h : op = 0x01#8) : decodePart .d ⟨op, sub, d, a, b, c, ib, kx, rm, mt, imm, k⟩ =
      (fun f : Frame => (if f.fits { a := true, b := true } then some (.act f.a f.b) else none : Option Instr)) ⟨op, sub, d, a, b, c, ib, kx, rm, mt, imm, k⟩ := by cases h; rfl
  refine (key _ _ _ _ _ _ _ _ _ _ _ _ rfl).trans ?_
  simp (disch := decide) only [Frame.fits, ↓reduceIte, BEq.rfl, Bool.or_true, Bool.true_or, Bool.not_false, Bool.and_true, Bool.true_and, Bool.false_eq_true, BitVec.ofNat_eq_ofNat]

theorem Laws.RoundTrip.rd (a b c : Reg) (s n : BitVec 6) : Statement (.rd a b c s n) := by
  have h : (0#8 ++ n ++ s : BitVec 20) &&& 0xFF000#20 = 0x00000#20 := by
    change (0#8 ++ n ++ s) &&& (0xFF#8 ++ 0x0#6 ++ 0x0#6) = 0x00000#20
    rw [BitVec.and_append, BitVec.and_append]; simp only [BitVec.and_zero, BitVec.zero_and, BitVec.reduceAnd, BitVec.reduceAppend]
  refine fun _ => ⟨fun f hf => ⟨.d, ?_⟩, nofun⟩
  cases hf
  have key (op sub d a b c ib kx rm mt imm k) (h : op = 0x02#8) : decodePart .d ⟨op, sub, d, a, b, c, ib, kx, rm, mt, imm, k⟩ =
      (fun f : Frame => (if f.fits { a := true, b := true, c := true, imm := true } && f.imm &&& 0xFF000#20 == 0x00000#20 then some (.rd f.a f.b f.c (f.imm.extractLsb' 0 6) (f.imm.extractLsb' 6 6)) else none : Option Instr)) ⟨op, sub, d, a, b, c, ib, kx, rm, mt, imm, k⟩ := by cases h; rfl
  refine (key _ _ _ _ _ _ _ _ _ _ _ _ rfl).trans ?_
  simp (disch := decide) only [Frame.fits, h, ↓reduceIte, BEq.rfl, Bool.or_true, Bool.true_or, Bool.not_false, Bool.and_true, Bool.true_and, Bool.false_eq_true, BitVec.ofNat_eq_ofNat, BitVec.extractLsb'_append_eq_of_le, BitVec.extractLsb'_append_eq_of_add_le, Nat.reduceSub, BitVec.extractLsb'_eq_self]

theorem Laws.RoundTrip.rda (a b c : Reg) (s n : BitVec 6) : Statement (.rda a b c s n) := by
  have h : (0#8 ++ n ++ s : BitVec 20) &&& 0xFF000#20 = 0x00000#20 := by
    change (0#8 ++ n ++ s) &&& (0xFF#8 ++ 0x0#6 ++ 0x0#6) = 0x00000#20
    rw [BitVec.and_append, BitVec.and_append]; simp only [BitVec.and_zero, BitVec.zero_and, BitVec.reduceAnd, BitVec.reduceAppend]
  refine fun _ => ⟨fun f hf => ⟨.d, ?_⟩, nofun⟩
  cases hf
  have key (op sub d a b c ib kx rm mt imm k) (h : op = 0x03#8) : decodePart .d ⟨op, sub, d, a, b, c, ib, kx, rm, mt, imm, k⟩ =
      (fun f : Frame => (if f.fits { a := true, b := true, c := true, imm := true } && f.imm &&& 0xFF000#20 == 0x00000#20 then some (.rda f.a f.b f.c (f.imm.extractLsb' 0 6) (f.imm.extractLsb' 6 6)) else none : Option Instr)) ⟨op, sub, d, a, b, c, ib, kx, rm, mt, imm, k⟩ := by cases h; rfl
  refine (key _ _ _ _ _ _ _ _ _ _ _ _ rfl).trans ?_
  simp (disch := decide) only [Frame.fits, h, ↓reduceIte, BEq.rfl, Bool.or_true, Bool.true_or, Bool.not_false, Bool.and_true, Bool.true_and, Bool.false_eq_true, BitVec.ofNat_eq_ofNat, BitVec.extractLsb'_append_eq_of_le, BitVec.extractLsb'_append_eq_of_add_le, Nat.reduceSub, BitVec.extractLsb'_eq_self]

theorem Laws.RoundTrip.wr (a b c : Reg) (s n : BitVec 6) : Statement (.wr a b c s n) := by
  have h : (0#8 ++ n ++ s : BitVec 20) &&& 0xFF000#20 = 0x00000#20 := by
    change (0#8 ++ n ++ s) &&& (0xFF#8 ++ 0x0#6 ++ 0x0#6) = 0x00000#20
    rw [BitVec.and_append, BitVec.and_append]; simp only [BitVec.and_zero, BitVec.zero_and, BitVec.reduceAnd, BitVec.reduceAppend]
  refine fun _ => ⟨fun f hf => ⟨.d, ?_⟩, nofun⟩
  cases hf
  have key (op sub d a b c ib kx rm mt imm k) (h : op = 0x04#8) : decodePart .d ⟨op, sub, d, a, b, c, ib, kx, rm, mt, imm, k⟩ =
      (fun f : Frame => (if f.fits { a := true, b := true, c := true, imm := true } && f.imm &&& 0xFF000#20 == 0x00000#20 then some (.wr f.a f.b f.c (f.imm.extractLsb' 0 6) (f.imm.extractLsb' 6 6)) else none : Option Instr)) ⟨op, sub, d, a, b, c, ib, kx, rm, mt, imm, k⟩ := by cases h; rfl
  refine (key _ _ _ _ _ _ _ _ _ _ _ _ rfl).trans ?_
  simp (disch := decide) only [Frame.fits, h, ↓reduceIte, BEq.rfl, Bool.or_true, Bool.true_or, Bool.not_false, Bool.and_true, Bool.true_and, Bool.false_eq_true, BitVec.ofNat_eq_ofNat, BitVec.extractLsb'_append_eq_of_le, BitVec.extractLsb'_append_eq_of_add_le, Nat.reduceSub, BitVec.extractLsb'_eq_self]

theorem Laws.RoundTrip.wra (a b c : Reg) (s n : BitVec 6) : Statement (.wra a b c s n) := by
  have h : (0#8 ++ n ++ s : BitVec 20) &&& 0xFF000#20 = 0x00000#20 := by
    change (0#8 ++ n ++ s) &&& (0xFF#8 ++ 0x0#6 ++ 0x0#6) = 0x00000#20
    rw [BitVec.and_append, BitVec.and_append]; simp only [BitVec.and_zero, BitVec.zero_and, BitVec.reduceAnd, BitVec.reduceAppend]
  refine fun _ => ⟨fun f hf => ⟨.d, ?_⟩, nofun⟩
  cases hf
  have key (op sub d a b c ib kx rm mt imm k) (h : op = 0x05#8) : decodePart .d ⟨op, sub, d, a, b, c, ib, kx, rm, mt, imm, k⟩ =
      (fun f : Frame => (if f.fits { a := true, b := true, c := true, imm := true } && f.imm &&& 0xFF000#20 == 0x00000#20 then some (.wra f.a f.b f.c (f.imm.extractLsb' 0 6) (f.imm.extractLsb' 6 6)) else none : Option Instr)) ⟨op, sub, d, a, b, c, ib, kx, rm, mt, imm, k⟩ := by cases h; rfl
  refine (key _ _ _ _ _ _ _ _ _ _ _ _ rfl).trans ?_
  simp (disch := decide) only [Frame.fits, h, ↓reduceIte, BEq.rfl, Bool.or_true, Bool.true_or, Bool.not_false, Bool.and_true, Bool.true_and, Bool.false_eq_true, BitVec.ofNat_eq_ofNat, BitVec.extractLsb'_append_eq_of_le, BitVec.extractLsb'_append_eq_of_add_le, Nat.reduceSub, BitVec.extractLsb'_eq_self]

theorem Laws.RoundTrip.pre (bank : BitVec 7) (lend : BitVec 13) : Statement (.pre bank lend) := by
  refine fun _ => ⟨fun f hf => ⟨.d, ?_⟩, nofun⟩
  cases hf
  have key (op sub d a b c ib kx rm mt imm k) (h : op = 0x06#8) : decodePart .d ⟨op, sub, d, a, b, c, ib, kx, rm, mt, imm, k⟩ =
      (fun f : Frame => (if f.fits { imm := true } then some (.pre (f.imm.extractLsb' 0 7) (f.imm.extractLsb' 7 13)) else none : Option Instr)) ⟨op, sub, d, a, b, c, ib, kx, rm, mt, imm, k⟩ := by cases h; rfl
  refine (key _ _ _ _ _ _ _ _ _ _ _ _ rfl).trans ?_
  simp (disch := decide) only [Frame.fits, ↓reduceIte, BEq.rfl, Bool.or_true, Bool.true_or, Bool.not_false, Bool.and_true, Bool.true_and, Bool.false_eq_true, BitVec.ofNat_eq_ofNat, BitVec.extractLsb'_append_eq_of_le, BitVec.extractLsb'_append_eq_of_add_le, Nat.reduceSub, BitVec.extractLsb'_eq_self]

theorem Laws.RoundTrip.ref (bank : BitVec 7) : Statement (.ref bank) := by
  have h : (0#13 ++ bank : BitVec 20) &&& 0xFFF80#20 = 0x00000#20 := by
    change (0#13 ++ bank) &&& (0x1FFF#13 ++ 0x0#7) = 0x00000#20
    rw [BitVec.and_append]; simp only [BitVec.and_zero, BitVec.zero_and, BitVec.reduceAnd, BitVec.reduceAppend]
  refine fun _ => ⟨fun f hf => ⟨.d, ?_⟩, nofun⟩
  cases hf
  have key (op sub d a b c ib kx rm mt imm k) (h : op = 0x08#8) : decodePart .d ⟨op, sub, d, a, b, c, ib, kx, rm, mt, imm, k⟩ =
      (fun f : Frame => (if f.fits { imm := true } && f.imm &&& 0xFFF80#20 == 0x00000#20 then some (.ref (f.imm.extractLsb' 0 7)) else none : Option Instr)) ⟨op, sub, d, a, b, c, ib, kx, rm, mt, imm, k⟩ := by cases h; rfl
  refine (key _ _ _ _ _ _ _ _ _ _ _ _ rfl).trans ?_
  simp (disch := decide) only [Frame.fits, h, ↓reduceIte, BEq.rfl, Bool.or_true, Bool.true_or, Bool.not_false, Bool.and_true, Bool.true_and, Bool.false_eq_true, BitVec.ofNat_eq_ofNat, BitVec.extractLsb'_append_eq_of_le, BitVec.extractLsb'_append_eq_of_add_le, Nat.reduceSub, BitVec.extractLsb'_eq_self]

theorem Laws.RoundTrip.rdop (d a b : Reg) (s n : BitVec 6) (q : BitVec 2) (bind : Option Reg) : Statement (.rdop d a b s n q bind) := by
  have h (x : Bool) : (0#5 ++ BitVec.ofBool x ++ q ++ n ++ s : BitVec 20) &&& 0xF8000#20 = 0x00000#20 := by
    change (0#5 ++ BitVec.ofBool x ++ q ++ n ++ s) &&& (0x1F#5 ++ 0x0#1 ++ 0x0#2 ++ 0x0#6 ++ 0x0#6) = 0x00000#20
    rw [BitVec.and_append, BitVec.and_append, BitVec.and_append, BitVec.and_append]; simp only [BitVec.and_zero, BitVec.zero_and, BitVec.reduceAnd, BitVec.reduceAppend]
  refine fun _ => ⟨fun f hf => ⟨.d, ?_⟩, nofun⟩
  cases hf
  have key (op sub d a b c ib kx rm mt imm k) (h : op = 0x09#8) : decodePart .d ⟨op, sub, d, a, b, c, ib, kx, rm, mt, imm, k⟩ =
      (fun f : Frame => (if f.fits { d := true, a := true, b := true, c := true, imm := true } && f.imm &&& 0xF8000#20 == 0x00000#20 && (f.imm.getLsbD 14 || f.c == 0) then some (.rdop f.d f.a f.b (f.imm.extractLsb' 0 6) (f.imm.extractLsb' 6 6) (f.imm.extractLsb' 12 2) (if f.imm.getLsbD 14 then some f.c else none)) else none : Option Instr)) ⟨op, sub, d, a, b, c, ib, kx, rm, mt, imm, k⟩ := by cases h; rfl
  rcases bind with _ | r <;> refine (key _ _ _ _ _ _ _ _ _ _ _ _ rfl).trans ?_
  all_goals simp (disch := decide) only [Frame.fits, h, ↓reduceIte, BEq.rfl, Bool.or_true, Bool.true_or, Bool.not_false, Bool.and_true, Bool.true_and, Bool.false_eq_true, BitVec.ofNat_eq_ofNat, Option.isSome_none, Option.isSome_some, Option.getD_none, Option.getD_some, BitVec.extractLsb'_append_eq_of_le, BitVec.extractLsb'_append_eq_of_add_le, Nat.reduceSub, BitVec.extractLsb'_eq_self, BitVec.getLsbD_append, Nat.reduceLT, BitVec.getLsbD_ofBool, decide_true]

theorem Laws.RoundTrip.rdsc (d a b c : Reg) : Statement (.rdsc d a b c) := by
  refine fun _ => ⟨fun f hf => ⟨.d, ?_⟩, nofun⟩
  cases hf
  have key (op sub d a b c ib kx rm mt imm k) (h : op = 0x0A#8) : decodePart .d ⟨op, sub, d, a, b, c, ib, kx, rm, mt, imm, k⟩ =
      (fun f : Frame => (if f.fits { d := true, a := true, b := true, c := true } then some (.rdsc f.d f.a f.b f.c) else none : Option Instr)) ⟨op, sub, d, a, b, c, ib, kx, rm, mt, imm, k⟩ := by cases h; rfl
  refine (key _ _ _ _ _ _ _ _ _ _ _ _ rfl).trans ?_
  simp (disch := decide) only [Frame.fits, ↓reduceIte, BEq.rfl, Bool.or_true, Bool.true_or, Bool.not_false, Bool.and_true, Bool.true_and, Bool.false_eq_true, BitVec.ofNat_eq_ofNat]

theorem Laws.RoundTrip.vfence (lvl : Level) : Statement (.vfence lvl) := by
  refine fun _ => ⟨fun f hf => ⟨.d, ?_⟩, nofun⟩
  cases hf
  have key (op sub d a b c ib kx rm mt imm k) (h : op = 0x0B#8) : decodePart .d ⟨op, sub, d, a, b, c, ib, kx, rm, mt, imm, k⟩ =
      (fun f : Frame => (if f.fits { sub := true } then (levelOf f.sub).bind fun lvl => some (.vfence lvl) else none : Option Instr)) ⟨op, sub, d, a, b, c, ib, kx, rm, mt, imm, k⟩ := by cases h; rfl
  refine (key _ _ _ _ _ _ _ _ _ _ _ _ rfl).trans ?_
  simp (disch := decide) only [Frame.fits, ↓reduceIte, BEq.rfl, Bool.or_true, Bool.true_or, Bool.not_false, Bool.and_true, Bool.true_and, Bool.false_eq_true, BitVec.ofNat_eq_ofNat, levelOf_levelCode, Option.bind_some]

theorem Laws.RoundTrip.train (q : BitVec 2) : Statement (.train q) := by
  have h : (0#18 ++ q : BitVec 20) &&& 0xFFFFC#20 = 0x00000#20 := by
    change (0#18 ++ q) &&& (0x3FFFF#18 ++ 0x0#2) = 0x00000#20
    rw [BitVec.and_append]; simp only [BitVec.and_zero, BitVec.zero_and, BitVec.reduceAnd, BitVec.reduceAppend]
  refine fun _ => ⟨fun f hf => ⟨.d, ?_⟩, nofun⟩
  cases hf
  have key (op sub d a b c ib kx rm mt imm k) (h : op = 0x0C#8) : decodePart .d ⟨op, sub, d, a, b, c, ib, kx, rm, mt, imm, k⟩ =
      (fun f : Frame => (if f.fits { imm := true } && f.imm &&& 0xFFFFC#20 == 0x00000#20 then some (.train (f.imm.extractLsb' 0 2)) else none : Option Instr)) ⟨op, sub, d, a, b, c, ib, kx, rm, mt, imm, k⟩ := by cases h; rfl
  refine (key _ _ _ _ _ _ _ _ _ _ _ _ rfl).trans ?_
  simp (disch := decide) only [Frame.fits, h, ↓reduceIte, BEq.rfl, Bool.or_true, Bool.true_or, Bool.not_false, Bool.and_true, Bool.true_and, Bool.false_eq_true, BitVec.ofNat_eq_ofNat, BitVec.extractLsb'_append_eq_of_le, BitVec.extractLsb'_append_eq_of_add_le, Nat.reduceSub, BitVec.extractLsb'_eq_self]

theorem Laws.RoundTrip.bstat (d : Reg) (bank : BitVec 7) : Statement (.bstat d bank) := by
  have h : (0#13 ++ bank : BitVec 20) &&& 0xFFF80#20 = 0x00000#20 := by
    change (0#13 ++ bank) &&& (0x1FFF#13 ++ 0x0#7) = 0x00000#20
    rw [BitVec.and_append]; simp only [BitVec.and_zero, BitVec.zero_and, BitVec.reduceAnd, BitVec.reduceAppend]
  refine fun _ => ⟨fun f hf => ⟨.d, ?_⟩, nofun⟩
  cases hf
  have key (op sub d a b c ib kx rm mt imm k) (h : op = 0x0D#8) : decodePart .d ⟨op, sub, d, a, b, c, ib, kx, rm, mt, imm, k⟩ =
      (fun f : Frame => (if f.fits { d := true, imm := true } && f.imm &&& 0xFFF80#20 == 0x00000#20 then some (.bstat f.d (f.imm.extractLsb' 0 7)) else none : Option Instr)) ⟨op, sub, d, a, b, c, ib, kx, rm, mt, imm, k⟩ := by cases h; rfl
  refine (key _ _ _ _ _ _ _ _ _ _ _ _ rfl).trans ?_
  simp (disch := decide) only [Frame.fits, h, ↓reduceIte, BEq.rfl, Bool.or_true, Bool.true_or, Bool.not_false, Bool.and_true, Bool.true_and, Bool.false_eq_true, BitVec.ofNat_eq_ofNat, BitVec.extractLsb'_append_eq_of_le, BitVec.extractLsb'_append_eq_of_add_le, Nat.reduceSub, BitVec.extractLsb'_eq_self]

theorem Laws.RoundTrip.actraw (bank : BitVec 7) (page : BitVec 12) : Statement (.actraw bank page) := by
  have h : (0#1 ++ page ++ bank : BitVec 20) &&& 0x80000#20 = 0x00000#20 := by
    change (0#1 ++ page ++ bank) &&& (0x1#1 ++ 0x0#12 ++ 0x0#7) = 0x00000#20
    rw [BitVec.and_append, BitVec.and_append]; simp only [BitVec.and_zero, BitVec.zero_and, BitVec.reduceAnd, BitVec.reduceAppend]
  refine fun _ => ⟨fun f hf => ⟨.d, ?_⟩, nofun⟩
  cases hf
  have key (op sub d a b c ib kx rm mt imm k) (h : op = 0x40#8) : decodePart .d ⟨op, sub, d, a, b, c, ib, kx, rm, mt, imm, k⟩ =
      (fun f : Frame => (if f.fits { imm := true } && f.imm &&& 0x80000#20 == 0x00000#20 then some (.actraw (f.imm.extractLsb' 0 7) (f.imm.extractLsb' 7 12)) else none : Option Instr)) ⟨op, sub, d, a, b, c, ib, kx, rm, mt, imm, k⟩ := by cases h; rfl
  refine (key _ _ _ _ _ _ _ _ _ _ _ _ rfl).trans ?_
  simp (disch := decide) only [Frame.fits, h, ↓reduceIte, BEq.rfl, Bool.or_true, Bool.true_or, Bool.not_false, Bool.and_true, Bool.true_and, Bool.false_eq_true, BitVec.ofNat_eq_ofNat, BitVec.extractLsb'_append_eq_of_le, BitVec.extractLsb'_append_eq_of_add_le, Nat.reduceSub, BitVec.extractLsb'_eq_self]

theorem Laws.RoundTrip.rdraw (c : Reg) (s n : BitVec 6) (bank : BitVec 7) : Statement (.rdraw c s n bank) := by
  have h : (0#1 ++ bank ++ n ++ s : BitVec 20) &&& 0x80000#20 = 0x00000#20 := by
    change (0#1 ++ bank ++ n ++ s) &&& (0x1#1 ++ 0x0#7 ++ 0x0#6 ++ 0x0#6) = 0x00000#20
    rw [BitVec.and_append, BitVec.and_append, BitVec.and_append]; simp only [BitVec.and_zero, BitVec.zero_and, BitVec.reduceAnd, BitVec.reduceAppend]
  refine fun _ => ⟨fun f hf => ⟨.d, ?_⟩, nofun⟩
  cases hf
  have key (op sub d a b c ib kx rm mt imm k) (h : op = 0x41#8) : decodePart .d ⟨op, sub, d, a, b, c, ib, kx, rm, mt, imm, k⟩ =
      (fun f : Frame => (if f.fits { c := true, imm := true } && f.imm &&& 0x80000#20 == 0x00000#20 then some (.rdraw f.c (f.imm.extractLsb' 0 6) (f.imm.extractLsb' 6 6) (f.imm.extractLsb' 12 7)) else none : Option Instr)) ⟨op, sub, d, a, b, c, ib, kx, rm, mt, imm, k⟩ := by cases h; rfl
  refine (key _ _ _ _ _ _ _ _ _ _ _ _ rfl).trans ?_
  simp (disch := decide) only [Frame.fits, h, ↓reduceIte, BEq.rfl, Bool.or_true, Bool.true_or, Bool.not_false, Bool.and_true, Bool.true_and, Bool.false_eq_true, BitVec.ofNat_eq_ofNat, BitVec.extractLsb'_append_eq_of_le, BitVec.extractLsb'_append_eq_of_add_le, Nat.reduceSub, BitVec.extractLsb'_eq_self]

theorem Laws.RoundTrip.wrraw (c : Reg) (s n : BitVec 6) (bank : BitVec 7) : Statement (.wrraw c s n bank) := by
  have h : (0#1 ++ bank ++ n ++ s : BitVec 20) &&& 0x80000#20 = 0x00000#20 := by
    change (0#1 ++ bank ++ n ++ s) &&& (0x1#1 ++ 0x0#7 ++ 0x0#6 ++ 0x0#6) = 0x00000#20
    rw [BitVec.and_append, BitVec.and_append, BitVec.and_append]; simp only [BitVec.and_zero, BitVec.zero_and, BitVec.reduceAnd, BitVec.reduceAppend]
  refine fun _ => ⟨fun f hf => ⟨.d, ?_⟩, nofun⟩
  cases hf
  have key (op sub d a b c ib kx rm mt imm k) (h : op = 0x42#8) : decodePart .d ⟨op, sub, d, a, b, c, ib, kx, rm, mt, imm, k⟩ =
      (fun f : Frame => (if f.fits { c := true, imm := true } && f.imm &&& 0x80000#20 == 0x00000#20 then some (.wrraw f.c (f.imm.extractLsb' 0 6) (f.imm.extractLsb' 6 6) (f.imm.extractLsb' 12 7)) else none : Option Instr)) ⟨op, sub, d, a, b, c, ib, kx, rm, mt, imm, k⟩ := by cases h; rfl
  refine (key _ _ _ _ _ _ _ _ _ _ _ _ rfl).trans ?_
  simp (disch := decide) only [Frame.fits, h, ↓reduceIte, BEq.rfl, Bool.or_true, Bool.true_or, Bool.not_false, Bool.and_true, Bool.true_and, Bool.false_eq_true, BitVec.ofNat_eq_ofNat, BitVec.extractLsb'_append_eq_of_le, BitVec.extractLsb'_append_eq_of_add_le, Nat.reduceSub, BitVec.extractLsb'_eq_self]

theorem Laws.RoundTrip.msend (a b c : Reg) (n : BitVec 8) : Statement (.msend a b c n) := by
  have h : (0#12 ++ n : BitVec 20) &&& 0xFFF00#20 = 0x00000#20 := by
    change (0#12 ++ n) &&& (0xFFF#12 ++ 0x0#8) = 0x00000#20
    rw [BitVec.and_append]; simp only [BitVec.and_zero, BitVec.zero_and, BitVec.reduceAnd, BitVec.reduceAppend]
  refine fun _ => ⟨fun f hf => ⟨.x, ?_⟩, nofun⟩
  cases hf
  have key (op sub d a b c ib kx rm mt imm k) (h : op = 0x01#8) : decodePart .x ⟨op, sub, d, a, b, c, ib, kx, rm, mt, imm, k⟩ =
      (fun f : Frame => (if f.fits { a := true, b := true, c := true, imm := true } && f.imm &&& 0xFFF00#20 == 0x00000#20 then some (.msend f.a f.b f.c (f.imm.extractLsb' 0 8)) else none : Option Instr)) ⟨op, sub, d, a, b, c, ib, kx, rm, mt, imm, k⟩ := by cases h; rfl
  refine (key _ _ _ _ _ _ _ _ _ _ _ _ rfl).trans ?_
  simp (disch := decide) only [Frame.fits, h, ↓reduceIte, BEq.rfl, Bool.or_true, Bool.true_or, Bool.not_false, Bool.and_true, Bool.true_and, Bool.false_eq_true, BitVec.ofNat_eq_ofNat, BitVec.extractLsb'_append_eq_of_le, BitVec.extractLsb'_append_eq_of_add_le, Nat.reduceSub, BitVec.extractLsb'_eq_self]

theorem Laws.RoundTrip.msendv (a b c : Reg) : Statement (.msendv a b c) := by
  refine fun _ => ⟨fun f hf => ⟨.x, ?_⟩, nofun⟩
  cases hf
  have key (op sub d a b c ib kx rm mt imm k) (h : op = 0x02#8) : decodePart .x ⟨op, sub, d, a, b, c, ib, kx, rm, mt, imm, k⟩ =
      (fun f : Frame => (if f.fits { a := true, b := true, c := true } then some (.msendv f.a f.b f.c) else none : Option Instr)) ⟨op, sub, d, a, b, c, ib, kx, rm, mt, imm, k⟩ := by cases h; rfl
  refine (key _ _ _ _ _ _ _ _ _ _ _ _ rfl).trans ?_
  simp (disch := decide) only [Frame.fits, ↓reduceIte, BEq.rfl, Bool.or_true, Bool.true_or, Bool.not_false, Bool.and_true, Bool.true_and, Bool.false_eq_true, BitVec.ofNat_eq_ofNat]

theorem Laws.RoundTrip.mcast (a b c : Reg) (n : BitVec 8) : Statement (.mcast a b c n) := by
  have h : (0#12 ++ n : BitVec 20) &&& 0xFFF00#20 = 0x00000#20 := by
    change (0#12 ++ n) &&& (0xFFF#12 ++ 0x0#8) = 0x00000#20
    rw [BitVec.and_append]; simp only [BitVec.and_zero, BitVec.zero_and, BitVec.reduceAnd, BitVec.reduceAppend]
  refine fun _ => ⟨fun f hf => ⟨.x, ?_⟩, nofun⟩
  cases hf
  have key (op sub d a b c ib kx rm mt imm k) (h : op = 0x03#8) : decodePart .x ⟨op, sub, d, a, b, c, ib, kx, rm, mt, imm, k⟩ =
      (fun f : Frame => (if f.fits { a := true, b := true, c := true, imm := true } && f.imm &&& 0xFFF00#20 == 0x00000#20 then some (.mcast f.a f.b f.c (f.imm.extractLsb' 0 8)) else none : Option Instr)) ⟨op, sub, d, a, b, c, ib, kx, rm, mt, imm, k⟩ := by cases h; rfl
  refine (key _ _ _ _ _ _ _ _ _ _ _ _ rfl).trans ?_
  simp (disch := decide) only [Frame.fits, h, ↓reduceIte, BEq.rfl, Bool.or_true, Bool.true_or, Bool.not_false, Bool.and_true, Bool.true_and, Bool.false_eq_true, BitVec.ofNat_eq_ofNat, BitVec.extractLsb'_append_eq_of_le, BitVec.extractLsb'_append_eq_of_add_le, Nat.reduceSub, BitVec.extractLsb'_eq_self]

theorem Laws.RoundTrip.lsend (a : Reg) (n : BitVec 8) (ch : BitVec 6) (rel : Bool) : Statement (.lsend a n ch rel) := by
  have h : (0#5 ++ BitVec.ofBool rel ++ ch ++ n : BitVec 20) &&& 0xF8000#20 = 0x00000#20 := by
    change (0#5 ++ BitVec.ofBool rel ++ ch ++ n) &&& (0x1F#5 ++ 0x0#1 ++ 0x0#6 ++ 0x0#8) = 0x00000#20
    rw [BitVec.and_append, BitVec.and_append, BitVec.and_append]; simp only [BitVec.and_zero, BitVec.zero_and, BitVec.reduceAnd, BitVec.reduceAppend]
  refine fun _ => ⟨fun f hf => ⟨.x, ?_⟩, nofun⟩
  cases hf
  have key (op sub d a b c ib kx rm mt imm k) (h : op = 0x10#8) : decodePart .x ⟨op, sub, d, a, b, c, ib, kx, rm, mt, imm, k⟩ =
      (fun f : Frame => (if f.fits { a := true, imm := true } && f.imm &&& 0xF8000#20 == 0x00000#20 then some (.lsend f.a (f.imm.extractLsb' 0 8) (f.imm.extractLsb' 8 6) (f.imm.getLsbD 14)) else none : Option Instr)) ⟨op, sub, d, a, b, c, ib, kx, rm, mt, imm, k⟩ := by cases h; rfl
  refine (key _ _ _ _ _ _ _ _ _ _ _ _ rfl).trans ?_
  simp (disch := decide) only [Frame.fits, h, ↓reduceIte, BEq.rfl, Bool.or_true, Bool.true_or, Bool.not_false, Bool.and_true, Bool.true_and, Bool.false_eq_true, BitVec.ofNat_eq_ofNat, BitVec.extractLsb'_append_eq_of_le, BitVec.extractLsb'_append_eq_of_add_le, Nat.reduceSub, BitVec.extractLsb'_eq_self, BitVec.getLsbD_append, Nat.reduceLT, BitVec.getLsbD_ofBool, decide_true]

theorem Laws.RoundTrip.lrecv (a : Reg) (n : BitVec 8) (ch : BitVec 6) (acq : Bool) : Statement (.lrecv a n ch acq) := by
  have h : (0#5 ++ BitVec.ofBool acq ++ ch ++ n : BitVec 20) &&& 0xF8000#20 = 0x00000#20 := by
    change (0#5 ++ BitVec.ofBool acq ++ ch ++ n) &&& (0x1F#5 ++ 0x0#1 ++ 0x0#6 ++ 0x0#8) = 0x00000#20
    rw [BitVec.and_append, BitVec.and_append, BitVec.and_append]; simp only [BitVec.and_zero, BitVec.zero_and, BitVec.reduceAnd, BitVec.reduceAppend]
  refine fun _ => ⟨fun f hf => ⟨.x, ?_⟩, nofun⟩
  cases hf
  have key (op sub d a b c ib kx rm mt imm k) (h : op = 0x11#8) : decodePart .x ⟨op, sub, d, a, b, c, ib, kx, rm, mt, imm, k⟩ =
      (fun f : Frame => (if f.fits { a := true, imm := true } && f.imm &&& 0xF8000#20 == 0x00000#20 then some (.lrecv f.a (f.imm.extractLsb' 0 8) (f.imm.extractLsb' 8 6) (f.imm.getLsbD 14)) else none : Option Instr)) ⟨op, sub, d, a, b, c, ib, kx, rm, mt, imm, k⟩ := by cases h; rfl
  refine (key _ _ _ _ _ _ _ _ _ _ _ _ rfl).trans ?_
  simp (disch := decide) only [Frame.fits, h, ↓reduceIte, BEq.rfl, Bool.or_true, Bool.true_or, Bool.not_false, Bool.and_true, Bool.true_and, Bool.false_eq_true, BitVec.ofNat_eq_ofNat, BitVec.extractLsb'_append_eq_of_le, BitVec.extractLsb'_append_eq_of_add_le, Nat.reduceSub, BitVec.extractLsb'_eq_self, BitVec.getLsbD_append, Nat.reduceLT, BitVec.getLsbD_ofBool, decide_true]

theorem Laws.RoundTrip.vld (mt : Bool) (d a : Reg) (w : Width) (sx pair : Bool) (off : BitVec 16) : Statement (.vld mt d a w sx pair off) := by
  refine fun _ => ⟨fun f hf => ⟨.x, ?_⟩, nofun⟩
  cases hf
  have key (op sub d a b c ib kx rm mt imm k) (h : op = 0x20#8) : decodePart .x ⟨op, sub, d, a, b, c, ib, kx, rm, mt, imm, k⟩ =
      (fun f : Frame => (if f.fits { d := true, a := true, imm := true, mt := true } then some (.vld f.mt f.d f.a (f.imm.extractLsb' 18 2) (f.imm.getLsbD 17) (f.imm.getLsbD 16) (f.imm.extractLsb' 0 16)) else none : Option Instr)) ⟨op, sub, d, a, b, c, ib, kx, rm, mt, imm, k⟩ := by cases h; rfl
  refine (key _ _ _ _ _ _ _ _ _ _ _ _ rfl).trans ?_
  simp (disch := decide) only [Frame.fits, ↓reduceIte, BEq.rfl, Bool.or_true, Bool.true_or, Bool.not_false, Bool.and_true, Bool.true_and, Bool.false_eq_true, BitVec.ofNat_eq_ofNat, BitVec.extractLsb'_append_eq_of_le, BitVec.extractLsb'_append_eq_of_add_le, Nat.reduceSub, BitVec.extractLsb'_eq_self, BitVec.getLsbD_append, Nat.reduceLT, BitVec.getLsbD_ofBool, decide_true]

theorem Laws.RoundTrip.vst (mt : Bool) (a b : Reg) (w : Width) (pair : Bool) (off : BitVec 16) : Statement (.vst mt a b w pair off) := by
  have h : (w ++ 0#1 ++ BitVec.ofBool pair ++ off : BitVec 20) &&& 0x20000#20 = 0x00000#20 := by
    change (w ++ 0#1 ++ BitVec.ofBool pair ++ off) &&& (0x0#2 ++ 0x1#1 ++ 0x0#1 ++ 0x0#16) = 0x00000#20
    rw [BitVec.and_append, BitVec.and_append, BitVec.and_append]; simp only [BitVec.and_zero, BitVec.zero_and, BitVec.reduceAnd, BitVec.reduceAppend]
  refine fun _ => ⟨fun f hf => ⟨.x, ?_⟩, nofun⟩
  cases hf
  have key (op sub d a b c ib kx rm mt imm k) (h : op = 0x21#8) : decodePart .x ⟨op, sub, d, a, b, c, ib, kx, rm, mt, imm, k⟩ =
      (fun f : Frame => (if f.fits { a := true, b := true, imm := true, mt := true } && f.imm &&& 0x20000#20 == 0x00000#20 then some (.vst f.mt f.a f.b (f.imm.extractLsb' 18 2) (f.imm.getLsbD 16) (f.imm.extractLsb' 0 16)) else none : Option Instr)) ⟨op, sub, d, a, b, c, ib, kx, rm, mt, imm, k⟩ := by cases h; rfl
  refine (key _ _ _ _ _ _ _ _ _ _ _ _ rfl).trans ?_
  simp (disch := decide) only [Frame.fits, h, ↓reduceIte, BEq.rfl, Bool.or_true, Bool.true_or, Bool.not_false, Bool.and_true, Bool.true_and, Bool.false_eq_true, BitVec.ofNat_eq_ofNat, BitVec.extractLsb'_append_eq_of_le, BitVec.extractLsb'_append_eq_of_add_le, Nat.reduceSub, BitVec.extractLsb'_eq_self, BitVec.getLsbD_append, Nat.reduceLT, BitVec.getLsbD_ofBool, decide_true]

theorem Laws.RoundTrip.vgath (mt : Bool) (d a b : Reg) (w : Width) (sx pair : Bool) (off : BitVec 16) : Statement (.vgath mt d a b w sx pair off) := by
  refine fun _ => ⟨fun f hf => ⟨.x, ?_⟩, nofun⟩
  cases hf
  have key (op sub d a b c ib kx rm mt imm k) (h : op = 0x22#8) : decodePart .x ⟨op, sub, d, a, b, c, ib, kx, rm, mt, imm, k⟩ =
      (fun f : Frame => (if f.fits { d := true, a := true, b := true, imm := true, mt := true } then some (.vgath f.mt f.d f.a f.b (f.imm.extractLsb' 18 2) (f.imm.getLsbD 17) (f.imm.getLsbD 16) (f.imm.extractLsb' 0 16)) else none : Option Instr)) ⟨op, sub, d, a, b, c, ib, kx, rm, mt, imm, k⟩ := by cases h; rfl
  refine (key _ _ _ _ _ _ _ _ _ _ _ _ rfl).trans ?_
  simp (disch := decide) only [Frame.fits, ↓reduceIte, BEq.rfl, Bool.or_true, Bool.true_or, Bool.not_false, Bool.and_true, Bool.true_and, Bool.false_eq_true, BitVec.ofNat_eq_ofNat, BitVec.extractLsb'_append_eq_of_le, BitVec.extractLsb'_append_eq_of_add_le, Nat.reduceSub, BitVec.extractLsb'_eq_self, BitVec.getLsbD_append, Nat.reduceLT, BitVec.getLsbD_ofBool, decide_true]

theorem Laws.RoundTrip.vscat (mt : Bool) (a b c : Reg) (w : Width) (pair : Bool) (off : BitVec 16) : Statement (.vscat mt a b c w pair off) := by
  have h : (w ++ 0#1 ++ BitVec.ofBool pair ++ off : BitVec 20) &&& 0x20000#20 = 0x00000#20 := by
    change (w ++ 0#1 ++ BitVec.ofBool pair ++ off) &&& (0x0#2 ++ 0x1#1 ++ 0x0#1 ++ 0x0#16) = 0x00000#20
    rw [BitVec.and_append, BitVec.and_append, BitVec.and_append]; simp only [BitVec.and_zero, BitVec.zero_and, BitVec.reduceAnd, BitVec.reduceAppend]
  refine fun _ => ⟨fun f hf => ⟨.x, ?_⟩, nofun⟩
  cases hf
  have key (op sub d a b c ib kx rm mt imm k) (h : op = 0x23#8) : decodePart .x ⟨op, sub, d, a, b, c, ib, kx, rm, mt, imm, k⟩ =
      (fun f : Frame => (if f.fits { a := true, b := true, c := true, imm := true, mt := true } && f.imm &&& 0x20000#20 == 0x00000#20 then some (.vscat f.mt f.a f.b f.c (f.imm.extractLsb' 18 2) (f.imm.getLsbD 16) (f.imm.extractLsb' 0 16)) else none : Option Instr)) ⟨op, sub, d, a, b, c, ib, kx, rm, mt, imm, k⟩ := by cases h; rfl
  refine (key _ _ _ _ _ _ _ _ _ _ _ _ rfl).trans ?_
  simp (disch := decide) only [Frame.fits, h, ↓reduceIte, BEq.rfl, Bool.or_true, Bool.true_or, Bool.not_false, Bool.and_true, Bool.true_and, Bool.false_eq_true, BitVec.ofNat_eq_ofNat, BitVec.extractLsb'_append_eq_of_le, BitVec.extractLsb'_append_eq_of_add_le, Nat.reduceSub, BitVec.extractLsb'_eq_self, BitVec.getLsbD_append, Nat.reduceLT, BitVec.getLsbD_ofBool, decide_true]

theorem Laws.RoundTrip.apst (d a : Reg) (b : Src) : Statement (.apst d a b) := by
  refine fun _ => ⟨fun f hf => ⟨.x, ?_⟩, nofun⟩
  cases hf
  have key (op sub d a b c ib kx rm mt imm k) (h : op = 0x30#8) : decodePart .x ⟨op, sub, d, a, b, c, ib, kx, rm, mt, imm, k⟩ =
      (fun f : Frame => (if f.fits { d := true, a := true, src := true } then some (.apst f.d f.a (f.src f.k)) else none : Option Instr)) ⟨op, sub, d, a, b, c, ib, kx, rm, mt, imm, k⟩ := by cases h; rfl
  rcases b with r | (v | v) <;> refine (key _ _ _ _ _ _ _ _ _ _ _ _ rfl).trans ?_
  all_goals simp (disch := decide) only [Frame.fits, ↓reduceIte, BEq.rfl, Bool.or_true, Bool.true_or, Bool.not_false, Bool.and_true, Bool.true_and, Bool.false_eq_true, BitVec.ofNat_eq_ofNat, Frame.withSrc, Frame.withImm, Frame.src, Frame.immv, split_imm]

theorem Laws.RoundTrip.warr (d : Reg) (weir : BitVec 6) (die : BitVec 3) : Statement (.warr d weir die) := by
  have h : (0#11 ++ die ++ weir : BitVec 20) &&& 0xFFE00#20 = 0x00000#20 := by
    change (0#11 ++ die ++ weir) &&& (0x7FF#11 ++ 0x0#3 ++ 0x0#6) = 0x00000#20
    rw [BitVec.and_append, BitVec.and_append]; simp only [BitVec.and_zero, BitVec.zero_and, BitVec.reduceAnd, BitVec.reduceAppend]
  refine fun _ => ⟨fun f hf => ⟨.x, ?_⟩, nofun⟩
  cases hf
  have key (op sub d a b c ib kx rm mt imm k) (h : op = 0x40#8) : decodePart .x ⟨op, sub, d, a, b, c, ib, kx, rm, mt, imm, k⟩ =
      (fun f : Frame => (if f.fits { d := true, imm := true } && f.imm &&& 0xFFE00#20 == 0x00000#20 then some (.warr f.d (f.imm.extractLsb' 0 6) (f.imm.extractLsb' 6 3)) else none : Option Instr)) ⟨op, sub, d, a, b, c, ib, kx, rm, mt, imm, k⟩ := by cases h; rfl
  refine (key _ _ _ _ _ _ _ _ _ _ _ _ rfl).trans ?_
  simp (disch := decide) only [Frame.fits, h, ↓reduceIte, BEq.rfl, Bool.or_true, Bool.true_or, Bool.not_false, Bool.and_true, Bool.true_and, Bool.false_eq_true, BitVec.ofNat_eq_ofNat, BitVec.extractLsb'_append_eq_of_le, BitVec.extractLsb'_append_eq_of_add_le, Nat.reduceSub, BitVec.extractLsb'_eq_self]

theorem Laws.RoundTrip.wwait (d b : Reg) (weir : BitVec 6) (die : BitVec 3) (w : BitVec 11) : Statement (.wwait d b weir die w) := by
  refine fun _ => ⟨fun f hf => ⟨.x, ?_⟩, nofun⟩
  cases hf
  have key (op sub d a b c ib kx rm mt imm k) (h : op = 0x41#8) : decodePart .x ⟨op, sub, d, a, b, c, ib, kx, rm, mt, imm, k⟩ =
      (fun f : Frame => (if f.fits { d := true, b := true, imm := true } then some (.wwait f.d f.b (f.imm.extractLsb' 0 6) (f.imm.extractLsb' 6 3) (f.imm.extractLsb' 9 11)) else none : Option Instr)) ⟨op, sub, d, a, b, c, ib, kx, rm, mt, imm, k⟩ := by cases h; rfl
  refine (key _ _ _ _ _ _ _ _ _ _ _ _ rfl).trans ?_
  simp (disch := decide) only [Frame.fits, ↓reduceIte, BEq.rfl, Bool.or_true, Bool.true_or, Bool.not_false, Bool.and_true, Bool.true_and, Bool.false_eq_true, BitVec.ofNat_eq_ofNat, BitVec.extractLsb'_append_eq_of_le, BitVec.extractLsb'_append_eq_of_add_le, Nat.reduceSub, BitVec.extractLsb'_eq_self]

theorem Laws.RoundTrip.wpoll (d : Reg) (weir : BitVec 6) (die : BitVec 3) : Statement (.wpoll d weir die) := by
  have h : (0#11 ++ die ++ weir : BitVec 20) &&& 0xFFE00#20 = 0x00000#20 := by
    change (0#11 ++ die ++ weir) &&& (0x7FF#11 ++ 0x0#3 ++ 0x0#6) = 0x00000#20
    rw [BitVec.and_append, BitVec.and_append]; simp only [BitVec.and_zero, BitVec.zero_and, BitVec.reduceAnd, BitVec.reduceAppend]
  refine fun _ => ⟨fun f hf => ⟨.x, ?_⟩, nofun⟩
  cases hf
  have key (op sub d a b c ib kx rm mt imm k) (h : op = 0x42#8) : decodePart .x ⟨op, sub, d, a, b, c, ib, kx, rm, mt, imm, k⟩ =
      (fun f : Frame => (if f.fits { d := true, imm := true } && f.imm &&& 0xFFE00#20 == 0x00000#20 then some (.wpoll f.d (f.imm.extractLsb' 0 6) (f.imm.extractLsb' 6 3)) else none : Option Instr)) ⟨op, sub, d, a, b, c, ib, kx, rm, mt, imm, k⟩ := by cases h; rfl
  refine (key _ _ _ _ _ _ _ _ _ _ _ _ rfl).trans ?_
  simp (disch := decide) only [Frame.fits, h, ↓reduceIte, BEq.rfl, Bool.or_true, Bool.true_or, Bool.not_false, Bool.and_true, Bool.true_and, Bool.false_eq_true, BitVec.ofNat_eq_ofNat, BitVec.extractLsb'_append_eq_of_le, BitVec.extractLsb'_append_eq_of_add_le, Nat.reduceSub, BitVec.extractLsb'_eq_self]

theorem Laws.RoundTrip.wpend (d b : Reg) (weir : BitVec 6) (die : BitVec 3) : Statement (.wpend d b weir die) := by
  have h : (0#11 ++ die ++ weir : BitVec 20) &&& 0xFFE00#20 = 0x00000#20 := by
    change (0#11 ++ die ++ weir) &&& (0x7FF#11 ++ 0x0#3 ++ 0x0#6) = 0x00000#20
    rw [BitVec.and_append, BitVec.and_append]; simp only [BitVec.and_zero, BitVec.zero_and, BitVec.reduceAnd, BitVec.reduceAppend]
  refine fun _ => ⟨fun f hf => ⟨.x, ?_⟩, nofun⟩
  cases hf
  have key (op sub d a b c ib kx rm mt imm k) (h : op = 0x43#8) : decodePart .x ⟨op, sub, d, a, b, c, ib, kx, rm, mt, imm, k⟩ =
      (fun f : Frame => (if f.fits { d := true, b := true, imm := true } && f.imm &&& 0xFFE00#20 == 0x00000#20 then some (.wpend f.d f.b (f.imm.extractLsb' 0 6) (f.imm.extractLsb' 6 3)) else none : Option Instr)) ⟨op, sub, d, a, b, c, ib, kx, rm, mt, imm, k⟩ := by cases h; rfl
  refine (key _ _ _ _ _ _ _ _ _ _ _ _ rfl).trans ?_
  simp (disch := decide) only [Frame.fits, h, ↓reduceIte, BEq.rfl, Bool.or_true, Bool.true_or, Bool.not_false, Bool.and_true, Bool.true_and, Bool.false_eq_true, BitVec.ofNat_eq_ofNat, BitVec.extractLsb'_append_eq_of_le, BitVec.extractLsb'_append_eq_of_add_le, Nat.reduceSub, BitVec.extractLsb'_eq_self]

theorem Laws.RoundTrip.jcbraise (d a : Reg) (b : Src) : Statement (.jcbraise d a b) := by
  refine fun _ => ⟨fun f hf => ⟨.x, ?_⟩, nofun⟩
  cases hf
  have key (op sub d a b c ib kx rm mt imm k) (h : op = 0x50#8) : decodePart .x ⟨op, sub, d, a, b, c, ib, kx, rm, mt, imm, k⟩ =
      (fun f : Frame => (if f.fits { d := true, a := true, src := true } then some (.jcbraise f.d f.a (f.src f.k)) else none : Option Instr)) ⟨op, sub, d, a, b, c, ib, kx, rm, mt, imm, k⟩ := by cases h; rfl
  rcases b with r | (v | v) <;> refine (key _ _ _ _ _ _ _ _ _ _ _ _ rfl).trans ?_
  all_goals simp (disch := decide) only [Frame.fits, ↓reduceIte, BEq.rfl, Bool.or_true, Bool.true_or, Bool.not_false, Bool.and_true, Bool.true_and, Bool.false_eq_true, BitVec.ofNat_eq_ofNat, Frame.withSrc, Frame.withImm, Frame.src, Frame.immv, split_imm]

theorem Laws.RoundTrip.jcbpost (d a : Reg) (b : Src) : Statement (.jcbpost d a b) := by
  refine fun _ => ⟨fun f hf => ⟨.x, ?_⟩, nofun⟩
  cases hf
  have key (op sub d a b c ib kx rm mt imm k) (h : op = 0x51#8) : decodePart .x ⟨op, sub, d, a, b, c, ib, kx, rm, mt, imm, k⟩ =
      (fun f : Frame => (if f.fits { d := true, a := true, src := true } then some (.jcbpost f.d f.a (f.src f.k)) else none : Option Instr)) ⟨op, sub, d, a, b, c, ib, kx, rm, mt, imm, k⟩ := by cases h; rfl
  rcases b with r | (v | v) <;> refine (key _ _ _ _ _ _ _ _ _ _ _ _ rfl).trans ?_
  all_goals simp (disch := decide) only [Frame.fits, ↓reduceIte, BEq.rfl, Bool.or_true, Bool.true_or, Bool.not_false, Bool.and_true, Bool.true_and, Bool.false_eq_true, BitVec.ofNat_eq_ofNat, Frame.withSrc, Frame.withImm, Frame.src, Frame.immv, split_imm]

theorem Laws.RoundTrip.jcbwait (d a : Reg) (w : BitVec 16) : Statement (.jcbwait d a w) := by
  have h : (0#4 ++ w : BitVec 20) &&& 0xF0000#20 = 0x00000#20 := by
    change (0#4 ++ w) &&& (0xF#4 ++ 0x0#16) = 0x00000#20
    rw [BitVec.and_append]; simp only [BitVec.and_zero, BitVec.zero_and, BitVec.reduceAnd, BitVec.reduceAppend]
  refine fun _ => ⟨fun f hf => ⟨.x, ?_⟩, nofun⟩
  cases hf
  have key (op sub d a b c ib kx rm mt imm k) (h : op = 0x52#8) : decodePart .x ⟨op, sub, d, a, b, c, ib, kx, rm, mt, imm, k⟩ =
      (fun f : Frame => (if f.fits { d := true, a := true, imm := true } && f.imm &&& 0xF0000#20 == 0x00000#20 then some (.jcbwait f.d f.a (f.imm.extractLsb' 0 16)) else none : Option Instr)) ⟨op, sub, d, a, b, c, ib, kx, rm, mt, imm, k⟩ := by cases h; rfl
  refine (key _ _ _ _ _ _ _ _ _ _ _ _ rfl).trans ?_
  simp (disch := decide) only [Frame.fits, h, ↓reduceIte, BEq.rfl, Bool.or_true, Bool.true_or, Bool.not_false, Bool.and_true, Bool.true_and, Bool.false_eq_true, BitVec.ofNat_eq_ofNat, BitVec.extractLsb'_append_eq_of_le, BitVec.extractLsb'_append_eq_of_add_le, Nat.reduceSub, BitVec.extractLsb'_eq_self]

theorem Laws.RoundTrip.queueEnable (q : Nat) : Statement (.queueEnable q) := fun _ => ⟨nofun, nofun⟩

theorem Laws.RoundTrip.queueDisable (q : Nat) : Statement (.queueDisable q) := fun _ => ⟨nofun, nofun⟩

theorem Laws.RoundTrip.programInstall (slot : Nat) (kind : ProgKind) (code : List (BitVec 32)) (sig : Option Signed) : Statement (.programInstall slot kind code sig) := fun _ => ⟨nofun, nofun⟩

theorem Laws.RoundTrip.preemptionRequest (k : Nat) : Statement (.preemptionRequest k) := fun _ => ⟨nofun, nofun⟩

theorem Laws.RoundTrip.ivLdp (d : BitVec 4) (w : BitVec 3) : Statement (.ivLdp d w) := by
  have h : (0#13 ++ w : BitVec 16) &&& 0xFFF8#16 = 0#16 := by
    change (0#13 ++ w) &&& (0x1FFF#13 ++ 0#3) = 0#16
    rw [BitVec.and_append]; simp only [BitVec.and_zero, BitVec.zero_and, BitVec.reduceAppend]
  have key (w : BitVec 32) (h : w.extractLsb' 0 8 = 0x01#8) : decodeIvloha w =
      (fun d a i => (if a == 0 && i &&& 0xFFF8#16 == 0 then some (.ivLdp d (w.extractLsb' 16 3)) else none : Option Instr)) (w.extractLsb' 8 4) (w.extractLsb' 12 4) (w.extractLsb' 16 16) := by
    simp only [decodeIvloha, h]; rfl
  refine fun _ => ⟨nofun, fun w hw => ?_⟩
  cases hw
  refine (key _ BitVec.extractLsb'_append_eq_right).trans ?_
  simp (disch := decide) only [BitVec.extractLsb'_append_eq_of_le, BitVec.extractLsb'_append_eq_of_add_le, Nat.reduceSub, BitVec.extractLsb'_eq_self, h, BEq.rfl, Bool.and_self, ↓reduceIte, Bool.true_and, BitVec.ofNat_eq_ofNat, BitVec.reduceExtractLsb']

theorem Laws.RoundTrip.ivLdw (d a : BitVec 4) (win : BitVec 2) (o : BitVec 14) : Statement (.ivLdw d a win o) := by
  have key (w : BitVec 32) (h : w.extractLsb' 0 8 = 0x02#8) : decodeIvloha w =
      (fun d a i => (some (.ivLdw d a (w.extractLsb' 16 2) (w.extractLsb' 18 14)) : Option Instr)) (w.extractLsb' 8 4) (w.extractLsb' 12 4) (w.extractLsb' 16 16) := by
    simp only [decodeIvloha, h]; rfl
  refine fun _ => ⟨nofun, fun w hw => ?_⟩
  cases hw
  refine (key _ BitVec.extractLsb'_append_eq_right).trans ?_
  simp (disch := decide) only [BitVec.extractLsb'_append_eq_of_le, BitVec.extractLsb'_append_eq_of_add_le, Nat.reduceSub, BitVec.extractLsb'_eq_self, BEq.rfl, Bool.and_self, ↓reduceIte, Bool.true_and, BitVec.ofNat_eq_ofNat, BitVec.reduceExtractLsb']

theorem Laws.RoundTrip.ivStw (d a : BitVec 4) (win : BitVec 2) (o : BitVec 14) : Statement (.ivStw d a win o) := by
  have key (w : BitVec 32) (h : w.extractLsb' 0 8 = 0x03#8) : decodeIvloha w =
      (fun d a i => (some (.ivStw d a (w.extractLsb' 16 2) (w.extractLsb' 18 14)) : Option Instr)) (w.extractLsb' 8 4) (w.extractLsb' 12 4) (w.extractLsb' 16 16) := by
    simp only [decodeIvloha, h]; rfl
  refine fun _ => ⟨nofun, fun w hw => ?_⟩
  cases hw
  refine (key _ BitVec.extractLsb'_append_eq_right).trans ?_
  simp (disch := decide) only [BitVec.extractLsb'_append_eq_of_le, BitVec.extractLsb'_append_eq_of_add_le, Nat.reduceSub, BitVec.extractLsb'_eq_self, BEq.rfl, Bool.and_self, ↓reduceIte, Bool.true_and, BitVec.ofNat_eq_ofNat, BitVec.reduceExtractLsb']

theorem Laws.RoundTrip.ivMovi (d : BitVec 4) (i : BitVec 16) : Statement (.ivMovi d i) := by
  have key (w : BitVec 32) (h : w.extractLsb' 0 8 = 0x04#8) : decodeIvloha w =
      (fun d a i => (if a == 0 then some (.ivMovi d i) else none : Option Instr)) (w.extractLsb' 8 4) (w.extractLsb' 12 4) (w.extractLsb' 16 16) := by
    simp only [decodeIvloha, h]; rfl
  refine fun _ => ⟨nofun, fun w hw => ?_⟩
  cases hw
  refine (key _ BitVec.extractLsb'_append_eq_right).trans ?_
  simp (disch := decide) only [BitVec.extractLsb'_append_eq_of_le, BitVec.extractLsb'_append_eq_of_add_le, Nat.reduceSub, BitVec.extractLsb'_eq_self, BEq.rfl, Bool.and_self, ↓reduceIte, Bool.true_and, BitVec.ofNat_eq_ofNat, BitVec.reduceExtractLsb']

theorem Laws.RoundTrip.ivMovh (d : BitVec 4) (i : BitVec 16) : Statement (.ivMovh d i) := by
  have key (w : BitVec 32) (h : w.extractLsb' 0 8 = 0x05#8) : decodeIvloha w =
      (fun d a i => (if a == 0 then some (.ivMovh d i) else none : Option Instr)) (w.extractLsb' 8 4) (w.extractLsb' 12 4) (w.extractLsb' 16 16) := by
    simp only [decodeIvloha, h]; rfl
  refine fun _ => ⟨nofun, fun w hw => ?_⟩
  cases hw
  refine (key _ BitVec.extractLsb'_append_eq_right).trans ?_
  simp (disch := decide) only [BitVec.extractLsb'_append_eq_of_le, BitVec.extractLsb'_append_eq_of_add_le, Nat.reduceSub, BitVec.extractLsb'_eq_self, BEq.rfl, Bool.and_self, ↓reduceIte, Bool.true_and, BitVec.ofNat_eq_ofNat, BitVec.reduceExtractLsb']

theorem Laws.RoundTrip.ivAdd (d a : BitVec 4) (i : BitVec 16) : Statement (.ivAdd d a i) := by
  have key (w : BitVec 32) (h : w.extractLsb' 0 8 = 0x06#8) : decodeIvloha w =
      (fun d a i => (some (.ivAdd d a i) : Option Instr)) (w.extractLsb' 8 4) (w.extractLsb' 12 4) (w.extractLsb' 16 16) := by
    simp only [decodeIvloha, h]; rfl
  refine fun _ => ⟨nofun, fun w hw => ?_⟩
  cases hw
  refine (key _ BitVec.extractLsb'_append_eq_right).trans ?_
  simp (disch := decide) only [BitVec.extractLsb'_append_eq_of_le, BitVec.extractLsb'_append_eq_of_add_le, Nat.reduceSub, BitVec.extractLsb'_eq_self, BEq.rfl, Bool.and_self, ↓reduceIte, Bool.true_and, BitVec.ofNat_eq_ofNat, BitVec.reduceExtractLsb']

theorem Laws.RoundTrip.ivSub (d a : BitVec 4) (i : BitVec 16) : Statement (.ivSub d a i) := by
  have key (w : BitVec 32) (h : w.extractLsb' 0 8 = 0x07#8) : decodeIvloha w =
      (fun d a i => (some (.ivSub d a i) : Option Instr)) (w.extractLsb' 8 4) (w.extractLsb' 12 4) (w.extractLsb' 16 16) := by
    simp only [decodeIvloha, h]; rfl
  refine fun _ => ⟨nofun, fun w hw => ?_⟩
  cases hw
  refine (key _ BitVec.extractLsb'_append_eq_right).trans ?_
  simp (disch := decide) only [BitVec.extractLsb'_append_eq_of_le, BitVec.extractLsb'_append_eq_of_add_le, Nat.reduceSub, BitVec.extractLsb'_eq_self, BEq.rfl, Bool.and_self, ↓reduceIte, Bool.true_and, BitVec.ofNat_eq_ofNat, BitVec.reduceExtractLsb']

theorem Laws.RoundTrip.ivAnd (d a : BitVec 4) (i : BitVec 16) : Statement (.ivAnd d a i) := by
  have key (w : BitVec 32) (h : w.extractLsb' 0 8 = 0x08#8) : decodeIvloha w =
      (fun d a i => (some (.ivAnd d a i) : Option Instr)) (w.extractLsb' 8 4) (w.extractLsb' 12 4) (w.extractLsb' 16 16) := by
    simp only [decodeIvloha, h]; rfl
  refine fun _ => ⟨nofun, fun w hw => ?_⟩
  cases hw
  refine (key _ BitVec.extractLsb'_append_eq_right).trans ?_
  simp (disch := decide) only [BitVec.extractLsb'_append_eq_of_le, BitVec.extractLsb'_append_eq_of_add_le, Nat.reduceSub, BitVec.extractLsb'_eq_self, BEq.rfl, Bool.and_self, ↓reduceIte, Bool.true_and, BitVec.ofNat_eq_ofNat, BitVec.reduceExtractLsb']

theorem Laws.RoundTrip.ivOr (d a : BitVec 4) (i : BitVec 16) : Statement (.ivOr d a i) := by
  have key (w : BitVec 32) (h : w.extractLsb' 0 8 = 0x09#8) : decodeIvloha w =
      (fun d a i => (some (.ivOr d a i) : Option Instr)) (w.extractLsb' 8 4) (w.extractLsb' 12 4) (w.extractLsb' 16 16) := by
    simp only [decodeIvloha, h]; rfl
  refine fun _ => ⟨nofun, fun w hw => ?_⟩
  cases hw
  refine (key _ BitVec.extractLsb'_append_eq_right).trans ?_
  simp (disch := decide) only [BitVec.extractLsb'_append_eq_of_le, BitVec.extractLsb'_append_eq_of_add_le, Nat.reduceSub, BitVec.extractLsb'_eq_self, BEq.rfl, Bool.and_self, ↓reduceIte, Bool.true_and, BitVec.ofNat_eq_ofNat, BitVec.reduceExtractLsb']

theorem Laws.RoundTrip.ivXor (d a : BitVec 4) (i : BitVec 16) : Statement (.ivXor d a i) := by
  have key (w : BitVec 32) (h : w.extractLsb' 0 8 = 0x0A#8) : decodeIvloha w =
      (fun d a i => (some (.ivXor d a i) : Option Instr)) (w.extractLsb' 8 4) (w.extractLsb' 12 4) (w.extractLsb' 16 16) := by
    simp only [decodeIvloha, h]; rfl
  refine fun _ => ⟨nofun, fun w hw => ?_⟩
  cases hw
  refine (key _ BitVec.extractLsb'_append_eq_right).trans ?_
  simp (disch := decide) only [BitVec.extractLsb'_append_eq_of_le, BitVec.extractLsb'_append_eq_of_add_le, Nat.reduceSub, BitVec.extractLsb'_eq_self, BEq.rfl, Bool.and_self, ↓reduceIte, Bool.true_and, BitVec.ofNat_eq_ofNat, BitVec.reduceExtractLsb']

theorem Laws.RoundTrip.ivShl (d a : BitVec 4) (i : BitVec 16) : Statement (.ivShl d a i) := by
  have key (w : BitVec 32) (h : w.extractLsb' 0 8 = 0x0B#8) : decodeIvloha w =
      (fun d a i => (some (.ivShl d a i) : Option Instr)) (w.extractLsb' 8 4) (w.extractLsb' 12 4) (w.extractLsb' 16 16) := by
    simp only [decodeIvloha, h]; rfl
  refine fun _ => ⟨nofun, fun w hw => ?_⟩
  cases hw
  refine (key _ BitVec.extractLsb'_append_eq_right).trans ?_
  simp (disch := decide) only [BitVec.extractLsb'_append_eq_of_le, BitVec.extractLsb'_append_eq_of_add_le, Nat.reduceSub, BitVec.extractLsb'_eq_self, BEq.rfl, Bool.and_self, ↓reduceIte, Bool.true_and, BitVec.ofNat_eq_ofNat, BitVec.reduceExtractLsb']

theorem Laws.RoundTrip.ivShr (d a : BitVec 4) (i : BitVec 16) : Statement (.ivShr d a i) := by
  have key (w : BitVec 32) (h : w.extractLsb' 0 8 = 0x0C#8) : decodeIvloha w =
      (fun d a i => (some (.ivShr d a i) : Option Instr)) (w.extractLsb' 8 4) (w.extractLsb' 12 4) (w.extractLsb' 16 16) := by
    simp only [decodeIvloha, h]; rfl
  refine fun _ => ⟨nofun, fun w hw => ?_⟩
  cases hw
  refine (key _ BitVec.extractLsb'_append_eq_right).trans ?_
  simp (disch := decide) only [BitVec.extractLsb'_append_eq_of_le, BitVec.extractLsb'_append_eq_of_add_le, Nat.reduceSub, BitVec.extractLsb'_eq_self, BEq.rfl, Bool.and_self, ↓reduceIte, Bool.true_and, BitVec.ofNat_eq_ofNat, BitVec.reduceExtractLsb']

theorem Laws.RoundTrip.ivBeq (d a : BitVec 4) (n : BitVec 16) : Statement (.ivBeq d a n) := by
  have key (w : BitVec 32) (h : w.extractLsb' 0 8 = 0x0D#8) : decodeIvloha w =
      (fun d a i => (some (.ivBeq d a i) : Option Instr)) (w.extractLsb' 8 4) (w.extractLsb' 12 4) (w.extractLsb' 16 16) := by
    simp only [decodeIvloha, h]; rfl
  refine fun _ => ⟨nofun, fun w hw => ?_⟩
  cases hw
  refine (key _ BitVec.extractLsb'_append_eq_right).trans ?_
  simp (disch := decide) only [BitVec.extractLsb'_append_eq_of_le, BitVec.extractLsb'_append_eq_of_add_le, Nat.reduceSub, BitVec.extractLsb'_eq_self, BEq.rfl, Bool.and_self, ↓reduceIte, Bool.true_and, BitVec.ofNat_eq_ofNat, BitVec.reduceExtractLsb']

theorem Laws.RoundTrip.ivBne (d a : BitVec 4) (n : BitVec 16) : Statement (.ivBne d a n) := by
  have key (w : BitVec 32) (h : w.extractLsb' 0 8 = 0x0E#8) : decodeIvloha w =
      (fun d a i => (some (.ivBne d a i) : Option Instr)) (w.extractLsb' 8 4) (w.extractLsb' 12 4) (w.extractLsb' 16 16) := by
    simp only [decodeIvloha, h]; rfl
  refine fun _ => ⟨nofun, fun w hw => ?_⟩
  cases hw
  refine (key _ BitVec.extractLsb'_append_eq_right).trans ?_
  simp (disch := decide) only [BitVec.extractLsb'_append_eq_of_le, BitVec.extractLsb'_append_eq_of_add_le, Nat.reduceSub, BitVec.extractLsb'_eq_self, BEq.rfl, Bool.and_self, ↓reduceIte, Bool.true_and, BitVec.ofNat_eq_ofNat, BitVec.reduceExtractLsb']

theorem Laws.RoundTrip.ivBltu (d a : BitVec 4) (n : BitVec 16) : Statement (.ivBltu d a n) := by
  have key (w : BitVec 32) (h : w.extractLsb' 0 8 = 0x0F#8) : decodeIvloha w =
      (fun d a i => (some (.ivBltu d a i) : Option Instr)) (w.extractLsb' 8 4) (w.extractLsb' 12 4) (w.extractLsb' 16 16) := by
    simp only [decodeIvloha, h]; rfl
  refine fun _ => ⟨nofun, fun w hw => ?_⟩
  cases hw
  refine (key _ BitVec.extractLsb'_append_eq_right).trans ?_
  simp (disch := decide) only [BitVec.extractLsb'_append_eq_of_le, BitVec.extractLsb'_append_eq_of_add_le, Nat.reduceSub, BitVec.extractLsb'_eq_self, BEq.rfl, Bool.and_self, ↓reduceIte, Bool.true_and, BitVec.ofNat_eq_ofNat, BitVec.reduceExtractLsb']

theorem Laws.RoundTrip.ivJf (n : BitVec 16) : Statement (.ivJf n) := by
  have key (w : BitVec 32) (h : w.extractLsb' 0 8 = 0x10#8) : decodeIvloha w =
      (fun d a i => (if d == 0 && a == 0 then some (.ivJf i) else none : Option Instr)) (w.extractLsb' 8 4) (w.extractLsb' 12 4) (w.extractLsb' 16 16) := by
    simp only [decodeIvloha, h]; rfl
  refine fun _ => ⟨nofun, fun w hw => ?_⟩
  cases hw
  refine (key _ BitVec.extractLsb'_append_eq_right).trans ?_
  simp (disch := decide) only [BitVec.extractLsb'_append_eq_of_le, BitVec.extractLsb'_append_eq_of_add_le, Nat.reduceSub, BitVec.extractLsb'_eq_self, BEq.rfl, Bool.and_self, ↓reduceIte, Bool.true_and, BitVec.ofNat_eq_ofNat, BitVec.reduceExtractLsb']

theorem Laws.RoundTrip.ivLoop (a : BitVec 4) (len max : BitVec 8) : Statement (.ivLoop a len max) := by
  have key (w : BitVec 32) (h : w.extractLsb' 0 8 = 0x11#8) : decodeIvloha w =
      (fun d a i => (if d == 0 then some (.ivLoop a (w.extractLsb' 16 8) (w.extractLsb' 24 8)) else none : Option Instr)) (w.extractLsb' 8 4) (w.extractLsb' 12 4) (w.extractLsb' 16 16) := by
    simp only [decodeIvloha, h]; rfl
  refine fun _ => ⟨nofun, fun w hw => ?_⟩
  cases hw
  refine (key _ BitVec.extractLsb'_append_eq_right).trans ?_
  simp (disch := decide) only [BitVec.extractLsb'_append_eq_of_le, BitVec.extractLsb'_append_eq_of_add_le, Nat.reduceSub, BitVec.extractLsb'_eq_self, BEq.rfl, Bool.and_self, ↓reduceIte, Bool.true_and, BitVec.ofNat_eq_ofNat, BitVec.reduceExtractLsb']

theorem Laws.RoundTrip.ivRank (a : BitVec 4) : Statement (.ivRank a) := by
  have key (w : BitVec 32) (h : w.extractLsb' 0 8 = 0x12#8) : decodeIvloha w =
      (fun d a i => (if d == 0 && i == 0 then some (.ivRank a) else none : Option Instr)) (w.extractLsb' 8 4) (w.extractLsb' 12 4) (w.extractLsb' 16 16) := by
    simp only [decodeIvloha, h]; rfl
  refine fun _ => ⟨nofun, fun w hw => ?_⟩
  cases hw
  refine (key _ BitVec.extractLsb'_append_eq_right).trans ?_
  simp (disch := decide) only [BitVec.extractLsb'_append_eq_of_le, BitVec.extractLsb'_append_eq_of_add_le, Nat.reduceSub, BitVec.extractLsb'_eq_self, BEq.rfl, Bool.and_self, ↓reduceIte, Bool.true_and, BitVec.ofNat_eq_ofNat, BitVec.reduceExtractLsb']

theorem Laws.RoundTrip.ivNeed (link cnt : BitVec 8) : Statement (.ivNeed link cnt) := by
  have key (w : BitVec 32) (h : w.extractLsb' 0 8 = 0x13#8) : decodeIvloha w =
      (fun d a i => (if d == 0 && a == 0 then some (.ivNeed (w.extractLsb' 16 8) (w.extractLsb' 24 8)) else none : Option Instr)) (w.extractLsb' 8 4) (w.extractLsb' 12 4) (w.extractLsb' 16 16) := by
    simp only [decodeIvloha, h]; rfl
  refine fun _ => ⟨nofun, fun w hw => ?_⟩
  cases hw
  refine (key _ BitVec.extractLsb'_append_eq_right).trans ?_
  simp (disch := decide) only [BitVec.extractLsb'_append_eq_of_le, BitVec.extractLsb'_append_eq_of_add_le, Nat.reduceSub, BitVec.extractLsb'_eq_self, BEq.rfl, Bool.and_self, ↓reduceIte, Bool.true_and, BitVec.ofNat_eq_ofNat, BitVec.reduceExtractLsb']

theorem Laws.RoundTrip.ivTokadd (link cnt : BitVec 8) : Statement (.ivTokadd link cnt) := by
  have key (w : BitVec 32) (h : w.extractLsb' 0 8 = 0x14#8) : decodeIvloha w =
      (fun d a i => (if d == 0 && a == 0 then some (.ivTokadd (w.extractLsb' 16 8) (w.extractLsb' 24 8)) else none : Option Instr)) (w.extractLsb' 8 4) (w.extractLsb' 12 4) (w.extractLsb' 16 16) := by
    simp only [decodeIvloha, h]; rfl
  refine fun _ => ⟨nofun, fun w hw => ?_⟩
  cases hw
  refine (key _ BitVec.extractLsb'_append_eq_right).trans ?_
  simp (disch := decide) only [BitVec.extractLsb'_append_eq_of_le, BitVec.extractLsb'_append_eq_of_add_le, Nat.reduceSub, BitVec.extractLsb'_eq_self, BEq.rfl, Bool.and_self, ↓reduceIte, Bool.true_and, BitVec.ofNat_eq_ofNat, BitVec.reduceExtractLsb']

theorem Laws.RoundTrip.ivJob (a : BitVec 4) (die : BitVec 3) (ch : BitVec 6) : Statement (.ivJob a die ch) := by
  have h : (0#7 ++ die ++ ch : BitVec 16) &&& 0xFE00#16 = 0#16 := by
    change (0#7 ++ die ++ ch) &&& (0x7F#7 ++ 0#3 ++ 0#6) = 0#16
    rw [BitVec.and_append, BitVec.and_append]; simp only [BitVec.and_zero, BitVec.zero_and, BitVec.reduceAppend]
  have key (w : BitVec 32) (h : w.extractLsb' 0 8 = 0x15#8) : decodeIvloha w =
      (fun d a i => (if d == 0 && i &&& 0xFE00#16 == 0 then some (.ivJob a (w.extractLsb' 22 3) (w.extractLsb' 16 6)) else none : Option Instr)) (w.extractLsb' 8 4) (w.extractLsb' 12 4) (w.extractLsb' 16 16) := by
    simp only [decodeIvloha, h]; rfl
  refine fun _ => ⟨nofun, fun w hw => ?_⟩
  cases hw
  refine (key _ BitVec.extractLsb'_append_eq_right).trans ?_
  simp (disch := decide) only [BitVec.extractLsb'_append_eq_of_le, BitVec.extractLsb'_append_eq_of_add_le, Nat.reduceSub, BitVec.extractLsb'_eq_self, h, BEq.rfl, Bool.and_self, ↓reduceIte, Bool.true_and, BitVec.ofNat_eq_ofNat, BitVec.reduceExtractLsb']

theorem Laws.RoundTrip.ivLaunch (a : BitVec 4) : Statement (.ivLaunch a) := by
  have key (w : BitVec 32) (h : w.extractLsb' 0 8 = 0x16#8) : decodeIvloha w =
      (fun d a i => (if d == 0 && i == 0 then some (.ivLaunch a) else none : Option Instr)) (w.extractLsb' 8 4) (w.extractLsb' 12 4) (w.extractLsb' 16 16) := by
    simp only [decodeIvloha, h]; rfl
  refine fun _ => ⟨nofun, fun w hw => ?_⟩
  cases hw
  refine (key _ BitVec.extractLsb'_append_eq_right).trans ?_
  simp (disch := decide) only [BitVec.extractLsb'_append_eq_of_le, BitVec.extractLsb'_append_eq_of_add_le, Nat.reduceSub, BitVec.extractLsb'_eq_self, BEq.rfl, Bool.and_self, ↓reduceIte, Bool.true_and, BitVec.ofNat_eq_ofNat, BitVec.reduceExtractLsb']

theorem Laws.RoundTrip.ivEvt (a : BitVec 4) : Statement (.ivEvt a) := by
  have key (w : BitVec 32) (h : w.extractLsb' 0 8 = 0x17#8) : decodeIvloha w =
      (fun d a i => (if d == 0 && i == 0 then some (.ivEvt a) else none : Option Instr)) (w.extractLsb' 8 4) (w.extractLsb' 12 4) (w.extractLsb' 16 16) := by
    simp only [decodeIvloha, h]; rfl
  refine fun _ => ⟨nofun, fun w hw => ?_⟩
  cases hw
  refine (key _ BitVec.extractLsb'_append_eq_right).trans ?_
  simp (disch := decide) only [BitVec.extractLsb'_append_eq_of_le, BitVec.extractLsb'_append_eq_of_add_le, Nat.reduceSub, BitVec.extractLsb'_eq_self, BEq.rfl, Bool.and_self, ↓reduceIte, Bool.true_and, BitVec.ofNat_eq_ofNat, BitVec.reduceExtractLsb']

theorem Laws.RoundTrip.contextCreate (desc : List Word) : Statement (.contextCreate desc) := fun _ => ⟨nofun, nofun⟩

theorem Laws.RoundTrip.contextTableInstall (ctx : Nat) : Statement (.contextTableInstall ctx) := fun _ => ⟨nofun, nofun⟩

theorem Laws.RoundTrip.contextDestroy (ctx : Nat) : Statement (.contextDestroy ctx) := fun _ => ⟨nofun, nofun⟩

theorem Laws.RoundTrip.faultAcknowledge (ctx : Nat) : Statement (.faultAcknowledge ctx) := fun _ => ⟨nofun, nofun⟩

theorem Laws.RoundTrip.restore (ctx die0 : Nat) : Statement (.restore ctx die0) := fun _ => ⟨nofun, nofun⟩

theorem Laws.RoundTrip.gangEntryFlit (ctx rank : Nat) : Statement (.gangEntryFlit ctx rank) := fun _ => ⟨nofun, nofun⟩

theorem Laws.RoundTrip.gangAbortFlit (ctx : Nat) : Statement (.gangAbortFlit ctx) := fun _ => ⟨nofun, nofun⟩

theorem Laws.RoundTrip.linkFlitEnqueue (link ch : Nat) (payload : BitVec 1024) : Statement (.linkFlitEnqueue link ch payload) := fun _ => ⟨nofun, nofun⟩

theorem Laws.RoundTrip.flitReplay (link : Nat) : Statement (.flitReplay link) := fun _ => ⟨nofun, nofun⟩

theorem Laws.RoundTrip.creditReturn (link n : Nat) : Statement (.creditReturn link n) := fun _ => ⟨nofun, nofun⟩

theorem Laws.RoundTrip.linkDown (link : Nat) : Statement (.linkDown link) := fun _ => ⟨nofun, nofun⟩

theorem Laws.RoundTrip.linkBeacon (time : Nat) : Statement (.linkBeacon time) := fun _ => ⟨nofun, nofun⟩

theorem Laws.RoundTrip.collectiveNodeValue (die node : Nat) (value : List Word) (flags : BitVec 6) : Statement (.collectiveNodeValue die node value flags) := fun _ => ⟨nofun, nofun⟩

theorem Laws.RoundTrip.hostMemRead (o : Nat) : Statement (.hostMemRead o) := fun _ => ⟨nofun, nofun⟩

theorem Laws.RoundTrip.hostMemWrite (o : Nat) (line : BitVec 512) : Statement (.hostMemWrite o line) := fun _ => ⟨nofun, nofun⟩

theorem Laws.RoundTrip.hostApertureStart (o width : Nat) (data : Word) : Statement (.hostApertureStart o width data) := fun _ => ⟨nofun, nofun⟩

theorem Laws.RoundTrip.hostSnoop (addr : Nat) : Statement (.hostSnoop addr) := fun _ => ⟨nofun, nofun⟩

theorem Laws.RoundTrip.systemMeasurementExtend (i : Nat) (digest : BitVec 256) : Statement (.systemMeasurementExtend i digest) := fun _ => ⟨nofun, nofun⟩

theorem Laws.RoundTrip.queueServiceWrite (w : QueueWrite) : Statement (.queueServiceWrite w) := fun _ => ⟨nofun, nofun⟩

theorem Laws.RoundTrip.linkTraining (link worst : Nat) : Statement (.linkTraining link worst) := fun _ => ⟨nofun, nofun⟩

theorem Laws.RoundTrip.powerOn : Statement (.powerOn) := fun _ => ⟨nofun, nofun⟩

theorem Laws.RoundTrip.layerLimitExceeded : Statement (.layerLimitExceeded) := fun _ => ⟨nofun, nofun⟩

theorem Laws.RoundTrip.packagePowerRemoval : Statement (.packagePowerRemoval) := fun _ => ⟨nofun, nofun⟩

theorem Laws.RoundTrip.variantWaitTimeout : Statement (.variantWaitTimeout) := fun _ => ⟨nofun, nofun⟩

theorem Laws.RoundTrip.bundleIssue : Statement (.bundleIssue) := fun _ => ⟨nofun, nofun⟩

theorem Laws.RoundTrip.handlerBundleIssue : Statement (.handlerBundleIssue) := fun _ => ⟨nofun, nofun⟩

theorem Laws.RoundTrip.resultLanding : Statement (.resultLanding) := fun _ => ⟨nofun, nofun⟩

theorem Laws.RoundTrip.formatWriteEffect : Statement (.formatWriteEffect) := fun _ => ⟨nofun, nofun⟩

theorem Laws.RoundTrip.stopHorizon : Statement (.stopHorizon) := fun _ => ⟨nofun, nofun⟩

theorem Laws.RoundTrip.partitionRelease : Statement (.partitionRelease) := fun _ => ⟨nofun, nofun⟩

theorem Laws.RoundTrip.deferredTrap : Statement (.deferredTrap) := fun _ => ⟨nofun, nofun⟩

theorem Laws.RoundTrip.tileHalted : Statement (.tileHalted) := fun _ => ⟨nofun, nofun⟩

theorem Laws.RoundTrip.holdRelease : Statement (.holdRelease) := fun _ => ⟨nofun, nofun⟩

theorem Laws.RoundTrip.nop : Statement (.nop) := fun _ => ⟨fun f hf => ⟨.c, by cases hf; rfl⟩, nofun⟩

theorem Laws.RoundTrip.eret : Statement (.eret) := fun _ => ⟨fun f hf => ⟨.c, by cases hf; rfl⟩, nofun⟩

theorem Laws.RoundTrip.eretSkip : Statement (.eretSkip) := fun _ => ⟨fun f hf => ⟨.c, by cases hf; rfl⟩, nofun⟩

theorem Laws.RoundTrip.yield : Statement (.yield) := by
  refine fun _ => ⟨fun f hf => ⟨.c, ?_⟩, nofun⟩
  cases hf
  have key (op sub d a b c ib kx rm mt imm k) (h : op = 0xA6#8) : decodePart .c ⟨op, sub, d, a, b, c, ib, kx, rm, mt, imm, k⟩ =
      (fun f : Frame => (if f.fits {} then some .yield else none : Option Instr)) ⟨op, sub, d, a, b, c, ib, kx, rm, mt, imm, k⟩ := by cases h; rfl
  refine (key _ _ _ _ _ _ _ _ _ _ _ _ rfl).trans ?_
  simp (disch := decide) only [Frame.fits, ↓reduceIte, BEq.rfl, Bool.or_true, Bool.true_or, Bool.not_false, Bool.and_true, Bool.true_and, Bool.false_eq_true, BitVec.ofNat_eq_ofNat]

theorem Laws.RoundTrip.halt : Statement (.halt) := by
  refine fun _ => ⟨fun f hf => ⟨.c, ?_⟩, nofun⟩
  cases hf
  have key (op sub d a b c ib kx rm mt imm k) (h : op = 0xA8#8) : decodePart .c ⟨op, sub, d, a, b, c, ib, kx, rm, mt, imm, k⟩ =
      (fun f : Frame => (if f.fits {} then some .halt else none : Option Instr)) ⟨op, sub, d, a, b, c, ib, kx, rm, mt, imm, k⟩ := by cases h; rfl
  refine (key _ _ _ _ _ _ _ _ _ _ _ _ rfl).trans ?_
  simp (disch := decide) only [Frame.fits, ↓reduceIte, BEq.rfl, Bool.or_true, Bool.true_or, Bool.not_false, Bool.and_true, Bool.true_and, Bool.false_eq_true, BitVec.ofNat_eq_ofNat]

theorem Laws.RoundTrip.minv : Statement (.minv) := by
  refine fun _ => ⟨fun f hf => ⟨.v, ?_⟩, nofun⟩
  cases hf
  have key (op sub d a b c ib kx rm mt imm k) (h : op = 0x61#8) : decodePart .v ⟨op, sub, d, a, b, c, ib, kx, rm, mt, imm, k⟩ =
      (fun f : Frame => (if f.fits {} then some .minv else none : Option Instr)) ⟨op, sub, d, a, b, c, ib, kx, rm, mt, imm, k⟩ := by cases h; rfl
  refine (key _ _ _ _ _ _ _ _ _ _ _ _ rfl).trans ?_
  simp (disch := decide) only [Frame.fits, ↓reduceIte, BEq.rfl, Bool.or_true, Bool.true_or, Bool.not_false, Bool.and_true, Bool.true_and, Bool.false_eq_true, BitVec.ofNat_eq_ofNat]

theorem Laws.RoundTrip.mpop : Statement (.mpop) := by
  refine fun _ => ⟨fun f hf => ⟨.v, ?_⟩, nofun⟩
  cases hf
  have key (op sub d a b c ib kx rm mt imm k) (h : op = 0x62#8) : decodePart .v ⟨op, sub, d, a, b, c, ib, kx, rm, mt, imm, k⟩ =
      (fun f : Frame => (if f.fits {} then some .mpop else none : Option Instr)) ⟨op, sub, d, a, b, c, ib, kx, rm, mt, imm, k⟩ := by cases h; rfl
  refine (key _ _ _ _ _ _ _ _ _ _ _ _ rfl).trans ?_
  simp (disch := decide) only [Frame.fits, ↓reduceIte, BEq.rfl, Bool.or_true, Bool.true_or, Bool.not_false, Bool.and_true, Bool.true_and, Bool.false_eq_true, BitVec.ofNat_eq_ofNat]

theorem Laws.RoundTrip.prea : Statement (.prea) := by
  refine fun _ => ⟨fun f hf => ⟨.d, ?_⟩, nofun⟩
  cases hf
  have key (op sub d a b c ib kx rm mt imm k) (h : op = 0x07#8) : decodePart .d ⟨op, sub, d, a, b, c, ib, kx, rm, mt, imm, k⟩ =
      (fun f : Frame => (if f.fits {} then some .prea else none : Option Instr)) ⟨op, sub, d, a, b, c, ib, kx, rm, mt, imm, k⟩ := by cases h; rfl
  refine (key _ _ _ _ _ _ _ _ _ _ _ _ rfl).trans ?_
  simp (disch := decide) only [Frame.fits, ↓reduceIte, BEq.rfl, Bool.or_true, Bool.true_or, Bool.not_false, Bool.and_true, Bool.true_and, Bool.false_eq_true, BitVec.ofNat_eq_ofNat]

theorem Laws.RoundTrip.lqEntryDiscard : Statement (.lqEntryDiscard) := fun _ => ⟨nofun, nofun⟩

theorem Laws.RoundTrip.lqFlagsWrite : Statement (.lqFlagsWrite) := fun _ => ⟨nofun, nofun⟩

theorem Laws.RoundTrip.lqvWrite : Statement (.lqvWrite) := fun _ => ⟨nofun, nofun⟩

theorem Laws.RoundTrip.vwdatWrite : Statement (.vwdatWrite) := fun _ => ⟨nofun, nofun⟩

theorem Laws.RoundTrip.mwdatWrite : Statement (.mwdatWrite) := fun _ => ⟨nofun, nofun⟩

theorem Laws.RoundTrip.vlcntWrite : Statement (.vlcntWrite) := fun _ => ⟨nofun, nofun⟩

theorem Laws.RoundTrip.vinjParityInject : Statement (.vinjParityInject) := fun _ => ⟨nofun, nofun⟩

theorem Laws.RoundTrip.vinjStuckLane : Statement (.vinjStuckLane) := fun _ => ⟨nofun, nofun⟩

theorem Laws.RoundTrip.pccClear : Statement (.pccClear) := fun _ => ⟨nofun, nofun⟩

theorem Laws.RoundTrip.pccReprogram : Statement (.pccReprogram) := fun _ => ⟨nofun, nofun⟩

theorem Laws.RoundTrip.pccOvfClear : Statement (.pccOvfClear) := fun _ => ⟨nofun, nofun⟩

theorem Laws.RoundTrip.counterOverflow : Statement (.counterOverflow) := fun _ => ⟨nofun, nofun⟩

theorem Laws.RoundTrip.bankActivationComplete : Statement (.bankActivationComplete) := fun _ => ⟨nofun, nofun⟩

theorem Laws.RoundTrip.autoPrecharge : Statement (.autoPrecharge) := fun _ => ⟨nofun, nofun⟩

theorem Laws.RoundTrip.prechargeComplete : Statement (.prechargeComplete) := fun _ => ⟨nofun, nofun⟩

theorem Laws.RoundTrip.refreshComplete : Statement (.refreshComplete) := fun _ => ⟨nofun, nofun⟩

theorem Laws.RoundTrip.trainingWindowStart : Statement (.trainingWindowStart) := fun _ => ⟨nofun, nofun⟩

theorem Laws.RoundTrip.trainingWindowEnd : Statement (.trainingWindowEnd) := fun _ => ⟨nofun, nofun⟩

theorem Laws.RoundTrip.lendEnd : Statement (.lendEnd) := fun _ => ⟨nofun, nofun⟩

theorem Laws.RoundTrip.refreshOverdue : Statement (.refreshOverdue) := fun _ => ⟨nofun, nofun⟩

theorem Laws.RoundTrip.vaultReadTransfer : Statement (.vaultReadTransfer) := fun _ => ⟨nofun, nofun⟩

theorem Laws.RoundTrip.vaultWriteTransfer : Statement (.vaultWriteTransfer) := fun _ => ⟨nofun, nofun⟩

theorem Laws.RoundTrip.busRetry : Statement (.busRetry) := fun _ => ⟨nofun, nofun⟩

theorem Laws.RoundTrip.laneSwap : Statement (.laneSwap) := fun _ => ⟨nofun, nofun⟩

theorem Laws.RoundTrip.selfRefreshEntry : Statement (.selfRefreshEntry) := fun _ => ⟨nofun, nofun⟩

theorem Laws.RoundTrip.retrainingDue : Statement (.retrainingDue) := fun _ => ⟨nofun, nofun⟩

theorem Laws.RoundTrip.forcedRetraining : Statement (.forcedRetraining) := fun _ => ⟨nofun, nofun⟩

theorem Laws.RoundTrip.segmentCopyComplete : Statement (.segmentCopyComplete) := fun _ => ⟨nofun, nofun⟩

theorem Laws.RoundTrip.recordLoadComplete : Statement (.recordLoadComplete) := fun _ => ⟨nofun, nofun⟩

theorem Laws.RoundTrip.meshFlitInject : Statement (.meshFlitInject) := fun _ => ⟨nofun, nofun⟩

theorem Laws.RoundTrip.meshFlitHop : Statement (.meshFlitHop) := fun _ => ⟨nofun, nofun⟩

theorem Laws.RoundTrip.meshFlitArrival : Statement (.meshFlitArrival) := fun _ => ⟨nofun, nofun⟩

theorem Laws.RoundTrip.cisternRequestApply : Statement (.cisternRequestApply) := fun _ => ⟨nofun, nofun⟩

theorem Laws.RoundTrip.weirByteDecrement : Statement (.weirByteDecrement) := fun _ => ⟨nofun, nofun⟩

theorem Laws.RoundTrip.eventLatchSet : Statement (.eventLatchSet) := fun _ => ⟨nofun, nofun⟩

theorem Laws.RoundTrip.packetFetch : Statement (.packetFetch) := fun _ => ⟨nofun, nofun⟩

theorem Laws.RoundTrip.packetDispatch : Statement (.packetDispatch) := fun _ => ⟨nofun, nofun⟩

theorem Laws.RoundTrip.ivDone : Statement (.ivDone) := fun _ => ⟨nofun, fun w hw => by cases hw; rfl⟩

theorem Laws.RoundTrip.ivDrop : Statement (.ivDrop) := fun _ => ⟨nofun, fun w hw => by cases hw; rfl⟩

theorem Laws.RoundTrip.sluiceStartArrival : Statement (.sluiceStartArrival) := fun _ => ⟨nofun, nofun⟩

theorem Laws.RoundTrip.jobApply : Statement (.jobApply) := fun _ => ⟨nofun, nofun⟩

theorem Laws.RoundTrip.jobUnit : Statement (.jobUnit) := fun _ => ⟨nofun, nofun⟩

theorem Laws.RoundTrip.jobCompletionRecord : Statement (.jobCompletionRecord) := fun _ => ⟨nofun, nofun⟩

theorem Laws.RoundTrip.kernelLoad : Statement (.kernelLoad) := fun _ => ⟨nofun, nofun⟩

theorem Laws.RoundTrip.kernelBind : Statement (.kernelBind) := fun _ => ⟨nofun, nofun⟩

theorem Laws.RoundTrip.timetableStart : Statement (.timetableStart) := fun _ => ⟨nofun, nofun⟩

theorem Laws.RoundTrip.replanSwitch : Statement (.replanSwitch) := fun _ => ⟨nofun, nofun⟩

theorem Laws.RoundTrip.hostServiceTimeout : Statement (.hostServiceTimeout) := fun _ => ⟨nofun, nofun⟩

theorem Laws.RoundTrip.kernelComplete : Statement (.kernelComplete) := fun _ => ⟨nofun, nofun⟩

theorem Laws.RoundTrip.contextWipeComplete : Statement (.contextWipeComplete) := fun _ => ⟨nofun, nofun⟩

theorem Laws.RoundTrip.yieldStop : Statement (.yieldStop) := fun _ => ⟨nofun, nofun⟩

theorem Laws.RoundTrip.contextSaveComplete : Statement (.contextSaveComplete) := fun _ => ⟨nofun, nofun⟩

theorem Laws.RoundTrip.gangSliceAbort : Statement (.gangSliceAbort) := fun _ => ⟨nofun, nofun⟩

theorem Laws.RoundTrip.linkReceiveTimeout : Statement (.linkReceiveTimeout) := fun _ => ⟨nofun, nofun⟩

theorem Laws.RoundTrip.linkFlitAccept : Statement (.linkFlitAccept) := fun _ => ⟨nofun, nofun⟩

theorem Laws.RoundTrip.collectiveStart : Statement (.collectiveStart) := fun _ => ⟨nofun, nofun⟩

theorem Laws.RoundTrip.collectiveComplete : Statement (.collectiveComplete) := fun _ => ⟨nofun, nofun⟩

theorem Laws.RoundTrip.sliceStartTimeReached : Statement (.sliceStartTimeReached) := fun _ => ⟨nofun, nofun⟩

end Sys2Proof
end

