-- ==== Sys2Proof/Tests/Slice0.lean ====
section
/-!
SUPPORT. Tests/Slice0.lean: terms that the checks refuse, words from the spec's encodings, its worked cases, and for every statement with hypotheses a state and operands that meet them.
-/

namespace Sys2Proof.Tests

open Sys2Proof.Machine Sys2Proof.Claims

set_option Elab.async false

/-! ## Ill-formed terms, one for each check -/

/-- Fields, loops, atomics, records and system registers out of their limits (R101, R104, R105, R112, R217 to R220, R272). -/
theorem test_wf_scalar : [Instr.sext 1 2 0, .sext 1 2 65, .zext 1 2 0, .zext 1 2 65, .bfx 1 2 0 0 false, .bfx 1 2 0 65 false, .bfx 1 2 60 5 false, .bfi 1 2 3 0 0,
    .bfi 1 2 3 63 2, .lbrk 1 true, .amoCas .rlx 1 2 3 4 true, .amoCas .rel 1 2 3 4 true, .objpin 16 1, .objunp 16, .objq 1 16 0, .objq 1 2 19,
    .objchk 1 16 2 0, .objchk 1 2 3 3, .mfs 1 0x006, .mts 1 0x001].all (fun i => !i.wf) = true := by decide

/-- Floating formats and registers out of their limits (R132, R139 to R144). -/
theorem test_wf_vector_float : [Instr.vfadd .e4m3 .fcsr false 1 2 (.reg 3), .vfadd .f32 .fcsr false 32 2 (.reg 3), .vfsub .f64 .fcsr false 2 2 (.reg 5),
    .vfmul .f32 .fcsr false 1 2 (.reg 32), .vfma .f64 .fcsr false 2 4 (.reg 6) 7, .vfms .f32 .fcsr false 2 4 (.reg 6) 32, .vfnma .i32 .fcsr false 2 4 (.reg 6) 8,
    .vfdiv .bf16 .fcsr false 2 4 (.reg 6), .vfsqrt .f16 .fcsr false 2 4, .vfmin .e8m0 false 2 4 (.reg 6), .vfmax .f64 false 2 5 (.reg 6), .vfabs .e5m2 false 1 2,
    .vfneg .f32 false 1 32, .vfcmp .bf16 .lt false 1 2 (.reg 3), .vfcmp .f32 .lt false 8 2 (.reg 3), .vfcvt .f64 .f32 .fcsr false 1 2 0 false,
    .vfcvt .f32 .bf16 .fcsr false 1 2 3 false, .vfcvt .bf16 .f32 .fcsr false 1 2 3 true, .vfrnd .i32 .fcsr false 1 2, .vscalb .f32 .fcsr false 1 2 (.reg 32),
    .vexp2 false 32 1, .vlog2 false 1 32, .vrcp false 32 1, .vrsq false 1 32].all (fun i => !i.wf) = true := by decide

/-- Integer lanes, permutes, sums, masks and moves out of their limits (R133, R135, R145 to R154). -/
theorem test_wf_vector : [Instr.vadd false 32 1 (.reg 1), .vmulh true false 1 32 (.reg 1), .vmad false 1 1 (.reg 1) 32, .vcmp .eq false 8 1 (.reg 1), .vsel false 1 1 (.reg 1) 8,
    .vabs false 1 32, .vclmulLo false 1 1 32, .vperm false 1 32 1, .vshuf false 1 1 1 32, .vbcast false 32 1 0, .vredadd .f16 false 1 1, .vredmax .u32 false 32 1,
    .vscan .i32 false 1 32, .vtopk false 1 1 1 4, .vtopk false 2 1 1 0, .vtopk false 2 1 1 65, .mpush 8, .mand 8 1 1, .mnot 1 8, .mcnt 1 8 false, .mcnt 1 1 true,
    .vmov false 1 2 true, .vmovs .pair false 1 1, .vext 1 3 0 false true, .vext 1 2 0 true true, .vld false 32 1 0 false false 0, .vld false 2 1 3 true false 0,
    .vld false 3 1 3 false true 0, .vst false 1 3 3 true 0, .vgath false 2 1 2 0 false false 0, .vscat false 1 2 3 0 false 0].all (fun i => !i.wf) = true := by decide

/-- The matrix engine's and the format table's limits (R93, R94, R226 to R243). -/
theorem test_wf_matrix : [Instr.mma 4 1 1 0, .mmaZ 1 4 1 0, .mmaN 1 1 4 0, .accz 4, .accret 4 1, .accretAmax 32 1 1, .accretApply 1 1 32, .accretDerive 1 4 1, .accrd 32 1 0,
    .accwr 1 32 0 false, .accwait 4, .accst 4 1, .opld 8 1 0 0 none, .opld 1 1 2 2 none, .opld 1 1 0 0 (some 32), .opst 1 8 0 0, .opclr 8, .screl 8, .scld 32 1 0 false,
    .scst 1 32 0, .scmov 1 32 false, .scmul 1 1 32 false, .scq 1 1 .f32 false, .scset 32 0 false, .scbind 8 1, .scgen 1 3 false, .fmt 17 (.reg 1), .ftsel 7 0].all
    (fun i => !i.wf) = true := by decide

/-- The limits of vault commands, sends, job control blocks and Ivloha ops (R168 to R174, R229, R230, R262, R294, R358, R359). -/
theorem test_wf_memory : [Instr.act 16 1, .rd 16 1 1 0 0, .rda 1 1 1 35 1, .wr 1 1 1 36 0, .rdraw 1 0 36 0, .rdop 8 1 1 0 0 0 none, .rdop 1 1 1 31 1 0 none,
    .rdsc 1 16 1 1, .msendv 32 1 1, .lsend 1 1 63 false, .lsend 1 0 63 true, .lrecv 1 0 63 false, .jcbraise 1 4 (.reg 1), .jcbpost 1 4 (.reg 1),
    .ivBeq 1 1 0, .ivBltu 1 1 1024, .ivLoop 1 0 1, .ivLoop 1 1 65, .ivNeed 1 0].all (fun i => !i.wf) = true := by decide

/-! ## Words written out from the spec's encodings (R45 to R55, R294) -/

/-- The words that the spec itself works out (R42, R45, R59, R139, R153, R168, R241, R260, R277, R303, R357). -/
theorem test_words_worked : ([(.c, 0x0100C10800000000, .add 3 1 (.reg 2)), (.v, 0x0111010800400000, .vfadd .f32 .fcsr true 4 1 (.reg 2)), (.v, 0x0411010830800000, .vfma .f32 .rne false 4 1 (.reg 2) 3),
    (.m, 0x020080040000000F, .mmaZ 2 0 1 15), (.d, 0x0600000000000616, .pre 22 12), (.d, 0x0B10000000000000, .vfence .vis), (.x, 0x20018200000C0100, .vld false 6 2 3 false false 256),
    (.c, 0x6411420C40000001, .amoCas .acq 5 2 3 4 true), (.x, 0x4001400000000047, .warr 5 7 1), (.x, 0x4102402000019047, .wwait 9 8 7 1 200), (.x, 0x5001410008000003, .jcbraise 5 1 (.imm (.short 3))),
    (.x, 0x52024800000000C8, .jcbwait 9 8 200), (.x, 0x3001020C00000000, .apst 4 2 (.reg 3)), (.x, 0x1000020000000301, .lsend 2 1 3 false), (.x, 0x1100040000004301, .lrecv 4 1 3 true),
    (.c, 0, .nop), (.c, 0xF300000000000000, .hint 3)] : List (Part × BitVec 64 × Instr)).all (fun x => decodeSlot x.1 x.2.1 0 == some x.2.2) = true := by decide +kernel

/-- One word or more of each instruction: scalar arithmetic. -/
theorem test_words_scalar : ([
    (.c, 0x010FC1A800200000, 0, .add 63 1 (.reg 42)), (.c, 0x0200FE00080FFFFE, 0, .sub 3 62 (.imm (.short 0xFFFFE))), (.c, 0x030FC1A800200000, 0, .mul 63 1 (.reg 42)), (.c, 0x0400FE00080FFFFE, 0, .mulh 3 62 (.imm (.short 0xFFFFE))),
    (.c, 0x050FC1A800200000, 0, .mulhu 63 1 (.reg 42)), (.c, 0x0600FE00080FFFFE, 0, .div 3 62 (.imm (.short 0xFFFFE))), (.c, 0x070FC1A800200000, 0, .divu 63 1 (.reg 42)), (.c, 0x0800FE00080FFFFE, 0, .rem 3 62 (.imm (.short 0xFFFFE))),
    (.c, 0x090FC1A800200000, 0, .remu 63 1 (.reg 42)), (.c, 0x0A00FE00080FFFFE, 0, .and 3 62 (.imm (.short 0xFFFFE))), (.c, 0x0B0FC1A800200000, 0, .or 63 1 (.reg 42)), (.c, 0x0C00FE00080FFFFE, 0, .xor 3 62 (.imm (.short 0xFFFFE))),
    (.c, 0x0D0FC1A800200000, 0, .andn 63 1 (.reg 42)), (.c, 0x0E00FE00080FFFFE, 0, .shl 3 62 (.imm (.short 0xFFFFE))), (.c, 0x0F0FC1A800200000, 0, .shr 63 1 (.reg 42)), (.c, 0x1000FE00080FFFFE, 0, .sar 3 62 (.imm (.short 0xFFFFE))),
    (.c, 0x110FC1A800200000, 0, .rot 63 1 (.reg 42)), (.c, 0x1500FE00080FFFFE, 0, .min 3 62 (.imm (.short 0xFFFFE))), (.c, 0x160FC1A800200000, 0, .max 63 1 (.reg 42)), (.c, 0x1700FE00080FFFFE, 0, .minu 3 62 (.imm (.short 0xFFFFE))),
    (.c, 0x180FC1A800200000, 0, .maxu 63 1 (.reg 42)), (.c, 0x12087E0000000000, 0, .clz 33 62), (.c, 0x13087E0000000000, 0, .ctz 33 62), (.c, 0x14087E0000000000, 0, .popc 33 62),
    (.c, 0x1900420FC0000000, 0, .sel 1 2 (.reg 3) 60), (.c, 0x1A00420C00000000, 0, .cmp .eq 1 2 (.reg 3)), (.c, 0x1A10420C00000000, 0, .cmp .ne 1 2 (.reg 3)), (.c, 0x1A20420C00000000, 0, .cmp .lt 1 2 (.reg 3)),
    (.c, 0x1A30420C00000000, 0, .cmp .ge 1 2 (.reg 3)), (.c, 0x1A40420C00000000, 0, .cmp .ltu 1 2 (.reg 3)), (.c, 0x1A50420C00000000, 0, .cmp .geu 1 2 (.reg 3)), (.c, 0x1A60420C00000000, 0, .cmp .gt 1 2 (.reg 3)),
    (.c, 0x1A70420C00000000, 0, .cmp .le 1 2 (.reg 3)), (.c, 0x1A80420C00000000, 0, .cmp .gtu 1 2 (.reg 3)), (.c, 0x1A90420C00000000, 0, .cmp .leu 1 2 (.reg 3)), (.c, 0x1B01400004076543, 0xfedcba98, .movi 5 (.long 0xFEDCBA9876543)),
    (.c, 0x1C00420000000040, 0, .sext 1 2 64), (.c, 0x1D00420000000001, 0, .zext 1 2 1), (.c, 0x1E01010000002204, 0, .bfx 4 1 4 8 true), (.c, 0x1F0181080000013C, 0, .bfi 6 1 2 60 4),
    (.c, 0x2000420C0000003F, 0, .idx 1 2 3 63), (.c, 0x2100420048000007, 0, .madd 1 2 (.imm (.short 7)) 4)] :
    List (Part × BitVec 64 × BitVec 32 × Instr)).all (fun x => decodeSlot x.1 x.2.1 x.2.2.1 == some x.2.2.2) = true := by decide +kernel

/-- One word or more of each instruction: control transfers, staging access, atomics, objects and system instructions. -/
theorem test_words_control : ([
    (.c, 0x40900108000FFFFA, 0, .br .leu 1 2 0xFFFFA), (.c, 0x41000000040000FF, 0x12345, .j (.long 0x12345000FF)), (.c, 0x420FC00000000009, 0, .call 63 (.short 9)), (.c, 0x43003F0000000000, 0, .ret 63),
    (.c, 0x44000000000FFFFF, 0, .brme 0xFFFFF), (.c, 0x450009000007ABCD, 0, .loop 9 0xABCD 7), (.c, 0x4600090000000000, 0, .lbrk 9 false), (.c, 0x4600000000000001, 0, .lbrk 0 true),
    (.c, 0x60004200000FFFFF, 0, .ld 1 2 3 true 0x1FFFF), (.c, 0x6100020C00050000, 0, .st 2 3 1 0x10000), (.c, 0x6200020C000C0008, 0, .stIo 2 3 8), (.c, 0x6300000000000000, 0, .fence .tile),
    (.c, 0x6310000000000000, 0, .fence .cluster), (.c, 0x6320000000000000, 0, .fence .die), (.c, 0x6330000000000000, 0, .fence .pkg), (.c, 0x6340000000000000, 0, .fence .sys),
    (.c, 0x6411420C40000001, 0, .amoCas .acq 5 2 3 4 true), (.c, 0x6501420C00000000, 0, .amoAdd .rlx 5 2 (.reg 3)), (.c, 0x6621420C00000000, 0, .amoSwp .rel 5 2 (.reg 3)), (.c, 0x6731420C00000000, 0, .amoMin .ar 5 2 (.reg 3)),
    (.c, 0x6841420C00000000, 0, .amoMax .sc 5 2 (.reg 3)), (.c, 0x6911420C00000000, 0, .amoAnd .acq 5 2 (.reg 3)), (.c, 0x6A01420C00000000, 0, .amoOr .rlx 5 2 (.reg 3)), (.c, 0x8003FF0000000000, 0, .objpin 15 63),
    (.c, 0x8103C00000000000, 0, .objunp 15), (.c, 0x820FCF0000000012, 0, .objq 63 15 18), (.c, 0x83004FFC00000002, 0, .objchk 1 15 63 2), (.c, 0xA00000000000FFFF, 0, .trap 0xFFFF),
    (.c, 0xA100000000000000, 0, .eret), (.c, 0xA100000000000001, 0, .eretSkip), (.c, 0xA200400000000148, 0, .mfs 1 0x148), (.c, 0xA300010000000120, 0, .mts 1 0x120),
    (.c, 0xA40FC00000000000, 0, .wfe 63), (.c, 0xA5003F0000000000, 0, .sev 63), (.c, 0xA600000000000000, 0, .yield), (.c, 0xA70003000000BEEF, 0, .mark 3 0xBEEF),
    (.c, 0xA800000000000000, 0, .halt)] :
    List (Part × BitVec 64 × BitVec 32 × Instr)).all (fun x => decodeSlot x.1 x.2.1 x.2.2.1 == some x.2.2.2) = true := by decide +kernel

/-- One word or more of each instruction: vector floating point. -/
theorem test_words_float : ([
    (.v, 0x0111010800400000, 0, .vfadd .f32 .fcsr true 4 1 (.reg 2)), (.v, 0x0211010800C00000, 0, .vfsub .f32 .rne true 4 1 (.reg 2)), (.v, 0x0311010801400000, 0, .vfmul .f32 .rtz true 4 1 (.reg 2)), (.v, 0x0711010801C00000, 0, .vfdiv .f32 .rup true 4 1 (.reg 2)),
    (.v, 0x0411010830800000, 0, .vfma .f32 .rne false 4 1 (.reg 2) 3), (.v, 0x0500841882400000, 0, .vfms .f64 .rdn true 2 4 (.reg 6) 8), (.v, 0x06110101FA800009, 0, .vfnma .f32 .rna false 4 1 (.imm (.short 9)) 31), (.v, 0x0800840001400000, 0, .vfsqrt .f64 .rtz true 2 4),
    (.v, 0x0900841800400000, 0, .vfmin .f64 true 2 4 (.reg 6)), (.v, 0x0A00841800400000, 0, .vfmax .f64 true 2 4 (.reg 6)), (.v, 0x0B17DE0000000000, 0, .vfabs .f32 false 31 30), (.v, 0x0C17DE0000000000, 0, .vfneg .f32 false 31 30),
    (.v, 0x0D11C20C00400000, 0, .vfcmp .f32 .eq true 7 2 (.reg 3)), (.v, 0x0D11C20C00400001, 0, .vfcmp .f32 .ne true 7 2 (.reg 3)), (.v, 0x0D11C20C00400002, 0, .vfcmp .f32 .lt true 7 2 (.reg 3)), (.v, 0x0D11C20C00400003, 0, .vfcmp .f32 .le true 7 2 (.reg 3)),
    (.v, 0x0D11C20C00400004, 0, .vfcmp .f32 .gt true 7 2 (.reg 3)), (.v, 0x0D11C20C00400005, 0, .vfcmp .f32 .ge true 7 2 (.reg 3)), (.v, 0x0D11C20C00400006, 0, .vfcmp .f32 .un true 7 2 (.reg 3)), (.v, 0x0D11C20C00400007, 0, .vfcmp .f32 .or true 7 2 (.reg 3)),
    (.v, 0x0D11C20058000009, 0, .vfcmp .f32 .ge false 7 2 (.imm (.short 9))), (.v, 0x0E40420001000012, 0, .vfcvt .e4m3 .bf16 .rtz false 1 2 0 true), (.v, 0x0F10420001C00000, 0, .vfrnd .f32 .rup true 1 2), (.v, 0x1010420C00000000, 0, .vscalb .f32 .fcsr false 1 2 (.reg 3)),
    (.v, 0x11105F0000400000, 0, .vexp2 true 1 31), (.v, 0x12105F0000400000, 0, .vlog2 true 1 31), (.v, 0x13105F0000400000, 0, .vrcp true 1 31), (.v, 0x14105F0000400000, 0, .vrsq true 1 31)] :
    List (Part × BitVec 64 × BitVec 32 × Instr)).all (fun x => decodeSlot x.1 x.2.1 x.2.2.1 == some x.2.2.2) = true := by decide +kernel

/-- One word or more of each instruction: integer lanes, permutes, reductions, masks and moves. -/
theorem test_words_lane : ([
    (.v, 0x2007C15800400000, 0, .vadd true 31 1 (.reg 22)), (.v, 0x2100DE00080FFFFE, 0, .vsub false 3 30 (.imm (.short 0xFFFFE))), (.v, 0x2207C15800400000, 0, .vmul true 31 1 (.reg 22)), (.v, 0x2500DE00080FFFFE, 0, .vand false 3 30 (.imm (.short 0xFFFFE))),
    (.v, 0x2607C15800400000, 0, .vor true 31 1 (.reg 22)), (.v, 0x2700DE00080FFFFE, 0, .vxor false 3 30 (.imm (.short 0xFFFFE))), (.v, 0x2807C15800400000, 0, .vshl true 31 1 (.reg 22)), (.v, 0x2900DE00080FFFFE, 0, .vshr false 3 30 (.imm (.short 0xFFFFE))),
    (.v, 0x2A07C15800400000, 0, .vsar true 31 1 (.reg 22)), (.v, 0x2307C15810400000, 0, .vmulh true true 31 1 (.reg 22)), (.v, 0x2B07C15800400000, 0, .vmin false true 31 1 (.reg 22)), (.v, 0x2C07C15810400000, 0, .vmax true true 31 1 (.reg 22)),
    (.v, 0x2400420DF0400000, 0, .vmad true 1 2 (.reg 3) 31), (.v, 0x2D81C10800400000, 0, .vcmp .gtu true 7 1 (.reg 2)), (.v, 0x2E00420C70000000, 0, .vsel false 1 2 (.reg 3) 7), (.v, 0x2F00420000400000, 0, .vabs true 1 2),
    (.v, 0x3000420000400000, 0, .vclz true 1 2), (.v, 0x3100420000400000, 0, .vpopc true 1 2), (.v, 0x3200420C00400000, 0, .vclmulLo true 1 2 3), (.v, 0x3300420C00000000, 0, .vclmulHi false 1 2 3),
    (.v, 0x4000420C00400000, 0, .vperm true 1 2 3), (.v, 0x4100420C40000000, 0, .vshuf false 1 2 3 4), (.v, 0x420042000000003F, 0, .vbcast false 1 2 63), (.v, 0x43B0420000400000, 0, .vredadd .i32 true 1 2),
    (.v, 0x4400420000000000, 0, .vredmax .i32 false 1 2), (.v, 0x4500420000000000, 0, .vredmin .i32 false 1 2), (.v, 0x4400420010000000, 0, .vredmax .u32 false 1 2), (.v, 0x4500420010000000, 0, .vredmin .u32 false 1 2),
    (.v, 0x4400420020000000, 0, .vredmax .f32 false 1 2), (.v, 0x4500420020000000, 0, .vredmin .f32 false 1 2), (.v, 0x4600420000400000, 0, .vscan .i32 true 1 2), (.v, 0x4600420010400000, 0, .vscan .f32 true 1 2),
    (.v, 0x4701010C00400040, 0, .vtopk true 4 1 3 64), (.v, 0x6000070000000000, 0, .mpush 7), (.v, 0x6100000000000000, 0, .minv), (.v, 0x6200000000000000, 0, .mpop),
    (.v, 0x6300420C00000000, 0, .mand 1 2 3), (.v, 0x6400420C00000000, 0, .mor 1 2 3), (.v, 0x6500420000000000, 0, .mnot 1 2), (.v, 0x660FC70000000000, 0, .mcnt 63 7 false),
    (.v, 0x660FC00000000001, 0, .mcnt 63 0 true), (.v, 0x7000840000400001, 0, .vmov true 2 4 true), (.v, 0x7100BF0000400000, 0, .vmovs .single true 2 63), (.v, 0x7100BF0000400001, 0, .vmovs .pair true 2 63),
    (.v, 0x7100BF0000400002, 0, .vmovs .iota true 2 63), (.v, 0x720FDF0000000049, 0, .vext 63 31 9 true false), (.v, 0x720FDE0000000089, 0, .vext 63 30 9 false true)] :
    List (Part × BitVec 64 × BitVec 32 × Instr)).all (fun x => decodeSlot x.1 x.2.1 x.2.2.1 == some x.2.2.2) = true := by decide +kernel

/-- One word or more of each instruction: the matrix engine, scales and formats. -/
theorem test_words_matrix : ([
    (.m, 0x0100C2040000000F, 0, .mma 3 2 1 15), (.m, 0x0200C2040000000F, 0, .mmaZ 3 2 1 15), (.m, 0x0300C2040000000F, 0, .mmaN 3 2 1 15), (.m, 0x1000C00000000000, 0, .accz 3),
    (.m, 0x110003FC00000000, 0, .accret 3 63), (.m, 0x1107C3FC00000001, 0, .accretAmax 31 3 63), (.m, 0x110003FDF0000002, 0, .accretApply 3 63 31), (.m, 0x1107C3FC00000003, 0, .accretDerive 31 3 63),
    (.m, 0x1207C3000000003F, 0, .accrd 31 3 63), (.m, 0x1300C07C0000007F, 0, .accwr 3 31 63 true), (.m, 0x1400030000000000, 0, .accwait 3), (.m, 0x150003FC00000000, 0, .accst 3 63),
    (.m, 0x2001FF01F0000019, 0, .opld 7 63 1 2 (some 31)), (.m, 0x2001FF0000000003, 0, .opld 7 63 3 0 none), (.m, 0x21003F1C0000000C, 0, .opst 63 7 0 3), (.m, 0x2201C00000000000, 0, .opclr 7),
    (.m, 0x3007FF000008FFFF, 0, .scld 31 63 0xFFFF true), (.m, 0x31003F7C00008000, 0, .scst 63 31 0x8000), (.m, 0x3207DE0000000000, 0, .scmov 31 30 false), (.m, 0x3307DE7400080000, 0, .scmul 31 30 29 true),
    (.m, 0x3407DE7400080000, 0, .scmax 31 30 29 true), (.m, 0x3507DE7400080000, 0, .scmin 31 30 29 true), (.m, 0x3607DE0000080008, 0, .scq 31 30 .e2m1 true), (.m, 0x3707C000000000FF, 0, .scset 31 0xFF false),
    (.m, 0x3801DF0000000000, 0, .scbind 7 31), (.m, 0x3901C00000000000, 0, .screl 7), (.m, 0x3A07DE0000080000, 0, .scgen 31 30 true), (.m, 0x40040000080000C5, 0, .fmt 16 (.imm (.short 0xC5))),
    (.m, 0x4000C01C00000000, 0, .fmt 3 (.reg 7)), (.m, 0x410000000000006F, 0, .ftsel 6 15)] :
    List (Part × BitVec 64 × BitVec 32 × Instr)).all (fun x => decodeSlot x.1 x.2.1 x.2.2.1 == some x.2.2.2) = true := by decide +kernel

/-- One word or more of each instruction: the vault. -/
theorem test_words_vault : ([
    (.d, 0x01000FFC00000000, 0, .act 15 63), (.d, 0x02000FFFE00000A1, 0, .rd 15 63 62 33 2), (.d, 0x03000FFFE00000A1, 0, .rda 15 63 62 33 2), (.d, 0x04000FFFE00000A1, 0, .wr 15 63 62 33 2),
    (.d, 0x05000FFFE00000A1, 0, .wra 15 63 62 33 2), (.d, 0x06000000000FFFFF, 0, .pre 127 0x1FFF), (.d, 0x0700000000000000, 0, .prea), (.d, 0x080000000000007F, 0, .ref 127),
    (.d, 0x0901CFFDF000705E, 0, .rdop 7 15 63 30 1 3 (some 31)), (.d, 0x0A07CFFCE0000000, 0, .rdsc 31 15 63 14), (.d, 0x0B00000000000000, 0, .vfence .acc), (.d, 0x0B10000000000000, 0, .vfence .vis),
    (.d, 0x0B20000000000000, 0, .vfence .dur), (.d, 0x0C00000000000003, 0, .train 3), (.d, 0x0D0FC0000000007F, 0, .bstat 63 127), (.d, 0x400000000007FFFF, 0, .actraw 127 4095),
    (.d, 0x41000003F007F023, 0, .rdraw 63 35 0 127), (.d, 0x42000003F007F023, 0, .wrraw 63 35 0 127)] :
    List (Part × BitVec 64 × BitVec 32 × Instr)).all (fun x => decodeSlot x.1 x.2.1 x.2.2.1 == some x.2.2.2) = true := by decide +kernel

/-- One word or more of each instruction: mesh, links, staging moves and requests. -/
theorem test_words_exchange : ([
    (.x, 0x01000108300000FF, 0, .msend 1 2 3 255), (.x, 0x03000108300000FF, 0, .mcast 1 2 3 255), (.x, 0x02001F0830000000, 0, .msendv 31 2 3), (.x, 0x1000020000007EFF, 0, .lsend 2 255 62 true),
    (.x, 0x1100020000003EFF, 0, .lrecv 2 255 62 false), (.x, 0x20018200004DFFFF, 0, .vld true 6 2 3 false true 0xFFFF), (.x, 0x2001820000060008, 0, .vld false 6 2 1 true false 8), (.x, 0x2100027C00000001, 0, .vst false 2 31 0 false 1),
    (.x, 0x2200420C004A0007, 0, .vgath true 1 2 3 2 true false 7), (.x, 0x23000108404D0007, 0, .vscat true 1 2 4 3 true 7), (.x, 0x300102000C000001, 0x10000, .apst 4 2 (.imm (.long 0x1000000001))), (.x, 0x40014000000001FF, 0, .warr 5 63 7),
    (.x, 0x41024020000FFE47, 0, .wwait 9 8 7 1 2047), (.x, 0x4201400000000047, 0, .wpoll 5 7 1), (.x, 0x4301401800000047, 0, .wpend 5 6 7 1), (.x, 0x5001430008000003, 0, .jcbraise 5 3 (.imm (.short 3))),
    (.x, 0x5101430C00000000, 0, .jcbpost 5 3 (.reg 3)), (.x, 0x520248000000FFFF, 0, .jcbwait 9 8 0xFFFF)] :
    List (Part × BitVec 64 × BitVec 32 × Instr)).all (fun x => decodeSlot x.1 x.2.1 x.2.2.1 == some x.2.2.2) = true := by decide +kernel

/-- One word of each Ivloha op. -/
theorem test_words_ivloha : ([
    (0x00070F01, .ivLdp 15 7), (0xFFFEF302, .ivLdw 3 15 2 0x3FFF), (0x0015F303, .ivStw 3 15 1 5), (0xFFFE0304, .ivMovi 3 0xFFFE),
    (0x12340305, .ivMovh 3 0x1234), (0x00092106, .ivAdd 1 2 9), (0x00092107, .ivSub 1 2 9), (0x00002108, .ivAnd 1 2 0),
    (0x00092109, .ivOr 1 2 9), (0x0009210A, .ivXor 1 2 9), (0x0009210B, .ivShl 1 2 9), (0x0009210C, .ivShr 1 2 9),
    (0x03FF210D, .ivBeq 1 2 1023), (0x0001210E, .ivBne 1 2 1), (0x0005210F, .ivBltu 1 2 5), (0x03FF0010, .ivJf 1023),
    (0x40FF7011, .ivLoop 7 255 64), (0x00009012, .ivRank 9), (0x01FF0013, .ivNeed 255 1), (0xFF110014, .ivTokadd 17 255),
    (0x01FF9015, .ivJob 9 7 63), (0x00009016, .ivLaunch 9), (0x00009017, .ivEvt 9), (0x00000018, .ivDone),
    (0x00000019, .ivDrop)] : List (BitVec 32 × Instr)).all (fun x => decodeIvloha x.1 == some x.2) = true := by decide +kernel

/-! ## Small states -/

/-- A kernel of context 1 that runs on die 0. -/
def kern : Kernel := { ctx := 1, die0 := 0, shape := 0, st := .running, launch := { image := 0, recAt := 0, rect := 0, wake := false, irq := false } }

/-- Tile 0 with its bundle in hand at cycle 100. -/
def onTile (t : Tile) : State := { tiles := [(0, t)], kernels := [(0, kern)], cur := { now := 100, pc := { off := 5 }, pre := t } }

/-- Tile 0 in handler mode. -/
def inHandler (t : Tile) : State := { onTile { t with flow := { t.flow with handler := true } } with cur := { now := 100, pc := { off := 5 }, handler := true } }

/-- The value of the last result that the bundle in hand has sent on its way, where the instruction completes. -/
def lastVal (i : Instr) (t : Tile) : Option Nat := match exec i (onTile t) with
  | .next u => (u.tile 0).flight.getLast?.map Result.val
  | _ => none

/-- Scalars s1 and s2. -/
def two (x y : Word) : Tile := { regs := { s := [(1, x), (2, y)] } }

/-! ## Worked cases and corners (R103, R104, R135, R148, R151, R262, R264, R275) -/

/-- The worked case of R104. -/
theorem test_fields : lastVal (.bfx 4 1 4 8 true) (two 0xF0A5 3) = some 0x0A ∧ lastVal (.bfx 5 1 8 8 true) (two 0xF0A5 3) = some 0xFFFFFFFFFFFFFFF0 ∧
    lastVal (.bfi 6 1 2 60 4) (two 0xF0A5 3) = some 0x300000000000F0A5 := by decide +kernel

/-- The edges of R103: division by zero, and the most negative value by minus one. -/
theorem test_division : lastVal (.div 3 1 (.reg 2)) (two 7 0) = some (2 ^ 64 - 1) ∧ lastVal (.rem 3 1 (.reg 2)) (two 7 0) = some 7 ∧
    lastVal (.div 3 1 (.reg 2)) (two (2 ^ 63) (-1)) = some (2 ^ 63) ∧ lastVal (.rem 3 1 (.reg 2)) (two (2 ^ 63) (-1)) = some 0 ∧
    lastVal (.div 3 1 (.reg 2)) (two (-7) 2) = some (2 ^ 64 - 3) ∧ lastVal (.rem 3 1 (.reg 2)) (two (-7) 2) = some (2 ^ 64 - 1) := by decide +kernel

/-- Steps of R135's worked case: the top after the second push is empty; MINV turns it to the rest of its parent. -/
theorem test_mask_stack : lastVal (.mpush 2) { regs := { msk := [(2, 0xFF)], ms := [0xFFFF000000000000] } } = some 0 ∧
    lastVal .minv { regs := { ms := [0, 0xFFFF000000000000] } } = some 0xFFFF000000000000 := by decide +kernel

/-- The worked case of R148: the tree rounds to 1.0 twice. -/
theorem test_tree_sum : (lastVal (.vredadd .f32 false 4 1) { regs := { v := [(1, 0x33800000338000003F800000)] } }).map (fun v => v % 2 ^ 32) = some 0x3F800000 := by
  decide +kernel

/-- The worked case of R151: keys. -/
theorem test_topk : (match exec (.vtopk true 4 1 2 4) 
      (onTile { regs := { v := [(1, 0xFF80000000000000800000003F8000007FC000003F800000), (2, 0x000000010000000900000000000000020000000300000007)], ms := [0x3F] } }) with
    | .next u => (u.tile 0).flight.map fun r => r.val % 2 ^ 160
    | _ => []) = [0xFFFFFFFF000000003F8000003F8000007FC00000, 0xFFFFFFFF00000009000000070000000200000003] := by decide +kernel

/-- The worked case of R264: three steps of a block. -/
theorem test_block : jcbApply false 0 3 120 4 3 0 = (7, 3, 0) ∧ jcbApply true 1 4 131 7 3 0 = (7 + 4 * 2 ^ 32, 1, 0) ∧
    jcbApply true 0 3 140 (7 + 4 * 2 ^ 32) 1 0 = (7 + 7 * 2 ^ 32, 0, 2 ^ 63 + 140) := by decide +kernel

/-- R275: the last arrival releases, or drains where bytes are pending; the byte decrement that empties it releases. -/
theorem test_weir : weirArrive (2 + 2 ^ 12) = (2 + 2 ^ 48, true) ∧ weirArrive (2 + 2 ^ 12 + 64 * 2 ^ 24) = (2 + 2 * 2 ^ 12 + 64 * 2 ^ 24 + 2 ^ 56, false) ∧
    weirDecrement (2 + 2 * 2 ^ 12 + 64 * 2 ^ 24 + 2 ^ 56) = (2 + 2 ^ 48, true) := by decide +kernel

/-! ## States and operands that meet the hypotheses of the statements -/

/-- The bundle whose C slot is LD s5, s2, 16, of 4 bytes, signed, with a gap of 3. -/
def ldBundle : Bundle := BitVec.ofNat 384 (0x43 + 0x60014200000A0010 * 2 ^ 32)

/-- A tile that stands at index 0 of a segment of four indices, with that bundle and one that no slot of which decodes. -/
def coded : Tile := { flow := { st := .running }, imem := { dict := [ldBundle, BitVec.ofNat 384 0x40000], segs := [(0, [0, 0, 1, 0])] } }

/-- EveryWordDecodesBack, HintAndNopCellsDecode, BundlesAreReadSlotBySlot. -/
theorem wit_decode : Instr.wf (.bfx 1 2 63 1 true) = true ∧ (encodeSlot (.bfx 1 2 63 1 true)).isSome = true ∧ (encodeIvloha (.ivLoop 1 255 64)).isSome = true ∧
    (0xF300000000000000 : BitVec 64).extractLsb' 60 4 = 0xF ∧ (0 : BitVec 64).extractLsb' 56 8 = 0 ∧ (0 : BitVec 64) &&& 0x00FFFFFFFFCFFFFF = 0 ∧
    (1 : BitVec 64).extractLsb' 56 8 = 0 ∧ (1 : BitVec 64) &&& 0x00FFFFFFFFCFFFFF ≠ 0 ∧
    (match ((onTile coded).issueCtx 0 0 0).readBundle coded ldBundle with
      | .ok (h, is) => h.gap == 3 && is == [(Part.c, Instr.ld 5 2 2 true 16)]
      | .error _ => false) = true := by decide +kernel

/-- R59, R114, R161, R163, R193, R322: the bundles of HALT, with a gap of 3, and of its two delay bundles, which end the schedule; a bank open until it is precharged
and then idle, by a PRE or by an auto-precharge, or left open; distances, lists that agree or not, and a span in a training window. -/
theorem test_schedule : (let t : Tile := { flow := { st := .running }, imem := { dict := [BitVec.ofNat 384 (0x43 + 0xA800000000000000 * 2 ^ 32), BitVec.ofNat 384 0x40], segs := [(0, [0, 1, 1, 1])] } }
      let r := (onTile t).walk 0 9 [] []; (r.1.map fun x => (x.ctx.now, x.y), r.2) = ([(0, 4), (4, 5), (5, 6)], true)) ∧
    bankSpans (vparams false 0) none [(10, .act), (60, .pre), (200, .act), (230, .col false 240 243 true), (300, .act)] =
      [(10, some (60, 78)), (200, some (265, 283)), (300, none)] ∧
    gaps 0 [3, 10] = [3, 7] ∧ agree ([1, 2], true) ([1], true) = some true ∧ agree ([1, 2], true) ([1], false) = none ∧ agree ([1], true) ([1], true) = some false ∧
    worst [none, some false] = none ∧ meetsWindow 100 1000 50 140 160 = true ∧ meetsWindow 100 1000 50 150 1100 = false ∧ meetsWindow 100 1000 50 150 1101 = true := by
  decide +kernel

/-- OperandForms, RegisterZeroReadsZero, ScalarFields. -/
theorem wit_operands : (63 : Reg) ≠ 0 ∧ RisingMap (two 1 2).regs.s ∧ (two 1 2).regs.ms = [] ∧ 1 ≤ (64 : BitVec 7).toNat ∧ (64 : BitVec 7).toNat ≤ 64 ∧
    1 ≤ (1 : BitVec 7).toNat ∧ (63 : BitVec 6).toNat + (1 : BitVec 7).toNat ≤ 64 := by decide

/-- BranchesAndCalls: the returns. -/
theorem wit_returns : let h := inHandler (two 0xFFFF 0x10000); let p := onTile (two 0xFFFF 0x10000);
    h.cur.handler = true ∧ av h 1 / 2 ^ 16 = 0 ∧ av h 2 / 2 ^ 16 ≠ 0 ∧ p.cur.handler = false ∧ av p 1 / 2 ^ 32 = 0 ∧ av p 1 / 2 ^ 16 = p.cur.pc.seg ∧
    av p 2 / 2 ^ 16 % 2 ^ 16 ≠ p.cur.pc.seg := by decide +kernel

/-- A tile in a segment of 64 indices, with a loop entry. -/
def looping : Tile := { two 3 0 with imem := { segs := [(0, List.replicate 64 0)] }, flow := { loops := [{ start := 5, last := 9, n := 2, i := 0, s := 1 }] } }

/-- HardwareLoops: the shortest body; the depth; an end past the segment; LBRK. -/
theorem wit_loops : let s := onTile looping;
    s.cur.handler = false ∧ (mine s).flow.loops.length < 6 ∧ thirdOff s ≤ s.cur.pc.off + (3 : BitVec 16).toNat ∧
    s.cur.pc.off + (58 : BitVec 16).toNat < ((mine s).segment s.slotCtx.variant s.cur.pc.seg).length ∧
    ((mine s).segment s.slotCtx.variant s.cur.pc.seg).length ≤ s.cur.pc.off + (59 : BitVec 16).toNat ∧ s.cur.pc.off + (2 : BitVec 16).toNat < thirdOff s ∧
    (inHandler looping).cur.handler = true ∧ (mine (onTile {})).flow.loops = [] ∧ (mine s).flow.loops ≠ [] ∧
    6 ≤ (mine (onTile { flow := { loops := List.replicate 6 { start := 5, last := 9, n := 2, i := 0, s := 1 } } })).flow.loops.length := by decide +kernel

/-- PlainSystemInstructions, ReturnFromTrap, TrapTaken, TrapWithoutHandler, TrapInHandlerFaults. -/
theorem wit_traps : let h := inHandler {}; let p := onTile coded; let x : Tile := { coded with imem := { coded.imem with handlers := [0] } };
    h.cur.handler = true ∧ RisingMap h.tiles ∧ (mine h).flow.handler = true ∧ p.cur.handler = false ∧ x.flow.handler = false ∧ x.imem.handlers ≠ [] ∧ coded.imem.handlers = [] ∧ coded.flow.handler = false ∧
    255 < 256 ∧ 7 < 8 ∧ x.flow.pc.off < 2 ^ 16 ∧ x.flow.pc.seg < 2 ^ 16 ∧ x.flow.transfer = none ∧
    ({ target := 7, left := 3, pop := false } : Transfer).left < 4 ∧ p.kernelOf 0 = some (0, kern) ∧ kern.ending = none := by decide +kernel

/-- SpecialRegisterMoves and SystemRegistersReadBack: open, privileged, read-only and unassigned numbers at the ends of their ranges. -/
theorem wit_registers : (sysAccess 0x000).isSome = true ∧ sysPrivileged 0x000 = false ∧ sysWritable 0x003 = true ∧ sysPrivileged 0x214 = true ∧ sysWritable 0x214 = true ∧
    (onTile {}).slotCtx.privileged = false ∧ (inHandler {}).slotCtx.privileged = true ∧ sysAccess 0x215 = none ∧ sysWritable 0x212 = false ∧
    0x208 ≤ (0x20F : BitVec 12).toNat ∧ (0x20F : BitVec 12).toNat < 0x210 ∧ (63 : Reg) ≠ 0 ∧ 2 ^ 64 - 1 < 2 ^ 64 ∧ RisingMap (onTile {} |>.tile 0).sys.hsv ∧
    RisingMap (onTile {} |>.tile 0).sys.bpa ∧ RisingMap (onTile {} |>.tile 0).sync.jp ∧ RisingMap (onTile {} |>.tile 0).perf.pcc := by decide +kernel

/-- A tile with one result in flight, and the state in which it lands. -/
def landing (r : Result) : State := onTile { flight := [r] }

/-- ResultsLandInRegisters, StoresLandInStaging, MaskStackLands, MatrixResultsLand: a result of each kind, in flight and first with its number. -/
theorem wit_landing : ([({ seq := 0, due := 3, dst := .sreg 63 } : Result), { seq := 0, due := 3, dst := .vreg 31, keep := 1 }, { seq := 0, due := 3, dst := .mk 7 },
      { seq := 0, due := 3, dst := .flagsOnly }, { seq := 0, due := 3, dst := .fcsr }, { seq := 0, due := 3, dst := .sysreg 0x106 }, { seq := 0, due := 3, dst := .mstack 1 },
      { seq := 0, due := 3, dst := .acc 3 false true }, { seq := 0, due := 3, dst := .accRow 3 63 true }, { seq := 0, due := 3, dst := .accZero 3 },
      { seq := 0, due := 3, dst := .accRetire 3 }, { seq := 0, due := 3, dst := .buffer 7 6144 2048 }, { seq := 0, due := 3, dst := .tag 7 none },
      { seq := 0, due := 3, dst := .tag 7 (some 31) }, { seq := 0, due := 3, dst := .scale 31 127 true }, { seq := 0, due := 3, dst := .scale 31 127 false },
      { seq := 0, due := 3, dst := .unpin 15 }, { seq := 0, due := 3, dst := .latch 5 },
      { seq := 0, due := 3, dst := .staging 3 true, bytes := bytesAt 8 8 0x1122334455667788 }] : List Result).all (fun r =>
        ((landing r).tile 0).flight.find? (fun x => x.seq == 0) == some r && r.flags == 0) = true ∧
    0x106 ∉ [0x112, 0x113, 0x131, 0x146, 0x151] ∧ ¬ (0x200 ≤ 0x106 ∧ 0x106 < 0x208) ∧ Memory.wf ((landing { seq := 0, due := 3, dst := .flagsOnly }).tile 0).staging = true ∧
    1 ≤ (landing { seq := 0, due := 3, dst := .flagsOnly } |>.tile 0).regs.ms.length + 1 ∧ 63 < 64 ∧ 6144 + 2048 ≤ 8192 := by decide +kernel

/-- StoresLandInStaging: no mesh collision strikes the tile. -/
theorem wit_store_lands (b : Nat) : (landing { seq := 0, due := 3, dst := .staging 3 true, bytes := bytesAt 8 8 0x1122334455667788 }).struck 0 3 b = false := rfl

/-- A context with one live record, of generation 5, and two object numbers. -/
def oneObject : Context := { st := .running, desc := [0, 0, 2], objs := [(1, [0x100050000#64])] }

/-- RecordCacheLands: every outcome of a load, and a load complete or awaited in its hold. -/
theorem wit_record_load : let l : RecLoad := { seq := 0, oh := 15, v := 0x50001, nib := false }; let e : OhEntry := { est := 2, why := 1 };
    let s := onTile { flight := [{ seq := 0, due := 3, dst := .handle 15 }], loads := [{ l with done := some e }] };
    s.kernelOf 0 = some (0, kern) ∧ 5 ∉ kern.holds ∧ (s.tile 0).flight.find? (fun x => x.seq == 0) = some { seq := 0, due := 3, dst := .handle 15 } ∧
    { l with done := some e } ∈ (s.tile 0).loads ∧ (∀ y ∈ (s.tile 0).loads, y.seq = 0 → y = { l with done := some e }) ∧
    5 ∈ ({ kern with holds := [5] } : Kernel).holds ∧ recState [0#64] = 0 ∧ recState [0x100050000#64] ≠ 0 ∧ recBits [0x100050000#64] 0 31 16 = 0x50001 / 2 ^ 16 % 2 ^ 16 ∧
    recBits [0x100050000#64] 0 31 16 ≠ 0x40001 / 2 ^ 16 % 2 ^ 16 ∧ 0x50001 < 2 ^ 32 ∧ oneObject.objLen ≤ 0xFFFF := by decide +kernel

/-- A usable record with a companion, in a table that a grain of host memory holds. -/
def paired : Context := { st := .running, desc := [0, 0, 3], grains := [[2 ^ 59, 1 + 2 ^ 32, 0, 0]], objs := [(1, [0x100100050001, 0x100000001, 0x100000001, 0x100000001, 0, 0, 0, 2 ^ 11, 0, 0, 0, 2 ^ 32 + 2]), (2, [0x2100000002])] }
theorem wit_pin : let s : State := { onTile {} with ctxs := [(1, paired)] }; let r := mapGet [] paired.objs 1; let o := pinOutcome paired 0 256 0x50001 false r (mapGet [] paired.objs 2);
    s.ctx 1 = paired ∧ o.est = 1 ∧ recWord r 11 / 2 ^ 32 % 2 = 1 ∧ recWord r 11 % 2 ^ 16 < paired.objLen ∧ recState r ≠ 0 ∧ recBits r 0 31 16 = 0x50001 / 2 ^ 16 % 2 ^ 16 ∧
    recUsable r false 256 = true ∧ companionOk r (mapGet [] paired.objs 2) paired.objLen = true ∧ paired.tablePlace = none ∧
    (s.recordRead 1 0 1).2 = some r ∧ (s.recordRead 1 0 2).2 = some (mapGet [] paired.objs 2) ∧ 0x50001 % 2 ^ 16 < paired.objLen ∧ paired.objLen ≤ 0x50003 % 2 ^ 16 ∧
    (pinOutcome oneObject 0 256 0x50001 false [0x100050000#64] []).why = 4 ∧ (s.pin 1 0 256 0x50001 false).2 = o := by decide +kernel
/-- RecordCacheLands: whatever the place of a record, it cannot be read where every pseudo-channel of the vault that holds the table has failed. -/
theorem wit_pin_place : ({ oneObject with desc := [0, 0x1000000, 2], grains := [[0x1000000 + 2 ^ 59, 64 + 3 * 2 ^ 32 + 2 * 2 ^ 40, 0, 0]] } : Context).tablePlace = some (0, 0) := by decide +kernel
theorem wit_load_found : let l : RecLoad := { seq := 0, oh := 15, v := 0x50001, nib := false }; let s := onTile { loads := [l] };
    (s.tile 0).loads.find? (fun l => l.seq == 0) = some l ∧ s.kernelOf 0 = some (0, kern) ∧ 5 ∉ kern.holds ∧ (s.pin kern.ctx 0 256 l.v l.nib).1.kernelOf 0 = some (0, kern) := by
  decide +kernel

/-- LandingQueueWrites: a scalar result selected whose value is there, and one whose value is still to return. -/
theorem wit_landing_queue : let r : Result := { seq := 0, due := 3, dst := .sreg 4, val := 9 }; let w : Result := { seq := 0, due := 300, dst := .sreg 4, pend := true, back := 300 };
    ((inHandler { flight := [r] }).tile 0).lqSelected = some (.result r) ∧ r.pending ((inHandler { flight := [r] }).agentCycle 0) = false ∧ ((inHandler { flight := [r] }).tile 0).sys.lqsel.toNat / 2 ^ 5 % 2 ^ 5 = 0 ∧ r.val < 2 ^ 64 ∧
    ((inHandler { flight := [w] }).tile 0).lqSelected = some (.result w) ∧ w.pending ((inHandler { flight := [w] }).agentCycle 0) = true := by decide +kernel

/-- ViewWrites: each kind of view, at the last register and word. -/
theorem wit_views : (0 : Word).toNat % 4 = 0 ∧ (1 + 7 * 4 : Word).toNat % 4 = 1 ∧ (1 + 7 * 4 : Word).toNat / 4 % 32 < 8 ∧ (2 : Word).toNat % 4 = 2 ∧
    (3 * 4 + 2047 * 2 ^ 9 : Word).toNat % 4 = 0 ∧ (3 * 4 + 2047 * 2 ^ 9 : Word).toNat / 4 % 128 < 4 ∧ (1 + 7 * 4 + 1023 * 2 ^ 9 : Word).toNat / 4 % 128 < 8 ∧
    (1 + 7 * 4 + 1023 * 2 ^ 9 : Word).toNat / 2 ^ 9 % 2 ^ 11 < 1024 ∧ (2 + 127 * 4 + 15 * 2 ^ 9 : Word).toNat / 2 ^ 9 % 2 ^ 11 < 16 := by decide

/-- A tile whose counter 0 counts and stands at its last value, with an event of this cycle. -/
def counting (ctl : Word) : Tile := { perf := { pcc := [(0, ctl)], pcv := [(0, 2 ^ 48 - 1)], adds := [(1, 1)] } }

/-- CounterRows: an overflow with and without its entry, and none. -/
theorem wit_counters : (counting 0x41).lateOverflow 0 = false ∧ ({ perf := { before := [(0, (2 ^ 48 - 1, 0x41))], adds := [(1, 1)] } } : Tile).lateOverflow 0 = true ∧ (counting 0x41).overflows 0 = true ∧ (counting 0x241).overflows 0 = true ∧ (mapGet (0 : Word) (counting 0x241).perf.pcc 0).getLsbD 9 = true ∧
    (mapGet (0 : Word) (counting 0x41).perf.pcc 0).getLsbD 9 = false ∧ ({} : Tile).overflows 0 = false ∧ RisingMap (onTile (counting 0)).tiles := by decide +kernel

/-- FormatWrites: a write of each target. -/
theorem wit_format_writes : [0, 15, 16, 17].all (fun n => let w : FmtWrite := { seq := 0, target := n, val := 0x65, left := 0 };
    (onTile { fmts := { pend := [w] } } |>.tile 0).fmts.pend.find? (fun x => x.seq == 0) == some w && w.flags == 0 && decide (w.target ≤ 17)) = true := by decide +kernel

/-- SumsAndProductsAreExact and RoundingStaysWithinAnUlp: an exact zero, and a value rounded without overflow in every format; VectorFloatArithmetic, VectorFloatCompare,
VectorFloatFunctions: a format of each. -/
theorem wit_numbers : (numAdd .rne (.fin false 1 0) (.fin true 1 0)).1 = .fin false 0 0 ∧
    [Fmt.f64, .f32, .bf16, .f16, .e4m3, .e5m2, .e3m2, .e2m3, .e2m1].all (fun f =>
      !((rndFloat f .rdn false false (.fin true 5 (-2))).2).getLsbD 2) = true ∧ (5 : Nat) ≠ 0 ∧ Fmt.isArith .f16 = true ∧ Fmt.isWide .f64 = true := by decide +kernel

/-- ExtremesAcrossLanes: lanes with a NaN, with none, and no lane active. -/
theorem wit_extremes : let env := (onTile {} |>.tile 0).fpEnv .fcsr; (env.read .f32 0x7FC00000).isNan = true ∧ (env.read .f32 0x3F800000).isNan = false ∧
    (onMask (onTile { regs := { ms := [1] } }) true).getLsbD 0 = true ∧ (∀ k < 64, (onMask (onTile { regs := { ms := [0] } }) true).getLsbD k = false) := by decide +kernel

/-- MaskInstructions: a full stack, an empty one and one of one entry; StagingMoveLoads, StagingMoveStores: a pair and a half byte. -/
theorem wit_masks : 16 ≤ (List.replicate 16 (0 : Mask)).length ∧ ([] : List Mask).length = 0 ∧ 0 < [(0 : Mask)].length ∧ [(0 : Mask)].length < 16 ∧ (0 : Width) ≠ 3 ∧
    ((true : Bool) = true → (3 : Width) = 3 ∧ (false : Bool) = false) ∧ (1 : Width) ≠ 0 := by decide

/-- A tile with one row active: E4M3 by E4M3 to FP32, scaled or not. -/
def rowed (sm : Nat) : Tile :=
  { fmts := { ft := [(0, BitVec.ofNat 64 ((fmtCode .e4m3).toNat + 16 * (fmtCode .e4m3).toNat + 256 * (fmtCode .f32).toNat + 4096 * sm))] } }

/-- MatrixMultiply: a valid row with both values of K, current and stale tags, an invalid row, a K that is not allowed, and a busy engine. -/
theorem wit_mma : (rowed 0).activeRow.valid = some (.e4m3, .e4m3) ∧ mmaK .e4m3 .e4m3 7 = some 32 ∧ mmaK .e4m3 .e4m3 15 = some 64 ∧ mmaK .e4m3 .e4m3 0 = none ∧
    mmaK .f32 .f32 0 = some 4 ∧ (onTile (rowed 0)).slotCtx.mmaConflict (rowed 0) 3 15 = none ∧ (rowed 0).activeRow.scaledA = false ∧ (rowed 0).activeRow.scaledB = false ∧
    (rowed 1).activeRow.valid = some (.e4m3, .e4m3) ∧ (rowed 1).activeRow.scaledA = true ∧ (rowed 1).activeRow.scaledB = true ∧ (rowed 1).tagCurrent 0 = false ∧
    (let t : Tile := { rowed 1 with matrix := { bufs := [(0, { valid := true }), (4, { valid := true })] } }; t.tagCurrent 0 = true ∧ t.tagCurrent 4 = true ∧ t.tagCurrent 5 = false) ∧
    ({} : Tile).activeRow.valid = none ∧ (let t : Tile := { rowed 0 with matrix := { busy := 101 } }; (onTile t).slotCtx.mmaConflict t 3 15 = some 0xFFFD) ∧
    (onTile {}).slotCtx.portable = false := by decide +kernel

/-- AccumulatorRetirement, AccumulatorsAndBuffers: an output format allowed and not, and an accumulator whose landing clashes. -/
theorem wit_accret : (rowed 0).activeRow.o = some .f32 ∧ fmtIsOutput .f32 = true ∧ fmtIsOutput .f64 = false ∧ (rowed 0).accClash 3 100 170 true = false ∧
    (let t : Tile := { rowed 0 with flight := [{ seq := 0, due := 101, dst := .accZero 3 }] };
      t.accClash 3 100 170 true = true ∧ t.accClash 3 100 101 false = true ∧ t.accClash 3 100 102 false = false) ∧
    (rowOf 0xD00).o = none ∧ (onTile {}).slotCtx.portable = false ∧
    ({ onTile {} with kernels := [(0, { kern with img := { portable := true } })] } : State).slotCtx.portable = true := by decide +kernel

/-- A pinned entry of a live record of three by one bricks of i32, two dimensions, readable and writable, with a bounds mode. -/
def pinned (mode perms : Nat) : OhEntry :=
  { est := 1, id := 1, gen := 5, words := [BitVec.ofNat 64 (0x50000 + 2 ^ 32 + perms * 2 ^ 35 + 0xB * 2 ^ 40 + 2 * 2 ^ 44 + mode * 2 ^ 50), 48 + 16 * 2 ^ 32, 1 + 2 ^ 32, 1 + 2 ^ 32,
      1, 0, 0, 2 ^ 11, 0x41 + 22 * 2 ^ 12] }

/-- A tile that holds it in oh3. -/
def holder (mode perms : Nat) : Tile := { two 0 3 with oh := [(3, pinned mode perms)] }

/-- BrickCoordinates and ObjectInstructions: every way that a coordinate can end. -/
theorem wit_coordinates : let r := fun mode => (pinned mode 7).words; brickExtent (r 0) false 0 = 3 ∧ 3 / 2 ^ 2 = 0 ∧ 4 / 2 ^ 2 ≠ 0 ∧ recBits (r 0) 0 51 50 = 0 ∧
    recBits (r 1) 0 51 50 = 1 ∧ 2 ≤ recBits (r 2) 0 51 50 ∧ checkCoord (r 0) false 4 = .shape 6 ∧ checkCoord (r 0) false 3 = .shape 0 ∧ checkCoord (r 1) false 3 = .null ∧
    checkCoord (r 2) false 3 = .ok [2, 0, 0, 0, 0, 0] true ∧ checkCoord (r 0) false 2 = .ok [2, 0, 0, 0, 0, 0] false ∧ 0 < recTiles (r 0) ∧
    bitOf (recWord (r 0) 0) 35 = true ∧ bitOf (recWord (pinned 0 0).words 0) 37 = false ∧ (15 : BitVec 5).toNat < 16 ∧ (pinned 0 7).est = 1 ∧ ({} : OhEntry).est ≠ 1 := by decide +kernel

/-- VaultChecks: a bank open to its page and level, one with a precharge of its own to come, one that may close. -/
theorem wit_vault_checks : let p := vparams false 32; let v : Vault := { banks := [(22, { st := .open, page := 0x41, lastAct := some 10 })] };
    v.barred 0 22 100 = false ∧ (v.bank 22).st = .open ∧ (v.bank 22).ap = none ∧ v.checkPre p 0 22 100 = .close ∧ (v.bank 0).st = .idle ∧ v.checkPre p 0 0 100 = .noEffect ∧
    (∀ a, (v.bank 22).lastAct = some a → a + p.tRAS ≤ 100) ∧ ({ st := .open, ap := some 300 } : Bank).ap ≠ none := by
  refine ⟨by decide +kernel, by decide +kernel, by decide +kernel, by decide +kernel, by decide +kernel, by decide +kernel, ?_, by decide⟩
  intro a h; cases h; decide

/-- A tile with its entry and the bank that its brick lies in, open. -/
def opened (mode perms : Nat) : Tile := { holder mode perms with vault := { banks := [(22, { st := .open, page := 0x41, lastAct := some 10 })] } }

/-- VaultRowCommands, VaultRefusals, VaultColumnCommands: a brick found, a null one, every translation that fails, and commands let through and refused. -/
theorem wit_vault_commands : let s := onTile (holder 0 7); let o := onTile (opened 0 7); let c := s.slotCtx; let p := c.params;
    let pl : Place := { own := 0, n := 0, bank := 22, page := 0x41, nw := false, res := 0, clp := false };
    c.translate (holder 0 7) 3 0 0 = .found pl ∧ (holder 0 7).vault.checkAct p c.sbmask 22 100 false = none ∧ (holder 0 7).vault.checkAct p c.sbmask 22 100 true = none ∧
    (opened 0 7).vault.checkAct p c.sbmask 22 100 false ≠ none ∧ (onTile (holder 1 7)).slotCtx.translate (holder 1 7) 3 0 3 = .null ∧
    (onTile (holder 1 7)).slotCtx.translate (holder 1 7) 3 1 3 = .null ∧ c.translate (holder 0 7) 4 0 0 = .unpinned ∧ c.translate (holder 0 7) 3 0 3 = .shape 0 ∧
    (onTile (holder 0 0)).slotCtx.translate (holder 0 0) 3 0 0 = .denied false ∧ recProt (pinned 0 7).words = 0 ∧ 31 + 1 ≤ levelSlots 0 ∧ levelSlots 0 < 32 + 1 ∧
    (opened 0 7).vault.checkColumn p c.sbmask 22 100 0x41 0 false true 32 c.capped = none ∧ (opened 0 7).vault.checkColumn p c.sbmask 22 100 0x41 0 false false 32 c.capped = none ∧
    (opened 0 7).vault.checkColumn p c.sbmask 22 100 0x42 0 false true 32 c.capped ≠ none ∧ (opened 0 7).vault.checkPre p c.sbmask 22 100 = .close ∧
    (opened 0 7).vault.checkPre p c.sbmask 21 100 = .noEffect ∧ RisingMap (opened 0 7).vault.banks ∧ o.slotCtx.privileged = false ∧ (inHandler {}).slotCtx.privileged = true ∧
    (opened 0 7).vault.marks = [] ∧ (opened 0 7).vault.bus = [] := by decide +kernel

/-- VaultRowCommands: PREA and TRAIN let through; VaultRefusals: a precharge and a fence refused. -/
theorem wit_vault_more : let c := (inHandler {}).slotCtx; ({} : Vault).firstRefusal c.params c.sbmask 100 (({} : Vault).preaBanks c.sbmask 100) = none ∧
    (∀ j < 32, ({} : Vault).state c.sbmask (4 * j + 3) 100 = .idle) ∧
    (match ({ banks := [(22, { st := .open, lastAct := some 99 })] } : Vault).checkPre c.params c.sbmask 22 100 with
      | .refused _ => true
      | _ => false) = true ∧
    (({ marks := [{ seq := 0, bank := 22, w := 99, last := 99, tWR := 20 }] } : Vault).unmet .vis 100).isSome = true ∧
    (c.scaleRun {} 3 4 0 = .trap 0x06 3) := by decide +kernel

/-- VaultRefusals: what every other command is refused for: an ACTRAW, a PREA, a TRAIN by a bank and by the bus, columns of both directions, a raw one, and those of RDOP and
RDSC, whose scale run is found. -/
def companioned : Tile :=
  { two 0 3 with oh := [(3, { pinned 0 7 with words := (pinned 0 7).words ++ [0, 0, 2 ^ 32 + 0x50002] }),
      (4, { est := 1, id := 2, gen := 5, words := [0x2100050000, 0, 0, 0, 0, 0, 0, 0, 0x43 + 26 * 2 ^ 12] })] }
theorem wit_vault_refusals : let c := (inHandler {}).slotCtx; let p := c.params; let busy : Vault := { banks := [(22, { st := .open, page := 0x41, lastAct := some 99 })] };
    let used : Vault := { bus := [{ q := 3, read := true, first := 90, last := 101, bank := 7 }] };
    c.privileged = true ∧ (busy.checkAct p c.sbmask 22 100 false).isSome = true ∧ (busy.firstRefusal p c.sbmask 100 (busy.preaBanks c.sbmask 100)).isSome = true ∧
    busy.state c.sbmask (4 * 5 + 2) 100 ≠ .idle ∧ (∀ j < 5, busy.state c.sbmask (4 * j + 2) 100 = .idle) ∧ (∀ j < 32, used.state c.sbmask (4 * j + 3) 100 = .idle) ∧
    (used.bus.find? fun u => u.q == 3 && decide (100 ≤ u.last)).isSome = true ∧ (busy.checkColumn p c.sbmask 22 100 0x42 0 false false 1 c.capped).isSome = true ∧
    (busy.checkColumn p c.sbmask 22 100 0x42 0 false true 1 c.capped).isSome = true ∧ (busy.checkColumn p c.sbmask 22 100 0x41 2 true true 1 c.capped).isSome = true ∧
    (busy.checkColumn p c.sbmask 22 100 0x42 0 false true 1 []).isSome = true ∧ (onTile companioned).slotCtx.scaleRun companioned 3 4 0 = .run 26 0x43 0 ∧
    (({} : Vault).checkColumn p c.sbmask 26 100 0x43 0 false true 2 []).isSome = true ∧ (onTile (opened 0 7)).slotCtx.translate (opened 0 7) 3 1 0 =
      .found { own := 0, n := 0, bank := 22, page := 0x41, nw := false, res := 0, clp := false } := by decide +kernel

/-- An aperture grain of one page at 0x10000, and a host-memory grain of sixty-four pages at 0x20000 that begins at byte 0 of the host's memory; both read and written. -/
def apertureGrain : List Word := [0x10000 + 2 ^ 59, 1 + 3 * 2 ^ 32 + 2 ^ 40, 0, 0]
def hostGrain : List Word := [0x20000 + 2 ^ 59, 64 + 3 * 2 ^ 32, 0, 0]

/-- Context 1 with both, on die 0. -/
def ctx1 : Context := { oneObject with grains := [apertureGrain, hostGrain] }

/-- Tile 0 with that context. -/
def withCtx (t : Tile) : State := { onTile t with ctxs := [(1, ctx1)] }

/-- Atomics: an own and a cistern address, the last word that a program may reach, one beyond, one misaligned, the wheel's turn and a failed release. -/
theorem wit_atomics : let c := (onTile {}).slotCtx; bitOf 0x100008 20 = true ∧ bitOf 0x7DF8 20 = false ∧ c.inPart (0x7DF8 / 2 ^ 15 % 8) = true ∧ 0x7DF8 % 2 ^ 15 < 0x7E00 ∧
    c.privileged = false ∧ ¬ 0x7E00 < 0x7E00 ∧ 0x7DF9 % 2 ^ 15 % 8 ≠ 0 ∧ c.inPart (0x8000 / 2 ^ 15 % 8) = false ∧ c.portable = false ∧ (onTile {}).cur.now % 256 ≠ (onTile {}).cur.tile / 8 ∧
    ({ onTile {} with cur := { now := 256 } } : State).cur.now % 256 = 0 / 8 ∧ c.releaseUnmet {} 0 0 5 = none ∧
    (c.releaseUnmet { sync := { reqs := [{ seq := 0, die := 1, byte := 0, due := 300, kind := .warr, result := none }] } } 0 0 5).isSome = true := by decide +kernel

/-- FencesAndEvents: a fence that passes and one that does not, a rectangle in and one out of the partition, an event in flight. -/
theorem wit_events : ({} : Tile).fenceUnmet true 100 = none ∧ (({ sync := { jobs := [{ die := 0, seq := 0 }] } } : Tile).fenceUnmet true 100).isSome = true ∧
    (({ sync := { jobs := [{ die := 0, seq := 0 }] } } : Tile).fenceUnmet false 100) = none ∧
    (let r := rectOf (15 + 15 * 2 ^ 8 + 15 * 2 ^ 16 + 15 * 2 ^ 24); r.x0 ≤ r.x1 ∧ r.y0 ≤ r.y1 ∧ (onTile {}).slotCtx.inPart (dieOf (r.y0 * 64 + r.x0)) = true) ∧
    (let r := rectOf (16 + 16 * 2 ^ 16); r.x0 ≤ r.x1 ∧ (onTile {}).slotCtx.inPart (dieOf (r.y0 * 64 + r.x0)) = false) ∧
    (onTile {}).cur.handler = false ∧ (inHandler {}).cur.handler = true ∧ RisingMap (onTile {}).tiles ∧ kern.img.portable = false := by decide +kernel

/-- A channel entry of tile 0: channel 3, sent or received, over link 2. -/
def channelled (dir : Nat) : Kernel := { kern with img := { links := [[BitVec.ofNat 64 (3 * 2 ^ 11 + dir * 2 ^ 17 + 2 * 2 ^ 18)]] } }

/-- MeshAndLinkSends: a destination in and out of the partition, a busy port, a channel with and without an entry, two flits received. -/
theorem wit_sends : let c := (onTile {}).slotCtx; c.inPart (dieOf (15 + 64 * 15)) = true ∧ c.inPart (dieOf 16) = false ∧ ({} : Tile).sync.portFree ≤ 100 ∧
    100 < ({ sync := { portFree := 101 } } : Tile).sync.portFree ∧ c.portable = false ∧
    ({ onTile {} with kernels := [(0, channelled 0)] } : State).slotCtx.sendLink 3 = some 2 ∧ c.sendLink 62 = none ∧ c.sendLink 63 = some 0 ∧
    (let s : State := { onTile {} with kernels := [(0, channelled 1)], links := [(2, { queue := [(3, 1), (4, 0), (3, 2)] })] };
      s.slotCtx.recvLink 3 = some 2 ∧ (1 : BitVec 8).toNat + 1 ≤ (s.queued 2 3).length ∧ (s.link 2).busy ≤ s.cur.now ∧ s.cur.handler = false) ∧ c.recvLink 3 = none := by decide +kernel

/-- WeirBlockAndStartRequests: a die in and out of the partition, the largest pending count and one more, an entry that lives and one that has posted, misaligned and weir
addresses, an aperture and none. -/
theorem wit_requests : let c := (withCtx {}).slotCtx; let e := fun (v : Nat) => v; c.inPart 0 = true ∧ c.inPart 1 = false ∧ 2 ^ 24 - 1 < 2 ^ 24 ∧
    bitOf (e (0x7DE0 + 2 ^ 24)) 24 = true ∧ bitOf (e (0x7DE0 + 2 ^ 24)) 25 = false ∧ e (0x7DE0 + 2 ^ 24) % 2 ^ 15 % 32 = 0 ∧ e (0x7DE0 + 2 ^ 24) % 2 ^ 15 < 0x7E00 ∧
    e (0x7DE8 + 2 ^ 24) % 2 ^ 15 % 32 ≠ 0 ∧ 0x7E00 ≤ e (0x7E00 + 2 ^ 24) % 2 ^ 15 ∧ bitOf (e (2 ^ 24 + 2 ^ 25)) 25 = true ∧ c.releaseUnmet {} 0 0 5 = none ∧
    c.aperture 0x101F8 = some (0x1F8, none) ∧ c.aperture 0x10200 = none ∧ c.aperture 0 = none ∧ ({} : Tile).vault.marks = [] ∧ ({} : Tile).sync.past = [] ∧ ({} : Tile).sync.reqs = [] := by
  decide +kernel

/-- A tile with a request of a kind on its way to byte 0x100 of die 0. -/
def asking (kind : ReqKind) : State := onTile { sync := { reqs := [{ seq := 0, die := 0, byte := 0x100, due := 105, kind := kind, result := none }] } }

/-- RequestsAtTheCistern: every kind of request. -/
theorem wit_cistern : [ReqKind.cas 0 1, .add 1, .swp 1, .min 1, .max 1, .and 1, .or 1, .warr, .wpend 64, .wpoll, .wwait 0, .jcbwait, .jcbraise 63 1, .jcbpost 63 1].all (fun k =>
      ((asking k).tile 0).sync.reqs.find? (fun x => x.seq == 0 && x.kind.toCistern) == some { seq := 0, die := 0, byte := 0x100, due := 105, kind := k, result := none }) = true ∧
    (asking .warr).kernelOf 0 = some (0, kern) ∧ RisingMap (asking .warr).tiles ∧ RisingMap (asking .warr).dies ∧ 63 < 64 ∧ 0x100 % 32 = 0 := by decide +kernel

/-- RequestsAtTheCistern: the cistern's words stand in order in every die. -/
theorem wit_cistern_order (d : Nat) : RisingMap ((asking .warr).die d).cistern := List.Pairwise.nil

/-- BlockAndWeirSteps: the states of a weir at which its clauses begin, and the largest block words. -/
theorem wit_steps : 2 ^ 32 - 1 < 2 ^ 32 ∧ 2 ^ 64 - 1 < 2 ^ 64 ∧ (let w := 2 + 2 ^ 12; field w 57 56 ≠ 1 ∧ field w 11 0 ≠ 0 ∧ field w 11 0 ≤ field w 23 12 + 1 ∧ field w 47 24 = 0) ∧
    (let w := 3 + 2 ^ 12; field w 23 12 + 1 < field w 11 0) ∧ (let w := 2 + 2 ^ 12 + 2 ^ 24; field w 47 24 ≠ 0) ∧ field (2 ^ 56) 57 56 = 1 ∧ field 0 11 0 = 0 ∧
    64 < field (65 * 2 ^ 24) 47 24 ∧ field (64 * 2 ^ 24) 47 24 ≤ 64 := by decide +kernel

/-- A flit due at tile 0 in cycle 0, and a kernel that carries flits. -/
def flit (id own addr : Nat) : Flit := { id := id, own := own, seq := 0, issue := 0, num := 0, src := 1, dst := 0, addr := addr, start := 0, arr := 0, data := 5 }
def carrying (fs : List Flit) : State := { onTile {} with kernels := [(0, { kern with mesh := fs })] }

/-- MeshFlitsTravel: a send to inject, a flit that arrives alone at the last block, two that collide, one that meets no other, a decrement. -/
theorem wit_flits : let x : Send := { seq := 0, issue := 0, n := 1, start := 0, src := some 0, addr := 0, dests := [1] }; let s := onTile { sync := { sends := [x] } };
    let f := flit 0 1 0x3FFC0; let u := carrying [f]; let v := carrying [f, flit 1 2 0x3FFC0]; let d : Decrement := { die := 0, byte := 0x7E00, due := 0, addr := 0 };
    let w := onTile { sync := { decs := [d] } };
    s.kernelOf 0 = some (0, kern) ∧ (s.tile 0).sync.sends.find? (fun y => y.seq == 0) = some x ∧ RisingMap s.tiles ∧ RisingMap s.kernels ∧
    u.kernel? 0 = some { kern with mesh := [f] } ∧ [f].find? (fun f => f.id == 0 && f.gone.isNone && !f.landed) = some f ∧
    [f].any (fun g => g.id != f.id && g.gone.isNone && g.port.isNone && g.dst == f.dst && g.arr == f.arr && g.addr == f.addr) = false ∧
    [f, flit 1 2 0x3FFC0].any (fun g => g.id != f.id && g.gone.isNone && g.port.isNone && g.dst == f.dst && g.arr == f.arr && g.addr == f.addr) = true ∧
    (∀ g ∈ [f, flit 1 2 0x3FFC0], g.void = false) ∧ v.kernel? 0 = some { kern with mesh := [f, flit 1 2 0x3FFC0] } ∧ (u.tile 0).ownClash 0 f.addr = none ∧ f.addr + 64 ≤ 2 ^ 18 ∧
    Memory.wf (u.tile 0).staging = true ∧ (∀ g ∈ [f], g.usesAt 0 ≠ none → g.usesAt 0 = f.usesAt 0 → g.sameSend f = true ∧ f.sameSend g = true) ∧
    (w.tile 0).sync.decs.find? (fun d => d.due == 0 && d.addr == 0) = some d ∧ RisingMap w.dies := by decide +kernel

/-- StepRunsTheDecodedInstruction: a row in hand; an op of each interpreter; nothing in hand. -/
theorem wit_step : let r : Run := { queue := 3, packet := [] }; let q : QueueEngine := { queues := [(3, { prog := 1, rprog := 2 })], progs := [(1, { kind := .main, code := [(encodeIvloha .ivDone).getD 0] }),
      (2, { kind := .rank, code := [0x00002012] })] };
    let m : State := { qe := { q with mainRun := some r } }; let k : State := { qe := { q with rankRun := some r } };
    m.nextRun = some (false, r) ∧ k.nextRun = some (true, r) ∧ (onTile {}).nextRun = none ∧ ({ onTile {} with agenda := [(5, { i := .nop })] } : State).nextWall = some 0 ∧
    (onTile {}).todo = [] ∧ m.qe.mainRun = some r ∧ (m.fetchWord false r).bind decodeIvloha = some .ivDone ∧ k.qe.mainRun = none ∧ k.fetchWord true r = some 0x00002012 ∧
    decodeIvloha 0x00002012 = some (.ivRank 2) ∧ (onTile {}).qe.mainRun = none ∧ (onTile {}).qe.rankRun = none ∧ ({ onTile {} with todo := [{ i := .nop }] } : State).todo ≠ [] := by decide +kernel

/-- BundleIssues and BundlesEnd: a bundle that issues, a stream index and an encoding that are illegal, and a handler bundle. -/
theorem wit_bundles : let s := onTile coded; let t := s.tile 0; let c := s.issueCtx 0 0 0; let bad : Tile := { coded with flow := { st := .running, pc := { off := 2 } } };
    let off : Tile := { coded with flow := { st := .running, pc := { off := 4 } } };
    s.kernelOf 0 = some (0, kern) ∧ kern.img.portable = false ∧ kern.holds = [] ∧ kern.ending = none ∧ t.stopBefore.isNone = true ∧ t.fetch 0 t.flow.pc = .bundle ldBundle false ∧
    off.fetch 0 off.flow.pc = .illegal 4 ∧ bad.fetch 0 bad.flow.pc = .bundle (BitVec.ofNat 384 0x40000) false ∧
    (match ((onTile bad).issueCtx 0 0 0).readBundle bad (BitVec.ofNat 384 0x40000) with
      | .error p => p == 0
      | .ok _ => false) = true ∧
    needsPrivilege (.mfs 1 0x100) = true ∧ needsPrivilege (.ld 5 2 2 true 16) = false ∧ c.conflict t {} [(.c, .ld 5 2 2 true 16)] = none ∧
    (c.conflict { t with flight := [{ seq := 0, due := 6, dst := .sreg 5 }] } {} [(.c, .ld 5 2 2 true 16)]).isSome = true ∧
    coded.peek 0 {} = some ldBundle ∧ (decodeHeader ldBundle).isSome = true ∧ RisingMap s.tiles ∧
    (match ({ imem := { handlers := [BitVec.ofNat 384 (0x40 + 0x60014200000A0010 * 2 ^ 32)] } } : Tile).readHandler 0 (BitVec.ofNat 384 (0x40 + 0x60014200000A0010 * 2 ^ 32)) with
      | .ok i => i == some (Instr.ld 5 2 2 true 16)
      | .error _ => false) = true ∧
    (match ({} : Tile).readHandler 0 ldBundle with
      | .error p => p == 0
      | .ok _ => false) = true := by decide +kernel

/-- SequencerAdvances: a loop at its end with a trip to come, at its last trip, with another entry below, and a transfer, a push and a halt at their last count and before it. -/
theorem wit_advance : let e : LoopEntry := { start := 3, last := 5, n := 2, i := 0, s := 1 }; e.last = 5 ∧ e.i + 1 < e.n ∧ ({ e with i := 1 } : LoopEntry).n ≤ 1 + 1 ∧
    ({ e with last := 9 } : LoopEntry).last ≠ 5 ∧ ({ target := 7, left := 1, pop := true } : Transfer).left ≤ 1 ∧ 1 < ({ target := 7, left := 2, pop := true } : Transfer).left ∧
    ({ entry := e, left := 1 } : Push).left ≤ 1 ∧ ({} : Flow).transfer = none ∧ ({} : Flow).push = none ∧ ({ haltLeft := some 1 } : Flow).haltLeft = some 1 := by decide

/-- StopsAndHolds: a kernel in a hold, a trap due at a running and at a halted tile, a segment waited for. -/
theorem wit_stops : let k : Kernel := { kern with holdFrom := some 0, holds := [4] }; let x : CycTrap := { cycle := 7, cause := 0x0C, info := 0 };
    let t : Tile := { flow := { st := .running, cycTraps := [x] } }; let s : State := { onTile t with kernels := [(0, k)] };
    s.kernel? 0 = some k ∧ RisingMap s.tiles ∧ k.holdFrom = some 0 ∧ k.nhold = 0 ∧ s.kernelOf 0 = some (0, k) ∧ (s.tile 0).flow.cycTraps = [x] ∧ (s.tile 0).flow.st = .running ∧
    ({ t with flow := { t.flow with st := .halted } } : Tile).flow.st = .halted ∧ k.ending = none ∧ k.holds = [4] ∧ t.flow.due ≤ k.cycle ∧ t.flow.pc.seg = 0 ∧
    ({ k with holds := [] } : Kernel).holds = [] := by decide +kernel

/-- BundleIssues and StopsAndHolds on a segment that could not be read: the trap it gives; a copy with slots to read, and one with none, which its reader awaits. -/
theorem wit_lost_segment : let t : Tile := { imem := { table := true, nseg := [3], copying := [2], segs := [(2, [])], bad := [(2, 0x300105)] }, flow := { st := .running, pc := { seg := 2, off := 0 } } };
    let k : Kernel := { kern with holds := [4] }; let s : State := { onTile t with kernels := [(0, k)], ev := { x := 2, grant := .given } };
    mapFind (s.tile 0).imem.bad (s.tile 0).flow.pc.seg = some 0x300105 ∧ 2 ∈ (s.tile 0).imem.copying ∧ 1 ∉ (s.tile 0).imem.copying ∧ s.kernelOf 0 = some (0, k) ∧
    k.segmentPlaces 0 t 2 = [] ∧ (s.readSlots 0 []).2.toOption = some [] ∧ RisingMap (s.readSlots 0 []).1.tiles ∧ (s.readSlots 0 []).1.kernel? 0 = some k ∧ k.holds = [4] ∧
    (s.tile 0).flow.due ≤ k.cycle ∧ (k.segmentPlaces 0 { t with imem := { t.imem with segs := [(2, [1])] } } 2).length = 1 := by decide +kernel

/-- StopsAndHolds: whatever the place of a slot, it cannot be read where every pseudo-channel of the vault has failed. -/
theorem wit_segment_error (b g sl : Nat) : ∃ x, ((onTile { vault := { failed := [(0, 1), (1, 1), (2, 1), (3, 1)] } }).readSlots 0 [(b, g, sl)]).2 = .error x := by
  have kept : ∀ (f : Finding) (c : Nat), (({ failed := [(0, 1), (1, 1), (2, 1), (3, 1)] } : Vault).logFinding f 1 0 b g sl c).failed = [(0, 1), (1, 1), (2, 1), (3, 1)] := by
    intro f c; cases f <;> rfl
  have met : ∀ v : Vault, v.failed = [(0, 1), (1, 1), (2, 1), (3, 1)] → v.meets (b % 4) true = .failed 1 := by
    intro v h
    have : b % 4 = 0 ∨ b % 4 = 1 ∨ b % 4 = 2 ∨ b % 4 = 3 := by omega
    unfold Vault.meets
    rw [h]
    rcases this with h | h | h | h <;> simp [h, mapFind]
  have stops : ∀ (v : Vault) (c : Nat), v.meets (b % 4) true = .failed 1 → (v.agentCross 1 b g sl c true).2.1 = false := by
    intro v c h; simp [Vault.agentCross, h]
  have lost : ((onTile { vault := { failed := [(0, 1), (1, 1), (2, 1), (3, 1)] } }).agentRead 0 1 b g 0 sl).2.toOption = none := by
    unfold State.agentRead
    dsimp only
    split
    · rfl
    · show Except.toOption (if Prod.fst (Prod.snd (Vault.agentCross _ 1 b g sl _ true)) = true then _ else _) = none
      rw [if_neg]
      · rfl
      · exact ne_true_of_eq_false (stops _ _ (met _ (kept _ _)))
  unfold State.readSlots
  split
  · exact ⟨_, rfl⟩
  · rename_i h; rw [h] at lost; cases lost

/-- A tile whose bank 22 is in a state. -/
def banked (st : BankState) : State := onTile { vault := { banks := [(22, { st := st, page := 0x41, ap := some 50, lend := 1, deadline := 9 })] } }

/-- BankEvents and Retraining: a bank in each state, a lend, a closing of its own; a retraining due in and out of a hold, and one awaited. -/
theorem wit_banks : (((banked .activating).tile 0).vault.bank 22).st = .activating ∧ (((banked .open).tile 0).vault.bank 22).ap = some 50 ∧
    (((banked .precharging).tile 0).vault.bank 22).st = .precharging ∧ (((banked .refreshing).tile 0).vault.bank 22).st = .refreshing ∧
    (((banked .idle).tile 0).vault.bank 22).lend ≠ 0 ∧ (banked .idle).kernelOf 0 = some (0, kern) ∧ RisingMap (banked .idle).tiles ∧
    mapFind ((banked .idle).tile 0).vault.trainDue 3 = none ∧ 39 * 2000000 + mapGet 0 ((banked .idle).tile 0).vault.lastTrain 3 ≤ ({ banked .idle with wall := 78000000 } : State).wall ∧
    mapFind ({ trainDue := [(3, 0)] } : Vault).trainDue 3 = some 0 ∧ 0 + 39 * 8000000 ≤ 312000000 ∧ (banked .idle).kernel? 0 = some kern := by decide +kernel

/-- Sixty-four bytes, and the page that holds them as slot 0 at the detecting level. -/
def line : List Byte := (List.range 64).map fun k => BitVec.ofNat 8 (3 * k + 1)
def lightPage : Mem := pageWrite [] 1 0 line

/-- A tile with a stream of a transfer at the detecting level, its page written. -/
def streaming (x : Stream) : State := onTile { vault := { streams := [x], pages := [(pageKey 6 0x41, lightPage)] } }
def readIn (x : Stream) : State := { streaming x with ev := { tile := 0, x := 0, y := 1 } }

/-- VaultTransfers: a clean read, a null one, one whose check word does not fit, a write before and after its bytes are taken. -/
theorem wit_transfers : let r : Stream := { seq := 0, read := true, bank := 6, page := 0x41, lvl := 1, slot := 0, n := 4, issue := 300, first := 324, dest := .staging 0x3FFC0 };
    let w : Stream := { seq := 0, read := false, raw := true, bank := 6, page := 0x41, lvl := 2, slot := 35, n := 1, issue := 300, first := 324, src := 64, taken := [7] };
    ((streaming r).tile 0).vault.stream? 0 = some r ∧ r.dest = .staging 0x3FFC0 ∧ (streaming r).struck 0 (r.first + r.done) ((0x3FFC0 + 64 * r.done) % 2 ^ 18) = false ∧ RisingMap (streaming r).tiles ∧
    r.null = false ∧ ({ r with null := true } : Stream).null = true ∧ (pageRead 0 (pageKey 6 0x41) 0 (((streaming r).tile 0).vault.page (pageKey 6 0x41)) 1 0).data = some line ∧
    (pageRead 0 (pageKey 6 0x41) 0 (pagePut lightPage (64 * 34) [0, 0, 0]) 1 0).data = none ∧ (streaming r).ending 0 = false ∧ ({} : Vault).meets 2 true = .nothing ∧ ({} : Vault).meets 2 false = .nothing ∧
    ((streaming w).tile 0).vault.stream? 0 = some w ∧ (readIn w).ev.y = 1 ∧ (streaming w).ev.y = 0 ∧ w.taken[w.done]? = some 7 ∧ (∀ y ∈ [w], y.done < y.n) := by decide +kernel

/-- VaultTransfers: what the log keeps of a clean read meets nothing on the bus; no job runs. -/
theorem wit_transfers_clean (w : Nat) : (((streaming { seq := 0, read := true, bank := 6, page := 0x41, lvl := 1, slot := 0, n := 4, issue := 300, first := 324 }).tile 0).vault.logFinding
    (.clean line) 0 1 6 0x41 0 w).meets 2 true = .nothing := by
  have same : ∀ v : Vault, v.logFinding (.clean line) 0 1 6 0x41 0 w = v := fun _ => rfl
  rw [same]; decide +kernel
theorem wit_no_jobs (x : Stream) (d : Nat) : ∀ e ∈ ((streaming x).die d).chans, e.2.job = none := nofun

/-- OperandTransfers: a stream to a buffer, linear, in column order and of a portable image, and one to a scale name; one whose check word does not fit. -/
theorem wit_operand_transfers : let x := fun (lay : Bool) (img : Nat) => ({ seq := 0, read := true, bank := 6, page := 0x41, lvl := 1, slot := 0, n := 4, issue := 300, first := 324, img := img, dest := .buffer 3 1 lay 8 none } : Stream);
    let y : Stream := { x false 0 with dest := .scale 5 }; let s := streaming (x true 0);
    (s.tile 0).vault.stream? s.ev.x = some (x true 0) ∧ (x true 0).raw = false ∧ RisingMap s.tiles ∧ RisingMap (s.tile 0).matrix.bufs ∧
    (pageRead 0 (pageKey 6 0x41) s.free ((s.tile 0).vault.page (pageKey 6 0x41)) 1 0).data = some line ∧ (x false 7).img ≠ 0 ∧ (x true 0).img = 0 ∧ (1 : Nat) < 4 ∧ (0 : Nat) < 32 ∧
    0 < brickRows 8 0 ∧ y.dest = .scale 5 ∧ (∀ a, y.dest ≠ .staging a) ∧ s.ending 0 = false ∧ ({ y with null := true } : Stream).null = true := by
  refine ⟨by decide +kernel, by decide +kernel, by decide +kernel, by decide +kernel, by decide +kernel, by decide +kernel, by decide +kernel, by decide +kernel, by decide +kernel, by decide +kernel,
    by decide +kernel, fun _ => nofun, by decide +kernel, by decide +kernel⟩

/-- BusRetries: a retry that succeeds, one that fails before and at the third try, the spare free and taken, an injection. -/
theorem wit_retries : let r : Retry := { q := 2, seq := 0, read := false, grp := 5, fails := 0, lane := 17, data := 7 };
    let x : Stream := { seq := 0, read := false, raw := true, bank := 6, page := 0x41, lvl := 2, slot := 0, n := 1, issue := 300, first := 324, taken := [7] };
    let v : Vault := { retries := [r], streams := [x] }; let i : Vault := { streams := [x], vinj := 1 + 2 * 2 ^ 2 + 2 ^ 12 };
    v.retries.find? (fun y => y.q == 2) = some r ∧ v.stream? 0 = some x ∧ r.swapped = false ∧ r.fails = 0 ∧ r.tries = 0 ∧ r.read = x.read ∧ x.read = false ∧ x.raw = true ∧
    ({ x with raw := false, lvl := 1 } : Stream).raw = false ∧ (let y : Stream := { x with read := true, raw := false, dest := .staging 0x3FFC0 }; ({ r with read := true } : Retry).read = y.read ∧ y.dest = .staging 0x3FFC0 ∧
      y.img = 0 ∧ (onTile { vault := { retries := [{ r with read := true }], streams := [y] } }).struck 0 (y.first + y.done) ((0x3FFC0 + 64 * y.done) % 2 ^ 18) = false) ∧
    0 < ({ r with fails := 3, tries := 1 } : Retry).fails ∧ ({ r with fails := 3, tries := 1 } : Retry).tries < 2 ∧ ({ r with fails := 3, tries := 2 } : Retry).tries = 2 ∧
    mapFind v.spare (8 * 2 + 5) = none ∧ mapFind ({ spare := [(21, 17)] } : Vault).spare (8 * 2 + 5) ≠ none ∧ i.stream? 0 = some x ∧ x.taken[x.done]? = some 7 ∧
    mapFind i.failed (x.bank % 4) = none ∧ i.vinj.toNat % 2 = 1 ∧ i.vinj.toNat / 2 ^ 2 % 4 = x.bank % 4 ∧ i.vinj.toNat / 2 % 2 = 0 ∧ i.vinj.toNat / 2 ^ 12 % 2 = 1 := by decide +kernel

/-- SlotsReadBack: the last slots of every level, a wrong symbol of the data and of the check word, and a CRC with a bit wrong. -/
theorem wit_slots : RisingMap lightPage ∧ line.length = 64 ∧ (0 = 0 ∧ 31 < 32) ∧ (1 = 1 ∧ 33 < 34) ∧ (2 = 2 ∧ 35 < 36) ∧ 64 + 0 ≤ 64 * 1 ∧ 64 + 0 ≤ 64 * (32 + 31 / 8) ∧ 64 ≤ 64 * 34 + 102 ∧
    31 < 32 ∧ (0 : Nat) ≠ bytesNat ((line.drop (2 * 31)).take 2) ∧ 3 < 4 ∧ (rsCheck (symbolsOf line)).getD 3 0 ^^^ 1 < 2 ^ 16 ∧ (rsCheck (symbolsOf line)).getD 3 0 ^^^ 1 ≠ (rsCheck (symbolsOf line)).getD 3 0 ∧ crc24 line ^^^ 1 < 2 ^ 24 ∧ crc24 line ^^^ 1 ≠ crc24 line := by decide +kernel

/-- A copy template between pages of the host grain, of two units of 2,048 bytes, with ring 1. -/
def copyTemplate : List Word := [BitVec.ofNat 64 (8 + 2 ^ 8 + 2 * 2 ^ 32), 0x20000, 0x24000, 2]

/-- Context 1 with the template and a ring at 0x30000 whose descriptor stands at 0x28000 + 32; its objects lie beyond. -/
def ctxJobs : Context := { ctx1 with desc := [0, 0x60000, 2, 0, 0, 0, 0x28000], temps := [(4, copyTemplate)], rings := [(1, { base := 0x30000, lsz := 0, wseq := 3 })] }

/-- A die with a start that waits, or a job that runs or has ended, on channel 5. -/
def starting : Start := { ctx := 1, data := 4 }
def jobbing (c : Channel) : State := { onTile {} with ctxs := [(1, ctxJobs)], dies := [(0, { chans := [(5, c)] })], ev := { tile := 0, x := 5 } }

/-- SluiceStarts and CopyUnits: a start that arrives at a channel with room and at a full one, one that begins, a record, a unit. -/
theorem wit_jobs : let q : Req := { seq := 0, die := 0, byte := 0, due := 105, kind := .start 1 5 4, result := none }; let j : Job := { start := starting, order := 0 };
    let s := jobbing { job := some j }; let e := jobbing { job := some { j with ended := some (1, 0) } }; let w := jobbing { queue := [starting] };
    ((onTile { sync := { reqs := [q] } }).tile 0).sync.reqs.find? (fun x => x.seq == 0) = some q ∧ q.kind = .start 1 5 4 ∧ (List.replicate 7 starting).length < 8 ∧
    (w.chan 0 5).job = none ∧ (w.chan 0 5).queue = [starting] ∧ w.jobsStop 1 = false ∧ ({ w with ctxs := [(1, { ctxJobs with st := .saved })] } : State).jobsStop 1 = true ∧ j.writes = [] ∧ j.failing = none ∧ j.data = none ∧
    ({ j with data := some (List.replicate 2048 0) } : Job).data = some (List.replicate 2048 0) ∧ RisingMap w.tiles ∧ RisingMap w.dies ∧ RisingMap w.ctxs ∧
    (e.chan 0 5).job = some { j with ended := some (1, 0) } ∧ (e.chan 0 5).refused = [] ∧ recBits copyTemplate 0 6 6 = 0 ∧ recBits copyTemplate 0 11 8 = 1 ∧
    (ctxJobs.grain (0x28000 + 32 + 12)).isSome = true ∧ ctxJobs.grain (0x28000 + 32 + 12) = ctxJobs.grain (0x30000 + 32 * 3) ∧ ctxJobs.grain (0x28000 + 32 + 12) = ctxJobs.grain (0x28000 + 32 + 8) ∧
    (match ctxJobs.grain 0x20000 with
      | some g => g.kind == 0 && g.rd && g.wr && g.covers (0x30000 + 96) 32 && g.covers 0x28028 4 && g.covers 0x2802C 4 && g.covers 0x20000 2048 && g.covers 0x24000 2048 && g.covers 0x5F800 2048
      | none => false) = true ∧
    0x28020 + 16 ≤ 0x30000 + 96 ∧ (3 + 2 ^ 32 - 0) % 2 ^ 32 ≠ 16 ∧ Memory.wf s.host.mem = true ∧ (s.chan 0 5).job = some j ∧ j.ended = none ∧ recBits copyTemplate 0 5 0 = 8 ∧
    ctxJobs.st ≠ .saved ∧ ctxJobs.st ≠ .yielding ∧ s.earlierMeets 1 0 (ctxJobs.footprint copyTemplate (jobFirst copyTemplate starting) 0 1) = false ∧ ctxJobs.grain 0x24000 = ctxJobs.grain 0x20000 ∧
    s.ev.y = 4096 * j.order ∧ s.ev.grant = .fresh ∧ (3 : Nat) ≤ 12 ∧ ctxJobs.grain 0x30000 = ctxJobs.grain (0x28000 + 32 + 12) ∧
    ((jobbing { resume := [j] }).chan 0 5).resume = [j] ∧ (w.chan 0 5).resume = [] ∧
    (let a : Arrival := { id := 9, host := false, ch := 5, start := starting }; let v : State := { w with dies := [(0, { arrivals := [a] })], ev := { tile := 0, x := 1, y := 9 } };
      (v.die 0).arrivals.find? (fun b => b.id == 9) = some a ∧ kernelOfDie v.kernels 0 = some (0, kern) ∧ kern.passes = true ∧ ({ kern with holds := [1] } : Kernel).passes = false) ∧
    ((jobbing { refused := [(6, starting)] }).chan 0 5).refused.find? (fun y => y.1 + 1 == 7) = some (6, starting) := by decide +kernel
theorem wit_unit_read : (List.replicate 2048 (0 : Byte)).length = 2048 := List.length_replicate
theorem wit_jobs_order (c : Channel) (e : Nat) : RisingMap ((jobbing c).die e).chans ∧ RisingMap ((jobbing c).ctx e).rings := by
  constructor
  · by_cases h : 0 = e <;> simp [jobbing, onTile, State.die, mapGet, h, RisingMap]
  · by_cases h : 1 = e <;> simp [jobbing, onTile, State.ctx, mapGet, h, RisingMap, ctxJobs]

/-- QueueProgramOps and QueueProgramEffects: a run in hand, loops at their ends, a window met and passed, every grain that the ops need. -/
def queueState (r : Run) (main : Bool) : State :=
  { onTile {} with ctxs := [(1, ctx1)], qe := { queues := [(3, { ctx := 1, en := true, wbase := [(0, 0x20000)], wlen := [(0, 16)], prog := 1, rprog := 2 })], tokens := [(9, { val := true })], mainRun := if main then some r else none, rankRun := some r } }
theorem wit_queue_ops : let r : Run := { queue := 3, packet := [], regs := [(5, 0x20000)], loops := [(2, 4, 2)], tokens := [(9, 3)] }; let s := queueState r true; let k := queueState r false;
    s.run? = some r ∧ k.run? = none ∧ k.qe.rankRun = some r ∧ s.sec.serves = false ∧ ({ s with sec := { boot := .running, lfst := .owned } } : State).sec.serves = true ∧ s.ev.grant = .fresh ∧ s.qe.rankTurn = false ∧ min ((r.reg 5).toNat % 2 ^ 32) 64 ≠ 0 ∧ min ((r.reg 4).toNat % 2 ^ 32) 64 = 0 ∧ (∀ l ∈ r.loops, l.2.1 ≠ 3) ∧ 1 < 2 ∧
    mapGet 0 (s.queue 3).wlen 0 < 8 * ((r.reg 4).toNat % 2 ^ 32 + 2) + 8 ∧ 8 * ((r.reg 4).toNat % 2 ^ 32 + 1) + 8 ≤ mapGet 0 (s.queue 3).wlen 0 ∧ RisingMap s.qe.queues ∧
    (match (s.ctx 1).grain 0x20008 with
      | some g => g.kind == 0 && g.rd && g.wr && g.covers 0x20008 8 && g.covers 0x20000 64
      | none => false) = true ∧ (r.reg 5).toNat % 2 ^ 57 = 0x20000 ∧ inPartition (s.ctx 1).die0 (s.ctx 1).shape 0 = true ∧ inPartition (s.ctx 1).die0 (s.ctx 1).shape 7 = false ∧
    RisingMap s.dies ∧ RisingMap s.ctxs ∧ RisingMap s.tiles ∧ Memory.wf s.host.mem = true ∧ s.kernelOf 0 = some (0, kern) ∧ 0 ∈ rectTiles (rectOf 0) ∧ 1 ∉ rectTiles (rectOf 0) ∧
    (rectTiles (rectOf 0)).Nodup ∧ r.tokens = [(9, 3)] ∧ RisingMap s.qe.tokens ∧ (mapGet {} s.qe.tokens 9).val = true ∧ k.qe.mainRun = none ∧ (k.queue 3).en = true := by decide +kernel

/-- Programs that the checks of R295 let through, and one that never ends. -/
def mainCode : List (BitVec 32) := [(encodeIvloha .ivDone).getD 0]
def rankCode : List (BitVec 32) := [(encodeIvloha (.ivRank 1)).getD 0]
theorem wit_queue_service : let s : State := { sec := { boot := .running, lfst := .owned }, ctxs := [(1, ctx1)], qe := { queues := [(3, { ctx := 1, rbase := 0x20000, prog := 1, rprog := 2 })], progs := [(1, { kind := .main, code := mainCode }), (2, { kind := .rank, code := rankCode })] } };
    (s.queue 3).lawful = true ∧ s.queueAddrsOk (s.queue 3) false = true ∧ (s.setQueue 3 { s.queue 3 with hseq := 7, drops := 1 }).queuesReady = true ∧ 15 < 16 ∧ ({ s.queue 3 with rbase := 64 } : Queue).lawful = false ∧
    s.queueAddr 1 0x20000 = true ∧ ({ s.queue 3 with nwin := 5 } : Queue).lawful = false ∧ (let q := { s.queue 3 with en := true }; let m := { s with qe := { s.qe with queues := [(3, q)] } };
      q.qfault = 0 ∧ ({ q with dev := true } : Queue).dev ≠ q.dev ∧ ({ q with dev := true } : Queue).lawful = true ∧ m.queueAddrsOk { q with dev := true } false = true ∧ (m.setQueue 3 { q with dev := true }).queuesReady = true) ∧ s.queueReady 3 (s.queue 3) = true ∧ s.sec.serves = true ∧
    (({ s with qe := { s.qe with queues := [(3, { s.queue 3 with en := true })] } } : State).setQueue 3 (({ s.queue 3 with en := true } : Queue).write 2 5)).queuesReady = false ∧ (∀ m ∈ s.qe.queues, m.2.en = false) ∧ (s.queue 3).en = false ∧ RisingMap s.qe.queues ∧ 63 < 64 ∧ 255 < 256 ∧ RisingMap s.qe.tokens ∧
    1 ≤ mainCode.length ∧ opsOk .main (mainCode.map decodeIvloha) = true ∧ nestOk (mainCode.map decodeIvloha) = true ∧ pathsOk .main (mainCode.map decodeIvloha) = true ∧ (∀ x ∈ s.namers 1 .main, s.codeSuits x.1 x.2 (mainCode.map decodeIvloha) = true) ∧
    pathsOk .main ([(encodeIvloha (.ivMovi 1 0)).getD 0].map decodeIvloha) = false ∧
    nestOk ([Instr.ivDone, .ivJf 1, .ivLoop 1 2 3, .ivNeed 1 1, .ivMovi 1 0].map some) = false := by decide +kernel

/-- A ring of sixteen packets at 0x20000, its head packet 5 valid, and the same with nothing in it. -/
def ring (full : Bool) : State := { onTile {} with sec := { boot := .running, lfst := .owned }, ctxs := [(1, ctx1)], ev := { x := 3 }, host := { mem := if full then [(320, 5), (324, 0xC7), (376, 5)] else [] }, qe := { queues := [(3, { ctx := 1, en := true, rbase := 0x20000, hseq := 5 })] } }
theorem wit_packets : let s := ring true; let e : Entry := { rank := 4, arrival := 0, queue := 3, packet := [], needs := [(9, 2)] }; let f : Entry := { e with arrival := 1 };
    let d : State := { qe := { pifo := [f, e], tokens := [(9, { val := true, count := 2 })] } };
    (s.queue 3).en = true ∧ (s.queue 3).qfault = 0 ∧ s.sec.serves = true ∧ s.qe.pifo.length + s.qe.fetched.length + 0 < 1024 ∧ s.qe.rankRun = none ∧ s.asks = [] ∧ 4 ∉ s.polled 0 ∧ 0 ∉ s.qe.again ∧ 0 ∈ (s.pollAgain 0).qe.again ∧ s.polled 1 = [] ∧ (s.polled 0).filter (fun m => decide (2 < m)) = [3] ∧ (s.polled 0).filter (fun m => decide (3 < m)) = [] ∧
    ({ s with ev := { grant := .waits 7 } } : State).ev.grant = .waits 7 ∧ (∀ a ∈ s.asks, a.id ≠ 7) ∧ RisingMap s.qe.queues ∧ Memory.wf s.host.mem = true ∧
    (s.queue 3).dev = false ∧ s.ev.y = 0 ∧ s.ev.grant = .fresh ∧ (s.ctx 1).grainKind 0x20000 = some 0 ∧ s.host.mode ≠ .pcie ∧ (s.queue 3).snap = none ∧ s.polled 0 = [3] ∧
    (match (s.ctx 1).grain (0x20000 + 64 * 5) with
      | some g => g.kind == 0 && g.rd && g.wr && g.covers (0x20000 + 64 * 5) 64 && g.covers (0x20000 + 64 * 16) 8 && (s.ctx 1).grain (0x20000 + 64 * 16) == some g &&
          bytesNat ((memRange s.host.mem (g.offset (0x20000 + 320)) 64).take 8) == 5 + 0xC7 * 2 ^ 32 && bytesNat (((memRange s.host.mem (g.offset (0x20000 + 320)) 64).drop 56).take 8) == 5 &&
          bytesNat ((memRange (ring false).host.mem (g.offset (0x20000 + 320)) 64).take 8) == 0
      | none => false) = true ∧
    d.qe.mainRun = none ∧ e ∈ d.qe.pifo ∧ d.eligible e = true ∧ (∀ g ∈ d.qe.pifo, d.eligible g = true → g ≠ e → e.rank < g.rank ∨ (e.rank = g.rank ∧ e.arrival < g.arrival)) ∧
    RisingMap d.qe.tokens := by decide +kernel

/-- Loading: a launch that waits, its image range not readable, its record in the host's memory; the header of an image of no content, with the shape of another partition. -/
def launching : State := { onTile {} with kernels := [], ev := { x := 1 }, ctxs := [(1, { ctx1 with st := .loaded, launches := [{ image := 0x50000, recAt := 0x20040, rect := 0, wake := false, irq := false }], grains := [[0x50000 + 2 ^ 59, 1 + 3 * 2 ^ 40], hostGrain] })] }
def header (shape grade : Byte) (flags features : Byte := 0) : List Byte := natBytes 4 0x4F484B49 ++ natBytes 2 1 ++ [flags, shape, 0, features] ++ List.replicate 15 0 ++ [1, 0, 0, grade] ++ List.replicate 4035 0 ++
  natBytes 32 0x55b852781b9995a44c939b64e441ae2724b96f99c8f4fb9a141cfc9842c4b0e3
theorem wit_loading : let x := launching.ctx 1; x.launches = [{ image := 0x50000, recAt := 0x20040, rect := 0, wake := false, irq := false }] ∧ x.loaded = none ∧ x.st = .loaded ∧
    launching.hasKernel 1 = false ∧ RisingMap launching.ctxs ∧ RisingMap launching.links ∧ bitOf (x.descWord 8) 43 = false ∧ launching.peerTables 1 = some [] ∧
    (let g : State := { launching with ctxs := [(1, { x with desc := [0, 0, 2, 0, 0, 0, 0, 0, 2 ^ 43 + 2 ^ 16 + 3 * 2 ^ 29] })] }; let d := fun (p : Map (List (List Word))) => ({ g with dies := [(0, { peers := p })] } : State);
      bitOf ((g.ctx 1).descWord 8) 43 = true ∧ (d [(0, [])]).peerTables 1 = none ∧ (d [(0, []), (2, [])]).peerTables 1 = some [(0, []), (2, [])]) ∧ (match x.grain 0x50000, x.grain 0x20040 with
      | some g, some h => !g.rd && h.kind == 0 && h.wr && h.covers 0x20040 64
      | _, _ => false) = true ∧ 0x20040 % 64 = 0 ∧ launching.queueAddr 1 0x20040 = true ∧ Memory.wf launching.host.mem = true := by decide +kernel
theorem wit_headers : headerOk [] [] = false ∧ headerOk (header 1 1) [] = true ∧ le (header 1 1) 8 16 / 2 ^ 12 = 0 ∧ le (header 1 1) 7 1 < 4 ∧
    le (header 1 1) 7 1 ≠ ctx1.shape ∧ headerOk (header 0 1) [] = true ∧ le (header 0 1) 8 16 / 2 ^ 12 = 0 ∧ le (header 0 1) 7 1 = ctx1.shape ∧ bitOf (le (header 0 1) 6 1) 1 = false ∧
    bitOf (le (header 0 1) 6 1) 0 = false ∧ le (header 0 1) 0x1C 2 = 1 ∧ le (header 0 1) 0x18 1 = 0 ∧ headerOk (header 0 2) [] = true ∧ le (header 0 2) 0x1C 2 ≠ 1 ∧
    headerOk (header 0 1 0 16) [] = true ∧ le (header 0 1 0 16) 8 16 / 2 ^ 12 ≠ 0 ∧ headerOk (header 4 1) [] = true ∧ 4 ≤ le (header 4 1) 7 1 ∧
    headerOk (header 0 1 2) [] = true ∧ bitOf (le (header 0 1 2) 6 1) 1 = true := by decide +kernel
/-- Loading: an image that each check of the header fails. -/
theorem wit_faults : launching.imageFault 1 [] [] none = some (1, 0) ∧ launching.imageFault 1 (header 0 1 0 16) [] none = some (2, 0) ∧ launching.imageFault 1 (header 4 1) [] none = some (3, 0) ∧
    launching.imageFault 1 (header 0 1 2) [] none = some (4, 0) ∧ launching.imageFault 1 (header 0 2) [] none = some (5, 0) := by decide +kernel

/-- BindingAndStart: a loaded kernel on an idle partition and on one that is not, one that is bound, and one that is launched, in a gang and not, before an abort and after. -/
theorem wit_binding : let l : Kernel := { kern with st := .loaded }; let s : State := { launching with ctxs := [(1, { ctx1 with st := .loaded, loaded := some l })] }; let k : Kernel := { kern with st := .launched };
    let b : State := { launching with kernels := [(0, { kern with st := .bound })] }; let r : State := { onTile { flow := { st := .ready } } with kernels := [(0, k)] };
    let g := fun (a : Bool) => { r with ctxs := [(1, { ctx1 with desc := [0, 0, 2, 0, 0, 0, 0, 0, 2 ^ 43], aborted := a })] };
    (s.ctx 1).loaded = some l ∧ (s.ctx 1).st = .loaded ∧ s.boundOf 1 = none ∧ s.hasKernel 1 = false ∧ s.partitionIdle (s.ctx 1).die0 (s.ctx 1).shape = true ∧
    ({ s with kernels := [(0, { kern with ctx := 2 })] } : State).partitionIdle (s.ctx 1).die0 (s.ctx 1).shape = false ∧ objectList l.image = [] ∧ (s.ctx 1).canInstall [[1#64]] = false ∧ RisingMap s.ctxs ∧ RisingMap s.tiles ∧
    (imageDir kern.image).length = (partTiles kern.die0 kern.shape).length ∧ (s.allPins 1 []).1.kernels = s.kernels ∧ badPin [[(0, { est := 2 })]] = some 0 ∧ badPin [] = none ∧
    b.boundOf 1 = some (0, { kern with st := .bound }) ∧ (partTiles kern.die0 kern.shape).Nodup ∧ r.kernel? 0 = some k ∧ k.st = .launched ∧ k.ending = none ∧ k.holdFrom = none ∧
    (r.ctx 1).aborted = false ∧ bitOf ((r.ctx 1).descWord 8) 43 = false ∧ bitOf (((g false).ctx 1).descWord 8) 43 = true ∧ ((g true).ctx 1).aborted = true ∧
    RisingMap r.tiles ∧ k.tiles.Nodup ∧ 0 ∈ k.tiles ∧ (r.tile 0).flow.st = .ready ∧ RisingMap (g false).links := by decide +kernel

/-- ReplanAndThermal: a variant in use selected, another one selected, none for a lost loop; a switch under way; a limit passed. -/
def layered (x : BitVec 12) : Health := { now := { dies := Vector.replicate 8 { layers := Vector.replicate 8 x } } }
theorem wit_replan : let k : Kernel := { kern with img := { vmask := 3 } };
    ({} : Health).takeBack.select 0 0 0 = 0 ∧ bitOf k.img.vmask 0 = true ∧ (layered 688).takeBack.select 0 0 0 = 1 ∧ bitOf k.img.vmask 1 = true ∧
    ({ upper := { lost := some 0 } } : Health).takeBack.select 0 0 0 = 3 ∧ bitOf k.img.vmask 3 = false ∧ ({ k with st := .replanning, holds := [6] } : Kernel).holds = [6] ∧
    (3, 5) ∈ ({ k with callFrom := [(3, 5)] } : Kernel).callFrom ∧ 720 < (layered 721).hottest 0 0 ∧ ({} : Health).hottest 0 0 ≤ 720 ∧
    (let s := onTile { flow := { st := .running } }; let at' := { k with replanAt := some (500, 490) }; let u := onTile { flow := { st := .trapped } };
      (∀ t ∈ s.tilesOf at', t.2.flow.st = .running ∨ t.2.flow.st = .halted) ∧ at'.replanAt ≠ none ∧ ¬ (∀ t ∈ u.tilesOf at', t.2.flow.st = .running ∨ t.2.flow.st = .halted) ∧ k.replanAt = none ∧ RisingMap s.kernels) ∧
    680 < (layered 688).hottest 0 0 ∧ kern.ending = none ∧ ({ lower := { lost := some 0 } } : Health).lower.lost ≠ none := by decide +kernel

/-- Completion: a kernel that ends well and one that ends faulted, with a record in the host's memory. -/
theorem wit_completion : let k : Kernel := { kern with launch := { kern.launch with recAt := 0x20040 } }; let s : State := { withCtx {} with kernels := [(0, k)] };
    s.kernel? 0 = some k ∧ RisingMap s.kernels ∧ RisingMap s.ctxs ∧ Memory.wf s.host.mem = true ∧ (∀ t ∈ k.tiles, (s.tile t).vault.retries = [] ∧ (s.tile t).sync.decs = []) ∧
    (s.ctx 1).st ≠ .destroyed ∧ (s.ctx 1).launches = [] ∧ k.ending = none ∧ ({ k with ending := some 2 } : Kernel).ending = some 2 ∧ k.ending.getD 1 = 1 ∧ ({ k with ending := some 4 } : Kernel).ending.getD 1 = 4 ∧
    (∀ t ∈ k.tiles, (s.tile t).vault.streams = []) ∧ k.restored = false ∧ (({ withCtx {} with ctxs := [(1, { ctx1 with st := .destroyed })] } : State).ctx 1).st = .destroyed ∧ k.variant < 4 ∧ k.first = none ∧ k.closed = false ∧
    (match (s.ctx 1).grain 0x20040 with
      | some g => g.kind == 0 && g.wr && g.covers 0x20040 64
      | none => false) = true ∧ k.launch.recAt % 64 = 0 ∧ k.launch.wake = false := by decide +kernel

/-! ## Contexts, links, host and security -/

/-- A grain of kind 2 that lies over the first 64 pages of tile 0's vault, at address 2^24 on, and the page that holds its descriptor. -/
def vaultGrain : List Word := [0x1000000 + 2 ^ 59, 64 + 3 * 2 ^ 32 + 2 * 2 ^ 40, 0, 0]
def grainPage : Mem := pageWrite [] 0 (strongSlot 0) ((vaultGrain.flatMap fun w => natBytes 8 w.toNat) ++ List.replicate 32 0)

/-- A descriptor of context 1 on die 0, with one grain, one object, and its tables in that grain. -/
def description : List Word := [1, 0x1000000, 1, 0, 1, 0x1001000, 0x1006000, 2 ^ 24] ++ List.replicate 24 0
def creating : State := { sec := { boot := .running, lfst := .owned, fuses := some .owned }, tiles := [(0, { vault := { pages := [(pageKey (strongBank 0) (strongPage 0), grainPage)] } })] }

/-- ContextLife: a descriptor that the checks take, and one that they do not. -/
theorem wit_create : let r := creating.readGrains { st := .assigned, desc := description }; let e : Context := { st := .assigned, desc := description, grains := r.2 };
    r.2 = [vaultGrain] ∧ descOk description = true ∧ descOk [] = false ∧ creating.sec.serves = true ∧ (description.getD 0 0).toNat % 2 ^ 8 = 1 ∧ (creating.ctx 1).st = .free ∧ grainsOk r.2 = true ∧
    ({ creating with sec := {} } : State).sec.serves = false ∧ (let c : State := { creating with ctxs := [(1, { e with st := .assigned })] }; (c.ctx 1).isOpen 1 = false ∧ (c.ctx 1).changeable = true ∧ (c.ctx 1).desc ≠ [] ∧ (c.ctx 1).st ≠ .free ∧ (c.ctx 1).st ≠ .destroyed ∧
      (c.ctx 1).described description false false = { e with places := [] } ∧ ((c.ctx 1).described description false true).die0 = 0 ∧ 8 ≤ description.length) ∧
    creating.reservable 1 e = true ∧ ({ creating with ctxs := [(2, { e with st := .loaded })] } : State).reservable 1 e = false ∧
    e.grainTableIn = true ∧ e.tableIn (recBits description 1 56 0) (128 * e.objLen) = true ∧ e.tableIn (recBits description 5 56 0) 16384 = true ∧
    e.tableIn (recBits description 6 56 0) 512 = true := by decide +kernel
/-- ContextLife: a saved context whose kernel's record lies in the host's memory. -/
theorem wit_destroy_saved : let k : Kernel := { kern with launch := { kern.launch with recAt := 0x20040 } };
    let s : State := { withCtx {} with kernels := [], sec := { boot := .running, lfst := .owned }, ctxs := [(1, { ctx1 with st := .saved, kernel := some k })] };
    s.sec.serves = true ∧ (s.ctx 1).st = .saved ∧ (s.ctx 1).kernel = some k ∧ (s.ctx 1).loaded = none ∧ (s.ctx 1).launches = [] ∧ s.boundOf 1 = none ∧ Memory.wf s.host.mem = true ∧
    (match (s.ctx 1).grain 0x20040 with
      | some g => g.kind == 0 && g.wr && g.covers 0x20040 64
      | none => false) = true ∧ 0x20040 % 64 = 0 := by decide +kernel
/-- ContextLife: a save area that lies in service banks, and one that does not. -/
theorem wit_save_area : let s := fun (m : Nat) => ({ creating with kernels := [(0, { kern with ctx := 2, img := { sbmask := m } })] } : State); let d : Context := { st := .assigned, desc := description };
    (s (2 ^ 128 - 1)).saveOk d = true ∧ (s 0).saveOk d = false := by decide +kernel
theorem wit_create_maps : RisingMap (creating.readGrains { st := .assigned, desc := description }).1.ctxs ∧ RisingMap creating.ctxs := by
  decide +kernel

/-- RecordCacheLands: a table in a vault, whose record the agent must fetch, and one in the host's memory. -/
theorem wit_record_table : let l : RecLoad := { seq := 0, oh := 15, v := 1, nib := false };
    let s : State := { onTile { loads := [l] } with ctxs := [(1, { oneObject with desc := [0, 0x1000000, 2], grains := [vaultGrain] })] };
    s.recordNeeds 1 (dieOf 0) 1 ≠ [] ∧ s.ev.grant = .fresh ∧ (((s.ctx 1).grain (0x1000000 + 128 * 1)).map Grain.kind) = some 2 ∧
    (((withCtx {}).ctx 1).grain 0x20080).map Grain.kind = some 0 ∧ ((withCtx {}).ctx 1).grain 0 = none := by decide +kernel

/-- A machine with context 3 alone. -/
def context (c : Context) : State := { onTile {} with kernels := [], ctxs := [(3, c)] }

/-- ContextLife: a context of each state that its clauses name; tables of a descriptor that names no memory. -/
theorem wit_contexts : ((context { st := .assigned, desc := [0] }).ctx 3).st = .assigned ∧ ((context { st := .assigned, desc := [0] }).readGrains { st := .assigned, desc := [0] }).2 = [] ∧ grainsOk [] = true ∧
    ((context { st := .faulted }).ctx 3).launches = [] ∧ ((context { st := .yielding }).ctx 3).st = .yielding ∧ ((context { st := .loaded }).ctx 3).st = .loaded ∧
    (creating.sec.serves = true) ∧ mapFind [(3, (⟨0, 0, 0⟩ : TenantKeys))] 3 ≠ none ∧ (context { st := .destroyed }).hasKernel 3 = false ∧ (context { st := .destroyed }).hasStarts 3 = false ∧ RisingMap (context {}).ctxs ∧ RisingMap (context {}).kernels ∧ ((context {}).ctx 3).st ≠ .assigned ∧
    ({ context {} with ev := { x := 3 } } : State).ev.x = 3 := by decide +kernel

/-- YieldSaveRestore: a kernel that runs, one asked to yield, one at its yield point with its tiles there and with one that is not, one that saves with a job in a unit and with
none, one whose context is doomed; a saved context on an idle partition, with its copies and without. -/
theorem wit_yield : let s := fun (k : Kernel) => { withCtx {} with kernels := [(0, k)], sec := { boot := .running, lfst := .owned } }; let y : Kernel := { kern with yieldAt := some (500, 3), cycle := 500 };
    let at' := fun (st : SeqState) => { s y with tiles := [(0, { flow := { st := st } })] }; let v : Kernel := { y with saving := true };
    let j : Job := { start := { ctx := 1, data := 4 }, order := 0, begun := some 0 };
    (s kern).kernel? 0 = some kern ∧ (s kern).sec.serves = true ∧ kern.request = none ∧ kern.st = .running ∧ ({ kern with request := some 4 } : Kernel).request.isSome = true ∧
    y.yieldAt = some (500, 3) ∧ y.ending = none ∧ y.cycle = 500 ∧
    ((at' .running).tilesOf y).all (fun t => t.2.flow.st == .running || t.2.flow.st == .halted) = true ∧
    ((at' .trapped).tilesOf y).all (fun t => t.2.flow.st == .running || t.2.flow.st == .halted) = false ∧ v.saving = true ∧ (s v).asks = [] ∧ (s v).midUnit 1 = false ∧
    ({ s v with dies := [(0, { chans := [(5, { job := some j })] })] } : State).midUnit 1 = true ∧ 0 < v.period ∧ ((s v).ctx 1).doomed = false ∧
    (({ s v with ctxs := [(1, { ctx1 with doomed := true })] } : State).ctx 1).doomed = true ∧ RisingMap (s kern).kernels ∧ RisingMap (s kern).ctxs ∧ RisingMap (s kern).tiles := by decide +kernel
theorem wit_yield_late : let y : Kernel := { kern with yieldAt := some (500, 3), cycle := 501 }; y.cycle ≠ 500 ∧ y.ending = none := by decide
theorem wit_restore : let c : Context := { ctx1 with st := .saved, kernel := some { kern with st := .yielded } }; let r : State := { onTile {} with kernels := [], ctxs := [(1, c)], tiles := [] };
    (r.ctx 1).st = .saved ∧ r.sec.serves = false ∧ ({ r with sec := { boot := .running, lfst := .owned } } : State).sec.serves = true ∧ (r.ctx 1).kernel = some { kern with st := .yielded } ∧ 7 % shapeDies (r.ctx 1).shape = 0 ∧ 7 + shapeDies (r.ctx 1).shape ≤ 8 ∧
    r.partitionIdle 7 (r.ctx 1).shape = true ∧ r.copied c 7 = true ∧ 7 ≠ c.die0 ∧ c.aborted = false ∧
    ({ r with tiles := [(0, { vault := { pages := [(pageKey (strongBank 0) 0, [(0, 1)])] } })] } : State).copied c 7 = false := by decide +kernel

/-- A gang of three, this member of rank 1, whose kernel waits for a slice that starts at 1000 ns. -/
def gang (time : Nat) (entries : List Nat) : State :=
  { withCtx {} with ltBase := time, ctxs := [(1, { ctx1 with desc := [0, 0, 2, 0, 0, 0, 0, 0, 2 ^ 43 + 2 ^ 16 + 3 * 2 ^ 29], entries := entries })], kernels := [(0, { kern with st := .held, holds := [1], slice := some 1000 })] }
theorem wit_gang : let s := gang 1000 [0, 2]; let k : Kernel := { kern with st := .held, holds := [1], slice := some 1000 }; let c := s.ctx k.ctx;
    s.kernel? 0 = some k ∧ k.slice = some 1000 ∧ k.ending = none ∧ k.st = .held ∧ k.saving = false ∧ bitOf (c.descWord 8) 43 = true ∧ RisingMap s.ctxs ∧ RisingMap s.links ∧ s.kernels.find? (fun e => e.2.ctx == k.ctx) = some (0, k) ∧
    (c.descWord 8) / 2 ^ 29 % 2 ^ 14 = 3 ∧ (c.descWord 8) / 2 ^ 16 % 2 ^ 13 = 1 ∧ s.ltime = 1000 ∧ (∀ r < 3, r ≠ 1 → r ∈ [0, 2]) ∧ (gang 999 []).ltime = 999 ∧ (gang 501000 []).ltime = 501000 ∧
    (∃ r < 3, r ≠ 1 ∧ r ∉ [0]) ∧ (s.link (4 * c.die0)).down = false ∧ (({ s with links := [(0, { down := true })] } : State).link 0).down = true ∧ ({ k with st := .launched } : Kernel).st = .launched ∧
    (let m : State := { s with kernels := [], ctxs := [(1, { c with st := .saved, kernel := some k })] };
      (m.ctx 1).st = .saved ∧ (m.ctx 1).kernel = some k ∧ (m.ctx 1).aborted = false ∧ bitOf ((m.ctx 1).descWord 8) 43 = true ∧ (∀ e ∈ m.kernels, e.2.ctx ≠ 1)) := by decide +kernel

/-- A link of die 0 in use, its kernel waiting to receive. -/
def linked (x : Link) : State := { onTile {} with links := [(2, x)], kernels := [(0, { kern with recv := [(2, 3, 1)], holds := [1] })] }

/-- LinkEvents: a link up and down, a flit on its way that enters now and one that does not yet, an LRECV that it completes, with and without credits, flits at its port and
waiting, silent and not. -/
theorem wit_links : let f := { flit 8 0 0 with num := 1, port := some (2, 3) }; let g := flit 7 0 0; let k : Kernel := { kern with mesh := [g, f] };
    let s : State := { onTile {} with links := [(2, { credits := 1 })], kernels := [(0, k)] }; let y : Transit := { ch := 3, payload := 5, accepted := 0, arrive := 0 };
    let l := fun (w : Nat) => { linked { transit := [y], padded := 1600 } with ltBase := w };
    RisingMap (linked {}).links ∧ ({} : Link).down = false ∧ ({ down := true } : Link).down = true ∧ (linked {}).linkKernel 2 = some 0 ∧ (onTile {}).linkKernel 4 = none ∧ ((linked {}).queued 2 3).length + 1 = 1 ∧
    ((l 1600).link 2).transit = [y] ∧ ((l 1600).link 2).padded ≤ ((l 1600).ltime + 2 ^ 64 - y.accepted) % 2 ^ 64 ∧ ((l 1600).ltime + 2 ^ 64 - y.accepted) % 2 ^ 64 < 2 ^ 63 ∧ y.arrive ≤ (l 1600).wall ∧
    ((l 1599).ltime + 2 ^ 64 - y.accepted) % 2 ^ 64 < ((l 1599).link 2).padded ∧
    s.kernel? 0 = some k ∧ k.mesh.find? (fun f => f.id == 8 && f.gone.isNone && !f.landed) = some f ∧ f.port = some (2, 3) ∧
    k.mesh.find? (fun g => g.sameSend f && g.num + 1 == f.num && g.gone.isNone) = some g ∧ (s.link 2).credits = 1 ∧ ((linked { credits := 0 }).link 2).credits = 0 ∧
    ((linked { credits := 0, waiting := [(3, 5)] }).link 2).waiting = [(3, 5)] ∧ ((linked {}).link 2).waiting = [] ∧ 0 + 39 * 100000 ≤ 3900000 ∧ 3899999 < 0 + 39 * 100000 ∧
    ({ kern with linkFrom := some 4, holds := [1] } : Kernel).linkFrom = some 4 ∧ (2 ^ 64 - 1) < 2 ^ 64 ∧ 31 < 32 ∧ kern.img.links = [] ∧ 3 < 4 * shapeDies 0 ∧
    (let e : List Word := [BitVec.ofNat 64 (2 * 2 ^ 18 + 1 * 2 ^ 23 + 2 * 2 ^ 36), 0, 0, 25000]; recBits e 0 22 18 = 2 ∧ recBits e 0 35 23 = 1 ∧ recBits e 0 40 36 = 2 ∧ recBits e 3 31 0 = 25000) ∧
    ({ trained := true } : Link).trained = true ∧ (gang 0 []).kernels = [(0, { kern with st := .held, holds := [1], slice := some 1000 })] ∧ 999 < 1000 ∧
    (let r : State := { gang 0 [] with kernels := [(0, { kern with linkFrom := some 4, holds := [1] })] }; bitOf ((r.ctx 1).descWord 8) 43 = true ∧ r.kernel? 0 = some { kern with linkFrom := some 4, holds := [1] }) := by decide +kernel
theorem wit_link_full : ({ queue := List.replicate 2047 (0, 0) } : Link).queue.length < 2048 ∧ 2048 ≤ ({ queue := List.replicate 2048 (0, 0) } : Link).queue.length :=
  ⟨(List.length_replicate ..).symm ▸ by decide, (List.length_replicate ..).symm ▸ by decide⟩

/-- CollectiveCombine: a sum, a top-k, and two values of one length. -/
theorem wit_combine : recBits [0x2C#64] 0 1 0 = 0 ∧ recBits [0x2C#64] 0 5 2 = 0xB ∧ recBits [7#64] 0 1 0 = 3 ∧ [1, 2].length = [3, 4].length ∧ 2 ^ 32 - 1 < 2 ^ 32 := by decide +kernel

/-- CollectiveEvents: a collective of one shard, whose leaf this member has read; one that has not read, one at fault and one aborted; a peer's hash that agrees, and one of a
member at fault; a ring with room and a full one. -/
def gathering : Collective := { ctx := 1, addr := 0x90000, words := [4, 1 + 2 ^ 24, 0x90000, 0, 0, 0x20000, 0, 0], hasRead := true, tree := [1], ranks := [0], leaves := [(0, [5])] }
def collecting (x : Collective) (y : Nat) : State :=
  { onTile {} with ctxs := [(1, { ctx1 with rings := [(0, { wseq := 16 })] })], ev := { x := x.order, y := y, grant := .given }, dies := [(0, { coll := [x] })] }
theorem wit_collectives : let s := collecting gathering 0; let f : Collective := { gathering with failed := true }; let a : Collective := { gathering with aborted := true };
    let d : Collective := { gathering with hashes := [(1, none)] }; let h : Collective := { gathering with hasRead := false };
    RisingMap s.dies ∧ RisingMap s.links ∧ (s.die 0).coll = [gathering] ∧ (s.ctx 1).grain 0x90000 = none ∧ s.collInHand 0 = some gathering ∧ RisingMap s.ctxs ∧
    (s.link 0).down = false ∧ (({ s with links := [(0, { down := true })] } : State).link 0).down = true ∧ (∀ f ∈ (s.die 0).early, f.1 / 2 ^ 17 ≠ 0) ∧ (5 + 2 ^ 17) / 2 ^ 17 = 1 ∧ (5 + 2 ^ 17) % 2 ^ 17 = 5 ∧ gathering.num = 0 ∧
    2 < ([1, 2, 3] : List Word).length ∧ (∀ y ∈ (s.die 0).coll, y.num ≠ 1) ∧ ((s.die 0).past.map Collective.num) ≠ some 1 ∧
    (let p : Collective := { gathering with num := 1, hashes := [(2, some 7)] }; let v : State := { s with dies := [(0, { coll := [gathering], past := some p })], ctxs := [(1, { ctx1 with desc := [0, 0, 2, 0, 0, 0, 0, 0, 2 ^ 43 + 2 ^ 16 + 3 * 2 ^ 29] })] };
      (v.die 0).past = some p ∧ p.num = 1 ∧ (mapFind p.hashes 2).isSome = true ∧ (v.ctx p.ctx).gangSize ≠ 1) ∧ gathering.order = s.ev.x ∧ gathering.failed = false ∧
    gathering.aborted = false ∧ gathering.hasRead = true ∧ h.hasRead = false ∧ f.failed = true ∧ a.aborted = true ∧ gathering.hashes = [] ∧ (∃ e ∈ d.hashes, e.2 ≠ some 0) ∧
    (∀ r < (s.ctx 1).gangSize, r ≠ (s.ctx 1).gangRank → (mapFind gathering.hashes r).isSome = true) ∧ (gathering.nodeValues (gathering.tree.map BitVec.toNat) [] 0).1.getLast?.join = some [5] ∧
    (collecting f 1).ev.y = 1 ∧ ((collecting f 1).recordCollective 0 f 2 5 0 0).isSome = false ∧ ((collecting f 1).ringNow 1 0).2.full = true ∧
    (({ collecting f 1 with ctxs := [(1, ctx1)] } : State).recordCollective 0 f 2 5 0 0).isSome = true ∧ s.ev.grant = .given ∧
    ({ s with ev := { x := 0x20000, y := 1 } } : State).sysNeeds 1 0x20000 64 false = [] := by decide +kernel
theorem wit_collective_start : let s : State := { creating with ctxs := [(1, { oneObject with grains := [vaultGrain] })], ev := { x := 0x1000000, y := 1 } };
    s.ev.grant = .fresh ∧ s.sysNeeds s.ev.y (s.ev.x % 2 ^ 57) 64 false ≠ [] := by decide +kernel

/-- HostAccesses: a window with one object of detecting protection open to the host; an aperture start in and out of the partition. -/
def hosting (y : Nat) : State :=
  { ev := { y := y }, sec := { boot := .running, lfst := .owned }, host := { ctx := some 1, mode := .cxl3 }, ctxs := [(1, { st := .loaded, desc := [0, 0, 2], objs := [(1, [BitVec.ofNat 64 (2 ^ 38 + 2 ^ 32), 0, 0, 0])] })], tiles := [(0, {})] }
theorem wit_host : let o := 2 ^ 42 + 2 ^ 26; (hosting 1).hostPlace (o / 64 * 64) false = (hosting 1).hostPlace (o / 64 * 64) true ∧
    (match (hosting 1).hostPlace (o / 64 * 64) true with
      | some (.slot t b p k) => decide (((hosting 1).tile t).vault.meets (b % 4) false = .nothing) && decide ((hosting 1).hostNeeds true (.slot t b p k) ≠ [])
      | _ => false) = true ∧
    (hosting 1).hostPlace 0 false = none ∧ (hosting 0).ev.grant = .fresh ∧ ({ hosting 1 with ev := { y := 1, grant := .given } } : State).ev.y = 0 + 1 ∧ (hosting 1).hostCtx = some 1 ∧ ({ hosting 1 with sec := {} } : State).hostCtx = none ∧ 4088 % 8 = 0 ∧ 4088 < 4096 ∧
    inPartition ((hosting 1).ctx 1).die0 ((hosting 1).ctx 1).shape (0 / 2 ^ 9 % 8) = true ∧ inPartition ((hosting 1).ctx 1).die0 ((hosting 1).ctx 1).shape (4088 / 2 ^ 9 % 8) = false ∧
    RisingMap (hosting 1).tiles ∧ RisingMap (hosting 1).dies ∧ RisingMap ((hosting 1).tile 0).vault.pages ∧ ({ mode := .pcie } : HostLink).mode = .pcie := by decide +kernel

/-- HostAccesses: a read that the codec takes, and an access that still waits above a partition with a kernel. -/
def strongLine : State := { hosting 1 with tiles := [(0, { vault := { pages := [(pageKey 8 0, pageWrite [] 0 0 line)] } })] }
theorem wit_host_read : (strongLine.agentRead 0 3 8 0 0 0).2.toOption = some line ∧ (strongLine.agentRead 0 3 8 0 0 0).1.host = strongLine.host := by decide +kernel
def awaiting : State := let s := hosting 0; let x : HostAccess := { write := false, o := 2 ^ 42 + 2 ^ 26, line := 0, since := 0 };
  { s with ev := { x := 2 ^ 42 + 2 ^ 26 }, host := { s.host with waiting := [x] }, kernels := [(0, kern)] }
theorem wit_host_timeout : (awaiting.host.waiting.find? (fun y => y.o == awaiting.ev.x && y.since == awaiting.ev.y)).isSome = true ∧
    (match awaiting.hostPlace (2 ^ 42 + 2 ^ 26) false with
      | some p => awaiting.kernelOf (awaiting.placeTile p) == some (0, kern)
      | none => false) = true ∧ awaiting.kernel? 0 = some kern ∧ 7 ∉ kern.holds ∧ 7 ∈ ({ kern with holds := [7] } : Kernel).holds := by decide +kernel

/-- A command of one byte, signed under the private key 7. -/
def sample : Signed := { body := [9], keyX := 0x8e533b6fa0bf7b4625bb30667c01fb607ef9f8b8a80fef5b300628703187b2a3, keyY := 0x73eb1dbde03318366d069f83a6f5900053c73633cb041b21c55e1a86c1f400b4
                         sigR := 0x6b17d1f2e12c4247f8bce6e563a440f277037d812deb33a0f4a13945d898c296, sigS := 0x18f2f1d67c69bbda5ecc2abd999198592ed8d4ac947f1ba260bfeb665c201ee0 }
theorem test_signature : signedOk sample = true := by decide +kernel

/-- PowerOn and LifeCycleCommands: every life-cycle state, with the sample's key fused as the vendor's and as the owner's. -/
def secured (l : LifeCycle) : State := { sec := { fuses := some l, lfst := l, boot := .running, vendor := [(0, ⟨signerOf sample, false⟩)], owner := some ⟨signerOf sample, false⟩, flash := [⟨3, sample⟩] }, health := { power := true } }
theorem wit_signed (l : LifeCycle) (b : Bool) : signedBy sample ((secured l).sec.accepted b) = true ∧ signedBy sample [signerOf sample] = true ∧ signedBy sample [] = false := by
  have h := test_signature
  simp [signedBy, secured, Security.accepted, h]
theorem wit_life_cycle : (secured .owned).sec.boot = .running ∧ (secured .provisioned).sec.lfst = .provisioned ∧ (secured .debugUnlocked).sec.lfst = .debugUnlocked ∧ (secured .scrapped).sec.fuse = .scrapped ∧
    (secured .blank).sec.fuse = .blank ∧ ({ boot := .provisioning } : Security).fuse = .blank ∧ ({ fuses := none } : Security).fuse = .scrapped ∧ (secured .owned).sec.rollback < (sample.body.map BitVec.toNat).getD 0 0 ∧
    (secured .owned).sec.rollback ≤ 3 ∧ RisingMap (secured .owned).ctxs := by decide

/-- MeasureAttestUnlock: each measurement register, a token of no magic word, one of it whose key is no point, and one whose key is a point. -/
def token : List Byte := natBytes 4 0x4F484455 ++ List.replicate 28 0 ++ keyBytes sample.keyX sample.keyY
theorem wit_security : (secured .owned).sec.boot = .running ∧ 5 ≤ 7 ∧ RisingMap (secured .owned).sec.meas ∧ (secured .owned).sec.lfst ≠ .blank ∧ (secured .owned).sec.lfst ≠ .scrapped ∧ (secured .owned).sec.status ≠ 1 ∧
    (secured .owned).sec.boot ≠ .off ∧ (secured .owned).sec.boot ≠ .halted ∧ ({} : Security).boot = .off ∧ (let tok := (natBytes 4 0x4F484455 ++ List.replicate 192 0).take 192; le tok 0 4 = 0x4F484455 ∧ onCurve (le tok 0x20 32) (le tok 0x40 32) = false) ∧
    le (([] ++ List.replicate 192 0).take 192) 0 4 ≠ 0x4F484455 ∧ (let tok := (token ++ List.replicate 192 0).take 192; le tok 0 4 = 0x4F484455 ∧ onCurve (le tok 0x20 32) (le tok 0x40 32) = true) ∧
    (secured .returned).sec.fuse ≠ .provisioned ∧ (secured .returned).sec.fuse ≠ .owned := by decide +kernel

/-- MeasureAttestUnlock: a token for a provisioned device with identifier 0, its nonce 0, signed under the private key 7: it passes every check, and in other states and
against other keys, identifiers and nonces it fails each of them. -/
def goodToken : List Byte := natBytes 4 0x4F484455 ++ [1] ++ List.replicate 27 0 ++ keyBytes sample.keyX sample.keyY ++ List.replicate 32 0 ++
  natBytes 32 sample.sigR.toNat ++ natBytes 32 0x9ae409896dd1a92f62a6dcb3dff75ae889bb43bb8f4b3c0203391c573d0cdc87
theorem wit_token : let tok := (goodToken ++ List.replicate 192 0).take 192; let x := { (secured .provisioned).sec with device := some 0 };
    le tok 0 4 = 0x4F484455 ∧ onCurve (le tok 0x20 32) (le tok 0x40 32) = true ∧ x.fuse = .provisioned ∧ (∃ h ∈ x.vendor, h.2.revoked = false ∧ h.2.hash = sha256 ((tok.drop 0x20).take 64)) ∧
    x.device = some (BitVec.ofNat 64 (le tok 8 8)) ∧ le tok 4 1 = x.fuse.code ∧ le tok 0x10 16 = x.nonce.toNat ∧ (∀ c ∈ (secured .provisioned).ctxs, c.1 ≠ 0 → c.2.st = .free ∨ c.2.st = .destroyed) ∧
    ({ x with device := some 1 } : Security).device ≠ some (BitVec.ofNat 64 (le tok 8 8)) ∧ le tok 4 1 ≠ (secured .owned).sec.fuse.code ∧ le tok 0x10 16 ≠ ({ x with nonce := 1 } : Security).nonce.toNat ∧
    ¬ (∀ c ∈ ({ secured .provisioned with ctxs := [(3, { st := .loaded })] } : State).ctxs, c.1 ≠ 0 → c.2.st = .free ∨ c.2.st = .destroyed) ∧
    (∃ h, (secured .owned).sec.owner = some h ∧ h.revoked = false ∧ h.hash = sha256 ((tok.drop 0x20).take 64)) := by decide +kernel
theorem wit_token_signed : let tok := (goodToken ++ List.replicate 192 0).take 192;
    ecdsaVerify (sha256 (tok.take 0x80)) (le tok 0x20 32) (le tok 0x40 32) (le tok 0x80 32) (le tok 0xA0 32) = true := by decide +kernel

/-- HealthEvents: a sample too hot and one that is not, a loop beyond its limits and within them, both loops lost, one lost, the reading that has lasted. -/
theorem wit_health : let h : Health := { power := true, hotSince := some 5, upper := { lost := some 1, good := some 7 }, lower := { lost := some 2, bad := some 7, good := some 7 } };
    let c : Coolant := { flow := 59, setPoint := 100, outlet := 520 };
    (secured .owned).health.power = true ∧ tooHot (layered 881).now = true ∧ tooHot (layered 880).now = false ∧ (secured .owned).health.hotSince = none ∧ h.hotSince = some 5 ∧
    h.upper.lost ≠ none ∧ h.lower.lost ≠ none ∧ h.power = true ∧ beyondLimits c = true ∧ beyondLimits { c with flow := 60 } = false ∧ beyondLimits { c with flow := 60, outlet := 521 } = true ∧
    h.lower.bad = some 7 ∧ h.upper.bad ≠ some 7 ∧ h.upper.good = some 7 ∧ h.lower.good = some 7 ∧ h.upper.good ≠ some 6 := by decide +kernel

/-- StepKeepsMemOk: a machine with a tile in the canonical forms, which steps. -/
theorem wit_memory : (onTile {}).MemOk ∧ ∃ t, step (onTile {}) = .next t := by
  refine ⟨⟨by decide, rfl, ?_, Tile.kept_default, by decide, by simp [onTile], by decide, by decide, by simp [onTile], by decide, by decide, by decide, by decide⟩, _, rfl⟩
  intro e h
  rw [List.mem_singleton.mp h]
  exact Tile.kept_default

/-- RowsCompleteAndFusesOnlyAdvance: a machine whose lfst shows its fuses, and an interpreter whose program has no op at its counter. -/
theorem wit_fuses : (secured .owned).sec.lfst = (secured .owned).sec.fuse := by decide
def lost : State := { qe := { mainRun := some { queue := 3, packet := [] } } }
theorem wit_no_op : (match step lost with
    | .refused (.notAnOp _) => true
    | _ => false) = true := by decide +kernel

end Sys2Proof.Tests
end

section
/-!
SUPPORT. What keeps the canonical forms: one lemma for each shared operation on a tile, a vault, a die or the machine, in the order of the model.
-/

namespace Sys2Proof.Machine

/-! ## What is kept, part by part -/

/-- A slot's meaning leaves its tile in the canonical forms, where it completes. -/
def SlotRes.Kept : SlotRes → Prop
  | .ok t => t.Kept
  | _ => True

/-- A row's meaning leaves the machine in the canonical forms. -/
def OutOk (o : Host.Outcome State Fault Refusal) : Prop := ∀ t, o = .next t → t.MemOk

theorem SlotRes.Kept.ite {p : Prop} [Decidable p] {a b : SlotRes} (ha : a.Kept) (hb : b.Kept) : (if p then a else b).Kept := by
  split <;> assumption

theorem Tile.Kept.ite {p : Prop} [Decidable p] {a b : Tile} (ha : a.Kept) (hb : b.Kept) : (if p then a else b).Kept := by
  split <;> assumption

theorem Vault.Kept.ite {p : Prop} [Decidable p] {a b : Vault} (ha : a.Kept) (hb : b.Kept) : (if p then a else b).Kept := by
  split <;> assumption

theorem Keeps.ite {p : Prop} [Decidable p] {a b : State} (ha : a.MemOk) (hb : b.MemOk) : (if p then a else b).MemOk := by
  split <;> assumption

theorem Keeps.next {s : State} (h : s.MemOk) : OutOk (.next s) := fun _ e => by cases e; exact h

section Parts
variable {s : State} (h : s.MemOk)
include h

theorem State.MemOk.pre : s.cur.pre.Kept := h.2.2.2.1

theorem State.MemOk.mem : Memory.wf s.host.mem = true := h.2.1

theorem State.MemOk.tiles : RisingMap s.tiles ∧ ∀ e ∈ s.tiles, e.2.Kept := ⟨h.1, h.2.2.1⟩

theorem State.MemOk.links : RisingMap s.links := by
  obtain ⟨-, -, -, -, -, -, -, -, -, h, -⟩ := h
  exact h

theorem State.MemOk.queues : RisingMap s.qe.queues := by
  obtain ⟨-, -, -, -, -, -, -, -, -, -, h, -⟩ := h
  exact h

theorem State.MemOk.tokens : RisingMap s.qe.tokens := by
  obtain ⟨-, -, -, -, -, -, -, -, -, -, -, h, -⟩ := h
  exact h

theorem State.MemOk.meas : RisingMap s.sec.meas := by
  obtain ⟨-, -, -, -, -, -, -, -, -, -, -, -, h⟩ := h
  exact h

end Parts

/-! ## Parts of the state written

What an update names is implicit in these, so that a proof applies them from the outside in. -/

namespace Keeps

section Parts
variable {s : State}

theorem cur {c : Cur} (h : s.MemOk) (hc : c.pre.Kept) : ({ s with cur := c } : State).MemOk := by
  obtain ⟨h1, h2, h3, -, h⟩ := h
  exact ⟨h1, h2, h3, hc, h⟩

theorem host {x : HostLink} (h : s.MemOk) (hx : Memory.wf x.mem = true) : ({ s with host := x } : State).MemOk := by
  obtain ⟨h1, -, h⟩ := h
  exact ⟨h1, hx, h⟩

theorem tiles {m : Map Tile} (h : s.MemOk) (hr : RisingMap m) (hm : ∀ e ∈ m, e.2.Kept) : ({ s with tiles := m } : State).MemOk := by
  obtain ⟨-, h2, -, h⟩ := h
  exact ⟨hr, h2, hm, h⟩

theorem links {m : Map Link} (h : s.MemOk) (hm : RisingMap m) : ({ s with links := m } : State).MemOk := by
  obtain ⟨h1, h2, h3, h4, h5, h6, h7, h8, h9, -, h⟩ := h
  exact ⟨h1, h2, h3, h4, h5, h6, h7, h8, h9, hm, h⟩

theorem qe {q : QueueEngine} (h : s.MemOk) (hq : RisingMap q.queues) (ht : RisingMap q.tokens) : ({ s with qe := q } : State).MemOk := by
  obtain ⟨h1, h2, h3, h4, h5, h6, h7, h8, h9, h10, -, -, h⟩ := h
  exact ⟨h1, h2, h3, h4, h5, h6, h7, h8, h9, h10, hq, ht, h⟩

theorem sec {x : Security} (h : s.MemOk) (hx : RisingMap x.meas) : ({ s with sec := x } : State).MemOk := by
  obtain ⟨h1, h2, h3, h4, h5, h6, h7, h8, h9, h10, h11, h12, -⟩ := h
  exact ⟨h1, h2, h3, h4, h5, h6, h7, h8, h9, h10, h11, h12, hx⟩

variable {n w : Nat} {d : Due} {ds : List Due} {k : Kernel}

theorem setTile {x : Tile} (h : s.MemOk) (hx : x.Kept) : (s.setTile n x).MemOk := h.setTile n hx

theorem updTile {f : Tile → Tile} (h : s.MemOk) (hf : ∀ t, t.Kept → (f t).Kept) : (s.updTile n f).MemOk := h.updTile n (hf _)

theorem updTiles {ts : List TileId} {f : Tile → Tile} (h : s.MemOk) (hf : ∀ t, t.Kept → (f t).Kept) : (s.updTiles ts f).MemOk := h.updTiles ts hf

theorem updDie {f : Die → Die} (h : s.MemOk) (hf : ∀ d, d.Kept → (f d).Kept) : (s.updDie n f).MemOk := h.setDie n (hf _ (h.die n))

theorem setCtx {x : Context} (h : s.MemOk) (hx : RisingMap x.rings) : (s.setCtx n x).MemOk := h.setCtx n hx

theorem updCtx {f : Context → Context} (h : s.MemOk) (hf : ∀ x, RisingMap x.rings → RisingMap (f x).rings) : (s.updCtx n f).MemOk :=
  h.setCtx n (hf _ (h.rings n))

theorem setKernel (h : s.MemOk) : (s.setKernel n k).MemOk := h.setKernel n k

theorem updKernel {f : Kernel → Kernel} (h : s.MemOk) : (s.updKernel n f).MemOk := h.updKernel n f

theorem delKernel (h : s.MemOk) : (s.delKernel n).MemOk := by
  obtain ⟨h1, h2, h3, h4, h5, h6, h7, h⟩ := h
  exact ⟨h1, h2, h3, h4, h5, h6, mapDel_rising _ _ h7, h⟩

theorem updLink {f : Link → Link} (h : s.MemOk) : (s.updLink n f).MemOk := links h (mapSet_rising _ _ _ _ h.links)

theorem at' (h : s.MemOk) : (s.at w d).MemOk := h

theorem push (h : s.MemOk) : (s.push ds).MemOk := h

theorem tickFree (h : s.MemOk) : s.tickFree.MemOk := h

end Parts

/-- What every step of a fold keeps, the fold keeps. -/
theorem foldl {α : Type} {f : State → α → State} {l : List α} {s : State} (h : s.MemOk) (hf : ∀ s x, s.MemOk → (f s x).MemOk) :
    (l.foldl f s).MemOk := by
  induction l generalizing s with
  | nil => exact h
  | cons x r ih => exact ih (hf s x h)

/-- The same of a fold that carries something beside the state. -/
theorem foldlPair {α β : Type} {f : State × β → α → State × β} {l : List α} {p : State × β} (h : p.1.MemOk)
    (hf : ∀ p x, p.1.MemOk → (f p x).1.MemOk) : (l.foldl f p).1.MemOk := by
  induction l generalizing p with
  | nil => exact h
  | cons x r ih => exact ih (hf p x h)

end Keeps

/-! ## Tiles -/

section Tiles
variable {t : Tile}

theorem Tile.Kept.vault (h : t.Kept) : t.vault.Kept := h.2.1

/-- The parts of a tile that no canonical form speaks of. -/
theorem Tile.Kept.frame {flow : Flow} {fmts : Formats} {imem : IMem} {flight : List Result} {matrix : Matrix} {oh : Map OhEntry} {loads : List RecLoad}
    (h : t.Kept) : ({ t with flow := flow, fmts := fmts, imem := imem, flight := flight, matrix := matrix, oh := oh, loads := loads } : Tile).Kept := h

theorem Tile.Kept.withStaging {m : Mem} (h : t.Kept) (hm : Memory.wf m = true) : ({ t with staging := m } : Tile).Kept := ⟨hm, h.2⟩

theorem Tile.Kept.withRegs {r : Regs} (h : t.Kept) (hr : RisingMap r.s) : ({ t with regs := r } : Tile).Kept := by
  obtain ⟨h1, h2, -, h⟩ := h
  exact ⟨h1, h2, hr, h⟩

theorem Tile.Kept.withSys {x : Sys} (h : t.Kept) (h1 : RisingMap x.hsv) (h2 : RisingMap x.bpa) : ({ t with sys := x } : Tile).Kept := by
  obtain ⟨a, b, c, -, -, h⟩ := h
  exact ⟨a, b, c, h1, h2, h⟩

theorem Tile.Kept.withJp {x : Sync} (h : t.Kept) (hx : RisingMap x.jp) : ({ t with sync := x } : Tile).Kept := by
  obtain ⟨a, b, c, d, e, -, h⟩ := h
  exact ⟨a, b, c, d, e, hx, h⟩

theorem Tile.Kept.withPcc {x : Perf} (h : t.Kept) (hx : RisingMap x.pcc) : ({ t with perf := x } : Tile).Kept := by
  obtain ⟨a, b, c, d, e, f, -⟩ := h
  exact ⟨a, b, c, d, e, f, hx⟩

theorem Tile.Kept.sregs (h : t.Kept) : RisingMap t.regs.s := by
  obtain ⟨-, -, h, -⟩ := h
  exact h

theorem Tile.Kept.hsv (h : t.Kept) : RisingMap t.sys.hsv := by
  obtain ⟨-, -, -, h, -⟩ := h
  exact h

theorem Tile.Kept.bpa (h : t.Kept) : RisingMap t.sys.bpa := by
  obtain ⟨-, -, -, -, h, -⟩ := h
  exact h

theorem Tile.Kept.jp (h : t.Kept) : RisingMap t.sync.jp := by
  obtain ⟨-, -, -, -, -, h, -⟩ := h
  exact h

theorem Tile.Kept.pcc (h : t.Kept) : RisingMap t.perf.pcc := by
  obtain ⟨-, -, -, -, -, -, h⟩ := h
  exact h

theorem Tile.Kept.setS {n : Nat} {v : Word} (h : t.Kept) : (t.setS n v).Kept := by
  unfold Tile.setS; split
  · exact h
  · exact h.withRegs (mapSet_rising _ _ _ _ h.sregs)

theorem Tile.Kept.stamp {k : Nat} {name : Option Nat} (h : t.Kept) : (t.stamp k name).Kept := by
  unfold Tile.stamp; dsimp only; split <;> exact h

theorem Tile.Kept.launch {r : Result} (h : t.Kept) : (t.launch r).Kept := by
  unfold Tile.launch; split <;> exact h

theorem Tile.Kept.land {c : Ctx} {cls : LatClass} {d : Dest} {v lat : Nat} {f : FlagSet} (h : t.Kept) : (c.land t cls d v lat f).Kept := h.launch

theorem Tile.Kept.landPending {c : Ctx} {cls : LatClass} {d : Dest} {lat : Nat} (h : t.Kept) : (c.landPending t cls d lat).Kept := h.launch

theorem Tile.Kept.landStaging {c : Ctx} {code : Nat} {cap : Bool} {bs : List SByte} {lat : Nat} {f : FlagSet} {cls : LatClass} (h : t.Kept) :
    (c.landStaging t code cap bs lat f cls).Kept := h.launch

theorem Tile.Kept.landLanes {c : Ctx} {cls : LatClass} {d : Nat} {l : List Nat} {on : Mask} {lat : Nat} {f : FlagSet} (h : t.Kept) :
    (c.landLanes t cls d l on lat f).Kept := h.launch

theorem Tile.Kept.landElems {c : Ctx} {cls : LatClass} {f : Fmt} {i : IntSpec} {d : Reg} {es : List Nat} {on : Mask} {lat : Nat} {fl : FlagSet} (h : t.Kept) :
    (c.landElems t cls f i d es on lat fl).Kept := by
  unfold Ctx.landElems; split
  · exact (h.landLanes ..).landLanes ..
  · split <;> exact h.landLanes ..

theorem Tile.Kept.counted {ev n : Nat} (h : t.Kept) : (t.count ev n).Kept := h.count ev n

theorem Tile.Kept.selectRow (h : t.Kept) : t.selectRow.Kept := by
  unfold Tile.selectRow; split
  · exact h
  · split <;> exact h

theorem Tile.Kept.popped (h : t.Kept) : t.popped.Kept := by
  unfold Tile.popped; split <;> exact h

theorem Tile.Kept.ifSelectRow {b : Bool} (h : t.Kept) : (if b = true then t.selectRow else t).Kept := by
  split
  · exact h.selectRow
  · exact h

theorem Tile.Kept.transfer {c : Ctx} {target : Nat} {pop : Bool} (h : t.Kept) : (c.transfer t target pop).Kept := by
  unfold Ctx.transfer; split <;> exact h

theorem Tile.Kept.drift {kind : Nat} {pc : PC} {cyc val tagm : Nat} (h : t.Kept) : (t.drift kind pc cyc val tagm).Kept := h

theorem Tile.Kept.resumePos (h : t.Kept) : t.resumePos.Kept := h

end Tiles

theorem Tile.Kept.advance {v : Nat} {pc : PC} {i g : Nat} {hand : Bool} {t : Tile} (h : t.Kept) : (t.advance v pc i g hand).Kept := by
  unfold Tile.advance
  extract_lets succ f
  split
  next loops rep _ =>
  extract_lets t1 next t2
  have h2 : t2.Kept := Tile.Kept.ifSelectRow (t := t1) h
  split
  next t3 next' e =>
  have h3 : t3.Kept := by
    split at e
    · cases e; exact h2
    · split at e <;> (cases e; exact h2)
  extract_lets f3 t4 f4 t5 f5
  have h4 : t4.Kept := by
    unfold t4; split
    · exact h3
    · split
      · exact Tile.Kept.selectRow h3
      · exact h3
  show t5.Kept
  unfold t5; split
  · exact h4
  · split <;> exact h4

theorem Tile.Kept.abandon {v g : Nat} {hand : Bool} {t : Tile} (h : t.Kept) : (t.abandon v g hand).Kept := by
  have h1 : (t.popped.advance v t.flow.pc t.flow.due g hand).Kept := h.popped.advance
  unfold Tile.abandon; dsimp only
  exact .withSys h1 h1.hsv h1.bpa

/-! ## Traps and slots -/

namespace Keeps

section Slots
variable {s : State}

theorem takeTrap {id : TileId} {t : Tile} {cause part info c next : Nat} {cyc : Bool} (h : s.MemOk) (ht : t.Kept) :
    (s.takeTrap id t cause part info c next cyc).MemOk := by
  unfold State.takeTrap; dsimp only; split
  · split
    · exact setTile h ht
    · exact setKernel (setTile h ht)
  · split
    · exact updDie (setTile h (.counted ht)) fun _ h => h
    · split
      · exact setKernel (updDie (setTile h (.counted ht)) fun _ h => h)
      · exact tickFree (at' (at' (setKernel (updDie (setTile h (.counted ht)) fun _ h => h))))

theorem handOver {id : TileId} {v k : Nat} (h : s.MemOk) : (s.handOver id v k).MemOk := by
  unfold State.handOver; dsimp only; split <;> exact setTile h (h.tile id)

theorem waitCycle {reason : Nat} (h : s.MemOk) : (s.waitCycle reason).MemOk := by
  unfold State.waitCycle; dsimp only
  split
  · exact updDie (setTile h (.counted h.pre)) fun _ h => h
  · exact setTile h (.counted h.pre)

/-- A slot's meaning keeps the machine in the canonical forms when it keeps its tile so. -/
theorem runSlot {part : Nat} {f : Ctx → Tile → SlotRes} (h : s.MemOk) (hf : ∀ c t, t.Kept → (f c t).Kept) : OutOk (runSlot part s f) := by
  have hf := hf s.slotCtx _ (h.tile s.cur.tile)
  unfold Machine.runSlot; dsimp only
  split
  · next e =>
    rw [e] at hf
    refine next ?_
    split <;> exact setTile h hf
  · exact next (takeTrap h h.pre)
  · exact next (waitCycle h)

theorem endHandler {id : TileId} {t : Tile} (h : s.MemOk) (ht : t.Kept) : (s.endHandler id t).MemOk := by
  unfold State.endHandler; dsimp only; split
  · exact setTile h ht
  · exact setKernel (setTile h ht)

theorem scalarOp {cls : LatClass} {lat : Nat} {d : Reg} {f : Tile → Word} (h : s.MemOk) : OutOk (scalarOp s cls lat d f) :=
  runSlot h fun _ _ ht => .land ht

end Slots
end Keeps
end Sys2Proof.Machine
end

section
namespace Sys2Proof.Machine
namespace Keeps

/-! ## Control, loads and stores, system instructions -/

section
variable {s : State}

theorem execBr {cc : Cond} {a b : Reg} {off : BitVec 20} (h : s.MemOk) : OutOk (execBr cc a b off s) :=
  runSlot h fun _ _ ht => Tile.Kept.ite (.transfer ht) ht

theorem execRet {a : Reg} (h : s.MemOk) : OutOk (execRet a s) := runSlot h fun _ _ ht => .ite trivial (Tile.Kept.transfer ht)

theorem execBrme {off : BitVec 20} (h : s.MemOk) : OutOk (execBrme off s) := runSlot h fun _ _ ht => Tile.Kept.ite (.transfer ht) ht

theorem execLoop {a : Reg} {last : BitVec 16} {stages : BitVec 3} (h : s.MemOk) : OutOk (execLoop a last stages s) :=
  runSlot h fun _ _ ht => .ite trivial (.ite trivial (.ite (Tile.Kept.transfer ht) ht))

theorem execLbrk {a : Reg} {always : Bool} (h : s.MemOk) : OutOk (execLbrk a always s) :=
  runSlot h fun c t ht => by
    dsimp only; split
    · trivial
    · exact .ite trivial (.ite (Tile.Kept.transfer ht) ht)

theorem execMark {a : Reg} {tag : BitVec 16} (h : s.MemOk) : OutOk (execMark a tag s) := runSlot h fun _ _ ht => Tile.Kept.ite ht (.drift ht)

theorem execYield (h : s.MemOk) : OutOk (execYield s) := runSlot h fun _ _ ht => .ite trivial ht

theorem execHalt (h : s.MemOk) : OutOk (execHalt s) := by
  unfold Machine.execHalt; split
  · exact next (takeTrap h (h.tile _))
  · exact runSlot h fun _ _ ht => ht

theorem execEret (h : s.MemOk) : OutOk (execEret s) := by
  unfold Machine.execEret; split
  · exact next (endHandler h (.resumePos (h.tile _)))
  · exact runSlot h fun _ _ _ => trivial

theorem execEretSkip (h : s.MemOk) : OutOk (execEretSkip s) := by
  unfold Machine.execEretSkip; split
  · have h1 {v g : Nat} {hand : Bool} : (s.endHandler s.cur.tile ((s.tile s.cur.tile).resumePos.abandon v g hand)).MemOk :=
      endHandler h (.abandon (.resumePos (h.tile _)))
    exact next (ite (handOver (push h1)) (push h1))
  · exact runSlot h fun _ _ _ => trivial

/-! ## Holds -/

theorem ctxHeld {c : Nat} {held : Bool} (h : s.MemOk) : (s.ctxHeld c held).MemOk := h.ctxHeld c held

theorem holdTiles {k : Kernel} {held : Bool} (h : s.MemOk) : (s.holdTiles k held).MemOk := h.holdTiles k held

theorem openHold {n c : Nat} (h : s.MemOk) : (s.openHold n c).MemOk := h.openHold n c

theorem beginHold {n c : Nat} (h : s.MemOk) : (s.beginHold n c).MemOk := h.beginHold n c

theorem endHold {n c : Nat} (h : s.MemOk) : (s.endHold n c).MemOk := by
  unfold State.endHold; split
  · exact h
  · dsimp only; split
    · exact push (setKernel h)
    · exact setKernel h

theorem recordHold {n start mask : Nat} (h : s.MemOk) : (s.recordHold n start mask).MemOk := by
  unfold State.recordHold; split
  · exact h
  · exact setKernel (foldl (updTiles h fun _ ht => .drift ht) fun _ _ h => updDie h fun _ h => h)

theorem leaveSelfRefresh {k : Kernel} (h : s.MemOk) : (s.leaveSelfRefresh k).MemOk := updTiles h fun _ h => h

theorem closeHold {n wait : Nat} (h : s.MemOk) : (s.closeHold n wait).MemOk := by
  unfold State.closeHold; split
  · exact h
  · dsimp only
    refine updKernel (ctxHeld (holdTiles (leaveSelfRefresh ?_)))
    split
    · exact recordHold h
    · exact h

theorem execHoldRelease (h : s.MemOk) : OutOk (execHoldRelease s) := by
  refine next ?_
  split
  · exact h
  · split
    · exact closeHold h
    · exact h

theorem execSelfRefreshEntry (h : s.MemOk) : OutOk (execSelfRefreshEntry s) := by
  refine next ?_
  dsimp only; split
  · exact h
  · split
    · split
      · exact updTiles h fun _ h => h
      · exact h
    · split
      · exact updTile h fun _ h => h
      · exact h

/-! ## Objects, records and dirty marks -/

theorem vaultRead {t : TileId} {req o n : Nat} (h : s.MemOk) : (s.vaultRead t req o n).1.MemOk := h.vaultRead t req o n

theorem vaultWrite {t : TileId} {req o : Nat} {bs : List Byte} (h : s.MemOk) : (s.vaultWrite t req o bs).1.MemOk := h.vaultWrite t req o bs

theorem sysRead {c req a n : Nat} (h : s.MemOk) : (s.sysRead c req a n).1.MemOk := h.sysRead c req a n

theorem sysWrite {c req a : Nat} {bs : List Byte} (h : s.MemOk) : (s.sysWrite c req a bs).1.MemOk := h.sysWrite c req a bs

theorem recordRead {n die id : Nat} (h : s.MemOk) : (s.recordRead n die id).1.MemOk := by
  unfold State.recordRead; split
  · exact h
  · next t o _ =>
    have h1 := h.vaultRead (sameSpot t die) 1 (o + 128 * id) 128
    split <;> (next e => rw [e] at h1; exact h1)

theorem writeCopies {o : Nat} {bs : List Byte} {ts : List TileId} (h : s.MemOk) : (s.writeCopies o bs ts).MemOk :=
  foldl h fun _ _ h => vaultWrite h

theorem writeTable {n o : Nat} {bs : List Byte} (h : s.MemOk) : (s.writeTable n o bs).MemOk := by
  unfold State.writeTable; split
  · exact h
  · exact writeCopies h

theorem pin {n : Nat} {t : TileId} {tiles v : Nat} {nib : Bool} (h : s.MemOk) : (s.pin n t tiles v nib).1.MemOk := by
  unfold State.pin; dsimp only; split
  · exact h
  · have h1 : (s.recordRead n (dieOf t) (v % 65536)).1.MemOk := recordRead h
    split
    · next e => rw [e] at h1; exact h1
    · next s1 r e =>
      rw [e] at h1
      split
      · exact h1
      · have h2 : (s1.recordRead n (dieOf t) (recBits r 11 15 0)).1.MemOk := recordRead h1
        split <;> (next e => rw [e] at h2; exact h2)

theorem recordLoaded (h : s.MemOk) : (recordLoaded s).MemOk := by
  unfold Machine.recordLoaded; dsimp only; split
  · exact updTile (pin h) fun _ h => h
  · exact h

theorem markDmap {tm : List Word} {x : Start} {u : Nat} {on : Bool} (h : s.MemOk) : (s.markDmap tm x u on).MemOk := by
  unfold State.markDmap; split
  next a n _ =>
  have h1 := h.sysRead x.ctx 2 a 1
  split
  · next e => rw [e] at h1; exact sysWrite h1
  · next e => rw [e] at h1; exact h1

theorem nextUnit {d ch order k : Nat} (h : s.MemOk) : (s.nextUnit d ch order k).MemOk := h

theorem setChan {d ch : Nat} {c : Channel} (h : s.MemOk) : (s.setChan d ch c).MemOk := updDie h fun _ h => ⟨h.1, mapSet_rising _ _ _ _ h.2⟩

theorem updJob {d ch : Nat} {f : Job → Job} (h : s.MemOk) : (s.updJob d ch f).MemOk := setChan h

theorem markJob {d ch : Nat} {f : Job → Job} (h : s.MemOk) : (s.markJob d ch f).MemOk := by
  unfold State.markJob; split
  · exact h
  · dsimp only; split
    · exact nextUnit (updJob h)
    · exact updJob h

theorem noteDirty {id : TileId} {y : Stream} (h : s.MemOk) : (s.noteDirty id y).MemOk := by
  unfold State.noteDirty; split
  · exact foldl h fun _ _ h => markJob h
  · exact h

end
end Keeps
end Sys2Proof.Machine
end

section
namespace Sys2Proof.Machine

/-! ## The matrix engine -/

theorem Tile.Kept.setAcc {t : Tile} {k : Nat} {a : Accum} (h : t.Kept) : (t.setAcc k a).Kept := h

theorem Tile.Kept.setSlot {t : Tile} {n : Nat} {x : ScaleSlot} (h : t.Kept) : (t.setSlot n x).Kept := h

theorem Tile.Kept.landScale {t : Tile} {c : Ctx} {d : Reg} {ip : Bool} {codes lat : Nat} (h : t.Kept) : (c.landScale t d ip codes lat).Kept := by
  unfold Ctx.landScale Tile.scaleTarget
  cases ip
  · exact .land h
  · exact .land h

theorem Tile.Kept.pendFmt {t : Tile} {target v : Nat} (h : t.Kept) : (t.pendFmt target v).Kept := h

theorem Tile.Kept.applyFmt {t : Tile} {w : FmtWrite} (h : t.Kept) : (t.applyFmt w).Kept := by
  unfold Tile.applyFmt; dsimp only; split
  · exact h
  · exact .ite h h

theorem Ctx.clash_kept {c : Ctx} {k : Nat} : (c.clash k).Kept := .ite trivial trivial

namespace Keeps

section
variable {s : State}

theorem mmaOp {form : MmaForm} {d a b : Reg} {k : BitVec 4} (h : s.MemOk) : OutOk (mmaOp s form d a b k) :=
  runSlot h fun c t ht => by
    dsimp only; split
    · trivial
    · split
      · trivial
      · split
        · exact .ite trivial trivial
        · exact .ite trivial (.ite trivial (Tile.Kept.land ht))

theorem execAccz {d : Reg} (h : s.MemOk) : OutOk (execAccz d s) := runSlot h fun _ _ ht => .ite Ctx.clash_kept (Tile.Kept.land ht)

theorem execAccwr {d b : Reg} {row : BitVec 6} {int : Bool} (h : s.MemOk) : OutOk (execAccwr d b row int s) :=
  runSlot h fun _ _ ht => .ite Ctx.clash_kept (Tile.Kept.land ht)

theorem execAccwait {a : Reg} (h : s.MemOk) : OutOk (execAccwait a s) := runSlot h fun _ _ ht => Tile.Kept.ite ht ht

theorem accretOp {mode : RetMode} {d a b sc : Reg} (h : s.MemOk) : OutOk (accretOp s mode d a b sc) :=
  runSlot h fun c t ht => by
    dsimp only; split
    · trivial
    · refine .ite Ctx.clash_kept ?_
      cases mode <;> dsimp only
      case plain | apply => exact Tile.Kept.land (.setAcc (.land (.landStaging ht)))
      case amax | derive' => exact Tile.Kept.land (.setAcc (.land (.land (.landStaging (.setSlot ht)))))

theorem execOpld {d a : Reg} {q cnt : BitVec 2} {bind : Option Reg} (h : s.MemOk) : OutOk (execOpld d a q cnt bind s) :=
  runSlot h fun _ _ ht => Tile.Kept.land (.land ht)

theorem execOpclr {d : Reg} (h : s.MemOk) : OutOk (execOpclr d s) := runSlot h fun _ _ ht => Tile.Kept.land (.land ht)

theorem scaleOp {d : Reg} {ip : Bool} {lat : Nat} {g : Tile → List Nat} (h : s.MemOk) : OutOk (scaleOp s d ip lat g) :=
  runSlot h fun _ _ ht => Tile.Kept.landScale ht

theorem execFormatWriteEffect (h : s.MemOk) : OutOk (execFormatWriteEffect s) :=
  next (updTile h fun t ht => by
    dsimp only; split
    · exact ht
    · exact Tile.Kept.applyFmt ht)

end
end Keeps
end Sys2Proof.Machine
end

section
namespace Sys2Proof.Machine

/-! ## The vault and its commands -/

/-- A vault command leaves its tile in the canonical forms, where it completes. -/
def VaultRes.Kept : VaultRes → Prop
  | .done r => r.Kept
  | .refused _ _ => True

theorem VaultRes.Kept.ite {p : Prop} [Decidable p] {a b : VaultRes} (ha : a.Kept) (hb : b.Kept) : (if p then a else b).Kept := by
  split <;> assumption

theorem Trans.fail_kept {x : Trans} {h acc : Nat} : (x.fail h acc).Kept := by
  unfold Trans.fail; split <;> trivial

theorem Tile.Kept.withVault {t : Tile} {v : Vault} (h : t.Kept) (hv : v.Kept) : ({ t with vault := v } : Tile).Kept := h.updVault hv

theorem Tile.Kept.onVault {t : Tile} {f : Vault → Vault} (h : t.Kept) (hf : ∀ v, v.Kept → (f v).Kept) : (t.updVault f).Kept :=
  h.updVault (hf _ h.vault)

theorem Tile.Kept.noteRefusal {t : Tile} {cmd : VCmd} {f : VRefusal} (h : t.Kept) : (t.noteRefusal cmd f).Kept := by
  unfold Tile.noteRefusal Sys.refused
  exact .withSys h h.hsv h.bpa

theorem Tile.Kept.nextSeq {t : Tile} (h : t.Kept) : t.nextSeq.Kept := h

section
variable {v : Vault}

theorem Vault.Kept.noteAct {b now : Nat} (h : v.Kept) : (v.noteAct b now).Kept := h

theorem Vault.Kept.activate {b now page lvl : Nat} {raw : Bool} (h : v.Kept) : (v.activate b now page lvl raw).Kept := .noteAct (h.setBank _ _)

theorem Vault.Kept.precharge {b now lend : Nat} (h : v.Kept) : (v.precharge b now lend).Kept := h.setBank _ _

theorem Vault.Kept.train' {q stop wall : Nat} (h : v.Kept) : (v.train' q stop wall).Kept := h

theorem Vault.Kept.start {p : VParams} {x : Stream} {ap : Bool} (h : v.Kept) : (v.start p x ap).Kept :=
  Vault.Kept.setBank (v := { v with streams := _, bus := _, marks := _, wcap := _ }) h _ _

theorem Vault.Kept.serve {p : VParams} {c : Nat} {ok : Nat → Bool} {first : Bool} (h : v.Kept) : (v.serve p c ok first).Kept := by
  unfold Vault.serve; dsimp only; split <;> exact h

theorem Vault.Kept.foldl {α : Type} {f : Vault → α → Vault} {l : List α} (h : v.Kept) (hf : ∀ v x, v.Kept → (f v x).Kept) : (l.foldl f v).Kept := by
  induction l generalizing v with
  | nil => exact h
  | cons x r ih => exact ih (hf v x h)

end

theorem Tile.Kept.startStream {t : Tile} {p : VParams} {x : Stream} {ap : Bool} (h : t.Kept) : (t.startStream p x ap).Kept :=
  .nextSeq (.onVault h fun _ hv => .start hv)

theorem Tile.Kept.startNull {t : Tile} {x : Stream} (h : t.Kept) : (t.startNull x).Kept := .nextSeq (.onVault h fun _ hv => hv)

theorem Tile.Kept.scaleTarget {t : Tile} {name : Nat} {ip : Bool} (h : t.Kept) : (t.scaleTarget name ip).1.Kept := by
  unfold Tile.scaleTarget; split <;> exact h

namespace Keeps

section
variable {s : State}

theorem runVault {f : Ctx → Tile → VaultRes} (h : s.MemOk) (hf : ∀ c t, t.Kept → (f c t).Kept) : OutOk (runVault s f) := by
  have hf := hf s.slotCtx _ (h.tile s.cur.tile)
  unfold Machine.runVault
  split
  · next e =>
    rw [e] at hf
    exact runSlot h fun _ _ _ => hf
  · split
    · exact runSlot h fun _ _ _ => trivial
    · exact runSlot (cur h (.noteRefusal h.pre)) fun _ _ _ => trivial

theorem runPrivileged {f : Ctx → Tile → VaultRes} (h : s.MemOk) (hf : ∀ c t, t.Kept → (f c t).Kept) : OutOk (runPrivileged s f) := by
  unfold Machine.runPrivileged; split
  · exact runVault h hf
  · exact runSlot h fun _ _ _ => trivial

theorem execAct {a b : Reg} (h : s.MemOk) : OutOk (execAct a b s) :=
  runVault h fun c t ht => by
    split
    · exact ht
    · split
      · trivial
      · exact Tile.Kept.onVault ht fun _ hv => .activate hv
    · exact Trans.fail_kept

theorem execActraw {bank : BitVec 7} {page : BitVec 12} (h : s.MemOk) : OutOk (execActraw bank page s) :=
  runPrivileged h fun c t ht => by
    split
    · trivial
    · exact Tile.Kept.onVault ht fun _ hv => .activate hv

theorem execPre {bank : BitVec 7} {lend : BitVec 13} (h : s.MemOk) : OutOk (execPre bank lend s) :=
  runVault h fun c t ht => by
    split
    · trivial
    · exact ht
    · exact Tile.Kept.onVault ht fun _ hv => .precharge hv

theorem execPrea (h : s.MemOk) : OutOk (execPrea s) :=
  runVault h fun c t ht => by
    dsimp only; split
    · trivial
    · exact Tile.Kept.onVault ht fun _ hv => .foldl hv fun _ _ hv => .precharge hv

theorem execRef {bank : BitVec 7} (h : s.MemOk) : OutOk (execRef bank s) :=
  runVault h fun c t ht => by
    dsimp only; split
    · trivial
    · exact Tile.Kept.onVault ht fun _ hv => .noteAct (hv.setBank _ _)

theorem execTrain {q : BitVec 2} (h : s.MemOk) : OutOk (execTrain q s) :=
  runPrivileged h fun c t ht => by
    dsimp only; split
    · trivial
    · split
      · trivial
      · exact Tile.Kept.onVault ht fun _ hv => .train' hv

theorem execBstat {d : Reg} {bank : BitVec 7} (h : s.MemOk) : OutOk (execBstat d bank s) := runVault h fun _ _ ht => Tile.Kept.land ht

theorem execVfence {lvl : Level} (h : s.MemOk) : OutOk (execVfence lvl s) :=
  runVault h fun c t ht => by
    split
    · trivial
    · exact ht

theorem columnOp {op : Nat} {read ap : Bool} {a b cr : Reg} {sl n : BitVec 6} (h : s.MemOk) : OutOk (columnOp s op read ap a b cr sl n) :=
  runVault h fun c t ht => by
    dsimp only; split
    · exact .ite trivial (.ite (Tile.Kept.startNull ht) ht)
    · refine .ite trivial ?_
      split
      · trivial
      · exact Tile.Kept.startStream ht
    · exact Trans.fail_kept

theorem rawOp {op : Nat} {read : Bool} {cr : Reg} {sl n : BitVec 6} {bank : BitVec 7} (h : s.MemOk) : OutOk (rawOp s op read cr sl n bank) :=
  runPrivileged h fun c t ht => by
    dsimp only; split
    · trivial
    · exact Tile.Kept.startStream ht

theorem execRdop {d a b : Reg} {sl n : BitVec 6} {q : BitVec 2} {bind : Option Reg} (h : s.MemOk) : OutOk (execRdop d a b sl n q bind s) :=
  runVault h fun c t ht => by
    dsimp only; split
    · exact Tile.Kept.land (.startNull ht)
    · split
      · trivial
      · exact Tile.Kept.land (.startStream ht)
    · exact Trans.fail_kept

theorem execRdsc {d a b cr : Reg} (h : s.MemOk) : OutOk (execRdsc d a b cr s) :=
  runVault h fun c t ht => by
    dsimp only; split
    · trivial
    · exact Tile.Kept.land (.scaleTarget ht)
    · split
      · trivial
      · exact Tile.Kept.startStream (.landPending (.scaleTarget ht))

/-! ## Service agents -/

theorem queueWork {a : Ask} (h : s.MemOk) : (s.queueWork a).MemOk := foldl h fun _ _ h => updTile h fun _ ht => ht

theorem grantAsks (h : s.MemOk) : s.grantAsks.MemOk := foldl (ite h h) fun _ _ h => queueWork h

theorem serveCycle {k : Kernel} (h : s.MemOk) : (s.serveCycle k).MemOk :=
  grantAsks (foldl h fun s x h => by
    split
    · exact updTile h fun _ ht => .withVault ht (.serve ht.vault)
    · exact h)

theorem pollAsk {id : Nat} {row : Due} (h : s.MemOk) : (s.pollAsk id row).MemOk := h

theorem ask {agent : Nat} {row : Due} {needs : Needs} (h : s.MemOk) : (s.ask agent row needs).MemOk := by
  have h1 : (s.queueWork { id := s.asked, agent := agent, row := row, needs := needs }).MemOk := queueWork h
  unfold State.ask
  exact pollAsk h1

theorem proceed {id : Nat} (h : s.MemOk) : (s.proceed id).MemOk := by
  unfold State.proceed; split
  · exact h
  · next a _ =>
    have h1 : (a.tiles.foldl (fun (s : State) t =>
      if s.agentsInWall t && s.askFirst id t then
        s.updTile t fun x => { x with vault := { x.vault with work := x.vault.work.filter fun w => !(w.ask == id && s.mayBegin t w.bank) } }
      else s) s).MemOk := foldl h fun _ _ h => ite (updTile h fun _ ht => ht) h
    exact ite (pollAsk (ite (grantAsks h1) h1)) (ite (grantAsks h1) h1)

/-- The row of a service agent keeps the canonical forms when what it does at its turn keeps them. -/
theorem served {agent : Nat} {i : Instr} {needs : Needs} {act : State → State} (h : s.MemOk) (ha : ∀ s : State, s.MemOk → (act s).MemOk) :
    (s.served agent i needs act).MemOk := by
  unfold State.served; split
  · exact ha s h
  · exact proceed h
  · exact ite (ha s h) (ask h)

theorem finishAgents {ts : List TileId} (h : s.MemOk) : (s.finishAgents ts).MemOk :=
  grantAsks (foldl h fun _ _ h => ite h (updTile h fun _ ht => ht))

theorem dropAsks {p : Due → Bool} (h : s.MemOk) : (s.dropAsks p).MemOk :=
  foldl h fun _ _ h => foldl h fun _ _ h => updTile h fun _ ht => ht

end
end Keeps
end Sys2Proof.Machine
end

section
namespace Sys2Proof.Machine

/-! ## The events of a vault -/

section
variable {t : Tile}

theorem Tile.Kept.addTrap {cycle cause info : Nat} (h : t.Kept) : (t.addTrap cycle cause info).Kept := h

theorem Tile.Kept.addMesh {loss : Bool} {cycle addr : Nat} (h : t.Kept) : (t.addMesh loss cycle addr).Kept := .ite h h

theorem Tile.Kept.bufferSlot {k q : Nat} {lay : Bool} {cont lvl slot : Nat} {bs : List Byte} (h : t.Kept) : (t.bufferSlot k q lay cont lvl slot bs).Kept := h

theorem Tile.Kept.deliver {x : Stream} {bs : List Byte} (h : t.Kept) : (t.deliver x bs).Kept := by
  unfold Tile.deliver; split
  · exact .withStaging h (stagingPut_wf _ _ _ h.1)
  · exact .bufferSlot h
  · exact h

theorem Tile.Kept.holdSlot {x : Stream} {bs : List Byte} (h : t.Kept) : (t.holdSlot x bs).Kept := by
  unfold Tile.holdSlot; dsimp only; split
  · exact .launch h
  · exact .launch h
  · exact .deliver h

end

section
variable {v : Vault}

theorem Vault.Kept.updStream {seq : Nat} {f : Stream → Stream} (h : v.Kept) : (v.updStream seq f).Kept := h

theorem Vault.Kept.stepStream {seq : Nat} (h : v.Kept) : (v.stepStream seq).Kept := h

theorem Vault.Kept.updRetry {q : Nat} {f : Retry → Retry} (h : v.Kept) : (v.updRetry q f).Kept := h

theorem Vault.Kept.logBus {w cycle : Nat} (h : v.Kept) : (v.logBus w cycle).Kept := h

theorem Vault.Kept.touched {key slot : Nat} (h : v.Kept) : (v.touch key slot).Kept := h.touch key slot

/-- Bytes written into a page, as a slot or raw, keep the pages rising. -/
theorem Vault.Kept.writeSlot {key lvl slot : Nat} {raw : Bool} {bs : List Byte} (h : v.Kept) :
    (v.setPage key (if raw then pagePut (v.page key) (64 * slot) bs else pageWrite (v.page key) lvl slot bs)).Kept :=
  h.setPage key (by
    split
    · exact pagePut_rising _ _ _ (h.page key)
    · exact pageWrite_rising _ _ _ _ (h.page key))

end

namespace Keeps

section
variable {s : State}

/-- The vault of a tile changed. -/
theorem updVault {id : TileId} {f : Vault → Vault} (h : s.MemOk) (hf : ∀ v, v.Kept → (f v).Kept) : (s.updTile id fun t => t.updVault f).MemOk :=
  updTile h fun _ ht => .onVault ht hf

theorem bankEvent {p : Bank → Bool} {f : Bank → Bank} (h : s.MemOk) : OutOk (bankEvent s p f) :=
  next (updVault h fun _ hv => .ite (hv.setBank _ _) hv)

theorem awaitRetraining {t : TileId} {q : Nat} (h : s.MemOk) : (s.awaitRetraining t q).MemOk := h

theorem execTrainingWindowStart (h : s.MemOk) : OutOk (execTrainingWindowStart s) :=
  next (ite (awaitRetraining (updVault h fun _ hv => .train' hv)) (updVault h fun _ hv => hv))

theorem execTrainingWindowEnd (h : s.MemOk) : OutOk (execTrainingWindowEnd s) := next (updVault h fun _ hv => hv)

theorem execRetrainingDue (h : s.MemOk) : OutOk (execRetrainingDue s) := by
  refine next ?_
  dsimp only; split
  · exact h
  · exact ite h (ite (awaitRetraining (updVault h fun _ hv => hv)) (at' (updVault h fun _ hv => hv)))

theorem execForcedRetraining (h : s.MemOk) : OutOk (execForcedRetraining s) := by
  refine next ?_
  dsimp only; split
  · exact h
  · split
    · exact h
    · exact ite (endHold (awaitRetraining (updVault h fun _ hv => hv))) (ite h (at' (beginHold h)))

theorem execRefreshOverdue (h : s.MemOk) : OutOk (execRefreshOverdue s) :=
  next (updTile h fun _ ht => .addTrap (.onVault ht fun _ hv => hv.setBank _ _))

/-! ## Transfers and retries -/

theorem failTransfer {id : TileId} {x : Stream} {cycle : Nat} (h : s.MemOk) : (s.failTransfer id x cycle).MemOk := by
  unfold State.failTransfer; dsimp only
  refine updTile h fun t ht => ?_
  cases x.dest
  · exact .ite (.onVault ht fun _ hv => .stepStream hv) (.addTrap (.onVault ht fun _ hv => .stepStream hv))
  · exact .ite ht (.addTrap ht)
  · exact .ite ht (.addTrap ht)

theorem beginRetry {id : TileId} {x : Stream} {grp fails lane : Nat} {bs : List Byte} (h : s.MemOk) : (s.beginRetry id x grp fails lane bs).MemOk := by
  unfold State.beginRetry; dsimp only
  refine at' ?_
  split
  · exact ite (updVault h fun _ hv => hv) (beginHold (updVault h fun _ hv => hv))
  · exact updVault h fun _ hv => hv

theorem completeTransfer {id : TileId} {x : Stream} {bs : List Byte} (h : s.MemOk) : (s.completeTransfer id x bs).MemOk := by
  unfold State.completeTransfer; split
  · exact updTile h fun _ ht => .counted (.onVault (.ite ht (.ite (.deliver ht) (.holdSlot ht))) fun _ hv => .stepStream hv)
  · refine ite ?_ (noteDirty ?_)
    all_goals exact updTile h fun _ ht => .counted (.onVault ht fun _ hv => .stepStream (.touched (.writeSlot hv)))

theorem crossBus {id : TileId} {x : Stream} {cycle : Nat} {bs : List Byte} (h : s.MemOk) : (s.crossBus id x cycle bs).MemOk := by
  unfold State.crossBus; dsimp only; split
  · exact completeTransfer h
  · exact failTransfer (updVault h fun _ hv => .logBus hv)
  · exact push (beginRetry h)
  · exact push (beginRetry h)
  · exact beginRetry (updVault h fun _ hv => hv)

theorem execVaultReadTransfer (h : s.MemOk) : OutOk (execVaultReadTransfer s) := by
  refine next ?_
  dsimp only; split
  · exact h
  · refine ite h (ite (completeTransfer h) ?_)
    split
    · exact failTransfer (updTile (tickFree h) fun _ ht => .counted (.onVault ht fun _ hv => hv.logFinding ..))
    · exact crossBus (updTile (tickFree h) fun _ ht => .counted (.onVault ht fun _ hv => hv.logFinding ..))

theorem execVaultWriteTransfer (h : s.MemOk) : OutOk (execVaultWriteTransfer s) := by
  refine next ?_
  dsimp only; split
  · exact h
  · refine ite h (ite (updTile h fun _ ht => .onVault ht fun _ hv => .updStream hv) ?_)
    split
    · exact h
    · exact crossBus h

theorem execVinjParityInject (h : s.MemOk) : OutOk (execVinjParityInject s) := next (updVault h fun _ hv => hv)

theorem execVinjStuckLane (h : s.MemOk) : OutOk (execVinjStuckLane s) := next (updVault h fun _ hv => hv)

theorem endRetry {id : TileId} {r : Retry} {ok : Bool} {tries : Nat} (h : s.MemOk) : (s.endRetry id r ok tries).MemOk := by
  have ended {s : State} (h : s.MemOk) : State.MemOk (match s.kernelOf id with
      | some (n, _) => s.endHold n 2
      | none => s) := by
    split
    · exact endHold h
    · exact h
  unfold State.endRetry; dsimp only
  refine ended ?_
  split
  · exact updVault h fun _ hv => hv
  · refine ite (completeTransfer ?_) (failTransfer ?_)
    all_goals exact updVault h fun _ hv => .ite (.logBus hv) hv

theorem execBusRetry (h : s.MemOk) : OutOk (execBusRetry s) := by
  refine next (ite (endHold h) ?_)
  dsimp only; split
  · exact h
  · have h1 := updTile (n := s.ev.tile) h fun _ ht => Tile.Kept.counted (ev := 9) (n := 1) ht
    refine ite (endRetry h1) (ite (ite (endRetry ?_) (at' ?_)) (ite (endRetry ?_) (at' ?_)))
    all_goals exact updVault h1 fun _ hv => .updRetry hv

theorem execLaneSwap (h : s.MemOk) : OutOk (execLaneSwap s) := by
  refine next ?_
  dsimp only; split
  · exact h
  · exact at' (updVault h fun _ hv => Vault.Kept.updRetry hv)

end
end Keeps
end Sys2Proof.Machine
end

section
namespace Sys2Proof.Machine

/-! ## System registers, landings and counters -/

section
variable {t : Tile}

theorem Tile.Kept.writeSys {n v : Nat} (h : t.Kept) : (t.writeSys n v).Kept := by
  have other {x : Sys} (h1 : x.hsv = t.sys.hsv) (h2 : x.bpa = t.sys.bpa) : ({ t with sys := x } : Tile).Kept :=
    .withSys h (h1 ▸ h.hsv) (h2 ▸ h.bpa)
  unfold Tile.writeSys
  refine .ite (other rfl rfl) (.ite (other rfl rfl) (.ite (other rfl rfl) (.ite (.withSys h (mapSet_rising _ _ _ _ h.hsv) h.bpa) (.ite (other rfl rfl) ?_))))
  refine .ite (.withSys h h.hsv (mapSet_rising _ _ _ _ h.bpa)) (.ite (other rfl rfl) (.ite (other rfl rfl) (.ite (other rfl rfl) ?_)))
  refine .ite (.onVault h fun v hv => .congr hv rfl rfl) (.ite (other rfl rfl) (.ite (.withJp h (mapSet_rising _ _ _ _ h.jp)) (.ite (.withJp h h.jp) ?_)))
  refine .ite (other rfl rfl) (.ite (.withPcc h (mapSet_rising _ _ _ _ h.pcc)) (.ite (other rfl rfl) (.ite (other rfl rfl) (.ite (other rfl rfl) h))))

theorem Tile.Kept.setV {n : Nat} {v : VWord} (h : t.Kept) : (t.setV n v).Kept := .withRegs h h.sregs

theorem Tile.Kept.setMk {n : Nat} {v : Mask} (h : t.Kept) : (t.setMk n v).Kept := .withRegs h h.sregs

theorem Tile.Kept.setBuf {k : Nat} {b : Buffer} (h : t.Kept) : (t.setBuf k b).Kept := h

theorem Tile.Kept.setOhe {k : Nat} {e : OhEntry} (h : t.Kept) : (t.setOhe k e).Kept := h

theorem Tile.Kept.mapName {a b : Nat} (h : t.Kept) : (t.mapName a b).Kept := h

theorem Tile.Kept.orFlags {f : FlagSet} (h : t.Kept) : (t.orFlags f).Kept := h

theorem Tile.Kept.writeResult {r : Result} (h : t.Kept) : (t.writeResult r).Kept := by
  unfold Tile.writeResult
  cases r.dst <;> dsimp only
  case sreg => exact .setS h
  case vreg => exact .setV h
  case mk => exact .setMk h
  case mstack => exact .withRegs h h.sregs
  case scale => exact .ite (.setSlot h) (.mapName (.setSlot h))
  case flagsOnly | fcsr => exact h
  case sysreg => exact .writeSys h
  case staging => exact .withStaging h (putSBytes_wf _ _ h.1)
  case acc | accRow | accZero | accRetire => exact .setAcc h
  case buffer | bufSlot => exact .setBuf h
  case tag => exact .stamp h
  case handle =>
    split
    · split
      · exact .frame (.setOhe h)
      · exact .frame h
    · exact h
  case unpin => exact .setOhe h
  case jpPosted => exact .withJp h (mapSet_rising _ _ _ _ h.jp)
  case latch =>
    exact .withJp (.setS h) h.jp

theorem Tile.Kept.landResult {r : Result} (h : t.Kept) : (t.landResult r).Kept := by
  unfold Tile.landResult; dsimp only
  split
  · exact .frame (.writeResult h)
  · exact .frame (.orFlags (.writeResult h))

theorem Tile.Kept.zeroCount {k note : Nat} (h : t.Kept) : (t.zeroCount k note).Kept := .withPcc h h.pcc

theorem Tile.Kept.driftOverflow {cycle k : Nat} (h : t.Kept) : (t.driftOverflow cycle k).Kept := .withPcc h h.pcc

theorem Tile.Kept.endCounts (h : t.Kept) : t.endCounts.Kept := .ite h (.withPcc h h.pcc)

end

namespace Keeps

section
variable {s : State}

theorem execMfs {d : Reg} {n : BitVec 12} (h : s.MemOk) : OutOk (execMfs d n s) :=
  runSlot h fun _ _ ht => .ite trivial (.ite trivial (Tile.Kept.ite (.withPcc (.land ht) (Tile.Kept.land ht).pcc) (.land ht)))

theorem execMts {a : Reg} {n : BitVec 12} (h : s.MemOk) : OutOk (execMts a n s) :=
  runSlot h fun _ _ ht => .ite trivial (.ite trivial (Tile.Kept.land ht))

theorem execResultLanding (h : s.MemOk) : OutOk (execResultLanding s) := by
  refine next ?_
  dsimp only; split
  · exact h
  · refine ite ?_ (push (setTile h (.landResult (h.tile _))))
    split
    · exact ite h (beginHold h)
    · exact h

theorem execRecordLoadComplete (h : s.MemOk) : OutOk (execRecordLoadComplete s) :=
  next (served h fun s h => by
    have h1 := recordLoaded h
    dsimp only; split
    · exact ite (endHold h1) h1
    · exact h1)

theorem execLqEntryDiscard (h : s.MemOk) : OutOk (execLqEntryDiscard s) :=
  next (updTile h fun t ht => by split <;> exact ht)

theorem execLqFlagsWrite (h : s.MemOk) : OutOk (execLqFlagsWrite s) :=
  next (updTile h fun t ht => by split <;> exact ht)

theorem execLqvWrite (h : s.MemOk) : OutOk (execLqvWrite s) :=
  next (updTile h fun t ht => by
    dsimp only; split
    · exact ht
    · refine .ite ht ?_
      split
      · exact .ite ht ht
      · exact ht)

theorem execVwdatWrite (h : s.MemOk) : OutOk (execVwdatWrite s) :=
  next (updTile h fun t ht => by
    dsimp only; split
    · exact .setV ht
    · exact .ite (.setMk ht) ht
    · exact .withRegs ht ht.sregs
    · exact ht)

theorem execMwdatWrite (h : s.MemOk) : OutOk (execMwdatWrite s) :=
  next (updTile h fun t ht => by
    dsimp only; split
    · exact .ite (.setAcc ht) ht
    · exact .ite (.setBuf ht) ht
    · exact .ite (.setSlot ht) ht
    · exact ht)

theorem execVlcntWrite (h : s.MemOk) : OutOk (execVlcntWrite s) := next (updVault h fun _ hv => hv)

theorem execPccClear (h : s.MemOk) : OutOk (execPccClear s) := next (updTile h fun _ ht => .zeroCount ht)

theorem execPccReprogram (h : s.MemOk) : OutOk (execPccReprogram s) :=
  next (updTile h fun _ ht => .ite (.zeroCount ht) (.withPcc (.zeroCount ht) ht.pcc))

theorem execPccOvfClear (h : s.MemOk) : OutOk (execPccOvfClear s) := next (updTile h fun _ ht => .withPcc ht (mapSet_rising _ _ _ _ ht.pcc))

theorem execCounterOverflow (h : s.MemOk) : OutOk (execCounterOverflow s) :=
  next (updTile h fun t ht => by
    have marked {v : Word} : ({ t with perf := { t.perf with pcc := mapSet 0 t.perf.pcc s.ev.x v } } : Tile).Kept :=
      .withPcc ht (mapSet_rising _ _ _ _ ht.pcc)
    exact .ite marked (.ite ht (.ite (.driftOverflow marked) marked)))

end
end Keeps
end Sys2Proof.Machine
end

section
namespace Sys2Proof.Machine

/-! ## The mesh -/

section
variable {t : Tile}

/-- The sync state but for its job-control registers. -/
theorem Tile.Kept.withSync {x : Sync} (h : t.Kept) (hx : x.jp = t.sync.jp) : ({ t with sync := x } : Tile).Kept := .withJp h (hx ▸ h.jp)

theorem Tile.Kept.decrement {id : TileId} {k : Kernel} {c addr : Nat} (h : t.Kept) : (t.decrement id k c addr).Kept := .ite (.withSync h rfl) h

end

namespace Keeps

section
variable {s : State}

theorem meshSend {n : Nat} {bad : Tile → Bool} {dests : Tile → List TileId} {src : Tile → Option Nat} {vec : Tile → List (BitVec 512)} {b : Reg} (h : s.MemOk) :
    OutOk (meshSend s n bad dests src vec b) :=
  runSlot h fun _ t ht => .ite trivial (.ite (.ite trivial trivial) (Tile.Kept.withSync (t := t.nextSeq) (.nextSeq ht) rfl))

theorem execMeshFlitInject (h : s.MemOk) : OutOk (execMeshFlitInject s) := by
  refine next ?_
  dsimp only; split
  · exact h
  · split
    · exact setKernel (setTile h (.counted (.withSync (h.tile _) rfl)))
    · exact setTile h (.counted (.withSync (h.tile _) rfl))

theorem loseFlit {n c : Nat} {f : Flit} (h : s.MemOk) : (s.loseFlit n c f).MemOk := by
  unfold State.loseFlit; split
  · exact h
  · exact ite h (updTile (setKernel h) fun _ ht => .addMesh (.withSync ht rfl))

theorem execMeshFlitHop (h : s.MemOk) : OutOk (execMeshFlitHop s) := by
  refine next ?_
  dsimp only; split
  · exact h
  · split
    · exact h
    · exact foldl h fun _ _ h => loseFlit h

theorem execMeshFlitArrival (h : s.MemOk) : OutOk (execMeshFlitArrival s) := by
  refine next ?_
  dsimp only; split
  · exact h
  · split
    · exact h
    · refine ite (ite (setKernel h) (updTile (setKernel h) fun _ ht => .addMesh ht)) (updTile (setKernel h) fun _ ht => ?_)
      exact .decrement (.withStaging ht (stagingPut_wf _ _ _ ht.1))

end
end Keeps

/-! ## Cisterns, weirs and job control blocks -/

/-- A slot with a release check leaves its tile in the canonical forms, where it completes. -/
def CheckRes.Kept : CheckRes → Prop
  | .done r => r.Kept
  | .unmet _ => True

theorem CheckRes.Kept.ite {p : Prop} [Decidable p] {a b : CheckRes} (ha : a.Kept) (hb : b.Kept) : (if p then a else b).Kept := by
  split <;> assumption

theorem Tile.Kept.unmet {t : Tile} {u : Unmet} (h : t.Kept) : ({ t with sys := t.sys.unmet u } : Tile).Kept := by
  unfold Sys.unmet
  exact .withSys h h.hsv h.bpa

theorem Tile.Kept.request {c : Ctx} {t : Tile} {die byte lag : Nat} {kind : ReqKind} {dst : Option (Nat × LatClass × Nat)} (h : t.Kept) :
    (c.request t die byte lag kind dst).Kept := by
  unfold Ctx.request; split
  next t' res e =>
  have h1 : t'.Kept := by
    split at e <;> cases e
    · exact .landPending h
    · exact h
  exact .withSync (.counted (.nextSeq h1)) rfl

theorem Tile.Kept.wake {t : Tile} {cycle : Nat} (h : t.Kept) : (t.wake cycle).Kept := by
  unfold Tile.wake; split <;> exact h

theorem Tile.Kept.applied {t : Tile} {r : Req} (h : t.Kept) : (t.applied r).Kept := .withSync h rfl

theorem Die.Kept.withCistern {d : Die} {m : Map Word} (h : d.Kept) (hm : RisingMap m) : ({ d with cistern := m } : Die).Kept := ⟨hm, h.2⟩

/-- The traps of a block address complete nothing. -/
theorem Ctx.blockFault_kept {c : Ctx} {addr die : Nat} {r : SlotRes} (h : c.blockFault addr die = some r) : r.Kept := by
  unfold Ctx.blockFault at h
  repeat' split at h
  all_goals cases h
  all_goals trivial

theorem Ctx.producer_kept {c : Ctx} {t : Tile} {a : Reg} {r : SlotRes} (h : c.producer t a = .error r) : r.Kept := by
  unfold Ctx.producer at h
  dsimp only at h
  split at h
  · cases h; trivial
  · split at h
    · next e => cases h; exact blockFault_kept e
    · cases h

namespace Keeps

section
variable {s : State}

theorem setCword {d byte v : Nat} (h : s.MemOk) : (s.setCword d byte v).MemOk := updDie h fun _ h => .withCistern h (mapSet_rising _ _ _ _ h.1)

theorem runChecked {part : Nat} {f : Ctx → Tile → CheckRes} (h : s.MemOk) (hf : ∀ c t, t.Kept → (f c t).Kept) : OutOk (runChecked part s f) := by
  have hf := hf s.slotCtx _ (h.tile s.cur.tile)
  unfold Machine.runChecked; split
  · next e =>
    rw [e] at hf
    exact runSlot h fun _ _ _ => hf
  · split
    · exact runSlot h fun _ _ _ => trivial
    · exact runSlot (cur h (.unmet h.pre)) fun _ _ _ => trivial

theorem amoOp {o : Order} {d a : Reg} {kind : Tile → ReqKind} (h : s.MemOk) : OutOk (amoOp s o d a kind) :=
  runChecked h fun c t ht => by
    refine .ite trivial (.ite trivial (.ite trivial (.ite (SlotRes.Kept.ite trivial trivial) (.ite (Tile.Kept.land ?_) ?_))))
    · split
      · exact .landStaging ht
      · exact ht
    · dsimp only; split
      · trivial
      · exact Tile.Kept.request ht

theorem execFence {sc : Scope} (h : s.MemOk) : OutOk (execFence sc s) :=
  runChecked h fun c t ht => by
    split
    · trivial
    · exact ht

theorem execSev {a : Reg} (h : s.MemOk) : OutOk (execSev a s) := runSlot h fun _ _ ht => .ite trivial (Tile.Kept.withSync ht rfl)

theorem execWfe {d : Reg} (h : s.MemOk) : OutOk (execWfe d s) := runSlot h fun _ _ ht => .ite trivial (Tile.Kept.launch ht)

theorem execEventLatchSet (h : s.MemOk) : OutOk (execEventLatchSet s) :=
  next (updTile (updTile h fun _ ht => .withSync ht rfl) fun _ ht => .ite (.wake (.withSync ht rfl)) (.withSync ht rfl))

theorem weirWake {k : Kernel} {die byte : Nat} (h : s.MemOk) : (s.weirWake k die byte).MemOk :=
  foldl h fun _ _ h => ite (setTile h (.withSync (h.tile _) rfl)) h

theorem weirStep {k : Kernel} {die byte : Nat} {f : Nat → Nat × Bool} (h : s.MemOk) : (s.weirStep k die byte f).MemOk :=
  ite (weirWake (setCword h)) (setCword h)

theorem weirOp {d : Reg} {weir : BitVec 6} {die : BitVec 3} {extra : Nat} {pre : Ctx → Tile → Option CheckRes} {kind : Tile → ReqKind} (h : s.MemOk)
    (hpre : ∀ c t r, pre c t = some r → r.Kept) : OutOk (weirOp s d weir die extra pre kind) :=
  runChecked h fun c t ht => by
    refine .ite trivial ?_
    split
    · next e => exact hpre _ _ _ e
    · exact Tile.Kept.request ht

theorem execWarr {d : Reg} {weir : BitVec 6} {die : BitVec 3} (h : s.MemOk) : OutOk (execWarr d weir die s) :=
  weirOp h fun c t r e => by
    obtain ⟨u, -, rfl⟩ := Option.map_eq_some_iff.mp e
    trivial

theorem execWpend {d b : Reg} {weir : BitVec 6} {die : BitVec 3} (h : s.MemOk) : OutOk (execWpend d b weir die s) :=
  weirOp h fun c t r e => by
    split at e <;> cases e
    trivial

theorem execWeirByteDecrement (h : s.MemOk) : OutOk (execWeirByteDecrement s) := by
  refine next ?_
  dsimp only; split
  · exact weirStep (setTile h (.withSync (h.tile _) rfl))
  · exact h

theorem execJcbraise {d a : Reg} {b : Src} (h : s.MemOk) : OutOk (execJcbraise d a b s) :=
  runSlot h fun c t ht => by
    split
    · next e => exact Ctx.producer_kept e
    · exact Tile.Kept.request ht

theorem execJcbpost {d a : Reg} {b : Src} (h : s.MemOk) : OutOk (execJcbpost d a b s) :=
  runChecked h fun c t ht => by
    split
    · next e => exact Ctx.producer_kept e
    · dsimp only; split
      · trivial
      · exact Tile.Kept.request (.land ht)

theorem execJcbwait {d a : Reg} {w : BitVec 16} (h : s.MemOk) : OutOk (execJcbwait d a w s) :=
  runSlot h fun c t ht => by
    dsimp only; split
    · next e => exact Ctx.blockFault_kept e
    · exact Tile.Kept.request ht

theorem reply {id : TileId} {r : Req} {v : Nat} (h : s.MemOk) : (s.reply id r v).MemOk := by
  unfold State.reply; split
  · exact h
  · exact updTile h fun _ ht => ht

theorem jcbStep {k : Kernel} {r : Req} {post : Bool} {p n : Nat} (h : s.MemOk) : (s.jcbStep k r post p n).MemOk := setCword (setCword (setCword h))

theorem applyReq {id : TileId} {k : Kernel} {r : Req} (h : s.MemOk) : (s.applyReq id k r).MemOk := by
  unfold State.applyReq; dsimp only; split
  · exact h
  · exact reply (weirStep h)
  · exact reply (weirStep h)
  · exact reply h
  · exact reply h
  · exact reply (jcbStep h)
  · exact reply (jcbStep h)
  · exact reply h
  · refine reply ?_
    split
    · exact setCword h
    · exact h

theorem execCisternRequestApply (h : s.MemOk) : OutOk (execCisternRequestApply s) := by
  refine next ?_
  dsimp only; split
  · exact applyReq (setTile h (.applied (h.tile _)))
  · exact h

end
end Keeps
end Sys2Proof.Machine
end

section
namespace Sys2Proof.Machine

/-! ## The vector slot -/

section
variable {t : Tile} {c : Ctx}

theorem Tile.Kept.busyPair {pair : Bool} (h : t.Kept) : (c.busyPair t pair).Kept := .ite h h

theorem Tile.Kept.landStack {depth : Nat} {top : Mask} (h : t.Kept) : (c.landStack t depth top).Kept := .land h

theorem Tile.Kept.landMove {d : Reg} {pair : Bool} {es : List Nat} {on : Mask} {lat : Nat} (h : t.Kept) : (c.landMove t d pair es on lat).Kept :=
  .ite (.landLanes (.landLanes h)) (.landLanes h)

end

namespace Keeps

section
variable {s : State} {mt : Bool} {d a b : Reg}

theorem floatOp {f : Fmt} {rm : Rm} {cls : LatClass} {lat : Nat} {g : FpEnv → Tile → List (Nat × FlagSet)} (h : s.MemOk) :
    OutOk (floatOp s f rm mt d cls lat g) :=
  runSlot h fun _ _ ht => Tile.Kept.landElems (.busyPair ht)

theorem execVfcmp {f : Fmt} {cc : FCond} {b : Src} (h : s.MemOk) : OutOk (execVfcmp f cc mt d a b s) :=
  runSlot h fun _ _ ht => Tile.Kept.land (.busyPair ht)

theorem execVfcvt {dst src : Fmt} {rm : Rm} {hi : Bool} (h : s.MemOk) : OutOk (execVfcvt dst src rm mt d a b hi s) :=
  runSlot h fun _ _ ht => Tile.Kept.landElems (.busyPair ht)

/-- A slot that sends lanes on their way. -/
theorem lanesOp {part : Nat} {cls : Ctx → Tile → LatClass} {n lat : Ctx → Tile → Nat} {l : Ctx → Tile → List Nat} {on : Ctx → Tile → Mask}
    {f : Ctx → Tile → FlagSet} (h : s.MemOk) :
    OutOk (Machine.runSlot part s fun c t => .ok (c.landLanes t (cls c t) (n c t) (l c t) (on c t) (lat c t) (f c t))) :=
  runSlot h fun _ _ ht => Tile.Kept.landLanes ht

theorem intOp {b : Src} {g : BitVec 32 → BitVec 32 → BitVec 32} (h : s.MemOk) : OutOk (intOp s mt d a b g) := lanesOp h

theorem intOp1 {g : BitVec 32 → BitVec 32} (h : s.MemOk) : OutOk (intOp1 s mt d a g) := lanesOp h

theorem permOp {g : Tile → List Nat} (h : s.MemOk) : OutOk (permOp s mt d g) := lanesOp h

theorem execVmad {b : Src} {c : Reg} (h : s.MemOk) : OutOk (execVmad mt d a b c s) := lanesOp h

theorem execVsel {b : Src} {c : Reg} (h : s.MemOk) : OutOk (execVsel mt d a b c s) := lanesOp h

theorem clmulOp {hi : Bool} (h : s.MemOk) : OutOk (clmulOp s hi mt d a b) := lanesOp h

theorem execVmov {pair : Bool} (h : s.MemOk) : OutOk (execVmov mt d a pair s) :=
  runSlot h fun _ _ ht => Tile.Kept.ite (.landLanes (.landLanes ht)) (.landLanes ht)

theorem execVmovs {k : MovsForm} (h : s.MemOk) : OutOk (execVmovs k mt d a s) :=
  runSlot h fun _ _ ht => by
    cases k
    · exact Tile.Kept.landLanes ht
    · exact Tile.Kept.landLanes (.landLanes ht)
    · exact Tile.Kept.landLanes ht

theorem execVredadd {f : Fmt} (h : s.MemOk) : OutOk (execVredadd f mt d a s) := runSlot h fun _ _ ht => Tile.Kept.landElems ht

theorem redPick {mx : Bool} {k : RedKind} (h : s.MemOk) : OutOk (redPick s mx k mt d a) := runSlot h fun _ _ ht => Tile.Kept.landLanes ht

theorem execVscan {k : ScanKind} (h : s.MemOk) : OutOk (execVscan k mt d a s) := runSlot h fun _ _ ht => Tile.Kept.landLanes ht

theorem execVtopk {k : BitVec 7} (h : s.MemOk) : OutOk (execVtopk mt d a b k s) := runSlot h fun _ _ ht => Tile.Kept.landLanes (.landLanes ht)

theorem execMpush (h : s.MemOk) : OutOk (execMpush a s) := runSlot h fun _ _ ht => .ite trivial (Tile.Kept.landStack ht)

theorem execMinv (h : s.MemOk) : OutOk (execMinv s) := runSlot h fun _ _ ht => .ite trivial (Tile.Kept.landStack ht)

theorem execMpop (h : s.MemOk) : OutOk (execMpop s) := runSlot h fun _ _ ht => .ite trivial (Tile.Kept.landStack ht)

theorem execVld {w : Width} {sx pair : Bool} {off : BitVec 16} (h : s.MemOk) : OutOk (execVld mt d a w sx pair off s) :=
  runSlot h fun _ _ ht => Tile.Kept.landMove ht

theorem execVst {w : Width} {pair : Bool} {off : BitVec 16} (h : s.MemOk) : OutOk (execVst mt a b w pair off s) :=
  runSlot h fun _ _ ht => Tile.Kept.ite ht (.landStaging ht)

theorem execVgath {w : Width} {sx pair : Bool} {off : BitVec 16} (h : s.MemOk) : OutOk (execVgath mt d a b w sx pair off s) :=
  runSlot h fun _ _ ht => Tile.Kept.landMove ht

theorem execVscat {c : Reg} {w : Width} {pair : Bool} {off : BitVec 16} (h : s.MemOk) : OutOk (execVscat mt a b c w pair off s) :=
  runSlot h fun _ _ ht => Tile.Kept.ite ht (.landStaging ht)

end
end Keeps
end Sys2Proof.Machine
end

section
namespace Sys2Proof.Machine

/-! ## Bundles and their ends -/

/-- A map whose entries change alone keeps its order. -/
theorem risingMap_map {α β : Type} {f : Nat × α → Nat × β} {m : Map α} (h : RisingMap m) (hf : ∀ e, (f e).1 = e.1) : RisingMap (m.map f) := by
  rw [RisingMap, List.pairwise_map]
  exact h.imp fun {a b} hab => by rw [hf, hf]; exact hab

theorem Vault.Kept.openWindows {v : Vault} {c gap : Nat} (h : v.Kept) : (v.openWindows c gap).Kept := h

theorem Vault.Kept.withBanks {v : Vault} {m : Map Bank} (h : v.Kept) (hm : RisingMap m) : ({ v with banks := m } : Vault).Kept := ⟨hm, h.2⟩

section
variable {t : Tile}

theorem Tile.Kept.withBpsk {x : Bool} (h : t.Kept) : ({ t with sys := { t.sys with bpsk := x } } : Tile).Kept := .withSys h h.hsv h.bpa

theorem Tile.Kept.marker {pc : PC} {c k : Nat} (h : t.Kept) : (t.marker pc c k).Kept := .withPcc (.counted (.drift h)) (Tile.Kept.counted (t := t.drift ..) h).pcc

theorem Tile.Kept.countFmt (h : t.Kept) : t.countFmt.Kept := h

theorem Tile.Kept.endBundle {pre : Tile} {variant c : Nat} {pc : PC} {h : Header} {k : Nat} (ht : t.Kept) : (t.endBundle pre variant c pc h k).Kept := by
  have h1 : (if h.svc then t.updVault fun v => v.openWindows c h.gap else t).Kept := .ite (.onVault ht fun _ hv => .openWindows hv) ht
  have h2 : (if h.mkr then (if h.svc then t.updVault fun v => v.openWindows c h.gap else t).marker pc c k else
      if h.svc then t.updVault fun v => v.openWindows c h.gap else t).Kept := .ite (.marker h1) h1
  exact .frame (.withBpsk (t := Tile.count _ 1 1) (.counted (.countFmt (.advance h2))))

theorem Tile.Kept.castShade {variant : Nat} {pc : PC} {b : Bundle} (h : t.Kept) : (t.castShade variant pc b).Kept := .ite h h

theorem Tile.Kept.stopBefore {t' : Tile} {cause info : Nat} {cyc : Bool} (h : t.Kept) (e : t.stopBefore = some (t', cause, info, cyc)) : t'.Kept := by
  unfold Tile.stopBefore at e
  split at e
  · cases e; exact h
  · split at e
    · cases e; exact .withSys h h.hsv h.bpa
    · split at e
      · cases e
      · split at e <;> cases e
        exact .withBpsk h

theorem Tile.Kept.applyPending {l : List FmtWrite} (h : t.Kept) : (l.foldl Tile.applyFmt t).Kept := by
  induction l generalizing t with
  | nil => exact h
  | cons w r ih => exact ih h.applyFmt

end

namespace Keeps

section
variable {s : State}

theorem holdBefore {id : TileId} {n c : Nat} (h : s.MemOk) : (s.holdBefore id n c).MemOk := by
  unfold State.holdBefore; dsimp only; split
  · exact h
  · split
    · exact beginHold h
    · exact h
    · split
      · exact updKernel (beginHold h)
      · exact h

/-- What is still to do in the event in hand. -/
theorem todo {l : List Due} (h : s.MemOk) : ({ s with todo := l } : State).MemOk := h

theorem bundleTrap {id : TileId} {t : Tile} {cause part info c : Nat} (h : s.MemOk) (ht : t.Kept) : (s.bundleTrap id t cause part info c).MemOk :=
  takeTrap (todo h) ht

theorem startBundle {id : TileId} {c : Nat} {x : Header} {is : List (Part × Instr)} (h : s.MemOk) : (s.startBundle id c x is).MemOk := by
  have ht := h.tile id
  unfold State.startBundle; extract_lets pre t s' ctx
  have h1 : s'.MemOk := cur h ht
  split
  · exact bundleTrap h1 ht
  · refine ite (waitCycle h1) (ite (waitCycle h1) ?_)
    split
    · exact ite (waitCycle h1) (bundleTrap h1 ht)
    · split
      · exact ite (waitCycle h1) (bundleTrap h1 (.noteRefusal ht))
      · exact push (setTile h1 (.popped ht))

theorem issueBundle {id : TileId} {c : Nat} (h : s.MemOk) : (s.issueBundle id c).MemOk := by
  have ht := h.tile id
  unfold State.issueBundle; dsimp only; split
  · exact takeTrap (todo h) ht
  · split
    · next e => exact takeTrap (todo h) (ht.stopBefore e)
    · split
      · exact h
      · exact bundleTrap h ht
      · split
        · exact bundleTrap h ht
        · exact startBundle h

theorem awaitLoads {id : TileId} {ls : List RecLoad} (h : s.MemOk) : (s.awaitLoads id ls).MemOk := foldl h fun _ _ h => h

theorem finishBundle {id : TileId} (h : s.MemOk) : (s.finishBundle id).MemOk := by
  unfold State.finishBundle; extract_lets pre c ctx t asked
  split
  · exact h
  · split
    · exact h
    · extract_lets t1 t2 s1 s2 s3 s4 s5 s6
      have ht1 : t1.Kept := .castShade (.endBundle (h.tile id))
      have h1 : s1.MemOk := setTile h (.ite (.wake ht1) ht1)
      have h4 : s4.MemOk := updDie (foldl (awaitLoads h1) fun _ _ h => ite h (awaitRetraining h)) fun _ hd => hd
      have h5 : s5.MemOk := ite (handOver h4) h4
      refine push ?_
      unfold s6; split
      · exact ite (tickFree (setKernel h5)) h5
      · exact h5

theorem execBundleIssue (h : s.MemOk) : OutOk (execBundleIssue s) := by
  refine next ?_
  dsimp only; split
  · exact h
  · exact ite (finishBundle h) (ite (holdBefore h) (ite h (issueBundle h)))

theorem execHandlerBundleIssue (h : s.MemOk) : OutOk (execHandlerBundleIssue s) := by
  have ht := h.tile s.ev.tile
  refine next ?_
  dsimp only; split
  · exact h
  · refine ite h (ite (tickFree (at' h)) ?_)
    split
    · exact bundleTrap h ht
    · split
      · exact bundleTrap h ht
      · exact push (cur (setTile h (.frame ht)) ht)

/-! ## Stops, release and traps at a cycle -/

theorem execStopHorizon (h : s.MemOk) : OutOk (execStopHorizon s) := by
  refine next ?_
  split
  · exact h
  · refine ite (setKernel ?_) (beginHold (setKernel ?_))
    all_goals exact updTiles h fun _ ht => .ite ht ht

theorem execPartitionRelease (h : s.MemOk) : OutOk (execPartitionRelease s) := by
  refine next ?_
  dsimp only; split
  · exact h
  · exact tickFree (updKernel (closeHold h))

theorem haltedFault {id : TileId} {x : CycTrap} (h : s.MemOk) : (s.haltedFault id x).MemOk := by
  have h1 : ((s.updTile id fun t => { (t.count 6 1) with flow := { t.flow with st := .faulted } }).updDie (dieOf id) fun d =>
      { d with tun := { d.tun with traps := bump d.tun.traps x.cause 1 } }).MemOk := updDie (updTile h fun _ ht => .frame (.counted ht)) fun _ hd => hd
  unfold State.haltedFault; dsimp only; split
  · exact h1
  · exact setKernel h1

theorem execDeferredTrap (h : s.MemOk) : OutOk (execDeferredTrap s) := by
  have ht := h.tile s.ev.tile
  refine next ?_
  dsimp only; split
  · exact ite h (ite (haltedFault (setTile h ht)) (ite (takeTrap (todo h) ht) h))
  · exact h

theorem execTileHalted (h : s.MemOk) : OutOk (execTileHalted s) := by
  have h1 : (s.updTile s.ev.tile fun t =>
      let u := t.fmts.pend.foldl Tile.applyFmt t
      let t := { u with flow := { u.flow with st := .halted, haltBase := none }, fmts := { u.fmts with pend := [] } }
      t.updVault fun v => { v with banks := v.banks.map fun b => (b.1, { b.2 with st := .idle, ap := none }) }).MemOk :=
    updTile h fun _ ht => .onVault (.frame (.applyPending ht)) fun _ hv => .withBanks hv (risingMap_map hv.1 fun _ => rfl)
  refine next ?_
  dsimp only; split
  · exact setKernel h1
  · exact h1

/-! ## Segments -/

theorem placeSegments {k : Kernel} {id : TileId} {t : Tile} (h : s.MemOk) : (s.placeSegments k id t).MemOk :=
  foldl h fun _ _ h => foldl h fun _ _ h => updVault h fun _ hv => hv.setPage _ (pageWrite_rising _ _ _ _ (hv.page _))

theorem agentRead {t : TileId} {req bank page lvl slot : Nat} (h : s.MemOk) : (s.agentRead t req bank page lvl slot).1.MemOk := h.agentRead ..

theorem agentWrite {t : TileId} {req bank page lvl slot : Nat} {bs : List Byte} (h : s.MemOk) : (s.agentWrite t req bank page lvl slot bs).1.MemOk :=
  h.agentWrite ..

theorem readSlots {t : TileId} {l : List (Nat × Nat × Nat)} {s : State} (h : s.MemOk) : (s.readSlots t l).1.MemOk := by
  induction l generalizing s with
  | nil => exact h
  | cons p r ih =>
    obtain ⟨b, g, sl⟩ := p
    have h1 : (s.agentRead t 1 b g 0 sl).1.MemOk := agentRead h
    unfold State.readSlots; split
    · next e => rw [e] at h1; exact h1
    · next e =>
      rw [e] at h1
      have h2 := ih h1
      split <;> (next e => rw [e] at h2; exact h2)

theorem execSegmentCopyComplete (h : s.MemOk) : OutOk (execSegmentCopyComplete s) := by
  refine next ?_
  dsimp only; split
  · refine ite h (served h fun s h => ?_)
    exact ite (endHold (updTile (readSlots h) fun _ ht => ht)) (updTile (readSlots h) fun _ ht => ht)
  · exact h

end
end Keeps
end Sys2Proof.Machine
end

section
namespace Sys2Proof.Machine

/-! ## The sluices -/

theorem Ctx.startJob_kept {c : Ctx} {t : Tile} {addr : Nat} {data : Word} {dst : Option Reg} (h : t.Kept) : (c.startJob t addr data dst).Kept := by
  unfold Ctx.startJob; split
  · trivial
  · dsimp only; split
    · trivial
    · exact Tile.Kept.withSync (.request h) rfl

theorem pageForget_rising {p : Mem} {lo n : Nat} (h : RisingMap p) : RisingMap (pageForget p lo n) := h.filter _

namespace Keeps

section
variable {s : State}

/-- The state that comes with an answer. -/
theorem ofEq {α : Type} {p : State × α} {t : State} {x : α} (e : p = (t, x)) (h : p.1.MemOk) : t.MemOk := by
  subst e
  exact h

theorem addTokens {l n : Nat} (h : s.MemOk) : (s.addTokens l n).MemOk := by
  have h1 : ({ s with qe := { s.qe with tokens := mapSet {} s.qe.tokens l ((mapGet {} s.qe.tokens l).add n) } } : State).MemOk :=
    qe h h.queues (mapSet_rising _ _ _ _ h.tokens)
  exact ite (push h1) h1

theorem wakeRect {rect : Nat} (h : s.MemOk) : (s.wakeRect rect).MemOk :=
  foldl h fun s u h => by
    split
    · exact updTile h fun _ ht => .withSync ht rfl
    · exact h

theorem execStIo {a b : Reg} {off : BitVec 17} (h : s.MemOk) : OutOk (execStIo a b off s) := runChecked h fun _ _ ht => Ctx.startJob_kept ht

theorem execApst {d a : Reg} {b : Src} (h : s.MemOk) : OutOk (execApst d a b s) := runChecked h fun _ _ ht => Ctx.startJob_kept ht

theorem soon {i : Instr} {d ch y : Nat} (h : s.MemOk) : (s.soon i d ch y).MemOk := h

theorem putStart {d ch : Nat} {x : Start} (h : s.MemOk) : (s.putStart d ch x).1.MemOk := by
  unfold State.putStart; dsimp only; split
  · exact soon (setChan h)
  · exact ite (soon (setChan h)) (setChan h)

theorem execSluiceStartArrival (h : s.MemOk) : OutOk (execSluiceStartArrival s) := by
  have apply' {s : State} {id ch : Nat} {x : Start} {f : Die → Die} (h : s.MemOk) (hf : ∀ d, d.Kept → (f d).Kept) : ((s.updDie id f).putStart id ch x).1.MemOk :=
    putStart (updDie h hf)
  refine next (ite ?_ ?_)
  · split
    · split
      · exact reply (putStart (updTile h fun _ ht => .withSync ht rfl))
      · exact h
    · exact h
  · split
    · exact h
    · dsimp only; split
      · exact ite (at' (updDie h fun _ hd => hd)) (apply' h fun _ hd => hd)
      · exact apply' h fun _ hd => hd

/-! ## Objects, bricks and units -/

theorem setRecord {c id : Nat} {r : List Word} (h : s.MemOk) : (s.setRecord c id r).MemOk := writeTable (updCtx h fun _ hx => hx)

theorem editPinned {c id gen : Nat} {f : TileId → OhEntry → OhEntry} (h : s.MemOk) : (s.editPinned c id gen f).MemOk := by
  unfold State.editPinned; split
  · exact h
  · exact foldl h fun _ _ h => updTile h fun _ ht => ht

theorem refreshObjs {c o n : Nat} (h : s.MemOk) : (s.refreshObjs c o n).MemOk :=
  foldl h fun s i h => by
    split
    · next e => exact updCtx (ofEq e (sysRead h)) fun _ hx => hx
    · next e => exact ofEq e (sysRead h)

theorem tableWritten {c a : Nat} {bs : List Byte} (h : s.MemOk) : (s.tableWritten c a bs).MemOk := foldl h fun _ _ h => refreshObjs (writeTable h)

theorem brickRead {t : TileId} {bank page lvl slot n : Nat} {s : State} (h : s.MemOk) : (s.brickRead t bank page lvl slot n).1.MemOk := by
  induction n generalizing s slot with
  | zero => exact h
  | succ n ih =>
    unfold State.brickRead; split
    · next e => exact ofEq e (agentRead h)
    · next e =>
      have h1 := ofEq e (agentRead h)
      split <;> (next e => exact ofEq e (ih h1))

theorem brickWrite {t : TileId} {bank page lvl slot n : Nat} {bs : List Byte} {s : State} (h : s.MemOk) :
    (s.brickWrite t bank page lvl slot bs n).1.MemOk := by
  induction n generalizing s slot bs with
  | zero => exact h
  | succ n ih =>
    unfold State.brickWrite; split
    · next e => exact ofEq e (agentWrite h)
    · next e => exact ih (ofEq e (agentWrite h))

theorem setResidency {t : TileId} {bank page v : Nat} (h : s.MemOk) : (s.setResidency t bank page v).MemOk := updVault h fun _ hv => hv

theorem setBrickResidency {c : Nat} {r : List Word} {id g v : Nat} (h : s.MemOk) : (s.setBrickResidency c r id g v).MemOk := by
  unfold State.setBrickResidency; dsimp only
  split
  · next e => exact sysWrite (ofEq e (sysRead (setResidency h)))
  · next e => exact ofEq e (sysRead (setResidency h))

theorem sideRead {c : Nat} {x : Side} {size u : Nat} (h : s.MemOk) : (s.sideRead c x size u).1.MemOk := by
  unfold State.sideRead; split
  · dsimp only; split
    · exact h
    · exact brickRead h
  · exact sysRead h

theorem undefineSlot {t : TileId} {bank page lvl slot : Nat} (h : s.MemOk) : (s.undefineSlot t bank page lvl slot).MemOk :=
  updVault h fun _ hv => hv.setPage _ (pageForget_rising (pageForget_rising (hv.page _)))

theorem undefineBrick {t : TileId} {bank page lvl n : Nat} (h : s.MemOk) : (s.undefineBrick t bank page lvl n).MemOk :=
  foldl h fun _ _ h => undefineSlot h

theorem undefineBytes {t : TileId} {o n : Nat} (h : s.MemOk) : (s.undefineBytes t o n).MemOk := foldl h fun _ _ h => undefineSlot h

theorem sideWrite {c : Nat} {x : Side} {size u : Nat} {fill : Bool} {bs : List Byte} (h : s.MemOk) : (s.sideWrite c x size u fill bs).1.MemOk := by
  unfold State.sideWrite; split
  · dsimp only; split
    · exact h
    · split
      · next e => exact ofEq e (brickWrite h)
      · next e => exact undefineBrick (ofEq e (brickWrite h))
  · split
    · next e => exact tableWritten (ofEq e (sysWrite h))
    · next e =>
      have h1 := ofEq e (sysWrite h)
      dsimp only; split
      · exact ite (undefineBytes h1) h1
      · exact h1

theorem copyUnit {c : Nat} {tm : List Word} {u : Nat} (h : s.MemOk) : (s.copyUnit c tm u).1.MemOk := by
  unfold State.copyUnit; dsimp only; split
  · next e => exact ofEq e (sideRead h)
  · next e => exact sideWrite (ofEq e (sideRead h))

/-! ## Jobs -/

theorem jobFails {d ch fault : Nat} (h : s.MemOk) : (s.jobFails d ch fault).MemOk := soon (updJob h)

theorem unmove {d ch c : Nat} {tm : List Word} {j : Job} {fault v : Nat} (h : s.MemOk) : (s.unmove d ch c tm j fault v).MemOk := by
  unfold State.unmove; split
  · exact nextUnit (updJob (setBrickResidency h))
  · exact jobFails h

theorem unitDone {d ch c : Nat} {tm : List Word} {j : Job} (h : s.MemOk) : (s.unitDone d ch c tm j).MemOk := ite (soon (updJob h)) (nextUnit (updJob h))

theorem plainUnit {d ch c : Nat} {tm : List Word} {j : Job} {u : Nat} (h : s.MemOk) : (s.plainUnit d ch c tm j u).MemOk := by
  unfold State.plainUnit; dsimp only; split
  · split
    · next e => exact jobFails (ofEq e (sideRead h))
    · next e => exact nextUnit (updJob (ofEq e (sideRead h)))
  · split
    · next e => exact jobFails (ofEq e (sideWrite h))
    · next e =>
      have h1 := ofEq e (sideWrite h)
      refine unitDone ?_
      split
      · exact ite (setBrickResidency h1) h1
      · exact h1

theorem pageOutUnit {d ch c : Nat} {tm : List Word} {j : Job} {u : Nat} (h : s.MemOk) : (s.pageOutUnit d ch c tm j u).MemOk := by
  unfold State.pageOutUnit; split
  · exact h
  · refine ite (nextUnit (updJob (ite (setBrickResidency h) h))) ?_
    split
    · next e => exact nextUnit (updJob (ofEq e (copyUnit h)))
    · next e => exact unitDone (markJob (setBrickResidency (ofEq e (copyUnit h))))

theorem setWm {c id gen : Nat} {b : Brick} {wm : Nat} (h : s.MemOk) : (s.setWm c id gen b wm).MemOk := editPinned (updCtx h fun _ hx => hx)

theorem lowestWm {c id : Nat} (h : s.MemOk) : (s.lowestWm c id).MemOk := setRecord h

theorem endRelocate {d ch c id : Nat} (h : s.MemOk) : (s.endRelocate d ch c id).MemOk :=
  soon (updJob (updCtx (editPinned (setRecord h)) fun _ hx => hx))

theorem relocateBrick {d ch c : Nat} {tm : List Word} {j : Job} {k : Nat} (h : s.MemOk) : (s.relocateBrick d ch c tm j k).MemOk := by
  unfold State.relocateBrick; split
  · exact h
  · dsimp only; split
    · exact ite (endRelocate h) h
    · split
      · next e => exact jobFails (ofEq e (brickRead h))
      · next e =>
        have h1 := ofEq e (brickRead h)
        split
        · next e => exact jobFails (undefineBrick (ofEq e (brickWrite h1)))
        · next e =>
          have h2 := ofEq e (brickWrite h1)
          refine ite (endRelocate ?_) (nextUnit ?_)
          all_goals exact updJob (markJob (lowestWm (setWm (setResidency h2))))

theorem beginRelocate {c : Nat} {tm : List Word} (h : s.MemOk) : (s.beginRelocate c tm).MemOk := by
  unfold State.beginRelocate; split
  · exact h
  · exact ite h (updCtx (editPinned (setRecord (updCtx h fun _ hx => hx))) fun _ hx => hx)

theorem startVaults {d ch : Nat} {tm : List Word} {j : Job} (h : s.MemOk) : (s.startVaults d ch tm j).MemOk := by
  unfold State.startVaults; split
  · exact foldl h fun _ _ h => nextUnit h
  · exact h

theorem startJob {d ch : Nat} {j : Job} (h : s.MemOk) : (s.startJob d ch j).MemOk :=
  ite (soon (ite h (nextUnit h))) (nextUnit (ite h (nextUnit h)))

theorem execJobApply (h : s.MemOk) : OutOk (execJobApply s) := by
  refine next ?_
  dsimp only; split
  · exact startJob (setChan h)
  · exact startJob (tickFree (setChan h))
  · exact h

theorem writeDmap {d ch : Nat} {tm : List Word} {j : Job} (h : s.MemOk) : (s.writeDmap d ch tm j).MemOk := by
  unfold State.writeDmap; split
  · exact h
  · exact ite (updJob (markDmap h)) (nextUnit (updJob (markDmap h)))

theorem execJobUnit (h : s.MemOk) : OutOk (execJobUnit s) := by
  refine next ?_
  dsimp only; split
  · exact h
  · refine ite h (ite (served h fun s h => writeDmap h) (ite h (ite (soon h) (served h fun s h => ?_))))
    refine ite (ite (startVaults (beginRelocate h)) (relocateBrick h)) ?_
    split
    · exact unmove h
    · exact ite (pageOutUnit h) (plainUnit h)

/-! ## Completion records -/

theorem ringNow {c n : Nat} (h : s.MemOk) : (s.ringNow c n).1.MemOk := by
  unfold State.ringNow; dsimp only
  split <;> (next e => exact ofEq e (sysRead h))

theorem backInvalidate (h : s.MemOk) : s.backInvalidate.MemOk := by
  obtain ⟨hr, hk⟩ := h.tiles
  unfold State.backInvalidate
  refine host (s := { s with tiles := _ }) (tiles h (risingMap_map hr fun _ => rfl) fun e he => ?_) h.mem
  obtain ⟨x, hx, rfl⟩ := List.mem_map.mp he
  exact hk x hx

theorem irqs {l : List Nat} (h : s.MemOk) : ({ s with host := { s.host with irqs := l } } : State).MemOk := host h h.mem

theorem writeRecord {c n w0 w1 p : Nat} {wake : Bool} {t : State} (h : s.MemOk) (e : s.writeRecord c n w0 w1 p wake = some t) : t.MemOk := by
  unfold State.writeRecord at e; split at e
  next hr =>
  have h1 := ofEq hr (ringNow h)
  split at e
  · cases e
  · cases e
    have h2 := backInvalidate h1
    have hr {x : Context} {r : Ring} (hx : RisingMap x.rings) : RisingMap (mapSet {} x.rings n r) := mapSet_rising _ _ _ _ hx
    refine ite (wakeRect ?_) ?_
    all_goals exact irqs (sysWrite (updCtx (ite (sysWrite h2) h2) fun _ hx => hr hx))

theorem jobRecorded {d : Nat} {x : Start} (h : s.MemOk) : (s.jobRecorded d x).MemOk := by
  unfold State.jobRecorded; split
  · exact updTile h fun _ ht => .withSync ht rfl
  · exact h

theorem recordStart {d ch : Nat} {x : Start} {status fault bytes p : Nat} {after : State → State} (h : s.MemOk) (ha : ∀ s : State, s.MemOk → (after s).MemOk) :
    (s.recordStart d ch x status fault bytes p after).MemOk := by
  unfold State.recordStart
  -- the record's words and what writes them as variables, which the kernel does not evaluate
  obtain ⟨f, hf⟩ : ∃ f, f = State.writeRecord := ⟨_, rfl⟩
  obtain ⟨⟨w0, w1⟩, hw⟩ : ∃ w, w = recordWords x d ch status fault bytes := ⟨_, rfl⟩
  rw [← hf, ← hw]
  refine ite (soon h) (served h fun s h => ?_)
  dsimp only; split
  · exact soon h
  · next e => exact ha _ (jobRecorded (writeRecord h (hf ▸ e)))

theorem execJobCompletionRecord (h : s.MemOk) : OutOk (execJobCompletionRecord s) := by
  refine next (ite ?_ ?_)
  · split
    · exact h
    · exact recordStart h fun _ h => setChan h
  · split
    · exact h
    · split
      · exact h
      · refine ite (soon h) (recordStart h fun s h => ?_)
        refine ite (setChan ?_) (soon (setChan ?_))
        all_goals exact ite (addTokens h) h

end
end Keeps
end Sys2Proof.Machine
end

section
namespace Sys2Proof.Machine

/-! ## The queue engine -/

/-- What every step of a fold keeps of a map, the fold keeps. -/
theorem risingMap_foldl {α β : Type} {f : Map β → α → Map β} {l : List α} {m : Map β} (h : RisingMap m) (hf : ∀ m x, RisingMap m → RisingMap (f m x)) :
    RisingMap (l.foldl f m) := by
  induction l generalizing m with
  | nil => exact h
  | cons x r ih => exact ih (hf m x h)

theorem takeTokens_rising {m : Map TokenLink} {needs : List (Nat × Nat)} (h : RisingMap m) : RisingMap (takeTokens m needs) :=
  risingMap_foldl h fun _ _ h => mapSet_rising _ _ _ _ h

namespace Keeps

section
variable {s : State}

theorem setQueue {n : Nat} {q : Queue} (h : s.MemOk) : (s.setQueue n q).MemOk := qe h (mapSet_rising _ _ _ _ h.queues) h.tokens

theorem pollAt {q w : Nat} (h : s.MemOk) : (s.pollAt q w).MemOk := h

theorem beginPoll {n : Nat} (h : s.MemOk) : (s.beginPoll n).MemOk := ite h (pollAt (qe h h.queues h.tokens))

theorem execQueueServiceWrite {w : QueueWrite} (h : s.MemOk) : OutOk (execQueueServiceWrite w s) := by
  refine next ?_
  cases w with
  | descriptor n word v => exact ite (ite (beginPoll (setQueue h)) (setQueue h)) h
  | tokenLink l v =>
    have h1 {x : TokenLink} : ({ s with qe := { s.qe with tokens := mapSet {} s.qe.tokens l x } } : State).MemOk :=
      qe h h.queues (mapSet_rising _ _ _ _ h.tokens)
    exact ite (ite (push h1) h1) h

theorem execQueueEnable {n : Nat} (h : s.MemOk) : OutOk (execQueueEnable n s) := next (ite (beginPoll (setQueue h)) h)

theorem disableQueue {n fault : Nat} (h : s.MemOk) : (s.disableQueue n fault).MemOk :=
  qe (setQueue h) (mapSet_rising _ _ _ _ h.queues) h.tokens

theorem execQueueDisable {n : Nat} (h : s.MemOk) : OutOk (execQueueDisable n s) := next (ite (disableQueue h) h)

theorem execProgramInstall {slot : Nat} {kind : ProgKind} {code : List (BitVec 32)} {sig : Option Signed} (h : s.MemOk) :
    OutOk (execProgramInstall slot kind code sig s) := by
  have put {m : Map Program} : ({ s with qe := { s.qe with progs := m } } : State).MemOk := qe h h.queues h.tokens
  refine next ?_
  dsimp only; split
  · exact ite put h
  · exact ite (sec put (mapSet_rising _ _ _ _ h.meas)) h

/-! ### Packets -/

theorem pollNext {path n : Nat} (h : s.MemOk) : (s.pollNext path n).MemOk := by
  unfold State.pollNext; split
  · exact push h
  · exact ite (pollAt (qe h h.queues h.tokens)) (tickFree (pollAt h))
  · exact qe h h.queues h.tokens

theorem pollAgain {path : Nat} (h : s.MemOk) : (s.pollAgain path).MemOk := qe h h.queues h.tokens

theorem startRank (h : s.MemOk) : s.startRank.MemOk := by
  unfold State.startRank; split
  · exact qe h h.queues h.tokens
  · exact h

theorem takePacket {n : Nat} {p : List Word} (h : s.MemOk) : (s.takePacket n p).MemOk := by
  have h1 {q : Queue} {c a : Nat} {bs : List Byte} : ((s.setQueue n q).sysWrite c 1 a bs).1.MemOk := sysWrite (setQueue h)
  exact startRank (qe h1 h1.queues h1.tokens)

theorem execPacketFetch (h : s.MemOk) : OutOk (execPacketFetch s) := by
  refine next (ite h (ite (pollNext (dropAsks h)) (ite (pollAt h) (served h fun s h => ?_))))
  split
  · next e => exact pollNext (setQueue (ofEq e (sysRead h)))
  · next e =>
    have h1 := ofEq e (sysRead h)
    exact ite (pollNext (pollAgain (takePacket h1))) (ite (pollNext (pollAgain (setQueue h1))) (pollNext (setQueue h1)))

theorem execPacketDispatch (h : s.MemOk) : OutOk (execPacketDispatch s) := by
  refine next (ite (push h) ?_)
  split
  · exact push h
  · exact qe (push h) h.queues (takeTokens_rising h.tokens)

/-! ### Ops -/

theorem putRun {r : Option Run} (h : s.MemOk) : (s.putRun r).MemOk := ite (qe h h.queues h.tokens) (qe h h.queues h.tokens)

theorem setRun {r : Run} (h : s.MemOk) : (s.setRun r).MemOk := putRun h

theorem runOp {f : Run → Run} (h : s.MemOk) : OutOk (runOp s f) := by
  refine next ?_
  split
  · exact setRun h
  · exact h

theorem endMain (h : s.MemOk) : s.endMain.MemOk := push (qe h h.queues h.tokens)

theorem opFault {r : Run} {code : Nat} (h : s.MemOk) : (s.opFault r code).MemOk :=
  ite (startRank (qe (setQueue h) (mapSet_rising _ _ _ _ h.queues) h.tokens)) (endMain (setQueue h))

theorem accessOp {i : Instr} {c a : Nat} {write : Bool} {r : Run} {act : State → State} (h : s.MemOk) (ha : ∀ s : State, s.MemOk → (act s).MemOk) :
    (s.accessOp i c a write r act).MemOk := by
  unfold State.accessOp; split
  · exact ite (ha s h) (ask (putRun h))
  · exact proceed h
  · exact ha s h

theorem takeTurn (h : s.MemOk) : s.takeTurn.MemOk := ite h (qe h h.queues h.tokens)

theorem execIvLdw {d a : BitVec 4} {win : BitVec 2} {o : BitVec 14} (h : s.MemOk) : OutOk (execIvLdw d a win o s) := by
  have h1 := takeTurn h
  refine next ?_
  dsimp only; split
  · exact h1
  · split
    · exact opFault h1
    · refine accessOp h1 fun s h => ?_
      split
      · next e => exact opFault (ofEq e (sysRead h))
      · next e => exact setRun (ofEq e (sysRead h))

theorem execIvStw {d a : BitVec 4} {win : BitVec 2} {o : BitVec 14} (h : s.MemOk) : OutOk (execIvStw d a win o s) := by
  have h1 := takeTurn h
  refine next ?_
  dsimp only; split
  · exact h1
  · split
    · exact opFault h1
    · exact accessOp h1 fun s h => setRun (sysWrite h)

theorem execIvRank {a : BitVec 4} (h : s.MemOk) : OutOk (execIvRank a s) := by
  refine next ?_
  split
  · exact push (startRank (qe h h.queues h.tokens))
  · exact h

theorem outerStart {host' : Bool} {c die ch : Nat} {data : Word} (h : s.MemOk) : (s.outerStart host' c die ch data).MemOk :=
  ite (tickFree (at' (updDie h fun _ hd => hd))) (host h h.mem)

theorem execIvJob {a : BitVec 4} {die : BitVec 3} {ch : BitVec 6} (h : s.MemOk) : OutOk (execIvJob a die ch s) := by
  refine next ?_
  split
  · exact h
  · exact setRun (outerStart h)

theorem execIvLaunch {a : BitVec 4} (h : s.MemOk) : OutOk (execIvLaunch a s) := by
  refine next ?_
  split
  · exact h
  · refine ite (setRun h) ?_
    split
    · next e => exact ofEq e (sysRead (setRun h))
    · next e => exact tickFree (at' (updCtx (ofEq e (sysRead (setRun h))) fun _ hx => hx))

theorem execIvEvt {a : BitVec 4} (h : s.MemOk) : OutOk (execIvEvt a s) := by
  refine next ?_
  split
  · exact h
  · exact setRun (wakeRect h)

theorem execIvDone (h : s.MemOk) : OutOk (execIvDone s) := by
  refine next ?_
  split
  · exact h
  · exact endMain (qe h h.queues (risingMap_foldl h.tokens fun _ _ h => mapSet_rising _ _ _ _ h))

theorem execIvDrop (h : s.MemOk) : OutOk (execIvDrop s) := by
  refine next ?_
  split
  · exact h
  · exact endMain (setQueue h)

end
end Keeps
end Sys2Proof.Machine
end

section
namespace Sys2Proof.Machine

/-! ## Links, collectives and the host -/

/-- An LRECV leaves its tile in the canonical forms, where it completes. -/
def RecvRes.Kept : RecvRes → Prop
  | .done r => r.Kept
  | .short _ _ => True
  | .go t _ _ => t.Kept

theorem RecvRes.Kept.ite {p : Prop} [Decidable p] {a b : RecvRes} (ha : a.Kept) (hb : b.Kept) : (if p then a else b).Kept := by
  split <;> assumption

theorem Ctx.recv_kept {c : Ctx} {t : Tile} {a : Reg} {n ch : Nat} (h : t.Kept) : (c.recv t a n ch).Kept := by
  unfold Ctx.recv; split
  · trivial
  · refine .ite trivial (.ite (SlotRes.Kept.ite trivial trivial) ?_)
    exact Tile.Kept.withSync (t := t.nextSeq) (.nextSeq h) rfl

theorem State.MemOk.kernels {s : State} (h : s.MemOk) : RisingMap s.kernels := by
  obtain ⟨-, -, -, -, -, -, h, -⟩ := h
  exact h

namespace Keeps

section
variable {s : State}

theorem kernels {m : Map Kernel} (h : s.MemOk) (hm : RisingMap m) : ({ s with kernels := m } : State).MemOk := by
  obtain ⟨h1, h2, h3, h4, h5, h6, -, h⟩ := h
  exact ⟨h1, h2, h3, h4, h5, h6, hm, h⟩

theorem execLsend {a : Reg} {n : BitVec 8} {ch : BitVec 6} {rel : Bool} (h : s.MemOk) : OutOk (execLsend a n ch rel s) :=
  runChecked h fun c t ht => by
    split
    · trivial
    · refine .ite (SlotRes.Kept.ite trivial trivial) ?_
      split
      · trivial
      · exact Tile.Kept.withSync (t := t.nextSeq) (.nextSeq ht) rfl

theorem execLrecv {a : Reg} {n : BitVec 8} {ch : BitVec 6} {acq : Bool} (h : s.MemOk) : OutOk (execLrecv a n ch acq s) := by
  have hr : (s.slotCtx.recv (s.tile s.cur.tile) a (n.toNat + 1) ch.toNat).Kept := Ctx.recv_kept (h.tile _)
  unfold Machine.execLrecv; split
  · next e =>
    rw [e] at hr
    exact runSlot h fun _ _ _ => hr
  · refine next ?_
    have h1 : (({ s with todo := [] } : State).setTile s.cur.tile s.cur.pre).MemOk := setTile (todo h) h.pre
    dsimp only; split
    · exact updKernel (beginHold h1)
    · exact h1
  · next e =>
    rw [e] at hr
    exact runSlot (updLink h) fun _ _ _ => hr

/-! ### Link flits -/

theorem execLinkFlitAccept (h : s.MemOk) : OutOk (execLinkFlitAccept s) := by
  refine next ?_
  dsimp only; split
  · exact h
  · split
    · exact h
    · split
      · exact ite (push (setKernel h)) (ite (updLink (setKernel h)) (beginHold (updLink (setKernel h))))
      · exact h

theorem execCreditReturn {l n : Nat} (h : s.MemOk) : OutOk (execCreditReturn l n s) := by
  refine next ?_
  dsimp only; split
  · exact foldl (updLink h) fun _ _ h => endHold h
  · exact updLink h

theorem recvReady {n : Nat} (h : s.MemOk) : (s.recvReady n).MemOk := by
  unfold State.recvReady; split
  · exact h
  · exact foldl (setKernel h) fun _ _ h => endHold h

theorem entryAt {l w : Nat} (h : s.MemOk) : (s.entryAt l w).MemOk := h

theorem enterFlits {l : Nat} (h : s.MemOk) : (s.enterFlits l).MemOk := by
  unfold State.enterFlits; dsimp only; split
  · exact updLink h
  · exact entryAt (updLink h)

theorem execLinkFlitEnqueue {l ch : Nat} {p : BitVec 1024} (h : s.MemOk) : OutOk (execLinkFlitEnqueue l ch p s) := by
  refine next (ite h (ite ?_ (ite h (ite (entryAt (updLink h)) (updLink h)))))
  dsimp only; split
  · exact recvReady (enterFlits h)
  · exact enterFlits h

theorem execFlitReplay {l : Nat} (h : s.MemOk) : OutOk (execFlitReplay l s) := next (updLink (tickFree h))

theorem execLinkDown {l : Nat} (h : s.MemOk) : OutOk (execLinkDown l s) := next (ite h (ite (updLink h) (at' h)))

theorem execLinkTraining {l worst : Nat} (h : s.MemOk) : OutOk (execLinkTraining l worst s) := next (ite (at' (updLink h)) h)

theorem dateSlice {n start : Nat} (h : s.MemOk) : (s.dateSlice n start).MemOk := h

theorem linkTime {n : Nat} {m : Map Link} (h : s.MemOk) (hm : RisingMap m) : ({ s with ltBase := n, links := m } : State).MemOk :=
  links (s := { s with ltBase := n }) h hm

theorem execLinkBeacon {time : Nat} (h : s.MemOk) : OutOk (execLinkBeacon time s) := by
  refine next (push (foldl (linkTime h (risingMap_map h.links fun _ => rfl)) fun s k h => ?_))
  split
  · exact dateSlice h
  · exact h

theorem sendReserved {d : Nat} {x : PeerFlit} (h : s.MemOk) : (s.sendReserved d x).MemOk := updLink h

theorem hearReserved {d : Nat} {f : State → State} (h : s.MemOk) (hf : ∀ s : State, s.MemOk → (f s).MemOk) : (s.hearReserved d f).MemOk :=
  ite h (hf _ (updLink h))

theorem sendAbort {n : Nat} (h : s.MemOk) : (s.sendAbort n).MemOk := ite (sendReserved h) h

theorem execLinkReceiveTimeout (h : s.MemOk) : OutOk (execLinkReceiveTimeout s) := by
  refine next ?_
  split
  · exact h
  · split
    · exact ite (sendAbort (setKernel h)) h
    · exact h

/-! ### Collectives -/

theorem updColl {d order : Nat} {f : Collective → Collective} (h : s.MemOk) : (s.updColl d order f).MemOk := updDie h fun _ hd => hd

theorem collectiveSoon {d order y : Nat} (h : s.MemOk) : (s.collectiveSoon d order y).MemOk := h

theorem nextCollective {d : Nat} (h : s.MemOk) : (s.nextCollective d).MemOk := by
  unfold State.nextCollective; split
  · exact collectiveSoon h
  · exact h

theorem recordCollective {d : Nat} {x : Collective} {status fault bytes p : Nat} {t : State} (h : s.MemOk)
    (e : s.recordCollective d x status fault bytes p = some t) : t.MemOk := by
  unfold State.recordCollective at e
  obtain ⟨u, hu, rfl⟩ := Option.map_eq_some_iff.mp e
  exact nextCollective (updDie (writeRecord h hu) fun _ hd => hd)

theorem endCollective {d : Nat} {x : Collective} {root : List Nat} {fl : FlagSet} {t : State} (h : s.MemOk)
    (e : s.endCollective d x root fl = some t) : t.MemOk := by
  unfold State.endCollective at e
  extract_lets w pairs vs bs s1 s2 s3 flags s4 at e
  have h1 : s1.MemOk := sysWrite h
  have h2 : s2.MemOk := kernels h1 (risingMap_map h1.kernels fun _ => rfl)
  have h3 : s3.MemOk := sysWrite h2
  have h4 : s4.MemOk := sysWrite h3
  exact recordCollective h4 e

theorem shardMap {x : Collective} (h : s.MemOk) : (s.shardMap x).1.MemOk := by
  unfold State.shardMap; split <;> (next e => exact ofEq e (sysRead h))

theorem readShards {x : Collective} {l : List Nat} {s : State} (h : s.MemOk) : (s.readShards x l).1.MemOk := by
  induction l generalizing s with
  | nil => exact h
  | cons k r ih =>
    unfold State.readShards; dsimp only; split
    · exact h
    · split
      · next e => exact ofEq e (sysRead h)
      · next e =>
        have h1 := ofEq e (sysRead h)
        split <;> (next e => exact ofEq e (ih h1))

theorem readCollective {d : Nat} {x : Collective} (h : s.MemOk) : (s.readCollective d x).MemOk := by
  unfold State.readCollective; dsimp only; split
  · next e => exact updColl (ofEq e (sysRead h))
  · next e =>
    have h1 := ofEq e (sysRead h)
    split
    · next e => exact updColl (ofEq e (shardMap h1))
    · next e =>
      have h2 := ofEq e (shardMap h1)
      split
      · next e => exact updColl (ofEq e (readShards h2))
      · next e => exact ite (updColl (ofEq e (readShards h2))) (updColl (ofEq e (readShards h2)))

theorem failCollective {d : Nat} {x : Collective} (h : s.MemOk) : (s.failCollective d x).MemOk := collectiveSoon (sendReserved (updColl h))

theorem sendColl {d : Nat} {x : Collective} {send : List Nat} {again : Bool} (h : s.MemOk) : (s.sendColl d x send again).MemOk :=
  foldl (ite h (sendReserved h)) fun _ _ h => sendReserved h

theorem replayColl {d : Nat} {x : Collective} (h : s.MemOk) : (s.replayColl d x).MemOk := sendColl h

theorem workCollective {d : Nat} {x : Collective} (h : s.MemOk) : (s.workCollective d x).MemOk :=
  ite (failCollective (updColl (sendColl h))) (ite (collectiveSoon (updColl (sendColl h))) (updColl (sendColl h)))

theorem execCollectiveStart (h : s.MemOk) : OutOk (execCollectiveStart s) :=
  next (served h fun s h => by
    split
    next e =>
    split at e <;> (
      next e1 =>
      cases e
      have h1 := ofEq e1 (sysRead h)
      exact ite (collectiveSoon (updCtx (updDie h1 fun _ hd => hd) fun _ hx => hx)) (updCtx (updDie h1 fun _ hd => hd) fun _ hx => hx)))

theorem execCollectiveNodeValue {d node : Nat} {value : List Word} {flags : BitVec 6} (h : s.MemOk) : OutOk (execCollectiveNodeValue d node value flags s) :=
  next (hearReserved h fun s h => by
    have early : (s.updDie d fun y => { y with early := y.early ++ [(node, value, flags)] }).MemOk := updDie h fun _ hd => hd
    refine ite (updDie h fun _ hd => hd) ?_
    split
    · exact collectiveSoon (updColl (ite (replayColl h) h))
    · split
      · exact ite early (ite (replayColl h) h)
      · exact early)

theorem execCollectiveComplete (h : s.MemOk) : OutOk (execCollectiveComplete s) := by
  unfold Machine.execCollectiveComplete
  -- what ends a collective as variables, which the kernel does not evaluate
  obtain ⟨f, hf⟩ : ∃ f, f = State.recordCollective := ⟨_, rfl⟩
  obtain ⟨g, hg⟩ : ∃ g, g = State.endCollective := ⟨_, rfl⟩
  obtain ⟨v, hv⟩ : ∃ v, v = Collective.nodeValues := ⟨_, rfl⟩
  rw [← hf, ← hg, ← hv]
  refine next ?_
  dsimp only; split
  · exact h
  · refine ite h (ite (ite (collectiveSoon h) (served h fun s h => ite ?_ (ite ?_ ?_))) ?_)
    · split
      · next e => exact recordCollective h (hf ▸ e)
      · exact collectiveSoon h
    · split
      · next e => exact recordCollective h (hf ▸ e)
      · exact collectiveSoon h
    · split
      · next e => exact endCollective h (hg ▸ e)
      · exact collectiveSoon h
    · refine ite (collectiveSoon h) (ite (failCollective h) (ite (workCollective h) (ite (collectiveSoon h) (served h fun s h => ?_))))
      exact collectiveSoon (readCollective h)

/-! ### The host -/

theorem hostRefused (h : s.MemOk) : s.hostRefused.MemOk := host h h.mem

theorem hostReply {o : Nat} {line : BitVec 512} {poison : Bool} (h : s.MemOk) : (s.hostReply o line poison).MemOk := host h h.mem

theorem hostServe {p : HostPlace} {x : HostAccess} (h : s.MemOk) : (s.hostServe p x).MemOk := by
  refine ite ?_ ?_
  · cases p
    · exact sysWrite h
    · exact agentWrite h
  · cases p <;> dsimp only
    · split
      · next e => exact hostReply (ofEq e (sysRead h))
      · next e => exact hostReply (hostRefused (ofEq e (sysRead h)))
    · split
      · next e => exact hostReply (ofEq e (agentRead h))
      · next e => exact hostReply (hostRefused (ofEq e (agentRead h)))

theorem hostHoldsEnd (h : s.MemOk) : s.hostHoldsEnd.MemOk := foldl h fun _ _ h => ite (endHold h) h

/-- The accesses that wait. -/
theorem hostWaiting {l : List HostAccess} (h : s.MemOk) : ({ s with host := { s.host with waiting := l } } : State).MemOk := host h h.mem

theorem hostAccess {i : Instr} {write : Bool} {o : Nat} {line : BitVec 512} (h : s.MemOk) : (s.hostAccess i write o line).MemOk := by
  unfold State.hostAccess; dsimp only; split
  · exact hostHoldsEnd (ite (hostRefused (hostWaiting h)) (hostReply (hostRefused (hostWaiting h))))
  · exact served (ite (at' (host h h.mem)) h) fun s h => hostHoldsEnd (hostServe (hostWaiting h))

theorem execHostServiceTimeout (h : s.MemOk) : OutOk (execHostServiceTimeout s) := by
  refine next ?_
  split
  · exact h
  · split
    · exact h
    · split
      · exact ite (updKernel h) (beginHold h)
      · exact h

theorem execHostApertureStart {o width : Nat} {data : Word} (h : s.MemOk) : OutOk (execHostApertureStart o width data s) := by
  refine next ?_
  split
  · exact ite (outerStart h) (host h h.mem)
  · exact host h h.mem

theorem execHostSnoop {addr : Nat} (h : s.MemOk) : OutOk (execHostSnoop addr s) := next (host h h.mem)

end
end Keeps
end Sys2Proof.Machine
end

section
namespace Sys2Proof.Machine

/-! ## Images -/

/-- A numbered range is a map in order. -/
theorem rangeMap_rising {α : Type} {f : Nat → α} {n : Nat} : RisingMap ((List.range n).map fun k => (k, f k)) := by
  rw [RisingMap, List.pairwise_map]
  exact List.pairwise_lt_range

theorem wordMap_rising {l : List (Nat × Nat)} : RisingMap (wordMap l) := risingMap_foldl List.Pairwise.nil fun _ _ h => mapSet_rising _ _ _ _ h

theorem launchData_wf {e : DirEntry} {img : List Byte} : Memory.wf (e.launchData img).2 = true := extents_wf _ _ _ _ rfl

theorem tileImages_wf {die0 shape : Nat} {info : ImageInfo} {img : List Byte} {dir : List DirEntry} {e : TileId × TileImage}
    (h : e ∈ tileImages die0 shape info img dir) : Memory.wf e.2.staging = true := by
  obtain ⟨-, h⟩ := List.of_mem_zip (show (e.1, e.2) ∈ _ from h)
  obtain ⟨d, -, hd⟩ := List.mem_map.mp h
  rw [← hd]
  exact launchData_wf

theorem Vault.Kept.launched {v : Vault} {deadline wall : Nat} (h : v.Kept) : (v.launched deadline wall).Kept := ⟨rangeMap_rising, h.2⟩

theorem TileImage.tile_kept {x : TileImage} {old : Tile} {mbr : Map Word} {oh : Map OhEntry} {deadline wall : Nat} (h : old.Kept)
    (hx : Memory.wf x.staging = true) : (x.tile old mbr oh deadline wall).Kept :=
  ⟨hx, h.vault.launched, wordMap_rising, List.Pairwise.nil, List.Pairwise.nil, List.Pairwise.nil, List.Pairwise.nil⟩

theorem Vault.Kept.replan {v : Vault} {f : Nat → Nat} (h : v.Kept) : (v.replan f).Kept := ⟨risingMap_map h.1 fun _ => rfl, h.2⟩

theorem Tile.Kept.replan {t : Tile} {vmask old new c : Nat} (h : t.Kept) : (t.replan vmask old new c).Kept := by
  unfold Tile.replan; dsimp only; split
  · exact h
  · exact h

theorem Die.Kept.withoutJobs {d : Die} {f : Channel → Channel} {p : Nat × Channel → Bool} {cs : List Collective} (h : d.Kept) :
    ({ d with chans := (d.chans.map fun y => (y.1, f y.2)).filter p, coll := cs } : Die).Kept :=
  ⟨h.1, List.Pairwise.filter p (risingMap_map (f := fun y => (y.1, f y.2)) h.2 fun _ => rfl)⟩

namespace Keeps

/-- What every step of a fold keeps, the fold keeps; a step knows that its element is of the list. -/
theorem foldlMem {α : Type} {f : State → α → State} {l : List α} {s : State} (h : s.MemOk) (hf : ∀ s, ∀ x ∈ l, s.MemOk → (f s x).MemOk) :
    (l.foldl f s).MemOk := by
  induction l generalizing s with
  | nil => exact h
  | cons x r ih => exact ih (hf s x (List.mem_cons_self ..) h) fun s y hy => hf s y (List.mem_cons_of_mem _ hy)

section
variable {s : State}

theorem readImage {c addr : Nat} (h : s.MemOk) : (s.readImage c addr).1.MemOk := by
  unfold State.readImage; dsimp only; split
  · next e => exact ofEq e (sysRead h)
  · next e =>
    have h1 := ofEq e (sysRead h)
    split
    · next e => exact ofEq e (sysRead h1)
    · next e =>
      have h2 := ofEq e (sysRead h1)
      split <;> (next e => exact ofEq e (sysRead h2))

theorem launchPins {n : Nat} {t : TileId} {x : TileImage} (h : s.MemOk) : (s.launchPins n t x).1.MemOk :=
  foldlPair h fun p x h => by
    split
    · exact h
    · exact pin h

theorem allPins {n : Nat} {l : List (TileId × TileImage)} {s : State} (h : s.MemOk) : (s.allPins n l).1.MemOk := by
  induction l generalizing s with
  | nil => exact h
  | cons x r ih => exact ih (launchPins h)

/-! ## Kernels: launch, binding and start -/

theorem kernelRecord {c : Nat} {l : Launch} {ws : List Nat} (h : s.MemOk) : (s.kernelRecord c l ws).MemOk :=
  ite (ite (wakeRect (irqs (sysWrite (backInvalidate h)))) (irqs (sysWrite (backInvalidate h)))) h

theorem launchFailed {c : Nat} {l : Launch} {reason detail : Nat} (h : s.MemOk) : (s.launchFailed c l reason detail).MemOk := kernelRecord h

theorem loaderSoon {i : Instr} {c : Nat} (h : s.MemOk) : (s.loaderSoon i c).MemOk := h

theorem sendTable {c : Nat} {ls : List (List Word)} (h : s.MemOk) : (s.sendTable c ls).MemOk := ite (sendReserved h) h

theorem awaitTables {c : Nat} {l : Launch} {rest : List Launch} {ls : List (List Word)} (h : s.MemOk) : (s.awaitTables c l rest ls).MemOk :=
  loaderSoon (ite h (updCtx (sendTable h) fun _ hx => hx))

theorem execKernelLoad (h : s.MemOk) : OutOk (execKernelLoad s) := by
  unfold Machine.execKernelLoad
  -- the loader's checks as a variable, which the kernel does not evaluate
  obtain ⟨f, hf⟩ : ∃ f, f = State.imageFault := ⟨_, rfl⟩
  rw [← hf]
  refine next ?_
  dsimp only; split
  · next l rest _ _ =>
    have failed {s : State} {c r d : Nat} (h : s.MemOk) :
        (if rest.isEmpty then (s.updCtx c fun x => { x with launches := rest }).launchFailed c l r d else
          ((s.updCtx c fun x => { x with launches := rest }).launchFailed c l r d).loaderSoon .kernelLoad c).MemOk :=
      ite (launchFailed (updCtx h fun _ hx => hx)) (loaderSoon (launchFailed (updCtx h fun _ hx => hx)))
    have used {s : State} {p : Prop} [Decidable p] {n : Nat} (h : s.MemOk) : (if p then s.updDie n fun d => { d with peers := [] } else s).MemOk :=
      ite (updDie h fun _ hd => hd) h
    refine ite h ?_
    split
    · next e => exact failed (ofEq e (readImage h))
    · next e =>
      have h1 := ofEq e (readImage h)
      split
      · exact failed (used h1)
      · exact ite (failed h1) (awaitTables h1)
      · exact failed h1
      · exact awaitTables h1
      · exact loaderSoon (updCtx (used (ite h1 (sendTable h1))) fun _ hx => hx)
  · exact h

theorem clearDies {die0 shape : Nat} (h : s.MemOk) : (s.clearDies die0 shape).MemOk :=
  foldl (foldl (tickFree h) fun _ _ h => updDie h fun _ hd => ⟨List.Pairwise.nil, hd.2⟩) fun _ _ h => updLink h

theorem padLinks {die0 shape rank : Nat} {img : ImageInfo} {tables : Map (List (List Word))} (h : s.MemOk) : (s.padLinks die0 shape rank img tables).MemOk :=
  foldl h fun _ _ h => updLink h

theorem launchOver {c : Nat} (h : s.MemOk) : (s.launchOver c).MemOk := ite (updCtx h fun _ hx => hx) (loaderSoon (updCtx h fun _ hx => hx))

theorem bindWaiting (h : s.MemOk) : s.bindWaiting.MemOk := foldl h fun _ _ h => ite (loaderSoon h) h

theorem leavePartition {n : Nat} (h : s.MemOk) : (s.leavePartition n).MemOk := bindWaiting (delKernel h)

theorem setRecords {c : Nat} {l : List (List Word)} (h : s.MemOk) : (l.foldl (fun s r => s.setRecord c (recBits r 0 15 0) r) s).MemOk :=
  foldl h fun _ _ h => setRecord h

theorem bind {c : Nat} {k : Kernel} (h : s.MemOk) : (s.bind c k).MemOk :=
  ite (launchOver (launchFailed h)) (loaderSoon (updCtx (setKernel (foldl (setRecords h) fun _ _ h => placeSegments h)) fun _ hx => hx))

theorem install {c n : Nat} {k : Kernel} (h : s.MemOk) : (s.install c n k).MemOk := by
  unfold State.install; dsimp only; split
  · exact launchOver (leavePartition (launchFailed (allPins h)))
  · refine loaderSoon (updCtx (setKernel (padLinks (foldlMem (foldl (clearDies (allPins h)) fun s e h => ?_) fun s e he h => ?_))) fun _ hx => hx)
    · split
      · exact setCword h
      · exact h
    · obtain ⟨hm, -⟩ := List.of_mem_zip (show (e.1, e.2) ∈ _ from he)
      exact setTile h (TileImage.tile_kept (h.tile _) (tileImages_wf hm))

theorem execKernelBind (h : s.MemOk) : OutOk (execKernelBind s) := by
  refine next ?_
  dsimp only; split
  · exact install h
  · refine ite h ?_
    split
    · exact h
    · refine bind (setCtx h ?_)
      split <;> exact h.rings _
  · exact h

theorem timeCall {n : Nat} (h : s.MemOk) : (s.timeCall n).MemOk := by
  unfold State.timeCall; split
  · exact h
  · exact ite h (foldl (setKernel h) fun _ _ h => at' h)

theorem timeCalls (h : s.MemOk) : s.timeCalls.MemOk := foldl h fun _ _ h => timeCall h

theorem awaitAll {k : Kernel} (h : s.MemOk) : (s.awaitAll k).MemOk := foldl h fun _ _ h => foldl h fun _ _ h => awaitRetraining h

theorem sliceHold {n : Nat} (h : s.MemOk) : (s.sliceHold n).MemOk := by
  unfold State.sliceHold; split
  · exact h
  · exact ite (dateSlice (sendReserved (tickFree (tickFree (openHold (setKernel h)))))) h

theorem execTimetableStart (h : s.MemOk) : OutOk (execTimetableStart s) := by
  refine next ?_
  dsimp only; split
  · exact h
  · next k _ =>
    have h1 {x : Kernel} : (((s.updTiles k.tiles fun t => if t.flow.st = .ready then { t with flow := { t.flow with st := .running } } else t).setKernel
        s.ev.x x).awaitAll k).MemOk := awaitAll (setKernel (updTiles h fun _ ht => .ite ht ht))
    exact ite h (ite (sendAbort (updCtx (updKernel h1) fun _ hx => hx)) (timeCall (sliceHold h1)))

/-! ## Replan switches and completion -/

theorem thermalOverrun {n : Nat} (h : s.MemOk) : (s.thermalOverrun n).MemOk := by
  unfold State.thermalOverrun; split
  · exact h
  · exact ite h (updKernel (updTiles (beginHold h) fun _ ht => ht))

theorem switchVariant {n : Nat} {k : Kernel} {v : Nat} (h : s.MemOk) : (s.switchVariant n k v).MemOk :=
  timeCall (endHold (setKernel (updTiles h fun _ ht => .onVault (.ite (.replan ht) ht) fun _ hv => .replan hv)))

theorem health {x : Health} (h : s.MemOk) : ({ s with health := x } : State).MemOk := h

theorem execReplanSwitch (h : s.MemOk) : OutOk (execReplanSwitch s) := by
  refine next ?_
  dsimp only; split
  · exact h
  · next k _ =>
    have h1 : (s.setKernel s.ev.x { k with replanAt := none }).MemOk := setKernel h
    refine ite (ite (switchVariant h) h) (ite h1 ?_)
    have h2 := updKernel (n := s.ev.x) (f := fun k => { k with callFrom := [] }) (timeCalls (health
      (x := (s.setKernel s.ev.x { k with replanAt := none }).health.takeBack) h1))
    split
    · exact thermalOverrun h2
    · exact ite (timeCall h2) (tickFree (at' (updKernel (beginHold h2))))

theorem closeKernel {n : Nat} {k : Kernel} (h : s.MemOk) : (s.closeKernel n k).MemOk := by
  refine push (updKernel (updTiles ?_ fun _ ht => .ite ht ht))
  split
  · exact recordHold h
  · exact h

theorem freePartition {n : Nat} {k : Kernel} (h : s.MemOk) : (s.freePartition n k).MemOk :=
  leavePartition (updTiles (dropAsks h) fun t ht =>
    .onVault (.withSync (t := { t with flow := _, flight := _, loads := _ }) ht rfl) fun _ hv => ⟨risingMap_map hv.1 fun _ => rfl, hv.2⟩)

theorem takeChans {c die0 shape : Nat} (h : s.MemOk) : (s.takeChans c die0 shape).MemOk :=
  updCtx (foldl (dropAsks (dropAsks h)) fun _ _ h =>
    nextCollective (foldl (updDie h fun _ hd => .withoutJobs (f := fun y => y.without c) (p := fun y => y.2 != {}) hd) fun _ _ h => soon h)) fun _ hx => hx

theorem afterKernel_rings {x : Context} {k : Kernel} {status : Nat} (h : RisingMap x.rings) : RisingMap (x.afterKernel k status).rings := by
  unfold Context.afterKernel; dsimp only
  repeat' split
  all_goals exact h

theorem endKernel {n : Nat} {k : Kernel} (h : s.MemOk) : (s.endKernel n k).MemOk := by
  have h1 {p : Prop} [Decidable p] : (((if p then s.takeChans k.ctx k.die0 k.shape else s).updCtx k.ctx fun c =>
      c.afterKernel k (k.ending.getD 1)).freePartition n k).MemOk :=
    freePartition (updCtx (ite (takeChans h) h) fun _ hx => afterKernel_rings hx)
  exact ite h1 (loaderSoon h1)

theorem execKernelComplete (h : s.MemOk) : OutOk (execKernelComplete s) := by
  refine next ?_
  dsimp only; split
  · exact h
  · refine ite (ite h (closeKernel h)) (ite (endKernel h) (ite (loaderSoon h) (ite (push h) (ite (push h) ?_))))
    exact push (kernelRecord (setKernel h))

end
end Keeps
end Sys2Proof.Machine
end

section
namespace Sys2Proof.Machine

/-! ## Contexts -/

theorem numbered_rising {α : Type} [DecidableEq α] {d : α} {l : List α} : RisingMap (numbered d l) := by
  refine List.Pairwise.filter _ (List.pairwise_map.mpr ?_)
  have h : (l.zipIdx.map Prod.snd).Pairwise (· < ·) := by
    rw [List.zipIdx_map_snd]
    exact List.pairwise_lt_range'
  exact List.pairwise_map.mp h

section
variable {t : Tile}

theorem Tile.Kept.foldl {α : Type} {f : Tile → α → Tile} {l : List α} (h : t.Kept) (hf : ∀ t x, t.Kept → (f t x).Kept) : (l.foldl f t).Kept := by
  induction l generalizing t with
  | nil => exact h
  | cons x r ih => exact ih (hf t x h)

theorem Tile.Kept.regroup {b : List Byte} {n g : Nat} (h : t.Kept) : (t.regroup b n g).Kept := by
  induction n generalizing t g with
  | zero => exact h
  | succ n ih => exact ih (.foldl (.foldl (.setSlot h) fun _ _ h => .ite (.mapName h) h) fun _ _ h => .ite (.setBuf h) h)

theorem Tile.Kept.restored {variant : Nat} {oh : Map OhEntry} {b : List Byte} (h : t.Kept) : (t.restored variant oh b).Kept := by
  have laid {x : Tile} (h1 : Memory.wf x.staging = true) (h2 : x.vault = t.vault) (h3 : RisingMap x.regs.s) (h4 : RisingMap x.sys.hsv)
      (h5 : RisingMap x.sys.bpa) (h6 : RisingMap x.sync.jp) (h7 : RisingMap x.perf.pcc) : x.Kept := ⟨h1, h2 ▸ h.vault, h3, h4, h5, h6, h7⟩
  refine .frame (.regroup (.foldl (laid (stagingPut_wf _ _ _ rfl) rfl ?_ ?_ ?_ ?_ ?_) fun _ _ h => .setBuf h))
  all_goals exact wordMap_rising

end

namespace Keeps

section
variable {s : State}

theorem readGrains {c : Context} (h : s.MemOk) : (s.readGrains c).1.MemOk := by
  unfold State.readGrains; dsimp only
  split <;> (next e => exact ofEq e (vaultRead h))

theorem keys {m : Map TenantKeys} {n : Nat} (h : s.MemOk) : ({ s with sec := { s.sec with keys := m }, free := n } : State).MemOk :=
  sec (s := { s with free := n }) h h.meas

theorem giveKeys {n : Nat} (h : s.MemOk) : (s.giveKeys n).MemOk := ite h (keys h)

theorem readTable {c a n k : Nat} (h : s.MemOk) : (s.readTable c a n k).1.MemOk := by
  unfold State.readTable
  split <;> (next e => exact ofEq e (sysRead h))

theorem spreadTable {n : Nat} {objs : List (List Word)} (h : s.MemOk) : (s.spreadTable n objs).MemOk := by
  unfold State.spreadTable; split
  · exact h
  · exact writeCopies h

theorem placeTables {n : Nat} (h : s.MemOk) : (s.placeTables n).MemOk := by
  unfold State.placeTables; dsimp only
  refine updCtx (spreadTable (readTable (readTable (readTable h)))) fun _ _ => ?_
  exact numbered_rising

/-- The context that the host's window is bound to. -/
theorem hostBound {c : Option Nat} (h : s.MemOk) : ({ s with host := { s.host with ctx := c } } : State).MemOk := host h h.mem

theorem execContextTableInstall {n : Nat} (h : s.MemOk) : OutOk (execContextTableInstall n s) := by
  have h1 {gs : List (List Word)} : ((((s.readGrains (s.ctx n)).1.setCtx n { s.ctx n with grains := gs }).placeTables n).updCtx n fun x =>
      { x with st := .loaded }).MemOk := updCtx (placeTables (setCtx (readGrains h) (h.rings n))) fun _ hx => hx
  exact next (ite h (ite (readGrains h) (ite (hostBound h1) (loaderSoon (hostBound h1)))))

theorem described_rings {old : Context} {desc : List Word} {fresh kernel : Bool} (h : RisingMap old.rings) : RisingMap (old.described desc fresh kernel).rings := by
  unfold Context.described; dsimp only; split
  · exact List.Pairwise.nil
  · exact h

theorem execContextCreate {desc : List Word} (h : s.MemOk) : OutOk (execContextCreate desc s) := by
  refine next (ite h (ite (ite (setCtx (giveKeys (readGrains h)) ?_) (ite (setCtx (readGrains h) ?_) (placeTables (setCtx (readGrains h) ?_)))) (readGrains h)))
  all_goals exact described_rings (h.rings _)

/-! ### Destroying a context -/

theorem abortJobs {c : Nat} (h : s.MemOk) : (s.abortJobs c).MemOk :=
  foldl h fun s d h => by
    refine ite (nextCollective (foldl (updDie h ?_) fun _ _ h => soon h)) (foldl (updDie h ?_) fun _ _ h => soon h)
    all_goals exact fun _ hd => ⟨hd.1, risingMap_map hd.2 fun _ => rfl⟩

theorem rejoinJob {d : Nat} {x : Start} (h : s.MemOk) : (s.rejoinJob d x).MemOk := by
  unfold State.rejoinJob; split
  · exact updTile h fun _ ht => .withSync ht rfl
  · exact h

theorem takeLate {c old shape : Nat} (h : s.MemOk) : (s.takeLate c old shape).MemOk := updCtx (takeChans h) fun _ hx => hx

theorem free {n : Nat} (h : s.MemOk) : ({ s with free := n } : State).MemOk := h

theorem putChans {c old die0 shape : Nat} (h : s.MemOk) : (s.putChans c old die0 shape).MemOk := by
  refine free (updCtx (foldl (foldl (takeLate h) fun s e h => ?_) fun s e h => nextCollective (updDie h fun _ hd => hd)) fun _ hx => hx)
  have h1 {d ch : Nat} {x : Channel} {l : List Start} {m : List (Nat × Start)} :
      (m.foldl (fun s y => s.soon .jobCompletionRecord d ch (y.1 + 1)) (l.foldl (fun s y => s.rejoinJob d y) (s.setChan d ch x))).MemOk :=
    foldl (foldl (setChan h) fun _ _ h => rejoinJob h) fun _ _ h => soon h
  exact ite (soon h1) h1

theorem endYielded {n : Nat} {k : Kernel} {status : Nat} (h : s.MemOk) : (s.endYielded n k status).MemOk := kernelRecord h

theorem destroy {n : Nat} (h : s.MemOk) : (s.destroy n).MemOk := by
  unfold State.destroy; extract_lets c s1 s2 s3 s4 s5 s6 s7 s8
  have h1 : s1.MemOk := by
    unfold s1; split
    · exact endYielded h
    · exact h
  have h2 : s2.MemOk := by
    unfold s2; split
    · exact leavePartition (launchFailed h1)
    · exact launchFailed h1
    · exact h1
  have h3 : s3.MemOk := foldl h2 fun _ _ h => launchFailed h
  have h4 : s4.MemOk := ite (putChans h3) h3
  have h5 : s5.MemOk := updCtx h4 fun _ hx => hx
  have h6 : s6.MemOk := foldl h5 fun _ _ h => ite (updKernel h) h
  exact loaderSoon (foldl (abortJobs h6) fun _ _ h => ite (disableQueue h) h)

theorem execContextDestroy {n : Nat} (h : s.MemOk) : OutOk (execContextDestroy n s) := next (ite h (ite (updCtx h fun _ hx => hx) (destroy h)))

theorem wiped {c : Option Nat} {m : Map TenantKeys} (h : s.MemOk) :
    ({ s with host := { s.host with ctx := c }, sec := { s.sec with keys := m } } : State).MemOk :=
  sec (s := { s with host := { s.host with ctx := c } }) (hostBound h) h.meas

theorem execContextWipeComplete (h : s.MemOk) : OutOk (execContextWipeComplete s) := by
  refine next (ite h (ite (loaderSoon h) (wiped (setCtx (foldl h fun _ _ h => foldl h fun _ _ h => vaultWrite h) ?_))))
  exact List.Pairwise.nil

theorem execFaultAcknowledge {n : Nat} (h : s.MemOk) : OutOk (execFaultAcknowledge n s) := by
  have h1 : (s.setCtx n { s.ctx n with st := .loaded }).MemOk := setCtx h (h.rings n)
  exact next (ite h (ite h1 (loaderSoon h1)))

/-! ### Pre-emption and save -/

theorem execPreemptionRequest {n : Nat} (h : s.MemOk) : OutOk (execPreemptionRequest n s) := by
  refine next ?_
  split
  · exact h
  · exact ite h (setKernel h)

theorem execYieldStop (h : s.MemOk) : OutOk (execYieldStop s) := by
  refine next ?_
  dsimp only; split
  · exact h
  · split
    · exact h
    · refine ite h (ite (setKernel h) (tickFree (at' (updCtx (setKernel (updTiles h fun _ ht => ?_)) fun _ hx => hx))))
      exact ht

theorem closeBanks {k : Kernel} (h : s.MemOk) : (s.closeBanks k).MemOk :=
  updTiles h fun _ ht => .onVault ht fun _ hv => .withBanks hv (risingMap_map hv.1 fun _ => rfl)

theorem writeSaves {k : Kernel} {y : Nat} (h : s.MemOk) : (s.writeSaves k y).MemOk := foldl h fun _ _ h => vaultWrite h

theorem execContextSaveComplete (h : s.MemOk) : OutOk (execContextSaveComplete s) := by
  refine next ?_
  dsimp only; split
  · exact h
  · split
    · exact h
    · refine ite h (ite (ite (finishAgents (push h)) (ite (at' h) (tickFree (at' (closeBanks h))))) ?_)
      have h1 {n : Nat} {k x : Kernel} {c d e y : Nat} {f : Context → Context} (hf : ∀ x, RisingMap x.rings → RisingMap (f x).rings) :
          (((((s.writeSaves k y).setKernel n x).takeChans c d e).updCtx c f).freePartition n x).MemOk :=
        freePartition (updCtx (takeChans (setKernel (writeSaves h))) hf)
      exact ite (destroy (h1 fun _ hx => hx)) (h1 fun _ hx => hx)

/-! ### Restore -/

theorem repin {n : Nat} {t : TileId} {st : Nat} (h : s.MemOk) : (s.repin n t st).1.MemOk := by
  unfold State.repin; dsimp only; split
  · exact pin h
  · exact h

theorem repinAll {n : Nat} {t : TileId} {b : List Byte} (h : s.MemOk) : (s.repinAll n t b).1.MemOk := foldlPair h fun _ _ h => repin h

theorem readSaves {c : Context} {l : List Nat} {s : State} (h : s.MemOk) : (s.readSaves c l).1.MemOk := by
  induction l generalizing s with
  | nil => exact h
  | cons p r ih =>
    unfold State.readSaves; split
    · next e => exact ofEq e (vaultRead h)
    · next e =>
      have h1 := ofEq e (vaultRead h)
      split <;> (next e => exact ofEq e (ih h1))

theorem restoreTile {n : Nat} {t : TileId} {b : List Byte} {x : TileImage} {mbr : Map Word} {deadline wall variant : Nat} (h : s.MemOk)
    (hx : Memory.wf x.staging = true) :
    ((s.repinAll n t b).1.setTile t ((x.tile (s.tile t) mbr [] deadline wall).restored variant (s.repinAll n t b).2 b)).MemOk :=
  setTile (repinAll h) (.restored (TileImage.tile_kept (h.tile t) hx))

theorem execRestore {n die0 : Nat} (h : s.MemOk) : OutOk (execRestore n die0 s) := by
  refine next ?_
  dsimp only; split
  · have cleared : (s.tickFree.updCtx n fun x => { x with aborted := false }).MemOk := updCtx (tickFree h) fun _ hx => hx
    refine ite h (ite cleared ?_)
    have h1 := ite (p := (s.ctx n).aborted = true) cleared h
    have h2 {x : Context} (hx : RisingMap x.rings) := setCtx (n := n) (x := x) h1 hx
    split
    · next e => exact updCtx (ofEq e (readSaves (h2 (by split <;> exact h1.rings n)))) fun _ hx => hx
    · next e =>
      have h3 := ofEq e (readSaves (h2 (by split <;> exact h1.rings n)))
      split
      · next e => exact updCtx (ofEq e (readImage h3)) fun _ hx => hx
      · next e =>
        refine tickFree (at' (setKernel (padLinks (updCtx (putChans (foldl ?_ fun s e h => restoreTile h launchData_wf)) fun _ hx => hx))))
        exact foldl (clearDies (foldl (ofEq e (readImage h3)) fun _ _ h => placeSegments h)) fun _ _ h => setCword h
  · exact h

/-! ### Gang slices -/

theorem trySlice {n : Nat} (h : s.MemOk) : (s.trySlice n).MemOk := by
  unfold State.trySlice; split
  · exact h
  · split
    · exact h
    · exact ite (endHold (updCtx (setKernel h) fun _ hx => hx)) h

theorem execGangEntryFlit {n rank : Nat} (h : s.MemOk) : OutOk (execGangEntryFlit n rank s) :=
  next (hearReserved h fun s h => by
    have h1 : (s.updCtx n fun x => { x with entries := if x.entries.contains rank then x.entries else rank :: x.entries }).MemOk := updCtx h fun _ hx => hx
    dsimp only; split
    · exact trySlice h1
    · exact h1)

theorem execSliceStartTimeReached (h : s.MemOk) : OutOk (execSliceStartTimeReached s) := next (trySlice h)

theorem abortSlice {n : Nat} (h : s.MemOk) : (s.abortSlice n).MemOk := updKernel h

theorem execGangSliceAbort (h : s.MemOk) : OutOk (execGangSliceAbort s) := by
  refine next ?_
  split
  · exact h
  · split
    · exact h
    · exact ite (sendAbort (updCtx (abortSlice h) fun _ hx => hx)) h

theorem execGangAbortFlit {n : Nat} (h : s.MemOk) : OutOk (execGangAbortFlit n s) :=
  next (hearReserved h fun s h => by
    have h1 : (s.updCtx n fun x => { x with entries := [] }).MemOk := updCtx h fun _ hx => hx
    dsimp only; split
    · exact ite (updCtx h1 fun _ hx => hx) (ite (sendAbort (abortSlice h1)) h1)
    · split
      · exact ite h1 (sendAbort (updCtx (endYielded h1) fun _ hx => hx))
      · exact sendAbort (updCtx (kernelRecord h1) fun _ hx => hx)
      · exact h1)

end
end Keeps
end Sys2Proof.Machine
end

section
namespace Sys2Proof.Machine

/-! ## Power, life cycle, measurement and health -/

theorem Security.extend_meas {x : Security} {i : Nat} {d : BitVec 256} (h : RisingMap x.meas) : RisingMap (x.extend i d).meas := mapSet_rising _ _ _ _ h

namespace Keeps

section
variable {s : State}

/-- Without power nothing is listed, and the host's memory stands. -/
theorem unpowered (h : s.MemOk) : s.unpowered.MemOk :=
  ⟨.nil, h.mem, List.forall_mem_nil _, Tile.kept_default, .nil, List.forall_mem_nil _, .nil, .nil, List.forall_mem_nil _, .nil, .nil, .nil, .nil⟩

theorem secFree {x : Security} {n : Nat} (h : s.MemOk) (hx : RisingMap x.meas) : ({ s with sec := x, free := n } : State).MemOk :=
  sec (s := { s with free := n }) h hx

theorem measured {f : Firmware} (h : s.MemOk) : (s.measured f).MemOk :=
  secFree h (Security.extend_meas (Security.extend_meas (Security.extend_meas h.meas)))

theorem nextSample (h : s.MemOk) : s.nextSample.MemOk := ite h (tickFree (at' h))

theorem watchLinks (h : s.MemOk) : s.watchLinks.MemOk := foldl h fun _ _ h => at' h

/-- The state in which the boot begins. -/
theorem booting {ag : List (Nat × Due)} {w n : Nat} {y : Health} {x : Security} {l : HostLink} (h : s.MemOk) (hx : RisingMap x.meas)
    (hl : Memory.wf l.mem = true) : ({ s with agenda := ag, wall := w, free := n, health := y, sec := x, host := l } : State).MemOk :=
  host (s := { s with agenda := ag, wall := w, free := n, health := y, sec := x }) (sec (s := { s with agenda := ag, wall := w, free := n, health := y }) h hx) hl

theorem execPowerOn (h : s.MemOk) : OutOk (execPowerOn s) := by
  have h0 := unpowered h
  unfold Machine.execPowerOn
  extract_lets s0 _ _ s1 s2
  have h2 : s2.MemOk := watchLinks (nextSample (booting h0 h0.meas h0.mem))
  refine next ?_
  split
  · exact sec h2 h2.meas
  · exact sec h2 h2.meas
  · split
    · exact updCtx (measured (sec h2 h2.meas)) fun _ hx => hx
    · exact secFree h2 h2.meas

theorem execVendorProvisioning {device : Word} {seed k0 k1 k2 k3 : BitVec 256} (h : s.MemOk) : OutOk (execVendorProvisioning device seed k0 k1 k2 k3 s) :=
  next (ite (sec h h.meas) h)

theorem execOwnerEnrolment {cmd : Signed} (h : s.MemOk) : OutOk (execOwnerEnrolment cmd s) := next (ite (sec h h.meas) h)

/-- The end of the runs of the queue engine and of the tenants' keys. -/
theorem quiet {q : QueueEngine} {x : Security} (h : s.MemOk) (h1 : RisingMap q.queues) (h2 : RisingMap q.tokens) (h3 : RisingMap x.meas) :
    ({ s with qe := q, sec := x } : State).MemOk := sec (s := { s with qe := q }) (qe h h1 h2) h3

theorem endTenants (h : s.MemOk) : s.endTenants.MemOk := by
  unfold State.endTenants
  extract_lets s1 s2
  have h1 : s1.MemOk := foldl h fun s c h => ite h (ite (updCtx h fun _ hx => hx) (destroy h))
  have h2 : s2.MemOk := foldl h1 fun s q h => ite (disableQueue h) h
  exact quiet (updCtx h2 fun _ hx => hx) h2.queues h2.tokens h2.meas

theorem execReturnToken {cmd : Signed} (h : s.MemOk) : OutOk (execReturnToken cmd s) := next (ite (endTenants (sec h h.meas)) h)

theorem execRollbackAdvance {cmd : Signed} (h : s.MemOk) : OutOk (execRollbackAdvance cmd s) := next (ite (sec h h.meas) h)

theorem execScrapCommand {cmd : Signed} (h : s.MemOk) : OutOk (execScrapCommand cmd s) := next (ite (endTenants (sec h h.meas)) h)

theorem execSystemMeasurementExtend {i : Nat} {digest : BitVec 256} (h : s.MemOk) : OutOk (execSystemMeasurementExtend i digest s) :=
  next (ite (sec h (Security.extend_meas h.meas)) h)

theorem execAttestationReport {nonce : BitVec 256} (h : s.MemOk) : OutOk (execAttestationReport nonce s) := next (ite (sec h h.meas) h)

theorem execDbgctlGo {token : List Byte} (h : s.MemOk) : OutOk (execDbgctlGo token s) := by
  refine next (ite h (secFree h ?_))
  split
  · exact Security.extend_meas h.meas
  · exact h.meas

theorem timeLoop {upper : Bool} {old new : CoolingLoop} (h : s.MemOk) : (s.timeLoop upper old new).MemOk := by
  have h1 := ite (p := (old.bad.isNone && new.bad.isSome) = true)
    (at' (w := s.wall + nsUnits 10000000) (d := { i := .coolingLoopLost upper, arg := { y := s.wall } }) h) h
  exact ite (at' h1) h1

theorem execHealthSample {readings : Readings} (h : s.MemOk) : OutOk (execHealthSample readings s) := by
  have h1 {x : Health} {u v : Bool} {a b c d : CoolingLoop} : ((((({ s with health := x } : State).timeCalls).timeLoop u a b).timeLoop v c d).nextSample).MemOk :=
    nextSample (timeLoop (timeLoop (timeCalls (health h))))
  exact next (ite h (push (ite (at' h1) h1)))

theorem execLayerLimitExceeded (h : s.MemOk) : OutOk (execLayerLimitExceeded s) := by
  unfold Machine.execLayerLimitExceeded
  split
  · exact next h
  · exact next (ite (thermalOverrun h) h)

theorem execVariantWaitTimeout (h : s.MemOk) : OutOk (execVariantWaitTimeout s) := by
  unfold Machine.execVariantWaitTimeout
  split
  · exact next h
  · exact next (ite (thermalOverrun h) h)

theorem execCoolingLoopLost {upper : Bool} (h : s.MemOk) : OutOk (execCoolingLoopLost upper s) := by
  have h1 {x : Health} : (({ s with health := x } : State).timeCalls).MemOk := timeCalls (health h)
  exact next (ite h (ite (tickFree (at' h1)) h1))

theorem execCoolingLoopRestored {upper : Bool} (h : s.MemOk) : OutOk (execCoolingLoopRestored upper s) := next (ite (health h) h)

theorem execPackagePowerRemoval (h : s.MemOk) : OutOk (execPackagePowerRemoval s) := next (ite (unpowered h) h)

end
end Keeps
end Sys2Proof.Machine
end

section
namespace Sys2Proof.Machine
namespace Keeps

/-! ## A kernel's cycle -/

section
variable {s : State} {n : Nat} {k : Kernel}

theorem resume (h : s.MemOk) : (s.resume k).MemOk := updTiles h fun _ ht => ht

theorem countCycle (h : s.MemOk) : (s.countCycle k).MemOk :=
  foldl h fun s x h => by
    have h1 {b w : Nat} {c : Prop} [Decidable c] : (if c then s.updTile x.1 fun t => (t.count 2 b).count 11 w else s).MemOk :=
      ite (updTile h fun _ ht => .counted (.counted ht)) h
    exact ite h (ite (updDie h1 fun _ hd => hd) h1)

theorem endCycle (h : s.MemOk) : (s.endCycle n k).MemOk := setKernel (updTiles h fun _ ht => .endCounts ht)

theorem fromPhase {fuel p : Nat} (h : s.MemOk) : (s.fromPhase n k fuel p).MemOk := by
  induction fuel generalizing s p with
  | zero => exact endCycle h
  | succ fuel ih =>
    have h1 := ite (p := p = 13) (countCycle (k := k) h) h
    exact ite (ite (endCycle (serveCycle h)) (setKernel (serveCycle h))) (ite (ih h1) (push (setKernel h1)))

theorem wall {w : Nat} (h : s.MemOk) : ({ s with wall := w } : State).MemOk := h

theorem runCycle (h : s.MemOk) : (s.runCycle n k).MemOk := fromPhase (ite (resume (wall h)) (wall h))

/-- A dated row comes into hand. -/
theorem dated {ag : List (Nat × Due)} {w : Nat} {ds : List Due} (h : s.MemOk) : (({ s with agenda := ag, wall := w } : State).push ds).MemOk := h

theorem tick (h : s.MemOk) : s.tick.MemOk := by
  unfold State.tick
  split
  · exact push h
  · split
    · exact wall h
    · exact dated h
    · exact runCycle h
    · exact ite (dated h) (runCycle h)

/-! ## Every row, and every step -/

/-- Every row keeps the canonical forms: first the rows that share an operation, then those with a meaning of their own, in the order of the dispatch. -/
theorem row {i : Instr} (h : s.MemOk) : OutOk (exec i s) := by
  unfold exec
  cases i with
  | hint | nop => exact runSlot (f := fun _ t => .ok t) h fun _ _ ht => ht
  | add | sub | mul | mulh | mulhu | div | divu | rem | remu | and | or | xor | andn | shl | shr | sar | rot | clz | ctz | popc | min | max | minu
    | maxu | sel | cmp | movi | sext | zext | bfx | bfi | idx | madd => exact scalarOp h
  | j => exact runSlot h fun _ _ ht => Tile.Kept.transfer ht
  | call => exact runSlot h fun _ _ ht => Tile.Kept.land (.transfer ht)
  | ld | objunp | objq | objchk | vcmp | mand | mor | mnot | mcnt | vext | accrd | scbind | screl => exact runSlot h fun _ _ ht => Tile.Kept.land ht
  | st | accst | opst | scst => exact runSlot h fun _ _ ht => Tile.Kept.landStaging ht
  | amoCas | amoAdd | amoSwp | amoMin | amoMax | amoAnd | amoOr => exact amoOp h
  | objpin => exact runSlot h fun _ _ ht => Tile.Kept.land (.frame ht)
  | trap => exact runSlot h fun _ _ _ => trivial
  | vfadd | vfsub | vfmul | vfma | vfms | vfnma | vfdiv | vfsqrt | vfmin | vfmax | vfabs | vfneg | vfrnd | vscalb | vexp2 | vlog2 | vrcp | vrsq => exact floatOp h
  | vadd | vsub | vmul | vmulh | vand | vor | vxor | vshl | vshr | vsar | vmin | vmax => exact intOp h
  | vabs | vclz | vpopc => exact intOp1 h
  | vclmulLo | vclmulHi => exact clmulOp h
  | vperm | vshuf | vbcast => exact permOp h
  | vredmax | vredmin => exact redPick h
  | mma | mmaZ | mmaN => exact mmaOp h
  | accret | accretAmax | accretApply | accretDerive => exact accretOp h
  | scld | scmov | scmul | scmax | scmin | scq | scset | scgen => exact scaleOp h
  | fmt | ftsel => exact runSlot h fun _ _ ht => Tile.Kept.pendFmt ht
  | rd | rda | wr | wra => exact columnOp h
  | rdraw | wrraw => exact rawOp h
  | msend | msendv | mcast => exact meshSend h
  | wwait | wpoll => exact weirOp h fun _ _ _ e => by cases e
  | ivLdp | ivMovi | ivMovh | ivAdd | ivSub | ivAnd | ivOr | ivXor | ivShl | ivShr | ivBeq | ivBne | ivBltu | ivJf | ivLoop | ivNeed | ivTokadd => exact runOp h
  | hostMemRead | hostMemWrite => exact next (hostAccess h)
  | bankActivationComplete | autoPrecharge | prechargeComplete | refreshComplete | lendEnd => exact bankEvent h
  | vendorProvisioning => exact execVendorProvisioning h
  | ownerEnrolment => exact execOwnerEnrolment h
  | returnToken => exact execReturnToken h
  | rollbackAdvance => exact execRollbackAdvance h
  | scrapCommand => exact execScrapCommand h
  | attestationReport => exact execAttestationReport h
  | dbgctlGo => exact execDbgctlGo h
  | healthSample => exact execHealthSample h
  | coolingLoopLost => exact execCoolingLoopLost h
  | coolingLoopRestored => exact execCoolingLoopRestored h
  | br => exact execBr h
  | ret => exact execRet h
  | brme => exact execBrme h
  | loop => exact execLoop h
  | lbrk => exact execLbrk h
  | stIo => exact execStIo h
  | fence => exact execFence h
  | mfs => exact execMfs h
  | mts => exact execMts h
  | wfe => exact execWfe h
  | sev => exact execSev h
  | mark => exact execMark h
  | vfcmp => exact execVfcmp h
  | vfcvt => exact execVfcvt h
  | vmad => exact execVmad h
  | vsel => exact execVsel h
  | vredadd => exact execVredadd h
  | vscan => exact execVscan h
  | vtopk => exact execVtopk h
  | mpush => exact execMpush h
  | vmov => exact execVmov h
  | vmovs => exact execVmovs h
  | accz => exact execAccz h
  | accwr => exact execAccwr h
  | accwait => exact execAccwait h
  | opld => exact execOpld h
  | opclr => exact execOpclr h
  | act => exact execAct h
  | pre => exact execPre h
  | ref => exact execRef h
  | rdop => exact execRdop h
  | rdsc => exact execRdsc h
  | vfence => exact execVfence h
  | train => exact execTrain h
  | bstat => exact execBstat h
  | actraw => exact execActraw h
  | lsend => exact execLsend h
  | lrecv => exact execLrecv h
  | vld => exact execVld h
  | vst => exact execVst h
  | vgath => exact execVgath h
  | vscat => exact execVscat h
  | apst => exact execApst h
  | warr => exact execWarr h
  | wpend => exact execWpend h
  | jcbraise => exact execJcbraise h
  | jcbpost => exact execJcbpost h
  | jcbwait => exact execJcbwait h
  | queueEnable => exact execQueueEnable h
  | queueDisable => exact execQueueDisable h
  | programInstall => exact execProgramInstall h
  | preemptionRequest => exact execPreemptionRequest h
  | ivLdw => exact execIvLdw h
  | ivStw => exact execIvStw h
  | ivRank => exact execIvRank h
  | ivJob => exact execIvJob h
  | ivLaunch => exact execIvLaunch h
  | ivEvt => exact execIvEvt h
  | contextCreate => exact execContextCreate h
  | contextTableInstall => exact execContextTableInstall h
  | contextDestroy => exact execContextDestroy h
  | faultAcknowledge => exact execFaultAcknowledge h
  | restore => exact execRestore h
  | gangEntryFlit => exact execGangEntryFlit h
  | gangAbortFlit => exact execGangAbortFlit h
  | linkFlitEnqueue => exact execLinkFlitEnqueue h
  | flitReplay => exact execFlitReplay h
  | creditReturn => exact execCreditReturn h
  | linkDown => exact execLinkDown h
  | linkBeacon => exact execLinkBeacon h
  | collectiveNodeValue => exact execCollectiveNodeValue h
  | hostApertureStart => exact execHostApertureStart h
  | hostSnoop => exact execHostSnoop h
  | systemMeasurementExtend => exact execSystemMeasurementExtend h
  | queueServiceWrite => exact execQueueServiceWrite h
  | linkTraining => exact execLinkTraining h
  | powerOn => exact execPowerOn h
  | layerLimitExceeded => exact execLayerLimitExceeded h
  | packagePowerRemoval => exact execPackagePowerRemoval h
  | variantWaitTimeout => exact execVariantWaitTimeout h
  | bundleIssue => exact execBundleIssue h
  | handlerBundleIssue => exact execHandlerBundleIssue h
  | resultLanding => exact execResultLanding h
  | formatWriteEffect => exact execFormatWriteEffect h
  | stopHorizon => exact execStopHorizon h
  | partitionRelease => exact execPartitionRelease h
  | deferredTrap => exact execDeferredTrap h
  | tileHalted => exact execTileHalted h
  | holdRelease => exact execHoldRelease h
  | eret => exact execEret h
  | eretSkip => exact execEretSkip h
  | yield => exact execYield h
  | halt => exact execHalt h
  | minv => exact execMinv h
  | mpop => exact execMpop h
  | prea => exact execPrea h
  | lqEntryDiscard => exact execLqEntryDiscard h
  | lqFlagsWrite => exact execLqFlagsWrite h
  | lqvWrite => exact execLqvWrite h
  | vwdatWrite => exact execVwdatWrite h
  | mwdatWrite => exact execMwdatWrite h
  | vlcntWrite => exact execVlcntWrite h
  | vinjParityInject => exact execVinjParityInject h
  | vinjStuckLane => exact execVinjStuckLane h
  | pccClear => exact execPccClear h
  | pccReprogram => exact execPccReprogram h
  | pccOvfClear => exact execPccOvfClear h
  | counterOverflow => exact execCounterOverflow h
  | trainingWindowStart => exact execTrainingWindowStart h
  | trainingWindowEnd => exact execTrainingWindowEnd h
  | refreshOverdue => exact execRefreshOverdue h
  | vaultReadTransfer => exact execVaultReadTransfer h
  | vaultWriteTransfer => exact execVaultWriteTransfer h
  | busRetry => exact execBusRetry h
  | laneSwap => exact execLaneSwap h
  | selfRefreshEntry => exact execSelfRefreshEntry h
  | retrainingDue => exact execRetrainingDue h
  | forcedRetraining => exact execForcedRetraining h
  | segmentCopyComplete => exact execSegmentCopyComplete h
  | recordLoadComplete => exact execRecordLoadComplete h
  | meshFlitInject => exact execMeshFlitInject h
  | meshFlitHop => exact execMeshFlitHop h
  | meshFlitArrival => exact execMeshFlitArrival h
  | cisternRequestApply => exact execCisternRequestApply h
  | weirByteDecrement => exact execWeirByteDecrement h
  | eventLatchSet => exact execEventLatchSet h
  | packetFetch => exact execPacketFetch h
  | packetDispatch => exact execPacketDispatch h
  | ivDone => exact execIvDone h
  | ivDrop => exact execIvDrop h
  | sluiceStartArrival => exact execSluiceStartArrival h
  | jobApply => exact execJobApply h
  | jobUnit => exact execJobUnit h
  | jobCompletionRecord => exact execJobCompletionRecord h
  | kernelLoad => exact execKernelLoad h
  | kernelBind => exact execKernelBind h
  | timetableStart => exact execTimetableStart h
  | replanSwitch => exact execReplanSwitch h
  | hostServiceTimeout => exact execHostServiceTimeout h
  | kernelComplete => exact execKernelComplete h
  | contextWipeComplete => exact execContextWipeComplete h
  | yieldStop => exact execYieldStop h
  | contextSaveComplete => exact execContextSaveComplete h
  | gangSliceAbort => exact execGangSliceAbort h
  | linkReceiveTimeout => exact execLinkReceiveTimeout h
  | linkFlitAccept => exact execLinkFlitAccept h
  | collectiveStart => exact execCollectiveStart h
  | collectiveComplete => exact execCollectiveComplete h
  | sliceStartTimeReached => exact execSliceStartTimeReached h

theorem atOp {rank : Bool} {r : Run} (h : s.MemOk) : (s.atOp rank r).MemOk := qe (s := { s with ev := {}, wall := max s.wall r.due }) h h.queues h.tokens

theorem runStep {rank : Bool} {r : Run} (h : s.MemOk) : OutOk (runStep s rank r) := by
  unfold Machine.runStep
  split
  · exact fun _ e => by cases e
  · split
    · exact row (atOp h)
    · exact fun _ e => by cases e

theorem taken {ds : List Due} {e : EvArg} (h : s.MemOk) : ({ s with todo := ds, ev := e } : State).MemOk := h

theorem step (h : s.MemOk) : OutOk (step s) := by
  unfold Machine.step
  split
  · exact row (taken h)
  · split
    · exact runStep h
    · exact next (tick h)

end
end Keeps
end Sys2Proof.Machine
end

section
namespace Sys2Proof.Machine

/-! ## The canonical forms at reset and at every step -/

/-- Settles O57: at reset every list is empty, and so is the host's memory. -/
theorem resetMemOk : Obligations.ResetMemOk :=
  ⟨.nil, rfl, List.forall_mem_nil _, Tile.kept_default, .nil, List.forall_mem_nil _, .nil, .nil, List.forall_mem_nil _, .nil, .nil, .nil, .nil⟩

/-- Settles O58: row by row, each shared operation keeping the forms of the parts that it writes. -/
theorem stepKeepsMemOk : Obligations.StepKeepsMemOk := fun _ _ h e => Keeps.step h _ e

end Sys2Proof.Machine
end

section
/-!
SUPPORT. What every row but the power-on and the six commands of the life cycle leaves alone: the package, and of the security block its flash, fuses, identity and keys.
One lemma per operation of the model, in the model's order: `X_fixed` for one that makes a state, `X_answers` for one that answers an outcome.
-/

namespace Sys2Proof.Machine

/-- What only the commands of the life cycle write (R19, R20, R25). -/
def Security.fixed (x : Security) := (x.flash, x.cert, x.fuses, x.lfst, x.rollback, x.device, x.seed, x.vendor, x.owner)

/-- The package and that part of its security block: what every other row leaves alone. -/
def State.fixed (s : State) := (s.pkg, s.sec.fixed)

/-- The outcome is a next state, with `State.fixed` as in `s`. -/
def Answers (s : State) (o : Host.Outcome State Fault Refusal) : Prop := ∃ t, o = .next t ∧ t.fixed = s.fixed

@[simp] theorem answers_next {s t : State} : Answers s (.next t) ↔ t.fixed = s.fixed :=
  ⟨fun ⟨_, e, h⟩ => by cases e; exact h, fun h => ⟨_, rfl, h⟩⟩

theorem Answers.of_fixed {s u : State} {o} (h : Answers u o) (e : u.fixed = s.fixed) : Answers s o := by
  obtain ⟨t, ho, ht⟩ := h
  exact ⟨t, ho, ht.trans e⟩

theorem State.fixed_eq_iff {s t : State} : t.fixed = s.fixed ↔
    t.pkg = s.pkg ∧ t.sec.flash = s.sec.flash ∧ t.sec.cert = s.sec.cert ∧ t.sec.fuses = s.sec.fuses ∧ t.sec.lfst = s.sec.lfst ∧
    t.sec.rollback = s.sec.rollback ∧ t.sec.device = s.sec.device ∧ t.sec.seed = s.sec.seed ∧ t.sec.vendor = s.sec.vendor ∧ t.sec.owner = s.sec.owner := by
  simp only [State.fixed, Security.fixed, Prod.mk.injEq]

theorem fixed_of_parts {s t : State} (hp : t.pkg = s.pkg) (hs : t.sec.fixed = s.sec.fixed) : t.fixed = s.fixed := by simp [State.fixed, hp, hs]

/-- A write outside the package and the security block. -/
@[simp] theorem fixed_mk {s : State} {todo agenda wall free ev cur health ctxs kernels tiles dies qe links ltBase host asks asked} :
    (State.mk todo agenda wall free s.pkg ev cur s.sec health ctxs kernels tiles dies qe links ltBase host asks asked).fixed = s.fixed := by
  simp only [State.fixed, Security.fixed]

/-- A write of the security block outside `Security.fixed`. -/
@[simp] theorem fixed_mk_sec {s : State} {todo agenda wall free ev cur health ctxs kernels tiles dies qe links ltBase host asks asked
      keys meas boot bootWord nonce token status port report} :
    (State.mk todo agenda wall free s.pkg ev cur
      (Security.mk s.sec.fuses s.sec.lfst s.sec.rollback s.sec.device s.sec.seed s.sec.vendor s.sec.owner keys s.sec.cert meas boot bootWord s.sec.flash nonce token
        status port report)
      health ctxs kernels tiles dies qe links ltBase host asks asked).fixed = s.fixed := by
  simp only [State.fixed, Security.fixed]

@[simp] theorem ite_fixed {p : Prop} [Decidable p] {s t : State} : (if p then s else t).fixed = if p then s.fixed else t.fixed := apply_ite ..

@[simp] theorem ite_fst_fixed {α} {p : Prop} [Decidable p] {s t : State × α} : (if p then s else t).1.fixed = if p then s.1.fixed else t.1.fixed := by
  split <;> rfl

theorem fixed_fst {α} {p : State × α} {t x} (h : p = (t, x)) : t.fixed = p.1.fixed := by rw [h]

@[simp] theorem foldl_fixed {α} {f : State → α → State} (h : ∀ s x, (f s x).fixed = s.fixed) (l : List α) (s : State) : (l.foldl f s).fixed = s.fixed := by
  induction l generalizing s with
  | nil => rfl
  | cons x r ih => rw [List.foldl_cons, ih, h]

@[simp] theorem foldl_fst_fixed {α β} {f : State × β → α → State × β} (h : ∀ s x, (f s x).1.fixed = s.1.fixed) (l : List α) (s : State × β) :
    (l.foldl f s).1.fixed = s.1.fixed := by
  induction l generalizing s with
  | nil => rfl
  | cons x r ih => rw [List.foldl_cons, ih, h]

theorem Security.fixed_meas {x : Security} {m : Map (BitVec 256)} : ({ x with meas := m } : Security).fixed = x.fixed := rfl

@[simp] theorem Security.extend_fixed {x : Security} {i : Nat} {d : BitVec 256} : (x.extend i d).fixed = x.fixed := by
  unfold Security.extend
  exact fixed_meas

end Sys2Proof.Machine
end

section
namespace Sys2Proof.Machine

/-! ### The parts of the state, traps and holds -/

section
variable {s : State}

@[simp] theorem State.setTile_fixed {t x} : (s.setTile t x).fixed = s.fixed := fixed_mk
@[simp] theorem State.updTile_fixed {t f} : (s.updTile t f).fixed = s.fixed := fixed_mk
@[simp] theorem State.setDie_fixed {d x} : (s.setDie d x).fixed = s.fixed := fixed_mk
@[simp] theorem State.updDie_fixed {d f} : (s.updDie d f).fixed = s.fixed := fixed_mk
@[simp] theorem State.setCtx_fixed {c x} : (s.setCtx c x).fixed = s.fixed := fixed_mk
@[simp] theorem State.updCtx_fixed {c f} : (s.updCtx c f).fixed = s.fixed := fixed_mk
@[simp] theorem State.setKernel_fixed {k x} : (s.setKernel k x).fixed = s.fixed := fixed_mk
@[simp] theorem State.updKernel_fixed {k f} : (s.updKernel k f).fixed = s.fixed := by unfold State.updKernel; split <;> simp
@[simp] theorem State.delKernel_fixed {k} : (s.delKernel k).fixed = s.fixed := fixed_mk
@[simp] theorem State.updLink_fixed {l f} : (s.updLink l f).fixed = s.fixed := fixed_mk
@[simp] theorem State.at_fixed {w d} : (s.at w d).fixed = s.fixed := fixed_mk
@[simp] theorem State.push_fixed {ds} : (s.push ds).fixed = s.fixed := fixed_mk
@[simp] theorem State.tickFree_fixed : s.tickFree.fixed = s.fixed := fixed_mk

@[simp] theorem State.takeTrap_fixed {id tile cause part info t next cyc} : (s.takeTrap id tile cause part info t next cyc).fixed = s.fixed := by
  unfold State.takeTrap; dsimp only; (repeat' split) <;> simp

@[simp] theorem State.handOver_fixed {id variant k} : (s.handOver id variant k).fixed = s.fixed := by simp [State.handOver]
@[simp] theorem State.waitCycle_fixed {reason} : (s.waitCycle reason).fixed = s.fixed := by simp [State.waitCycle]
theorem runSlot_answers {part f} : Answers s (runSlot part s f) := by unfold runSlot; dsimp only; split <;> simp
theorem scalarOp_answers {cls lat d f} : Answers s (scalarOp s cls lat d f) := runSlot_answers ..

@[simp] theorem State.endHandler_fixed {id t} : (s.endHandler id t).fixed = s.fixed := by
  unfold State.endHandler; dsimp only; split <;> simp

@[simp] theorem State.updTiles_fixed {ts f} : (s.updTiles ts f).fixed = s.fixed := by simp [State.updTiles]
@[simp] theorem State.ctxHeld_fixed {c held} : (s.ctxHeld c held).fixed = s.fixed := fixed_mk
@[simp] theorem State.holdTiles_fixed {k held} : (s.holdTiles k held).fixed = s.fixed := by simp [State.holdTiles]
@[simp] theorem State.openHold_fixed {n cause} : (s.openHold n cause).fixed = s.fixed := by unfold State.openHold; (repeat' split) <;> simp
@[simp] theorem State.beginHold_fixed {n cause} : (s.beginHold n cause).fixed = s.fixed := by simp [State.beginHold]
@[simp] theorem State.endHold_fixed {n cause} : (s.endHold n cause).fixed = s.fixed := by unfold State.endHold; split <;> simp

@[simp] theorem State.recordHold_fixed {n start mask} : (s.recordHold n start mask).fixed = s.fixed := by
  unfold State.recordHold; split <;> simp

@[simp] theorem State.leaveSelfRefresh_fixed {k} : (s.leaveSelfRefresh k).fixed = s.fixed := by simp [State.leaveSelfRefresh]
@[simp] theorem State.closeHold_fixed {n wait} : (s.closeHold n wait).fixed = s.fixed := by unfold State.closeHold; (repeat' split) <;> simp
theorem execHoldRelease_answers : Answers s (execHoldRelease s) := by unfold execHoldRelease; split <;> simp
theorem execSelfRefreshEntry_answers : Answers s (execSelfRefreshEntry s) := by unfold execSelfRefreshEntry; split <;> simp

end

end Sys2Proof.Machine
end

section
namespace Sys2Proof.Machine

/-! ### Agents, records and dirty marks -/

section
variable {s : State}

@[simp] theorem State.agentHold_fixed {t q ns} : (s.agentHold t q ns).fixed = s.fixed := by unfold State.agentHold; (repeat' split) <;> simp

@[simp] theorem State.agentRead_fixed {t req bank page lvl slot} : (s.agentRead t req bank page lvl slot).1.fixed = s.fixed := by
  unfold State.agentRead; dsimp only; split <;> simp

@[simp] theorem State.agentWrite_fixed {t req bank page lvl slot bs} : (s.agentWrite t req bank page lvl slot bs).1.fixed = s.fixed := by
  simp [State.agentWrite]

@[simp] theorem State.slotsRead_fixed (s : State) (t : TileId) (req o n : Nat) : (s.slotsRead t req o n).1.fixed = s.fixed := by
  induction n generalizing s o with
  | zero => rfl
  | succ n ih =>
    unfold State.slotsRead; split
    next e => simp [fixed_fst e]
    next e => split <;> (next e' => simpa [fixed_fst e, ih] using fixed_fst e')

@[simp] theorem State.vaultRead_fixed {t req o n} : (s.vaultRead t req o n).1.fixed = s.fixed := by
  unfold State.vaultRead; split <;> (next e => simp [fixed_fst e])

@[simp] theorem State.slotsWrite_fixed (s : State) (t : TileId) (req o : Nat) (bs : List Byte) (n : Nat) : (s.slotsWrite t req o bs n).1.fixed = s.fixed := by
  induction n generalizing s o bs with
  | zero => rfl
  | succ n ih => unfold State.slotsWrite; split <;> (next e => simp [fixed_fst e, ih])

@[simp] theorem State.vaultWrite_fixed {t req o bs} : (s.vaultWrite t req o bs).1.fixed = s.fixed := by
  unfold State.vaultWrite; dsimp only; split
  · simp
  · split <;> (next e => simp [fixed_fst e])

@[simp] theorem State.sysRead_fixed {ctx req a n} : (s.sysRead ctx req a n).1.fixed = s.fixed := by unfold State.sysRead; split <;> simp

@[simp] theorem State.sysWrite_fixed {ctx req a bs} : (s.sysWrite ctx req a bs).1.fixed = s.fixed := by
  unfold State.sysWrite; split <;> simp

@[simp] theorem State.recordRead_fixed {n die id} : (s.recordRead n die id).1.fixed = s.fixed := by
  unfold State.recordRead; split
  · rfl
  · split <;> (next e => simp [fixed_fst e])

@[simp] theorem State.writeCopies_fixed {o bs ts} : (s.writeCopies o bs ts).fixed = s.fixed := by simp [State.writeCopies]
@[simp] theorem State.writeTable_fixed {n o bs} : (s.writeTable n o bs).fixed = s.fixed := by unfold State.writeTable; split <;> simp

@[simp] theorem State.pin_fixed {n t tiles v nib} : (s.pin n t tiles v nib).1.fixed = s.fixed := by
  unfold State.pin; dsimp only; split
  · rfl
  · split
    · next e => simp [fixed_fst e]
    · next e =>
      split
      · simp [fixed_fst e]
      · split <;> (next e' => simp [fixed_fst e', fixed_fst e])

@[simp] theorem recordLoaded_fixed : (recordLoaded s).fixed = s.fixed := by unfold recordLoaded; dsimp only; split <;> simp

@[simp] theorem State.markDmap_fixed {tm x u on} : (s.markDmap tm x u on).fixed = s.fixed := by
  unfold State.markDmap; dsimp only; split <;> (next e => simp [fixed_fst e])

@[simp] theorem State.nextUnit_fixed {d ch order k} : (s.nextUnit d ch order k).fixed = s.fixed := fixed_mk
@[simp] theorem State.setChan_fixed {d ch c} : (s.setChan d ch c).fixed = s.fixed := fixed_mk
@[simp] theorem State.updJob_fixed {d ch f} : (s.updJob d ch f).fixed = s.fixed := fixed_mk
@[simp] theorem State.markJob_fixed {d ch f} : (s.markJob d ch f).fixed = s.fixed := by unfold State.markJob; split <;> simp
@[simp] theorem State.noteDirty_fixed {id y} : (s.noteDirty id y).fixed = s.fixed := by unfold State.noteDirty; split <;> simp

end

end Sys2Proof.Machine
end

section
namespace Sys2Proof.Machine

/-! ### Vaults and their service -/

section
variable {s : State}

theorem mmaOp_answers {form d a b k} : Answers s (mmaOp s form d a b k) := runSlot_answers ..
theorem accretOp_answers {mode d a b sc} : Answers s (accretOp s mode d a b sc) := runSlot_answers ..
theorem scaleOp_answers {d ip lat g} : Answers s (scaleOp s d ip lat g) := runSlot_answers ..
theorem execFormatWriteEffect_answers : Answers s (execFormatWriteEffect s) := by simp [execFormatWriteEffect]

theorem runVault_answers {f} : Answers s (runVault s f) := by
  unfold runVault; split
  · exact runSlot_answers ..
  · split
    · exact runSlot_answers ..
    · exact (runSlot_answers ..).of_fixed fixed_mk

theorem runPrivileged_answers {f} : Answers s (runPrivileged s f) := by
  unfold runPrivileged; split
  · exact runVault_answers ..
  · exact runSlot_answers ..

theorem columnOp_answers {op read ap a b cr sl n} : Answers s (columnOp s op read ap a b cr sl n) := runVault_answers ..
theorem rawOp_answers {op read cr sl n bank} : Answers s (rawOp s op read cr sl n bank) := runPrivileged_answers ..
@[simp] theorem State.queueWork_fixed {a} : (s.queueWork a).fixed = s.fixed := by simp [State.queueWork]
@[simp] theorem State.grantAsks_fixed : s.grantAsks.fixed = s.fixed := by simp [State.grantAsks]

@[simp] theorem State.serveCycle_fixed {k} : (s.serveCycle k).fixed = s.fixed := by
  unfold State.serveCycle
  rw [State.grantAsks_fixed, foldl_fixed fun s t => ?_]
  split <;> simp

@[simp] theorem State.pollAsk_fixed {id row} : (s.pollAsk id row).fixed = s.fixed := fixed_mk
@[simp] theorem State.ask_fixed {agent row needs} : (s.ask agent row needs).fixed = s.fixed := by simp [State.ask]
@[simp] theorem State.proceed_fixed {id} : (s.proceed id).fixed = s.fixed := by unfold State.proceed; split <;> simp

@[simp] theorem State.served_fixed (s : State) (agent : Nat) (i : Instr) (needs : Needs) (act : State → State) (h : (act s).fixed = s.fixed) :
    (s.served agent i needs act).fixed = s.fixed := by
  unfold State.served; split <;> simp [h]

@[simp] theorem State.finishAgents_fixed {ts} : (s.finishAgents ts).fixed = s.fixed := by simp [State.finishAgents]
@[simp] theorem State.dropAsks_fixed {p} : (s.dropAsks p).fixed = s.fixed := by simp [State.dropAsks]
theorem bankEvent_answers {when_ f} : Answers s (bankEvent s when_ f) := by simp [bankEvent]
@[simp] theorem State.awaitRetraining_fixed {t q} : (s.awaitRetraining t q).fixed = s.fixed := fixed_mk
theorem execTrainingWindowStart_answers : Answers s (execTrainingWindowStart s) := by simp [execTrainingWindowStart]
theorem execTrainingWindowEnd_answers : Answers s (execTrainingWindowEnd s) := by simp [execTrainingWindowEnd]
theorem execRetrainingDue_answers : Answers s (execRetrainingDue s) := by unfold execRetrainingDue; dsimp only; split <;> simp

theorem execForcedRetraining_answers : Answers s (execForcedRetraining s) := by
  unfold execForcedRetraining; dsimp only; (repeat' split) <;> simp

theorem execRefreshOverdue_answers : Answers s (execRefreshOverdue s) := by simp [execRefreshOverdue]
@[simp] theorem State.failTransfer_fixed {id x cycle} : (s.failTransfer id x cycle).fixed = s.fixed := fixed_mk

@[simp] theorem State.beginRetry_fixed {id x grp fails lane bs} : (s.beginRetry id x grp fails lane bs).fixed = s.fixed := by
  unfold State.beginRetry; dsimp only; split <;> simp

@[simp] theorem State.completeTransfer_fixed {id x bs} : (s.completeTransfer id x bs).fixed = s.fixed := by simp [State.completeTransfer]

@[simp] theorem State.crossBus_fixed {id x cycle bs} : (s.crossBus id x cycle bs).fixed = s.fixed := by
  unfold State.crossBus; dsimp only; split <;> simp

theorem execVaultReadTransfer_answers : Answers s (execVaultReadTransfer s) := by
  unfold execVaultReadTransfer; dsimp only; (repeat' split) <;> simp

theorem execVaultWriteTransfer_answers : Answers s (execVaultWriteTransfer s) := by
  unfold execVaultWriteTransfer; dsimp only; (repeat' split) <;> simp

theorem execVinjParityInject_answers : Answers s (execVinjParityInject s) := by simp [execVinjParityInject]
theorem execVinjStuckLane_answers : Answers s (execVinjStuckLane s) := by simp [execVinjStuckLane]

@[simp] theorem State.endRetry_fixed {id r ok tries} : (s.endRetry id r ok tries).fixed = s.fixed := by
  unfold State.endRetry; dsimp only; (repeat' split) <;> simp

theorem execBusRetry_answers : Answers s (execBusRetry s) := by unfold execBusRetry; dsimp only; (repeat' split) <;> simp
theorem execLaneSwap_answers : Answers s (execLaneSwap s) := by unfold execLaneSwap; dsimp only; split <;> simp

end

end Sys2Proof.Machine
end

section
namespace Sys2Proof.Machine

/-! ### System registers, the mesh and the cisterns -/

section
variable {s : State}

theorem execResultLanding_answers : Answers s (execResultLanding s) := by unfold execResultLanding; dsimp only; (repeat' split) <;> simp

theorem execRecordLoadComplete_answers : Answers s (execRecordLoadComplete s) := by
  unfold execRecordLoadComplete
  rw [answers_next, State.served_fixed]
  dsimp only; split <;> simp

theorem execLqEntryDiscard_answers : Answers s (execLqEntryDiscard s) := by simp [execLqEntryDiscard]
theorem execLqFlagsWrite_answers : Answers s (execLqFlagsWrite s) := by simp [execLqFlagsWrite]
theorem execLqvWrite_answers : Answers s (execLqvWrite s) := by simp [execLqvWrite]
theorem execVwdatWrite_answers : Answers s (execVwdatWrite s) := by simp [execVwdatWrite]
theorem execMwdatWrite_answers : Answers s (execMwdatWrite s) := by simp [execMwdatWrite]
theorem execVlcntWrite_answers : Answers s (execVlcntWrite s) := by simp [execVlcntWrite]
theorem execPccClear_answers : Answers s (execPccClear s) := by simp [execPccClear]
theorem execPccReprogram_answers : Answers s (execPccReprogram s) := by simp [execPccReprogram]
theorem execPccOvfClear_answers : Answers s (execPccOvfClear s) := by simp [execPccOvfClear]
theorem execCounterOverflow_answers : Answers s (execCounterOverflow s) := by simp [execCounterOverflow]
theorem meshSend_answers {n bad dests src vec b} : Answers s (meshSend s n bad dests src vec b) := runSlot_answers ..
theorem execMeshFlitInject_answers : Answers s (execMeshFlitInject s) := by unfold execMeshFlitInject; dsimp only; (repeat' split) <;> simp
@[simp] theorem State.loseFlit_fixed {n c f} : (s.loseFlit n c f).fixed = s.fixed := by unfold State.loseFlit; split <;> simp
theorem execMeshFlitHop_answers : Answers s (execMeshFlitHop s) := by unfold execMeshFlitHop; dsimp only; (repeat' split) <;> simp

theorem execMeshFlitArrival_answers : Answers s (execMeshFlitArrival s) := by
  unfold execMeshFlitArrival; dsimp only; (repeat' split) <;> simp

@[simp] theorem State.setCword_fixed {d byte v} : (s.setCword d byte v).fixed = s.fixed := fixed_mk

theorem runChecked_answers {part f} : Answers s (runChecked part s f) := by
  unfold runChecked; split
  · exact runSlot_answers ..
  · split
    · exact runSlot_answers ..
    · exact (runSlot_answers ..).of_fixed fixed_mk

theorem amoOp_answers {o d a kind} : Answers s (amoOp s o d a kind) := runChecked_answers ..
theorem execEventLatchSet_answers : Answers s (execEventLatchSet s) := by simp [execEventLatchSet]
@[simp] theorem State.weirWake_fixed {k die byte} : (s.weirWake k die byte).fixed = s.fixed := by simp [State.weirWake]
@[simp] theorem State.weirStep_fixed {k die byte f} : (s.weirStep k die byte f).fixed = s.fixed := by simp [State.weirStep]
theorem weirOp_answers {d weir die extra pre kind} : Answers s (weirOp s d weir die extra pre kind) := runChecked_answers ..
theorem execWeirByteDecrement_answers : Answers s (execWeirByteDecrement s) := by unfold execWeirByteDecrement; dsimp only; split <;> simp
@[simp] theorem State.reply_fixed {id r v} : (s.reply id r v).fixed = s.fixed := by unfold State.reply; split <;> simp
@[simp] theorem State.jcbStep_fixed {k r post p n} : (s.jcbStep k r post p n).fixed = s.fixed := fixed_mk

@[simp] theorem State.applyReq_fixed {id k r} : (s.applyReq id k r).fixed = s.fixed := by
  unfold State.applyReq; dsimp only; (repeat' split) <;> simp

theorem execCisternRequestApply_answers : Answers s (execCisternRequestApply s) := by
  unfold execCisternRequestApply; dsimp only; split <;> simp

end

end Sys2Proof.Machine
end

section
namespace Sys2Proof.Machine

/-! ### Bundles -/

section
variable {s : State}

theorem floatOp_answers {f rm mt d cls lat g} : Answers s (floatOp s f rm mt d cls lat g) := runSlot_answers ..
theorem intOp_answers {mt d a b g} : Answers s (intOp s mt d a b g) := runSlot_answers ..
theorem intOp1_answers {mt d a g} : Answers s (intOp1 s mt d a g) := runSlot_answers ..
theorem clmulOp_answers {hi mt d a b} : Answers s (clmulOp s hi mt d a b) := runSlot_answers ..
theorem permOp_answers {mt d g} : Answers s (permOp s mt d g) := runSlot_answers ..
theorem redPick_answers {mx k mt d a} : Answers s (redPick s mx k mt d a) := runSlot_answers ..

@[simp] theorem State.holdBefore_fixed {id n c} : (s.holdBefore id n c).fixed = s.fixed := by
  unfold State.holdBefore; dsimp only; (repeat' split) <;> simp

@[simp] theorem State.bundleTrap_fixed {id t cause part info c} : (s.bundleTrap id t cause part info c).fixed = s.fixed := by
  simp [State.bundleTrap]

@[simp] theorem State.startBundle_fixed {id c h is} : (s.startBundle id c h is).fixed = s.fixed := by
  unfold State.startBundle; dsimp only; (repeat' split) <;> simp

@[simp] theorem State.issueBundle_fixed {id c} : (s.issueBundle id c).fixed = s.fixed := by
  unfold State.issueBundle; dsimp only; (repeat' split) <;> simp

@[simp] theorem State.awaitLoads_fixed {id ls} : (s.awaitLoads id ls).fixed = s.fixed := by simp [State.awaitLoads]

@[simp] theorem State.finishBundle_fixed {id} : (s.finishBundle id).fixed = s.fixed := by
  unfold State.finishBundle; dsimp only; (repeat' split) <;> simp

theorem execBundleIssue_answers : Answers s (execBundleIssue s) := by unfold execBundleIssue; dsimp only; split <;> simp

theorem execHandlerBundleIssue_answers : Answers s (execHandlerBundleIssue s) := by
  unfold execHandlerBundleIssue; dsimp only; (repeat' split) <;> simp

theorem execStopHorizon_answers : Answers s (execStopHorizon s) := by unfold execStopHorizon; split <;> simp
theorem execPartitionRelease_answers : Answers s (execPartitionRelease s) := by unfold execPartitionRelease; dsimp only; split <;> simp

@[simp] theorem State.haltedFault_fixed {id x} : (s.haltedFault id x).fixed = s.fixed := by
  unfold State.haltedFault; dsimp only; split <;> simp

theorem execDeferredTrap_answers : Answers s (execDeferredTrap s) := by unfold execDeferredTrap; dsimp only; split <;> simp
theorem execTileHalted_answers : Answers s (execTileHalted s) := by unfold execTileHalted; dsimp only; split <;> simp
@[simp] theorem State.placeSegments_fixed {k id t} : (s.placeSegments k id t).fixed = s.fixed := by simp [State.placeSegments]

@[simp] theorem State.readSlots_fixed (s : State) (t : TileId) (l : List (Nat × Nat × Nat)) : (s.readSlots t l).1.fixed = s.fixed := by
  induction l generalizing s with
  | nil => rfl
  | cons p r ih =>
    unfold State.readSlots; split
    next e => simp [fixed_fst e]
    next e => split <;> (next e' => simpa [fixed_fst e, ih] using fixed_fst e')

theorem execSegmentCopyComplete_answers : Answers s (execSegmentCopyComplete s) := by
  unfold execSegmentCopyComplete; dsimp only; split <;> simp

end

end Sys2Proof.Machine
end

section
namespace Sys2Proof.Machine

/-! ### The sluice -/

section
variable {s : State}

@[simp] theorem State.addTokens_fixed {l n} : (s.addTokens l n).fixed = s.fixed := by simp [State.addTokens]

@[simp] theorem State.wakeRect_fixed {rect} : (s.wakeRect rect).fixed = s.fixed := by
  unfold State.wakeRect
  rw [foldl_fixed fun s u => ?_]
  split <;> simp

@[simp] theorem State.soon_fixed {i d ch y} : (s.soon i d ch y).fixed = s.fixed := fixed_mk
@[simp] theorem State.putStart_fixed {d ch x} : (s.putStart d ch x).1.fixed = s.fixed := by simp [State.putStart]

theorem execSluiceStartArrival_answers : Answers s (execSluiceStartArrival s) := by
  unfold execSluiceStartArrival; dsimp only; (repeat' split) <;> simp

@[simp] theorem State.setRecord_fixed {c id r} : (s.setRecord c id r).fixed = s.fixed := by simp [State.setRecord]

@[simp] theorem State.editPinned_fixed {c id gen f} : (s.editPinned c id gen f).fixed = s.fixed := by
  unfold State.editPinned; split <;> simp

@[simp] theorem State.refreshObjs_fixed {c o n} : (s.refreshObjs c o n).fixed = s.fixed := by
  unfold State.refreshObjs
  dsimp only; rw [foldl_fixed fun s i => ?_]
  split <;> (next e => simp [fixed_fst e])

@[simp] theorem State.tableWritten_fixed {c a bs} : (s.tableWritten c a bs).fixed = s.fixed := by simp [State.tableWritten]

@[simp] theorem State.brickRead_fixed (s : State) (t : TileId) (bank page lvl slot n : Nat) : (s.brickRead t bank page lvl slot n).1.fixed = s.fixed := by
  induction n generalizing s slot with
  | zero => rfl
  | succ n ih =>
    unfold State.brickRead; split
    next e => simp [fixed_fst e]
    next e => split <;> (next e' => simpa [fixed_fst e, ih] using fixed_fst e')

@[simp] theorem State.brickWrite_fixed (s : State) (t : TileId) (bank page lvl slot : Nat) (bs : List Byte) (n : Nat) :
    (s.brickWrite t bank page lvl slot bs n).1.fixed = s.fixed := by
  induction n generalizing s slot bs with
  | zero => rfl
  | succ n ih => unfold State.brickWrite; split <;> (next e => simp [fixed_fst e, ih])

@[simp] theorem State.setResidency_fixed {t bank page v} : (s.setResidency t bank page v).fixed = s.fixed := fixed_mk

@[simp] theorem State.setBrickResidency_fixed {c r id g v} : (s.setBrickResidency c r id g v).fixed = s.fixed := by
  unfold State.setBrickResidency; dsimp only; split <;> (next e => simp [fixed_fst e])

@[simp] theorem State.sideRead_fixed {c x size u} : (s.sideRead c x size u).1.fixed = s.fixed := by unfold State.sideRead; split <;> simp
@[simp] theorem State.undefineSlot_fixed {t bank page lvl slot} : (s.undefineSlot t bank page lvl slot).fixed = s.fixed := fixed_mk

@[simp] theorem State.undefineBrick_fixed {t bank page lvl n} : (s.undefineBrick t bank page lvl n).fixed = s.fixed := by
  simp [State.undefineBrick]

@[simp] theorem State.undefineBytes_fixed {t o n} : (s.undefineBytes t o n).fixed = s.fixed := by simp [State.undefineBytes]

@[simp] theorem State.sideWrite_fixed {c x size u fill bs} : (s.sideWrite c x size u fill bs).1.fixed = s.fixed := by
  unfold State.sideWrite; split
  · dsimp only; split
    · rfl
    · split <;> (next e => simp [fixed_fst e])
  · split
    · next e => simp [fixed_fst e]
    · next e => dsimp only; split <;> simp [fixed_fst e]

@[simp] theorem State.copyUnit_fixed {c tm u} : (s.copyUnit c tm u).1.fixed = s.fixed := by
  unfold State.copyUnit; dsimp only; split <;> (next e => simp [fixed_fst e])

@[simp] theorem State.jobFails_fixed {d ch fault} : (s.jobFails d ch fault).fixed = s.fixed := fixed_mk

@[simp] theorem State.unmove_fixed {d ch c tm j fault v} : (s.unmove d ch c tm j fault v).fixed = s.fixed := by
  unfold State.unmove; split <;> simp

@[simp] theorem State.unitDone_fixed {d ch c tm j} : (s.unitDone d ch c tm j).fixed = s.fixed := by simp [State.unitDone]

@[simp] theorem State.plainUnit_fixed {d ch c tm j u} : (s.plainUnit d ch c tm j u).fixed = s.fixed := by
  unfold State.plainUnit; dsimp only; split
  · split <;> (next e => simp [fixed_fst e])
  · split
    · next e => simp [fixed_fst e]
    · next e => split <;> simp [fixed_fst e]

@[simp] theorem State.pageOutUnit_fixed {d ch c tm j u} : (s.pageOutUnit d ch c tm j u).fixed = s.fixed := by
  unfold State.pageOutUnit; split
  · rfl
  · dsimp only; split
    · simp
    · split <;> (next e => simp [fixed_fst e])

@[simp] theorem State.setWm_fixed {c id gen b wm} : (s.setWm c id gen b wm).fixed = s.fixed := by simp [State.setWm]
@[simp] theorem State.lowestWm_fixed {c id} : (s.lowestWm c id).fixed = s.fixed := by simp [State.lowestWm]
@[simp] theorem State.endRelocate_fixed {d ch c id} : (s.endRelocate d ch c id).fixed = s.fixed := by simp [State.endRelocate]

@[simp] theorem State.relocateBrick_fixed {d ch c tm j k} : (s.relocateBrick d ch c tm j k).fixed = s.fixed := by
  unfold State.relocateBrick; split
  · rfl
  · dsimp only; split
    · simp
    · split
      · next e => simp [fixed_fst e]
      · next e => split <;> (next e' => simp [fixed_fst e', fixed_fst e])

@[simp] theorem State.beginRelocate_fixed {c tm} : (s.beginRelocate c tm).fixed = s.fixed := by unfold State.beginRelocate; split <;> simp

@[simp] theorem State.startVaults_fixed {d ch tm j} : (s.startVaults d ch tm j).fixed = s.fixed := by
  unfold State.startVaults; split <;> simp

@[simp] theorem State.startJob_fixed {d ch j} : (s.startJob d ch j).fixed = s.fixed := by simp [State.startJob]
theorem execJobApply_answers : Answers s (execJobApply s) := by unfold execJobApply; dsimp only; split <;> simp
@[simp] theorem State.writeDmap_fixed {d ch tm j} : (s.writeDmap d ch tm j).fixed = s.fixed := by unfold State.writeDmap; split <;> simp
theorem execJobUnit_answers : Answers s (execJobUnit s) := by unfold execJobUnit; dsimp only; (repeat' split) <;> simp

@[simp] theorem State.ringNow_fixed {c n} : (s.ringNow c n).1.fixed = s.fixed := by
  unfold State.ringNow; dsimp only; split <;> (next e => simp [fixed_fst e])

@[simp] theorem State.backInvalidate_fixed : s.backInvalidate.fixed = s.fixed := fixed_mk
@[simp] theorem State.jobRecorded_fixed {d x} : (s.jobRecorded d x).fixed = s.fixed := by unfold State.jobRecorded; split <;> simp

theorem State.writeRecord_fixed {s u : State} {c n w0 w1 p : Nat} {wake : Bool} (h : s.writeRecord c n w0 w1 p wake = some u) : u.fixed = s.fixed := by
  unfold State.writeRecord at h; dsimp only at h; split at h
  · cases h
  · cases h; simp
@[simp] theorem State.recordStart_fixed (s : State) (d ch : Nat) (x : Start) (status fault bytes p : Nat) (after : State → State) (h : ∀ u, (after u).fixed = u.fixed) :
    (s.recordStart d ch x status fault bytes p after).fixed = s.fixed := by
  unfold State.recordStart
  obtain ⟨f, hf⟩ : ∃ f, f = State.writeRecord := ⟨_, rfl⟩
  obtain ⟨⟨w0, w1⟩, hw⟩ : ∃ w, w = recordWords x d ch status fault bytes := ⟨_, rfl⟩
  rw [← hf, ← hw]
  dsimp only; split
  · simp
  · rw [State.served_fixed]
    split
    · simp
    · next e => rw [h, State.jobRecorded_fixed, State.writeRecord_fixed (hf ▸ e)]

theorem execJobCompletionRecord_answers : Answers s (execJobCompletionRecord s) := by
  unfold execJobCompletionRecord; dsimp only; (repeat' split) <;> simp

end

end Sys2Proof.Machine
end

section
namespace Sys2Proof.Machine

/-! ### The queue engine -/

section
variable {s : State}

@[simp] theorem State.setQueue_fixed {q x} : (s.setQueue q x).fixed = s.fixed := fixed_mk
@[simp] theorem State.pollAt_fixed {q w} : (s.pollAt q w).fixed = s.fixed := fixed_mk
@[simp] theorem State.beginPoll_fixed {n} : (s.beginPoll n).fixed = s.fixed := by simp [State.beginPoll]
theorem execQueueServiceWrite_answers {w} : Answers s (execQueueServiceWrite w s) := by unfold execQueueServiceWrite; split <;> simp
theorem execQueueEnable_answers {n} : Answers s (execQueueEnable n s) := by simp [execQueueEnable]
@[simp] theorem State.disableQueue_fixed {n fault} : (s.disableQueue n fault).fixed = s.fixed := fixed_mk
theorem execQueueDisable_answers {n} : Answers s (execQueueDisable n s) := by simp [execQueueDisable]

theorem execProgramInstall_answers {slot kind code sig} : Answers s (execProgramInstall slot kind code sig s) := by
  unfold execProgramInstall; rw [answers_next]; dsimp only; split
  · split <;> rfl
  · split
    · exact fixed_of_parts rfl Security.extend_fixed
    · rfl

@[simp] theorem State.pollNext_fixed {path n} : (s.pollNext path n).fixed = s.fixed := by unfold State.pollNext; split <;> simp
@[simp] theorem State.pollAgain_fixed {path} : (s.pollAgain path).fixed = s.fixed := fixed_mk
@[simp] theorem State.startRank_fixed : s.startRank.fixed = s.fixed := by unfold State.startRank; split <;> simp
@[simp] theorem State.takePacket_fixed {n p} : (s.takePacket n p).fixed = s.fixed := by simp [State.takePacket]

theorem execPacketFetch_answers : Answers s (execPacketFetch s) := by
  unfold execPacketFetch; rw [answers_next]; dsimp only; split
  · rfl
  · split
    · simp
    · split
      · simp
      · rw [State.served_fixed]
        split <;> (next e => simp [fixed_fst e])

theorem execPacketDispatch_answers : Answers s (execPacketDispatch s) := by unfold execPacketDispatch; dsimp only; (repeat' split) <;> simp
@[simp] theorem State.putRun_fixed {r} : (s.putRun r).fixed = s.fixed := by simp [State.putRun]
@[simp] theorem State.setRun_fixed {r} : (s.setRun r).fixed = s.fixed := by simp [State.setRun]
theorem runOp_answers {f} : Answers s (runOp s f) := by unfold runOp; split <;> simp
@[simp] theorem State.endMain_fixed : s.endMain.fixed = s.fixed := fixed_mk
@[simp] theorem State.opFault_fixed {r code} : (s.opFault r code).fixed = s.fixed := by simp [State.opFault]

@[simp] theorem State.accessOp_fixed (s : State) (i : Instr) (c a : Nat) (write : Bool) (r : Run) (act : State → State) (h : (act s).fixed = s.fixed) :
    (s.accessOp i c a write r act).fixed = s.fixed := by
  unfold State.accessOp; split <;> simp [h]

@[simp] theorem State.takeTurn_fixed : s.takeTurn.fixed = s.fixed := by simp [State.takeTurn]

theorem execIvLdw_answers {d a win o} : Answers s (execIvLdw d a win o s) := by
  unfold execIvLdw; rw [answers_next]; dsimp only; split
  · simp
  · split
    · simp
    · rw [State.accessOp_fixed]
      · simp
      · split <;> (next e => simp [fixed_fst e])

theorem execIvStw_answers {d a win o} : Answers s (execIvStw d a win o s) := by unfold execIvStw; dsimp only; (repeat' split) <;> simp
theorem arithOp_answers {d a i f} : Answers s (arithOp s d a i f) := runOp_answers ..
theorem skipOp_answers {n test} : Answers s (skipOp s n test) := runOp_answers ..
theorem execIvRank_answers {a} : Answers s (execIvRank a s) := by unfold execIvRank; split <;> simp

@[simp] theorem State.outerStart_fixed {host c die ch data} : (s.outerStart host c die ch data).fixed = s.fixed := by
  simp [State.outerStart]

theorem execIvJob_answers {a die ch} : Answers s (execIvJob a die ch s) := by unfold execIvJob; split <;> simp

theorem execIvLaunch_answers {a} : Answers s (execIvLaunch a s) := by
  unfold execIvLaunch; rw [answers_next]; dsimp only; split
  · rfl
  · split
    · simp
    · split <;> (next e => simp [fixed_fst e])

theorem execIvEvt_answers {a} : Answers s (execIvEvt a s) := by unfold execIvEvt; split <;> simp
theorem execIvDone_answers : Answers s (execIvDone s) := by unfold execIvDone; split <;> simp
theorem execIvDrop_answers : Answers s (execIvDrop s) := by unfold execIvDrop; split <;> simp

end

end Sys2Proof.Machine
end

section
namespace Sys2Proof.Machine

/-! ### Links, collectives and the host -/

section
variable {s : State}

theorem execLinkFlitAccept_answers : Answers s (execLinkFlitAccept s) := by unfold execLinkFlitAccept; dsimp only; (repeat' split) <;> simp
theorem execCreditReturn_answers {l n} : Answers s (execCreditReturn l n s) := by unfold execCreditReturn; dsimp only; split <;> simp
@[simp] theorem State.recvReady_fixed {n} : (s.recvReady n).fixed = s.fixed := by unfold State.recvReady; split <;> simp
@[simp] theorem State.entryAt_fixed {l w} : (s.entryAt l w).fixed = s.fixed := fixed_mk
@[simp] theorem State.enterFlits_fixed {l} : (s.enterFlits l).fixed = s.fixed := by unfold State.enterFlits; dsimp only; split <;> simp

theorem execLinkFlitEnqueue_answers {l ch p} : Answers s (execLinkFlitEnqueue l ch p s) := by
  unfold execLinkFlitEnqueue; dsimp only; (repeat' split) <;> simp

theorem execFlitReplay_answers {l} : Answers s (execFlitReplay l s) := by simp [execFlitReplay]
theorem execLinkDown_answers {l} : Answers s (execLinkDown l s) := by simp [execLinkDown]
theorem execLinkTraining_answers {l worst} : Answers s (execLinkTraining l worst s) := by simp [execLinkTraining]
@[simp] theorem State.dateSlice_fixed {n start} : (s.dateSlice n start).fixed = s.fixed := fixed_mk

theorem execLinkBeacon_answers {time} : Answers s (execLinkBeacon time s) := by
  unfold execLinkBeacon
  simp only [answers_next, State.push_fixed]
  rw [foldl_fixed fun s k => ?_]
  · simp
  · split <;> simp

@[simp] theorem State.sendReserved_fixed {d x} : (s.sendReserved d x).fixed = s.fixed := fixed_mk

@[simp] theorem State.hearReserved_fixed (s : State) (d : Nat) (f : State → State) (h : ∀ u, (f u).fixed = u.fixed) : (s.hearReserved d f).fixed = s.fixed := by
  simp [State.hearReserved, h]

@[simp] theorem State.sendAbort_fixed {n} : (s.sendAbort n).fixed = s.fixed := by simp [State.sendAbort]
theorem execLinkReceiveTimeout_answers : Answers s (execLinkReceiveTimeout s) := by unfold execLinkReceiveTimeout; (repeat' split) <;> simp
@[simp] theorem State.updColl_fixed {d order f} : (s.updColl d order f).fixed = s.fixed := fixed_mk
@[simp] theorem State.collectiveSoon_fixed {d order y} : (s.collectiveSoon d order y).fixed = s.fixed := fixed_mk
@[simp] theorem State.nextCollective_fixed {d} : (s.nextCollective d).fixed = s.fixed := by unfold State.nextCollective; split <;> simp

theorem State.recordCollective_fixed {s u : State} {d : Nat} {x : Collective} {status fault bytes p : Nat} (h : s.recordCollective d x status fault bytes p = some u) :
    u.fixed = s.fixed := by
  obtain ⟨v, hv, rfl⟩ := Option.map_eq_some_iff.mp h
  simp [State.writeRecord_fixed hv]

theorem State.endCollective_fixed {s u : State} {d : Nat} {x : Collective} {root : List Nat} {fl : FlagSet} (h : s.endCollective d x root fl = some u) :
    u.fixed = s.fixed := by
  unfold State.endCollective at h
  simp [State.recordCollective_fixed h]

@[simp] theorem State.shardMap_fixed (s : State) (x : Collective) : (s.shardMap x).1.fixed = s.fixed := by
  unfold State.shardMap; split <;> (next e => simp [fixed_fst e])

@[simp] theorem State.readShards_fixed (s : State) (x : Collective) (l : List Nat) : (s.readShards x l).1.fixed = s.fixed := by
  induction l generalizing s with
  | nil => rfl
  | cons k r ih =>
    unfold State.readShards; dsimp only; split
    · rfl
    · split
      · next e => simp [fixed_fst e]
      · next e => split <;> (next e' => simpa [fixed_fst e, ih] using fixed_fst e')

@[simp] theorem State.readCollective_fixed {d x} : (s.readCollective d x).fixed = s.fixed := by
  unfold State.readCollective; dsimp only; split
  · next e => simp [fixed_fst e]
  · next e =>
    split
    · next e' => simp [fixed_fst e', fixed_fst e]
    · next e' => split <;> (next e2 => simp [fixed_fst e2, fixed_fst e', fixed_fst e])

@[simp] theorem State.failCollective_fixed {d x} : (s.failCollective d x).fixed = s.fixed := fixed_mk
@[simp] theorem State.sendColl_fixed {d x send again} : (s.sendColl d x send again).fixed = s.fixed := by simp [State.sendColl]
@[simp] theorem State.replayColl_fixed {d x} : (s.replayColl d x).fixed = s.fixed := by simp [State.replayColl]
@[simp] theorem State.workCollective_fixed {d x} : (s.workCollective d x).fixed = s.fixed := by simp [State.workCollective]

theorem execCollectiveStart_answers : Answers s (execCollectiveStart s) := by
  unfold execCollectiveStart; rw [answers_next]; dsimp only
  rw [State.served_fixed]
  split <;> (next e => dsimp only; split <;> simp [fixed_fst e])

theorem execCollectiveNodeValue_answers {d node value flags} : Answers s (execCollectiveNodeValue d node value flags s) := by
  unfold execCollectiveNodeValue; rw [answers_next, State.hearReserved_fixed]
  intro u; dsimp only; split
  · simp
  · split
    · simp
    · split <;> simp

theorem execCollectiveComplete_answers : Answers s (execCollectiveComplete s) := by
  unfold execCollectiveComplete
  obtain ⟨f, hf⟩ : ∃ f, f = State.recordCollective := ⟨_, rfl⟩
  obtain ⟨g, hg⟩ : ∃ g, g = State.endCollective := ⟨_, rfl⟩
  obtain ⟨v, hv⟩ : ∃ v, v = Collective.nodeValues := ⟨_, rfl⟩
  rw [← hf, ← hg, ← hv, answers_next]
  dsimp only; split
  · rfl
  · simp only [ite_fixed, State.served_fixed, State.collectiveSoon_fixed, State.failCollective_fixed, State.workCollective_fixed, State.readCollective_fixed, ite_self]
    split
    · rfl
    · split
      · split
        · rfl
        · rw [State.served_fixed]
          split
          · split
            · next e => exact State.recordCollective_fixed (hf ▸ e)
            · simp
          · split
            · split
              · next e => exact State.recordCollective_fixed (hf ▸ e)
              · simp
            · split
              · next e => exact State.endCollective_fixed (hg ▸ e)
              · simp
      · rfl

@[simp] theorem State.hostRefused_fixed : s.hostRefused.fixed = s.fixed := fixed_mk
@[simp] theorem State.hostReply_fixed {o line poison} : (s.hostReply o line poison).fixed = s.fixed := fixed_mk

@[simp] theorem State.hostServe_fixed {s : State} {p : HostPlace} {x : HostAccess} : (s.hostServe p x).fixed = s.fixed := by
  unfold State.hostServe; dsimp only; split
  · split <;> simp
  · cases p <;> dsimp only <;> split <;> (next e => simp [fixed_fst e])

@[simp] theorem State.hostHoldsEnd_fixed : s.hostHoldsEnd.fixed = s.fixed := by simp [State.hostHoldsEnd]

@[simp] theorem State.hostAccess_fixed {i write o line} : (s.hostAccess i write o line).fixed = s.fixed := by
  unfold State.hostAccess; dsimp only; split <;> simp

theorem execHostMemRead_answers {o} : Answers s (execHostMemRead o s) := by simp [execHostMemRead]
theorem execHostMemWrite_answers {o line} : Answers s (execHostMemWrite o line s) := by simp [execHostMemWrite]
theorem execHostServiceTimeout_answers : Answers s (execHostServiceTimeout s) := by unfold execHostServiceTimeout; (repeat' split) <;> simp

theorem execHostApertureStart_answers {o width data} : Answers s (execHostApertureStart o width data s) := by
  unfold execHostApertureStart; split <;> simp

theorem execHostSnoop_answers {addr} : Answers s (execHostSnoop addr s) := by simp [execHostSnoop]

end

end Sys2Proof.Machine
end

section
namespace Sys2Proof.Machine

/-! ### Images and kernels -/

section
variable {s : State}

@[simp] theorem State.readImage_fixed {c addr} : (s.readImage c addr).1.fixed = s.fixed := by
  unfold State.readImage; dsimp only; split
  · next e => simp [fixed_fst e]
  · next e =>
    split
    · next e' => simp [fixed_fst e', fixed_fst e]
    · next e' => split <;> (next e2 => simp [fixed_fst e2, fixed_fst e', fixed_fst e])

@[simp] theorem State.launchPins_fixed {n t x} : (s.launchPins n t x).1.fixed = s.fixed := by simp [State.launchPins]

@[simp] theorem State.allPins_fixed (s : State) (n : Nat) (l : List (TileId × TileImage)) : (s.allPins n l).1.fixed = s.fixed := by
  induction l generalizing s with
  | nil => rfl
  | cons x r ih => simp [State.allPins, ih]

@[simp] theorem State.kernelRecord_fixed {c l ws} : (s.kernelRecord c l ws).fixed = s.fixed := by simp [State.kernelRecord]

@[simp] theorem State.launchFailed_fixed {c l reason detail} : (s.launchFailed c l reason detail).fixed = s.fixed := by
  simp [State.launchFailed]

@[simp] theorem State.loaderSoon_fixed {i c} : (s.loaderSoon i c).fixed = s.fixed := fixed_mk
@[simp] theorem State.sendTable_fixed {c links} : (s.sendTable c links).fixed = s.fixed := by simp [State.sendTable]
@[simp] theorem State.awaitTables_fixed {c l rest links} : (s.awaitTables c l rest links).fixed = s.fixed := by simp [State.awaitTables]

theorem execKernelLoad_answers : Answers s (execKernelLoad s) := by
  unfold execKernelLoad; rw [answers_next]; dsimp only; split
  · split
    · rfl
    · split
      · next e => simp [fixed_fst e]
      · next e => split <;> simp [fixed_fst e]
  · rfl

@[simp] theorem State.clearDies_fixed {die0 shape} : (s.clearDies die0 shape).fixed = s.fixed := by simp [State.clearDies]

@[simp] theorem State.padLinks_fixed {die0 shape rank img tables} : (s.padLinks die0 shape rank img tables).fixed = s.fixed := by
  simp [State.padLinks]

@[simp] theorem State.launchOver_fixed {c} : (s.launchOver c).fixed = s.fixed := by simp [State.launchOver]
@[simp] theorem State.bindWaiting_fixed : s.bindWaiting.fixed = s.fixed := by simp [State.bindWaiting]
@[simp] theorem State.leavePartition_fixed {n} : (s.leavePartition n).fixed = s.fixed := by simp [State.leavePartition]
@[simp] theorem State.bind_fixed {c k} : (s.bind c k).fixed = s.fixed := by simp [State.bind]

@[simp] theorem State.install_fixed {c n k} : (s.install c n k).fixed = s.fixed := by
  unfold State.install; dsimp only; split
  · simp
  · simp
    rw [foldl_fixed fun s e => ?_]
    · simp
    · split <;> simp

theorem execKernelBind_answers : Answers s (execKernelBind s) := by unfold execKernelBind; dsimp only; (repeat' split) <;> simp
@[simp] theorem State.timeCall_fixed {n} : (s.timeCall n).fixed = s.fixed := by unfold State.timeCall; split <;> simp
@[simp] theorem State.timeCalls_fixed : s.timeCalls.fixed = s.fixed := by simp [State.timeCalls]
@[simp] theorem State.awaitAll_fixed {k} : (s.awaitAll k).fixed = s.fixed := by simp [State.awaitAll]
@[simp] theorem State.sliceHold_fixed {n} : (s.sliceHold n).fixed = s.fixed := by unfold State.sliceHold; split <;> simp
theorem execTimetableStart_answers : Answers s (execTimetableStart s) := by unfold execTimetableStart; dsimp only; split <;> simp
@[simp] theorem State.thermalOverrun_fixed {n} : (s.thermalOverrun n).fixed = s.fixed := by unfold State.thermalOverrun; split <;> simp
@[simp] theorem State.switchVariant_fixed {n k v} : (s.switchVariant n k v).fixed = s.fixed := by simp [State.switchVariant]
theorem execReplanSwitch_answers : Answers s (execReplanSwitch s) := by unfold execReplanSwitch; dsimp only; (repeat' split) <;> simp
@[simp] theorem State.closeKernel_fixed {n k} : (s.closeKernel n k).fixed = s.fixed := by unfold State.closeKernel; split <;> simp
@[simp] theorem State.freePartition_fixed {n k} : (s.freePartition n k).fixed = s.fixed := by simp [State.freePartition]
@[simp] theorem State.takeChans_fixed {c die0 shape} : (s.takeChans c die0 shape).fixed = s.fixed := by simp [State.takeChans]
@[simp] theorem State.endKernel_fixed {n k} : (s.endKernel n k).fixed = s.fixed := by simp [State.endKernel]
theorem execKernelComplete_answers : Answers s (execKernelComplete s) := by unfold execKernelComplete; dsimp only; split <;> simp

end

end Sys2Proof.Machine
end

section
namespace Sys2Proof.Machine

/-! ### Contexts and gang slices -/

section
variable {s : State}

@[simp] theorem State.readGrains_fixed {c} : (s.readGrains c).1.fixed = s.fixed := by
  unfold State.readGrains; dsimp only; split <;> (next e => simp [fixed_fst e])

@[simp] theorem State.giveKeys_fixed {n} : (s.giveKeys n).fixed = s.fixed := by simp [State.giveKeys]

@[simp] theorem State.readTable_fixed {c a n k} : (s.readTable c a n k).1.fixed = s.fixed := by
  unfold State.readTable; split <;> (next e => simp [fixed_fst e])

@[simp] theorem State.spreadTable_fixed {n objs} : (s.spreadTable n objs).fixed = s.fixed := by unfold State.spreadTable; split <;> simp
@[simp] theorem State.placeTables_fixed {n} : (s.placeTables n).fixed = s.fixed := by unfold State.placeTables; simp
theorem execContextTableInstall_answers {n} : Answers s (execContextTableInstall n s) := by simp [execContextTableInstall]
theorem execContextCreate_answers {desc} : Answers s (execContextCreate desc s) := by simp [execContextCreate]

@[simp] theorem State.abortJobs_fixed {c} : (s.abortJobs c).fixed = s.fixed := by
  unfold State.abortJobs; dsimp only; rw [foldl_fixed fun s d => ?_]; simp

@[simp] theorem State.rejoinJob_fixed {d x} : (s.rejoinJob d x).fixed = s.fixed := by unfold State.rejoinJob; split <;> simp
@[simp] theorem State.takeLate_fixed {c old shape} : (s.takeLate c old shape).fixed = s.fixed := by simp [State.takeLate]

@[simp] theorem State.putChans_fixed {c old die0 shape} : (s.putChans c old die0 shape).fixed = s.fixed := by
  unfold State.putChans; dsimp only
  simp

@[simp] theorem State.endYielded_fixed {n k status} : (s.endYielded n k status).fixed = s.fixed := by simp [State.endYielded]
@[simp] theorem State.destroy_fixed {n} : (s.destroy n).fixed = s.fixed := by unfold State.destroy; dsimp only; (repeat' split) <;> simp
theorem execContextDestroy_answers {n} : Answers s (execContextDestroy n s) := by simp [execContextDestroy]

theorem execContextWipeComplete_answers : Answers s (execContextWipeComplete s) := by
  unfold execContextWipeComplete; simp

theorem execFaultAcknowledge_answers {n} : Answers s (execFaultAcknowledge n s) := by simp [execFaultAcknowledge]
theorem execPreemptionRequest_answers {n} : Answers s (execPreemptionRequest n s) := by unfold execPreemptionRequest; split <;> simp
theorem execYieldStop_answers : Answers s (execYieldStop s) := by unfold execYieldStop; dsimp only; (repeat' split) <;> simp
@[simp] theorem State.closeBanks_fixed {k} : (s.closeBanks k).fixed = s.fixed := by simp [State.closeBanks]
@[simp] theorem State.writeSaves_fixed {k y} : (s.writeSaves k y).fixed = s.fixed := by simp [State.writeSaves]

theorem execContextSaveComplete_answers : Answers s (execContextSaveComplete s) := by
  unfold execContextSaveComplete; dsimp only; (repeat' split) <;> simp

@[simp] theorem State.repin_fixed {n t st} : (s.repin n t st).1.fixed = s.fixed := by simp [State.repin]
@[simp] theorem State.repinAll_fixed {n t b} : (s.repinAll n t b).1.fixed = s.fixed := by simp [State.repinAll]

@[simp] theorem State.readSaves_fixed (s : State) (c : Context) (l : List Nat) : (s.readSaves c l).1.fixed = s.fixed := by
  induction l generalizing s with
  | nil => rfl
  | cons p r ih =>
    unfold State.readSaves; split
    next e => simp [fixed_fst e]
    next e => split <;> (next e' => simpa [fixed_fst e, ih] using fixed_fst e')

theorem execRestore_answers {n die0} : Answers s (execRestore n die0 s) := by
  unfold execRestore; rw [answers_next]; dsimp only; split
  · split
    · rfl
    · split
      · simp
      · split
        · next e => simp [fixed_fst e]
        · next e =>
          split <;> (next e' => simp [fixed_fst e', fixed_fst e])
  · rfl

@[simp] theorem State.trySlice_fixed {n} : (s.trySlice n).fixed = s.fixed := by unfold State.trySlice; (repeat' split) <;> simp

theorem execGangEntryFlit_answers {n rank} : Answers s (execGangEntryFlit n rank s) := by
  unfold execGangEntryFlit; rw [answers_next, State.hearReserved_fixed]
  intro u; dsimp only; split <;> simp

theorem execSliceStartTimeReached_answers : Answers s (execSliceStartTimeReached s) := by simp [execSliceStartTimeReached]
@[simp] theorem State.abortSlice_fixed {n} : (s.abortSlice n).fixed = s.fixed := by simp [State.abortSlice]
theorem execGangSliceAbort_answers : Answers s (execGangSliceAbort s) := by unfold execGangSliceAbort; (repeat' split) <;> simp

theorem execGangAbortFlit_answers {n} : Answers s (execGangAbortFlit n s) := by
  unfold execGangAbortFlit; rw [answers_next, State.hearReserved_fixed]
  intro u; dsimp only; split
  · simp
  · split <;> simp

end

end Sys2Proof.Machine
end

section
namespace Sys2Proof.Machine

/-! ### The device and its health -/

section
variable {s : State}

@[simp] theorem State.unpowered_fixed : s.unpowered.fixed = s.fixed := fixed_mk
@[simp] theorem State.measured_fixed {f} : (s.measured f).fixed = s.fixed := fixed_of_parts rfl (by simp [State.measured])
@[simp] theorem State.nextSample_fixed : s.nextSample.fixed = s.fixed := by simp [State.nextSample]
@[simp] theorem State.watchLinks_fixed : s.watchLinks.fixed = s.fixed := foldl_fixed (fun _ _ => State.at_fixed ..) _ _
@[simp] theorem State.endTenants_fixed : s.endTenants.fixed = s.fixed := by unfold State.endTenants; simp

theorem execSystemMeasurementExtend_answers {i digest} : Answers s (execSystemMeasurementExtend i digest s) := by
  unfold execSystemMeasurementExtend; rw [answers_next]; split
  · exact fixed_of_parts rfl Security.extend_fixed
  · rfl

theorem execAttestationReport_answers {nonce} : Answers s (execAttestationReport nonce s) := by
  unfold execAttestationReport; rw [answers_next]; split
  · simp
  · rfl

@[simp] theorem State.timeLoop_fixed {upper old new} : (s.timeLoop upper old new).fixed = s.fixed := by simp [State.timeLoop]
theorem execHealthSample_answers {readings} : Answers s (execHealthSample readings s) := by simp [execHealthSample]
theorem execLayerLimitExceeded_answers : Answers s (execLayerLimitExceeded s) := by unfold execLayerLimitExceeded; split <;> simp
theorem execVariantWaitTimeout_answers : Answers s (execVariantWaitTimeout s) := by unfold execVariantWaitTimeout; split <;> simp
theorem execCoolingLoopLost_answers {upper} : Answers s (execCoolingLoopLost upper s) := by simp [execCoolingLoopLost]
theorem execCoolingLoopRestored_answers {upper} : Answers s (execCoolingLoopRestored upper s) := by simp [execCoolingLoopRestored]
theorem execPackagePowerRemoval_answers : Answers s (execPackagePowerRemoval s) := by simp [execPackagePowerRemoval]

end

end Sys2Proof.Machine
end

section
namespace Sys2Proof.Machine

/-! ### A kernel's cycle and what comes next -/

section
variable {s : State}

@[simp] theorem State.resume_fixed {k} : (s.resume k).fixed = s.fixed := by simp [State.resume]
@[simp] theorem State.countCycle_fixed {k} : (s.countCycle k).fixed = s.fixed := by simp [State.countCycle]
@[simp] theorem State.endCycle_fixed {n k} : (s.endCycle n k).fixed = s.fixed := by simp [State.endCycle]

@[simp] theorem State.fromPhase_fixed (s : State) (n : Nat) (k : Kernel) (fuel p : Nat) : (s.fromPhase n k fuel p).fixed = s.fixed := by
  induction fuel generalizing s p with
  | zero => simp [State.fromPhase]
  | succ fuel ih => simp [State.fromPhase, ih]

@[simp] theorem State.runCycle_fixed {n k} : (s.runCycle n k).fixed = s.fixed := by simp [State.runCycle]
@[simp] theorem State.tick_fixed : s.tick.fixed = s.fixed := by unfold State.tick; (repeat' split) <;> simp

end

end Sys2Proof.Machine
end

section
/-!
SUPPORT. What the power-on and the commands of the life cycle do to the fuses, and so what every row and every step does (R19, R20, R25, R294).
-/

namespace Sys2Proof.Machine

/-- The rows that R20 and R25 let change a fuse, the rollback counter or a key hash. -/
def FuseRow (i : Instr) : Prop := match i with
  | .vendorProvisioning .. | .ownerEnrolment _ | .returnToken _ | .rollbackAdvance _ | .scrapCommand _ | .dbgctlGo _ => True
  | _ => False

/-- What those rows write for good. -/
def Security.fused (x : Security) := (x.fuses, x.rollback, x.device, x.seed, x.vendor, x.owner)

/-- No fuse is taken back and the rollback is not counted down, where lfst shows the fuses. -/
def Advances (s t : State) : Prop :=
  s.sec.lfst = s.sec.fuse → t.sec.lfst = t.sec.fuse ∧ s.sec.fuse.code ≤ t.sec.fuse.code ∧ s.sec.rollback ≤ t.sec.rollback

/-- What a row owes of its state before and after to R19, R20 and R25. -/
def RowOk (i : Instr) (s t : State) : Prop :=
  t.pkg = s.pkg ∧ t.sec.flash = s.sec.flash ∧ Advances s t ∧
    ((∀ d e a b c f, i ≠ .vendorProvisioning d e a b c f) → t.sec.cert = s.sec.cert ∧ t.sec.device = s.sec.device ∧ t.sec.seed = s.sec.seed) ∧
    (t.sec.fused ≠ s.sec.fused → FuseRow i)

theorem RowOk.congr {i : Instr} {s t u : State} (h : RowOk i s u) (e : t.fixed = u.fixed) : RowOk i s t := by
  obtain ⟨e1, e2, e3, e4, e5, e6, e7, e8, e9, e10⟩ := State.fixed_eq_iff.mp e
  simpa only [RowOk, Advances, Security.fuse, Security.fused, e1, e2, e3, e4, e5, e6, e7, e8, e9, e10] using h

theorem RowOk.refl {i : Instr} {s : State} : RowOk i s s :=
  ⟨rfl, rfl, fun h => ⟨h, le_rfl, le_rfl⟩, fun _ => ⟨rfl, rfl, rfl⟩, fun h => absurd rfl h⟩

theorem RowOk.of_answers {i : Instr} {s : State} {o} (h : Answers s o) : ∃ t, o = .next t ∧ RowOk i s t := by
  obtain ⟨t, ho, ht⟩ := h
  exact ⟨t, ho, RowOk.refl.congr ht⟩

/-- What the power-on puts before the first sample is dated and the links are watched (R19, R26). -/
def State.started (s : State) : State :=
  let s0 := s.unpowered
  { s0 with
    agenda := s0.agenda.map fun (a : Nat × Due) => (a.1 - s.wall, a.2), wall := 0, free := s0.free + 3, health := { power := true }
    sec := { s0.sec with lfst := s0.sec.fuse, nonce := s0.freeNonce, port := s0.sec.fuse == .debugUnlocked }
    host := { s0.host with mode := hostModeOf (Config.freeNat (s0.free + 2)) } }

/-- The device with power, before the ROM looks at its fuses and its images (R19, R21). -/
def State.powered (s : State) : State := s.started.nextSample.watchLinks

/-- An image of module flash that the ROM looks at and takes (R22). -/
def State.bootImage (s : State) : Option Firmware := (s.sec.flash.take 2).find? s.sec.takes

/-- What the ROM does with the fuses and the images of a device with power (R21, R22). -/
def State.booted (s : State) : State := match s.sec.fuse with
  | .blank => { s with sec := { s.sec with boot := .provisioning } }
  | .scrapped => { s with sec := { s.sec with boot := .halted, bootWord := s.sec.lfstWord } }
  | _ => match s.bootImage with
    | some f => (({ s with sec := { s.sec with boot := .running } } : State).measured f).updCtx 0 fun c => { c with st := .assigned }
    | none => { s with sec := { s.sec with boot := .halted, bootWord := (Config.freeWord s.free).toNat }, free := s.free + 1 }

theorem exec_powerOn_eq (s : State) : exec .powerOn s = .next s.powered.booted := rfl

theorem State.booted_fixed {s : State} : s.booted.fixed = s.fixed := by
  unfold State.booted; split
  · exact fixed_mk_sec
  · exact fixed_mk_sec
  · split
    · simp
    · exact fixed_mk_sec

theorem State.powered_fixed {s : State} : s.powered.fixed = ({ s with sec := { s.sec with lfst := s.sec.fuse } } : State).fixed := by
  simp only [State.powered, State.watchLinks_fixed, State.nextSample_fixed]
  rfl

theorem execPowerOn_rowOk (s : State) : ∃ t, exec .powerOn s = .next t ∧ RowOk .powerOn s t :=
  ⟨_, exec_powerOn_eq s, .congr (u := { s with sec := { s.sec with lfst := s.sec.fuse } })
    ⟨rfl, rfl, fun _ => ⟨rfl, le_rfl, le_rfl⟩, fun _ => ⟨rfl, rfl, rfl⟩, fun h => absurd rfl h⟩ (State.booted_fixed.trans State.powered_fixed)⟩

/-- A command that writes the security block: what it owes to R19, R20 and R25. -/
theorem RowOk.sec {i : Instr} {s : State} {x : Security} (hi : FuseRow i) (hflash : x.flash = s.sec.flash)
    (ha : s.sec.lfst = s.sec.fuse → x.lfst = x.fuse ∧ s.sec.fuse.code ≤ x.fuse.code ∧ s.sec.rollback ≤ x.rollback)
    (hk : (∀ d e a b c f, i ≠ .vendorProvisioning d e a b c f) → x.cert = s.sec.cert ∧ x.device = s.sec.device ∧ x.seed = s.sec.seed) :
    RowOk i s { s with sec := x } :=
  ⟨rfl, hflash, ha, hk, fun _ => hi⟩

theorem RowOk.endTenants {i : Instr} {s u : State} (h : RowOk i s u) : RowOk i s u.endTenants := h.congr (State.endTenants_fixed)

theorem LifeCycle.code_le_scrapped (l : LifeCycle) : l.code ≤ LifeCycle.code .scrapped := by cases l <;> decide

theorem execVendorProvisioning_rowOk (d : Word) (e a b c f : BitVec 256) (s : State) :
    ∃ t, exec (.vendorProvisioning d e a b c f) s = .next t ∧ RowOk (.vendorProvisioning d e a b c f) s t := by
  refine ⟨_, rfl, ?_⟩
  split
  · next h =>
    obtain ⟨hf, -⟩ := h
    exact .sec trivial rfl (fun _ => ⟨rfl, hf ▸ Nat.zero_le _, le_rfl⟩) fun hne => absurd rfl (hne d e a b c f)
  · exact .refl

theorem execOwnerEnrolment_rowOk (cmd : Signed) (s : State) : ∃ t, exec (.ownerEnrolment cmd) s = .next t ∧ RowOk (.ownerEnrolment cmd) s t := by
  refine ⟨_, rfl, ?_⟩
  split
  · next h =>
    obtain ⟨-, hl, -⟩ := h
    exact .sec trivial rfl (fun e => ⟨rfl, by rw [← e, hl]; exact Nat.le_succ 1, le_rfl⟩) fun _ => ⟨rfl, rfl, rfl⟩
  · exact .refl

theorem execReturnToken_rowOk (cmd : Signed) (s : State) : ∃ t, exec (.returnToken cmd) s = .next t ∧ RowOk (.returnToken cmd) s t := by
  refine ⟨_, rfl, ?_⟩
  split
  · next h =>
    obtain ⟨-, hl, -⟩ := h
    refine .endTenants (.sec trivial rfl (fun e => ⟨rfl, ?_, le_rfl⟩) fun _ => ⟨rfl, rfl, rfl⟩)
    change s.sec.fuse.code ≤ LifeCycle.code .returned
    rcases hl with hl | hl <;> (rw [← e, hl]; decide)
  · exact .refl

theorem execRollbackAdvance_rowOk (cmd : Signed) (s : State) : ∃ t, exec (.rollbackAdvance cmd) s = .next t ∧ RowOk (.rollbackAdvance cmd) s t := by
  refine ⟨_, rfl, ?_⟩
  extract_lets v owner
  split
  · next h =>
    obtain ⟨-, -, -, hv, -⟩ := h
    exact .sec trivial rfl (fun e => ⟨e, le_rfl, hv.le⟩) fun _ => ⟨rfl, rfl, rfl⟩
  · exact .refl

theorem execScrapCommand_rowOk (cmd : Signed) (s : State) : ∃ t, exec (.scrapCommand cmd) s = .next t ∧ RowOk (.scrapCommand cmd) s t := by
  refine ⟨_, rfl, ?_⟩
  split
  · exact .endTenants (.sec trivial rfl (fun _ => ⟨rfl, LifeCycle.code_le_scrapped _, le_rfl⟩) fun _ => ⟨rfl, rfl, rfl⟩)
  · exact .refl

/-- An unlock that ends with status 2 comes in provisioned or owned (R25). -/
theorem State.unlockStatus_eq_two {s : State} {tok : List Byte} (h : s.unlockStatus tok = 2) : s.sec.fuse = .provisioned ∨ s.sec.fuse = .owned := by
  by_contra hn
  obtain ⟨h1, h2⟩ := not_or.mp hn
  simp only [State.unlockStatus, h1, h2, if_false] at h
  split at h
  · contradiction
  · split at h <;> contradiction

/-- The token window of 192 bytes (R25). -/
def tokenOf (token : List Byte) : List Byte := (token ++ List.replicate 192 0).take 192

/-- An unlock attempt that nothing listens to (R25). -/
theorem execDbgctlGo_idle {token : List Byte} {s : State} (h : s.sec.boot = .off ∨ s.sec.boot = .halted ∨ s.sec.status = 1) :
    exec (.dbgctlGo token) s = .next s := by
  rw [exec_dbgctlGo, execDbgctlGo, if_pos (by simpa [or_assoc] using h)]

/-- One that is looked at (R25). -/
theorem execDbgctlGo_awake {token : List Byte} {s : State} (h : ¬ (s.sec.boot = .off ∨ s.sec.boot = .halted ∨ s.sec.status = 1)) :
    exec (.dbgctlGo token) s = .next { s with
      free := s.free + 2
      sec :=
        let x := { s.sec with token := tokenOf token, status := s.unlockStatus (tokenOf token), nonce := s.freeNonce }
        if s.unlockStatus (tokenOf token) = 2 then { (x.become .debugUnlocked).extend 4 (sha256 (tokenOf token)) with keys := [], port := true } else x } := by
  rw [exec_dbgctlGo, execDbgctlGo, if_neg (by simpa [or_assoc] using h)]
  rfl

/-- One that fails: the status is reported and a new nonce drawn (R25). -/
theorem execDbgctlGo_fails {token : List Byte} {s : State} (h : ¬ (s.sec.boot = .off ∨ s.sec.boot = .halted ∨ s.sec.status = 1)) {st : Nat}
    (hst : s.unlockStatus (tokenOf token) = st) (h2 : st ≠ 2) :
    exec (.dbgctlGo token) s = .next { s with sec := { s.sec with token := tokenOf token, status := st, nonce := s.freeNonce }, free := s.free + 2 } := by
  subst hst
  rw [execDbgctlGo_awake h, if_neg h2]

/-- One that passes every check: debug is unlocked (R25). -/
theorem execDbgctlGo_unlocks {token : List Byte} {s : State} (h : ¬ (s.sec.boot = .off ∨ s.sec.boot = .halted ∨ s.sec.status = 1))
    (hst : s.unlockStatus (tokenOf token) = 2) :
    exec (.dbgctlGo token) s = .next { s with free := s.free + 2, sec := { s.sec with
      token := tokenOf token, status := 2, nonce := s.freeNonce, keys := [], fuses := some .debugUnlocked, lfst := .debugUnlocked, port := true
      meas := mapSet 0 s.sec.meas 4 (sha256 (digestBytes (mapGet 0 s.sec.meas 4) ++ digestBytes (sha256 (tokenOf token)))) } } := by
  rw [execDbgctlGo_awake h, if_pos hst, hst]
  rfl

theorem execDbgctlGo_rowOk (token : List Byte) (s : State) : ∃ t, exec (.dbgctlGo token) s = .next t ∧ RowOk (.dbgctlGo token) s t := by
  by_cases h : s.sec.boot = .off ∨ s.sec.boot = .halted ∨ s.sec.status = 1
  · exact ⟨_, execDbgctlGo_idle h, .refl⟩
  · by_cases hst : s.unlockStatus (tokenOf token) = 2
    · refine ⟨_, execDbgctlGo_unlocks h hst, rfl, rfl, fun _ => ⟨rfl, ?_, le_rfl⟩, fun _ => ⟨rfl, rfl, rfl⟩, fun _ => trivial⟩
      change s.sec.fuse.code ≤ LifeCycle.code .debugUnlocked
      rcases State.unlockStatus_eq_two hst with hf | hf <;> (rw [hf]; decide)
    · exact ⟨_, execDbgctlGo_fails h rfl hst, RowOk.refl.congr fixed_mk_sec⟩

theorem execEret_answers (s : State) : Answers s (execEret s) := by
  unfold execEret; split
  · simp
  · exact runSlot_answers ..

theorem execEretSkip_answers (s : State) : Answers s (execEretSkip s) := by
  unfold execEretSkip; split
  · dsimp only; split <;> simp
  · exact runSlot_answers ..

theorem execHalt_answers (s : State) : Answers s (execHalt s) := by
  unfold execHalt; split
  · simp
  · exact runSlot_answers ..

theorem execLrecv_answers {a : Reg} {n : BitVec 8} {ch : BitVec 6} {acq : Bool} (s : State) : Answers s (execLrecv a n ch acq s) := by
  unfold execLrecv; split
  · exact runSlot_answers ..
  · dsimp only; split <;> simp
  · exact (runSlot_answers ..).of_fixed (State.updLink_fixed ..)

theorem row_answers {i : Instr} {s : State} (hi : ¬ FuseRow i) (hp : i ≠ .powerOn) : Answers s (exec i s) := by
  unfold exec
  cases i with
  | vendorProvisioning | ownerEnrolment | returnToken | rollbackAdvance | scrapCommand | dbgctlGo => exact absurd trivial hi
  | powerOn => exact absurd rfl hp
  | hint | nop | j | call | ld | objunp | objq | objchk | vcmp | mand | mor | mnot | mcnt | vext | accrd | scbind | screl | st | accst | opst | scst |
      objpin | trap | fmt | ftsel |
     br | ret | brme | loop | lbrk | mfs | mts | wfe | mark | vfcmp | vfcvt | vmad | vsel | vredadd | vscan | vtopk | mpush | vmov | vmovs | accz | accwr | accwait | opld | opclr
     | vld | vst | vgath | vscat | yield | minv | mpop | sev | jcbraise | jcbwait => exact runSlot_answers ..
  | add | sub | mul | mulh | mulhu | div | divu | rem | remu | and | or | xor | andn | shl | shr | sar | rot | clz | ctz | popc | min | max | minu
    | maxu | sel | cmp | movi | sext | zext | bfx | bfi | idx | madd => exact scalarOp_answers ..
  | vfadd | vfsub | vfmul | vfma | vfms | vfnma | vfdiv | vfsqrt | vfmin | vfmax | vfabs | vfneg | vfrnd | vscalb | vexp2 | vlog2 | vrcp | vrsq =>
      exact floatOp_answers ..
  | vadd | vsub | vmul | vmulh | vand | vor | vxor | vshl | vshr | vsar | vmin | vmax => exact intOp_answers ..
  | vabs | vclz | vpopc => exact intOp1_answers ..
  | vclmulLo | vclmulHi => exact clmulOp_answers ..
  | vperm | vshuf | vbcast => exact permOp_answers ..
  | vredmax | vredmin => exact redPick_answers ..
  | mma | mmaZ | mmaN => exact mmaOp_answers ..
  | accret | accretAmax | accretApply | accretDerive => exact accretOp_answers ..
  | scld | scmov | scmul | scmax | scmin | scq | scset | scgen => exact scaleOp_answers ..
  | msend | msendv | mcast => exact meshSend_answers ..
  | fence | stIo | apst | jcbpost | lsend => exact runChecked_answers ..
  | amoCas | amoAdd | amoSwp | amoMin | amoMax | amoAnd | amoOr => exact amoOp_answers ..
  | wwait | wpoll | warr | wpend => exact weirOp_answers ..
  | act | pre | rdop | rdsc | bstat | ref | vfence | prea => exact runVault_answers ..
  | rd | rda | wr | wra => exact columnOp_answers ..
  | train | actraw => exact runPrivileged_answers ..
  | rdraw | wrraw => exact rawOp_answers ..
  | bankActivationComplete | autoPrecharge | prechargeComplete | refreshComplete | lendEnd => exact bankEvent_answers ..
  | ivLdp | ivMovi | ivMovh | ivAdd | ivSub | ivAnd | ivOr | ivXor | ivShl | ivShr | ivBeq | ivBne | ivBltu | ivJf | ivLoop | ivNeed | ivTokadd =>
      exact runOp_answers ..
  | holdRelease => exact execHoldRelease_answers ..
  | selfRefreshEntry => exact execSelfRefreshEntry_answers ..
  | formatWriteEffect => exact execFormatWriteEffect_answers ..
  | trainingWindowStart => exact execTrainingWindowStart_answers ..
  | trainingWindowEnd => exact execTrainingWindowEnd_answers ..
  | retrainingDue => exact execRetrainingDue_answers ..
  | forcedRetraining => exact execForcedRetraining_answers ..
  | refreshOverdue => exact execRefreshOverdue_answers ..
  | vaultReadTransfer => exact execVaultReadTransfer_answers ..
  | vaultWriteTransfer => exact execVaultWriteTransfer_answers ..
  | vinjParityInject => exact execVinjParityInject_answers ..
  | vinjStuckLane => exact execVinjStuckLane_answers ..
  | busRetry => exact execBusRetry_answers ..
  | laneSwap => exact execLaneSwap_answers ..
  | resultLanding => exact execResultLanding_answers ..
  | recordLoadComplete => exact execRecordLoadComplete_answers ..
  | lqEntryDiscard => exact execLqEntryDiscard_answers ..
  | lqFlagsWrite => exact execLqFlagsWrite_answers ..
  | lqvWrite => exact execLqvWrite_answers ..
  | vwdatWrite => exact execVwdatWrite_answers ..
  | mwdatWrite => exact execMwdatWrite_answers ..
  | vlcntWrite => exact execVlcntWrite_answers ..
  | pccClear => exact execPccClear_answers ..
  | pccReprogram => exact execPccReprogram_answers ..
  | pccOvfClear => exact execPccOvfClear_answers ..
  | counterOverflow => exact execCounterOverflow_answers ..
  | meshFlitInject => exact execMeshFlitInject_answers ..
  | meshFlitHop => exact execMeshFlitHop_answers ..
  | meshFlitArrival => exact execMeshFlitArrival_answers ..
  | eventLatchSet => exact execEventLatchSet_answers ..
  | weirByteDecrement => exact execWeirByteDecrement_answers ..
  | cisternRequestApply => exact execCisternRequestApply_answers ..
  | bundleIssue => exact execBundleIssue_answers ..
  | handlerBundleIssue => exact execHandlerBundleIssue_answers ..
  | stopHorizon => exact execStopHorizon_answers ..
  | partitionRelease => exact execPartitionRelease_answers ..
  | deferredTrap => exact execDeferredTrap_answers ..
  | tileHalted => exact execTileHalted_answers ..
  | segmentCopyComplete => exact execSegmentCopyComplete_answers ..
  | sluiceStartArrival => exact execSluiceStartArrival_answers ..
  | jobApply => exact execJobApply_answers ..
  | jobUnit => exact execJobUnit_answers ..
  | jobCompletionRecord => exact execJobCompletionRecord_answers ..
  | queueServiceWrite => exact execQueueServiceWrite_answers ..
  | queueEnable => exact execQueueEnable_answers ..
  | queueDisable => exact execQueueDisable_answers ..
  | programInstall => exact execProgramInstall_answers ..
  | packetFetch => exact execPacketFetch_answers ..
  | packetDispatch => exact execPacketDispatch_answers ..
  | ivLdw => exact execIvLdw_answers ..
  | ivStw => exact execIvStw_answers ..
  | ivRank => exact execIvRank_answers ..
  | ivJob => exact execIvJob_answers ..
  | ivLaunch => exact execIvLaunch_answers ..
  | ivEvt => exact execIvEvt_answers ..
  | ivDone => exact execIvDone_answers ..
  | ivDrop => exact execIvDrop_answers ..
  | linkFlitAccept => exact execLinkFlitAccept_answers ..
  | creditReturn => exact execCreditReturn_answers ..
  | linkFlitEnqueue => exact execLinkFlitEnqueue_answers ..
  | flitReplay => exact execFlitReplay_answers ..
  | linkDown => exact execLinkDown_answers ..
  | linkTraining => exact execLinkTraining_answers ..
  | linkBeacon => exact execLinkBeacon_answers ..
  | linkReceiveTimeout => exact execLinkReceiveTimeout_answers ..
  | collectiveStart => exact execCollectiveStart_answers ..
  | collectiveNodeValue => exact execCollectiveNodeValue_answers ..
  | collectiveComplete => exact execCollectiveComplete_answers ..
  | hostMemRead => exact execHostMemRead_answers ..
  | hostMemWrite => exact execHostMemWrite_answers ..
  | hostServiceTimeout => exact execHostServiceTimeout_answers ..
  | hostApertureStart => exact execHostApertureStart_answers ..
  | hostSnoop => exact execHostSnoop_answers ..
  | kernelLoad => exact execKernelLoad_answers ..
  | kernelBind => exact execKernelBind_answers ..
  | timetableStart => exact execTimetableStart_answers ..
  | replanSwitch => exact execReplanSwitch_answers ..
  | kernelComplete => exact execKernelComplete_answers ..
  | contextTableInstall => exact execContextTableInstall_answers ..
  | contextCreate => exact execContextCreate_answers ..
  | contextDestroy => exact execContextDestroy_answers ..
  | contextWipeComplete => exact execContextWipeComplete_answers ..
  | faultAcknowledge => exact execFaultAcknowledge_answers ..
  | preemptionRequest => exact execPreemptionRequest_answers ..
  | yieldStop => exact execYieldStop_answers ..
  | contextSaveComplete => exact execContextSaveComplete_answers ..
  | restore => exact execRestore_answers ..
  | gangEntryFlit => exact execGangEntryFlit_answers ..
  | sliceStartTimeReached => exact execSliceStartTimeReached_answers ..
  | gangSliceAbort => exact execGangSliceAbort_answers ..
  | gangAbortFlit => exact execGangAbortFlit_answers ..
  | systemMeasurementExtend => exact execSystemMeasurementExtend_answers ..
  | attestationReport => exact execAttestationReport_answers ..
  | healthSample => exact execHealthSample_answers ..
  | layerLimitExceeded => exact execLayerLimitExceeded_answers ..
  | variantWaitTimeout => exact execVariantWaitTimeout_answers ..
  | coolingLoopLost => exact execCoolingLoopLost_answers ..
  | coolingLoopRestored => exact execCoolingLoopRestored_answers ..
  | packagePowerRemoval => exact execPackagePowerRemoval_answers ..
  | eret => exact execEret_answers ..
  | eretSkip => exact execEretSkip_answers ..
  | halt => exact execHalt_answers ..
  | lrecv => exact execLrecv_answers ..

theorem row_ok (i : Instr) (s : State) : ∃ t, exec i s = .next t ∧ RowOk i s t := by
  by_cases hi : FuseRow i
  · cases i with
    | vendorProvisioning => exact execVendorProvisioning_rowOk ..
    | ownerEnrolment => exact execOwnerEnrolment_rowOk ..
    | returnToken => exact execReturnToken_rowOk ..
    | rollbackAdvance => exact execRollbackAdvance_rowOk ..
    | scrapCommand => exact execScrapCommand_rowOk ..
    | dbgctlGo => exact execDbgctlGo_rowOk ..
    | _ => exact hi.elim
  · by_cases hp : i = .powerOn
    · exact hp ▸ execPowerOn_rowOk s
    · exact RowOk.of_answers (row_answers hi hp)

theorem State.nextRun_isSome {s : State} {p : Bool × Run} (h : s.nextRun = some p) : s.qe.mainRun.isSome = true ∨ s.qe.rankRun.isSome = true := by
  obtain ⟨hx, -⟩ := Option.filter_eq_some_iff.mp h
  have some_of_ready {r : Option Run} {x : Run} (e : readyRun r = some x) : r.isSome = true := by
    rw [(Option.filter_eq_some_iff.mp e).1]; rfl
  split at hx
  · next e _ => exact .inl (some_of_ready e)
  · next e _ => exact .inl (some_of_ready e)
  · next _ e => exact .inr (some_of_ready e)
  · cases hx

/-- All that a step can do. -/
theorem step_answers (s : State) : (∃ t, step s = .next t ∧ t.pkg = s.pkg ∧ Advances s t) ∨
    ∃ w, step s = .refused (.notAnOp w) ∧ s.todo = [] ∧ (s.qe.mainRun.isSome = true ∨ s.qe.rankRun.isSome = true) := by
  unfold step
  split
  · next e rest _ =>
    obtain ⟨t, ht, hpkg, -, ha, -⟩ := row_ok e.i { s with todo := rest, ev := e.arg }
    exact .inl ⟨t, ht, hpkg, ha⟩
  · next htodo =>
    split
    · next rank r hr =>
      unfold runStep
      split
      · exact .inr ⟨_, rfl, htodo, State.nextRun_isSome hr⟩
      · split
        · next i _ =>
          obtain ⟨t, ht, hpkg, -, ha, -⟩ := row_ok i (s.atOp rank r)
          exact .inl ⟨t, ht, hpkg, ha⟩
        · exact .inr ⟨_, rfl, htodo, State.nextRun_isSome hr⟩
    · obtain ⟨hpkg, -, ha, -⟩ := (RowOk.refl (i := .nop)).congr s.tick_fixed
      exact .inl ⟨_, rfl, hpkg, ha⟩

/-- Settles O59: every row answers a next state by `row_ok`, and a step is a row, an interpreter at no op, or a passing of time. -/
theorem rowsCompleteAndFusesOnlyAdvance : Obligations.RowsCompleteAndFusesOnlyAdvance := by
  refine ⟨rfl, row_ok, fun s t h => ?_, fun s f h => ?_, fun s r h => ?_⟩ <;>
    rcases step_answers s with ⟨u, hu, hpkg, ha⟩ | ⟨w, hw, htodo, hrun⟩
  · cases hu.symm.trans h
    exact ⟨hpkg, ha⟩
  · cases hw.symm.trans h
  · cases hu.symm.trans h
  · cases hw.symm.trans h
  · cases hu.symm.trans h
  · cases hw.symm.trans h
    exact ⟨w, rfl, htodo, hrun⟩

end Sys2Proof.Machine
end

section
/-!
SUPPORT. Reset (R19, R21, R329).
-/

namespace Sys2Proof.Machine

/-- Settles O56: each part of the reset state reads its default. -/
theorem resetState : Obligations.ResetState := by
  refine ⟨rfl, rfl, rfl, rfl, rfl, rfl, rfl, fun _ => rfl, fun _ => rfl, fun t => ⟨rfl, fun r => ?_, fun _ => rfl, fun _ => rfl, rfl, fun _ => rfl, fun _ _ => rfl⟩⟩
  exact ite_self _

end Sys2Proof.Machine
end

section
/-!
SUPPORT. Rows dated, and the power-on (R19 to R23, R26, R351).
-/

namespace Sys2Proof.Machine

/-! ### Rows dated, and free values used -/

/-- `t` is `s` with more rows dated and more free values used. -/
def State.Dated (s t : State) : Prop := ∃ ag fr, t = { s with agenda := ag, free := fr } ∧ s.agenda ⊆ ag

theorem mem_insertDated {α : Type} {w : Nat} {x : α} {e : Nat × α} {l : List (Nat × α)} : e ∈ insertDated w x l ↔ e = (w, x) ∨ e ∈ l := by
  induction l with
  | nil => simp [insertDated]
  | cons a r ih =>
    unfold insertDated
    split
    · simp
    · simp only [List.mem_cons, ih]
      exact or_left_comm

theorem State.Dated.refl {s : State} : s.Dated s := ⟨_, _, rfl, List.Subset.refl _⟩

theorem State.Dated.trans {s t u : State} (h : s.Dated t) (h' : t.Dated u) : s.Dated u := by
  obtain ⟨ag, fr, rfl, hag⟩ := h
  obtain ⟨ag', fr', rfl, hag'⟩ := h'
  exact ⟨ag', fr', rfl, fun _ he => hag' (hag he)⟩

theorem State.dated_at {s : State} {w : Nat} {d : Due} : s.Dated (s.at w d) := ⟨_, _, rfl, fun _ he => mem_insertDated.mpr (.inr he)⟩

theorem State.mem_at {s : State} {w : Nat} {d : Due} : (w, d) ∈ (s.at w d).agenda := mem_insertDated.mpr (.inl rfl)

theorem State.dated_tickFree {s : State} : s.Dated s.tickFree := ⟨_, _, rfl, List.Subset.refl _⟩

theorem State.dated_foldl {α : Type} {f : State → α → State} (h : ∀ (s : State) x, s.Dated (f s x)) (l : List α) (s : State) : s.Dated (l.foldl f s) := by
  induction l generalizing s with
  | nil => exact .refl
  | cons x r ih => exact (h s x).trans (ih _)

theorem State.Dated.mem {s t : State} (h : s.Dated t) {e : Nat × Due} (he : e ∈ s.agenda) : e ∈ t.agenda := by
  obtain ⟨ag, fr, rfl, hag⟩ := h
  exact hag he

theorem State.dated_nextSample (s : State) : s.Dated s.nextSample := by
  unfold nextSample
  split
  · exact .refl
  · exact dated_at.trans dated_tickFree

theorem State.dated_watchLinks (s : State) : s.Dated s.watchLinks := dated_foldl (fun _ _ => dated_at) _ _

/-- A row that a fold dates for an element of its list is in the agenda at its end. -/
theorem State.mem_foldl_at {α : Type} {w : State → Nat} {d : α → Due} (hw : ∀ s t : State, s.Dated t → w t = w s) {l : List α} {x : α} (hx : x ∈ l) (s : State) :
    (w s, d x) ∈ (l.foldl (fun s x => s.at (w s) (d x)) s).agenda := by
  induction l generalizing s with
  | nil => cases hx
  | cons y r ih =>
    rcases List.mem_cons.mp hx with rfl | hx
    · exact (dated_foldl (fun _ _ => dated_at) r _).mem mem_at
    · exact hw s _ (dated_at (w := w s) (d := d y)) ▸ ih hx _

theorem State.watchLinks_mem (s : State) {l : Nat} (h : l < 32) : (s.wall + linkSilence, { i := .linkDown l }) ∈ s.watchLinks.agenda :=
  mem_foldl_at (w := fun s => s.wall + linkSilence) (d := fun l => { i := .linkDown l }) (fun _ _ ⟨_, _, e, _⟩ => by rw [e]) (List.mem_range.mpr h) s

/-! ### Power-on -/

theorem State.dated_powered (s : State) : s.started.Dated s.powered := (dated_nextSample _).trans (dated_watchLinks _)

theorem State.powered_watches (s : State) {l : Nat} (h : l < 32) : (39 * 100000, { i := .linkDown l }) ∈ s.powered.agenda := by
  obtain ⟨ag, fr, e, -⟩ := dated_nextSample s.started
  have := s.started.nextSample.watchLinks_mem h
  rw [show s.started.nextSample.wall = 0 by rw [e]; rfl] at this
  exact this

theorem State.measured_eq (s : State) (f : Firmware) : ∃ m, s.measured f = { s with sec := { s.sec with meas := m }, free := s.free + 4 } := by
  unfold State.measured Security.extend
  exact ⟨_, rfl⟩

/-- What the ROM's choice leaves alone: all but the boot, the measurements, the free values and the contexts. -/
theorem State.booted_eq (s : State) : ∃ meas boot word fr cs, s.booted =
    { s with sec := { s.sec with meas := meas, boot := boot, bootWord := word }, free := fr, ctxs := cs } := by
  unfold booted
  split
  · exact ⟨_, _, _, _, _, rfl⟩
  · exact ⟨_, _, _, _, _, rfl⟩
  · split
    · next f _ =>
      obtain ⟨m, hm⟩ := State.measured_eq { s with sec := { s.sec with boot := .running } } f
      rw [hm]
      exact ⟨_, _, _, _, _, rfl⟩
    · exact ⟨_, _, _, _, _, rfl⟩

theorem State.booted_blank {s : State} (h : s.sec.fuse = .blank) : s.booted.sec.boot = .provisioning ∧ s.booted.ctxs = s.ctxs := by
  simp [booted, h]

theorem State.booted_scrapped {s : State} (h : s.sec.fuse = .scrapped) :
    s.booted.sec.boot = .halted ∧ s.booted.sec.bootWord = s.sec.lfstWord ∧ s.booted.ctxs = s.ctxs := by
  simp [booted, h]

theorem State.booted_runs {s : State} {f : Firmware} (hb : s.sec.fuse ≠ .blank) (hs : s.sec.fuse ≠ .scrapped) (hf : s.bootImage = some f) :
    s.booted.sec.boot = .running ∧ s.booted.ctxs = mapSet {} s.ctxs 0 { s.ctx 0 with st := .assigned } := by
  unfold booted
  split
  · contradiction
  · contradiction
  · rw [hf]; exact ⟨rfl, rfl⟩

theorem State.booted_halts {s : State} (hb : s.sec.fuse ≠ .blank) (hs : s.sec.fuse ≠ .scrapped) (hf : s.bootImage = none) :
    s.booted.sec.boot = .halted ∧ s.booted.ctxs = s.ctxs := by
  unfold booted
  split
  · contradiction
  · contradiction
  · rw [hf]; exact ⟨rfl, rfl⟩

theorem Security.takes_iff {x : Security} {f : Firmware} :
    x.takes f = true ↔ signedBy f.sig (x.accepted (x.fuse == .owned || x.fuse == .debugUnlocked)) = true ∧ x.rollback ≤ f.version := by
  simp [takes]

theorem State.powered_fuse (s : State) : s.powered.sec.fuse = s.sec.fuse := by
  obtain ⟨ag, fr, hp, -⟩ := s.dated_powered
  simp only [hp, started, unpowered, Security.fuse]

theorem State.powered_bootImage (s : State) : s.powered.bootImage = (s.sec.flash.take 2).find? s.sec.takes := by
  obtain ⟨ag, fr, hp, -⟩ := s.dated_powered
  simp only [hp, bootImage, started, unpowered]
  rfl

theorem State.find_takes {x : Security} {l : List Firmware} {ok : Firmware → Prop} (hok : ∀ f, x.takes f = true ↔ ok f) :
    ((∃ f ∈ l, ok f) → ∃ f, l.find? x.takes = some f) ∧ ((∀ f ∈ l, ¬ ok f) → l.find? x.takes = none) := by
  refine ⟨fun ⟨f, hf, h⟩ => Option.isSome_iff_exists.mp (List.find?_isSome.mpr ⟨f, hf, (hok f).mpr h⟩), fun h => List.find?_eq_none.mpr fun f hf => ?_⟩
  exact fun e => h f hf ((hok f).mp e)

/-- What the power-on leaves whatever the fuses are (R19, R21, R329, R351). -/
theorem State.booted_base (s : State) : let u := s.powered.booted; let x := s.sec
    u.wall = 0 ∧ u.tiles = [] ∧ u.kernels = [] ∧ u.dies = [] ∧ u.links = [] ∧ u.qe = {} ∧ u.todo = [] ∧ u.host.mem = s.host.mem ∧
      u.health = { power := true } ∧ u.sec.fuses = x.fuses ∧ u.sec.lfst = x.fuse ∧ u.sec.rollback = x.rollback ∧ u.sec.device = x.device ∧ u.sec.seed = x.seed ∧
      u.sec.vendor = x.vendor ∧ u.sec.owner = x.owner ∧ u.sec.flash = x.flash ∧ u.sec.cert = x.cert ∧ u.sec.port = (x.fuse == .debugUnlocked) ∧ u.sec.token = [] ∧
      u.sec.report = [] ∧ u.sec.status = 0 ∧ u.agenda = s.powered.agenda := by
  obtain ⟨ag, fr, hp, -⟩ := s.dated_powered
  obtain ⟨meas, boot, word, fr', cs, hb⟩ := s.powered.booted_eq
  simp only [hb]
  simp only [hp, State.started, State.unpowered, Security.fuse, and_self]

theorem State.powered_ctxs (s : State) : s.powered.ctxs = [] := by
  obtain ⟨ag, fr, hp, -⟩ := s.dated_powered
  simp only [hp, started, unpowered]

theorem State.powered_lfstWord (s : State) : s.powered.sec.lfstWord = s.sec.fuse.code + s.sec.rollback % 256 * 2 ^ 8 := by
  obtain ⟨ag, fr, hp, -⟩ := s.dated_powered
  simp only [hp, started, unpowered, Security.lfstWord, Security.fuse]

theorem powerOn : Sys2Proof.Claims.PowerOn := by
  intro s x
  obtain ⟨hwall, htiles, hkernels, hdies, hlinks, hqe, htodo, hmem, hhealth, hfuses, hlfst, hrollback, hdevice, hseed, hvendor, howner, hflash, hcert, hport, htoken,
    hreport, hstatus, hagenda⟩ := s.booted_base
  have hctxs := s.powered_ctxs
  have hfuse := s.powered_fuse
  have hword := s.powered_lfstWord
  have hwatch (l : Nat) (hl : l < 32) : (39 * 100000, { i := .linkDown l }) ∈ s.powered.booted.agenda := by
    rw [hagenda]; exact s.powered_watches hl
  refine ⟨_, exec_powerOn_eq s, hwall, htiles, hkernels, hdies, hlinks, hqe, htodo, hmem, hhealth, hfuses, hlfst, fun h => ?_, fun l h => ?_, hrollback, hdevice, hseed,
    hvendor, howner, hflash, hcert, hport, htoken, hreport, hstatus, hwatch, ?_, ?_, ?_⟩
  · rw [Security.fuse, h]; rfl
  · rw [Security.fuse, h]; rfl
  · intro h
    obtain ⟨h1, h2⟩ := State.booted_blank (hfuse.trans h)
    exact ⟨h1, h2.trans hctxs⟩
  · intro h
    obtain ⟨h1, h2, h3⟩ := State.booted_scrapped (hfuse.trans h)
    exact ⟨h1, by rw [h2, hword, h]; rfl, h3.trans hctxs⟩
  · intro hb hs ok
    have ⟨hsome, hnone⟩ := State.find_takes (x := x) (l := x.flash.take 2) (ok := ok) fun f => Security.takes_iff
    rw [← hfuse] at hb hs
    constructor
    · intro h
      obtain ⟨f, hf⟩ := hsome h
      obtain ⟨h1, h2⟩ := State.booted_runs hb hs (s.powered_bootImage.trans hf)
      exact ⟨h1, by rw [h2, State.ctx, hctxs]; rfl⟩
    · intro h
      obtain ⟨h1, h2⟩ := State.booted_halts hb hs (s.powered_bootImage.trans (hnone h))
      exact ⟨h1, h2.trans hctxs⟩
end Sys2Proof.Machine
end

section
/-!
SUPPORT. What an agent of the loader leaves alone when it reads and writes memory: the clocks, the links, the security block, and of every context all but whether it is held.
-/

namespace Sys2Proof.Machine

/-- A context as it was, or held or running again. -/
def Context.Held (x y : Context) : Prop :=
  y = { x with st := y.st } ∧ (y.st = x.st ∨ (x.st = .running ∨ x.st = .held) ∧ (y.st = .running ∨ y.st = .held))

theorem Context.Held.refl {x : Context} : x.Held x := ⟨rfl, .inl rfl⟩

theorem Context.Held.trans {x y z : Context} (h : x.Held y) (h' : y.Held z) : x.Held z := by
  obtain ⟨e, hst⟩ := h
  obtain ⟨e', hst'⟩ := h'
  refine ⟨by rw [e', e], ?_⟩
  rcases hst' with hst' | ⟨h1, h2⟩
  · rwa [hst']
  · rcases hst with hst | ⟨h3, -⟩
    · exact .inr ⟨hst ▸ h1, h2⟩
    · exact .inr ⟨h3, h2⟩

/-- What an agent's access leaves alone: the clocks, the event, the links, the security block, and of every context all but whether it is held. -/
def State.Calm (s t : State) : Prop :=
  t.wall = s.wall ∧ t.ltBase = s.ltBase ∧ t.ev = s.ev ∧ t.links = s.links ∧ t.sec = s.sec ∧
    (RisingMap s.ctxs → RisingMap t.ctxs ∧ ∀ c, (s.ctx c).Held (t.ctx c))

theorem State.Calm.of_ctxs {s t : State} (hw : t.wall = s.wall) (hl : t.ltBase = s.ltBase) (he : t.ev = s.ev) (hk : t.links = s.links) (hs : t.sec = s.sec)
    (hc : t.ctxs = s.ctxs) : s.Calm t :=
  ⟨hw, hl, he, hk, hs, fun h => ⟨hc ▸ h, fun c => by rw [State.ctx, State.ctx, hc]; exact .refl⟩⟩

theorem State.Calm.refl {s : State} : s.Calm s := .of_ctxs rfl rfl rfl rfl rfl rfl

theorem State.Calm.trans {s t u : State} (h : s.Calm t) (h' : t.Calm u) : s.Calm u := by
  obtain ⟨hw, hl, he, hk, hs, hc⟩ := h
  obtain ⟨hw', hl', he', hk', hs', hc'⟩ := h'
  refine ⟨hw'.trans hw, hl'.trans hl, he'.trans he, hk'.trans hk, hs'.trans hs, fun h => ?_⟩
  obtain ⟨h1, h2⟩ := hc h
  obtain ⟨h3, h4⟩ := hc' h1
  exact ⟨h3, fun c => (h2 c).trans (h4 c)⟩

theorem State.ctx_setCtx {s : State} {c : Nat} {x : Context} (h : RisingMap s.ctxs) (n : Nat) : (s.setCtx c x).ctx n = if n = c then x else s.ctx n := by
  split
  · next e => rw [e]; exact mapGet_mapSet_self _ _ _ _ h
  · next e => exact mapGet_mapSet_ne _ _ _ e

theorem State.setCtx_rising {s : State} {c : Nat} {x : Context} (h : RisingMap s.ctxs) : RisingMap (s.setCtx c x).ctxs := mapSet_rising _ _ _ _ h

theorem State.calm_setCtx {s : State} {c : Nat} {x : Context} (h : (s.ctx c).Held x) : s.Calm (s.setCtx c x) := by
  refine ⟨rfl, rfl, rfl, rfl, rfl, fun hr => ⟨setCtx_rising hr, fun n => ?_⟩⟩
  rw [ctx_setCtx hr]
  split
  · next e => exact e ▸ h
  · exact .refl

theorem State.calm_foldl {α : Type} {f : State → α → State} (h : ∀ s x, State.Calm s (f s x)) (l : List α) (s : State) : s.Calm (l.foldl f s) := by
  induction l generalizing s with
  | nil => exact .refl
  | cons x r ih => exact (h s x).trans (ih _)

section
variable {s : State}

theorem State.calm_setTile {t x} : s.Calm (s.setTile t x) := .of_ctxs rfl rfl rfl rfl rfl rfl
theorem State.calm_updTile {t f} : s.Calm (s.updTile t f) := .of_ctxs rfl rfl rfl rfl rfl rfl
theorem State.calm_setKernel {n k} : s.Calm (s.setKernel n k) := .of_ctxs rfl rfl rfl rfl rfl rfl
theorem State.calm_delKernel {n} : s.Calm (s.delKernel n) := .of_ctxs rfl rfl rfl rfl rfl rfl
theorem State.calm_at {w d} : s.Calm (s.at w d) := .of_ctxs rfl rfl rfl rfl rfl rfl
theorem State.calm_tickFree : s.Calm s.tickFree := .of_ctxs rfl rfl rfl rfl rfl rfl

theorem State.calm_updKernel {n f} : s.Calm (s.updKernel n f) := by
  unfold updKernel; split
  · exact calm_setKernel
  · exact .refl

theorem State.calm_updTiles {ts f} : s.Calm (s.updTiles ts f) := calm_foldl (fun _ _ => calm_updTile) _ _

theorem State.calm_ctxHeld {c held} : s.Calm (s.ctxHeld c held) := by
  refine calm_setCtx ?_
  dsimp only
  split
  · split
    · next h => exact ⟨rfl, .inr ⟨.inl h, .inr rfl⟩⟩
    · exact .refl
  · split
    · next h => exact ⟨rfl, .inr ⟨.inr h, .inl rfl⟩⟩
    · exact .refl

theorem State.calm_openHold {n cause} : s.Calm (s.openHold n cause) := by
  unfold openHold; split
  · exact .refl
  · dsimp only; split
    · exact calm_setKernel
    · exact ((calm_setKernel.trans calm_ctxHeld).trans (calm_updTiles.trans calm_updTiles)).trans calm_at

theorem State.calm_beginHold {n cause} : s.Calm (s.beginHold n cause) := by
  unfold beginHold; dsimp only; split
  · exact calm_openHold.trans (calm_updKernel.trans calm_at)
  · split
    · exact calm_openHold.trans calm_updKernel
    · exact calm_openHold

theorem State.calm_agentHold {t q ns} : s.Calm (s.agentHold t q ns) := by
  unfold agentHold; split
  · exact .refl
  · split
    · exact (calm_updTile.trans calm_beginHold).trans calm_at
    · exact .refl

theorem State.calm_agentRead {t req bank page lvl slot} : s.Calm (s.agentRead t req bank page lvl slot).1 := by
  unfold agentRead; dsimp only; split
  · exact calm_tickFree.trans calm_setTile
  · exact (calm_tickFree.trans calm_setTile).trans calm_agentHold

theorem State.calm_agentWrite {t req bank page lvl slot bs} : s.Calm (s.agentWrite t req bank page lvl slot bs).1 := calm_setTile.trans calm_agentHold

/-- The state of a pair that an access answers. -/
theorem State.Calm.of_fst {α : Type} {s u : State} {x : α} {p : State × α} (h : s.Calm p.1) (e : p = (u, x)) : s.Calm u := by rwa [e] at h

theorem State.calm_slotsRead (s : State) (t : TileId) (req o n : Nat) : s.Calm (s.slotsRead t req o n).1 := by
  induction n generalizing s o with
  | zero => exact .refl
  | succ n ih =>
    unfold slotsRead
    split
    · next e => exact calm_agentRead.of_fst e
    · next u _ e => split <;> (next e' => exact (calm_agentRead.of_fst e).trans ((ih u (o + 64)).of_fst e'))

theorem State.calm_vaultRead {t req o n} : s.Calm (s.vaultRead t req o n).1 := by
  unfold vaultRead
  split <;> (next e => exact (calm_slotsRead ..).of_fst e)

theorem State.calm_slotsWrite (s : State) (t : TileId) (req o : Nat) (bs : List Byte) (n : Nat) : s.Calm (s.slotsWrite t req o bs n).1 := by
  induction n generalizing s o bs with
  | zero => exact .refl
  | succ n ih =>
    unfold slotsWrite
    split
    · next e => exact calm_agentWrite.of_fst e
    · next u e => exact (calm_agentWrite.of_fst e).trans (ih u ..)

theorem State.calm_vaultWrite {t req o bs} : s.Calm (s.vaultWrite t req o bs).1 := by
  unfold vaultWrite; dsimp only
  split
  · exact calm_slotsWrite ..
  · split
    · next e => exact (calm_slotsRead ..).of_fst e
    · next e => exact ((calm_slotsRead ..).of_fst e).trans (calm_slotsWrite ..)

theorem State.calm_sysRead {c req a n} : s.Calm (s.sysRead c req a n).1 := by
  unfold sysRead
  split
  · exact .refl
  · split
    · exact .refl
    · split
      · exact .refl
      · split
        · exact .refl
        · exact calm_vaultRead

theorem State.calm_sysWrite {c req a bs} : s.Calm (s.sysWrite c req a bs).1 := by
  unfold sysWrite
  split
  · exact .refl
  · split
    · exact .refl
    · split
      · exact .refl
      · split
        · exact .of_ctxs rfl rfl rfl rfl rfl rfl
        · exact calm_vaultWrite

theorem State.calm_readImage {c addr} : s.Calm (s.readImage c addr).1 := by
  unfold readImage; dsimp only
  split
  · next e => exact calm_sysRead.of_fst e
  · next e =>
    split
    · next e' => exact (calm_sysRead.of_fst e).trans (calm_sysRead.of_fst e')
    · next e' => split <;> (next e'' => exact ((calm_sysRead.of_fst e).trans (calm_sysRead.of_fst e')).trans (calm_sysRead.of_fst e''))

theorem State.calm_wakeRect {rect} : s.Calm (s.wakeRect rect) := by
  refine calm_foldl (fun s u => ?_) _ _
  split
  · exact calm_updTile
  · exact .refl

theorem State.calm_kernelRecord {c l ws} : s.Calm (s.kernelRecord c l ws) := by
  unfold kernelRecord
  split
  · have h : s.Calm (s.backInvalidate.sysWrite c 1 l.recAt (ws.flatMap (natBytes 8))).1 :=
      State.Calm.trans (.of_ctxs rfl rfl rfl rfl rfl rfl) calm_sysWrite
    dsimp only
    split
    · exact (h.trans (.of_ctxs rfl rfl rfl rfl rfl rfl)).trans calm_wakeRect
    · exact h.trans (.of_ctxs rfl rfl rfl rfl rfl rfl)
  · exact .refl

theorem State.calm_launchFailed {c l reason detail} : s.Calm (s.launchFailed c l reason detail) := calm_kernelRecord

theorem State.calm_loaderSoon {i c} : s.Calm (s.loaderSoon i c) := calm_at.trans calm_tickFree

theorem State.calm_leavePartition {n} : s.Calm (s.leavePartition n) := by
  refine calm_delKernel.trans (calm_foldl (fun s c => ?_) _ _)
  split
  · exact calm_loaderSoon
  · exact .refl

end
end Sys2Proof.Machine
end

section
/-!
SUPPORT. The end of the tenants (R21, R332): every context but the system's has ended, and their keys are wiped.
-/

namespace Sys2Proof.Machine

/-- A context that no tenant runs on in, or that is destroyed once it is saved (R21). -/
def Context.Ended (x : Context) : Prop := x.st = .free ∨ x.st = .destroyed ∨ x.doomed = true

/-- The security block and the contexts, which most of what ends a context leaves alone. -/
def State.tenancy (s : State) := (s.sec, s.ctxs)

/-- What the end of one context does to the others: those that have ended stay so. -/
def State.Ends (s t : State) : Prop := t.sec = s.sec ∧ (RisingMap s.ctxs → RisingMap t.ctxs ∧ ∀ c, (s.ctx c).Ended → (t.ctx c).Ended)

theorem Context.Held.ended {x y : Context} (h : x.Held y) (hx : x.Ended) : y.Ended := by
  obtain ⟨e, hst | ⟨hst, -⟩⟩ := h
  · rwa [Ended, hst, show y.doomed = x.doomed by rw [e]]
  · refine .inr (.inr ?_)
    rw [e]
    rcases hx with hx | hx | hx
    · rcases hst with hst | hst <;> cases hst.symm.trans hx
    · rcases hst with hst | hst <;> cases hst.symm.trans hx
    · exact hx

theorem State.Calm.ends {s t : State} (h : s.Calm t) : s.Ends t := by
  obtain ⟨-, -, -, -, hs, hc⟩ := h
  exact ⟨hs, fun hr => ⟨(hc hr).1, fun c => ((hc hr).2 c).ended⟩⟩

theorem State.Ends.refl {s : State} : s.Ends s := ⟨rfl, fun h => ⟨h, fun _ h => h⟩⟩

theorem State.Ends.trans {s t u : State} (h : s.Ends t) (h' : t.Ends u) : s.Ends u := by
  refine ⟨h'.1.trans h.1, fun hr => ?_⟩
  obtain ⟨h1, h2⟩ := h.2 hr
  obtain ⟨h3, h4⟩ := h'.2 h1
  exact ⟨h3, fun c hc => h4 c (h2 c hc)⟩

theorem State.Ends.of_tenancy {s t : State} (h : t.tenancy = s.tenancy) : s.Ends t := by
  obtain ⟨hs, hc⟩ := Prod.mk.injEq .. ▸ h
  exact ⟨hs, fun hr => ⟨hc ▸ hr, fun c h => by rwa [State.ctx, hc]⟩⟩

theorem State.ends_setCtx {s : State} {c : Nat} {x : Context} (h : (s.ctx c).Ended → x.Ended) : s.Ends (s.setCtx c x) := by
  refine ⟨rfl, fun hr => ⟨setCtx_rising hr, fun n hn => ?_⟩⟩
  rw [ctx_setCtx hr]
  split
  · next e => exact h (e ▸ hn)
  · exact hn

theorem State.ends_foldl {α : Type} {f : State → α → State} (h : ∀ s x, State.Ends s (f s x)) (l : List α) (s : State) : s.Ends (l.foldl f s) := by
  induction l generalizing s with
  | nil => exact .refl
  | cons x r ih => exact (h s x).trans (ih _)

section
variable {s : State}

theorem State.foldl_tenancy {α : Type} {f : State → α → State} (h : ∀ s x, (f s x).tenancy = s.tenancy) (l : List α) (s : State) : (l.foldl f s).tenancy = s.tenancy := by
  induction l generalizing s with
  | nil => rfl
  | cons x r ih => rw [List.foldl_cons, ih, h]

theorem State.soon_tenancy {i d ch y} : (s.soon i d ch y).tenancy = s.tenancy := rfl

theorem State.setChan_tenancy {d ch c} : (s.setChan d ch c).tenancy = s.tenancy := rfl

theorem State.nextCollective_tenancy {d} : (s.nextCollective d).tenancy = s.tenancy := by
  unfold nextCollective
  split <;> rfl

theorem State.rejoinJob_tenancy {d x} : (s.rejoinJob d x).tenancy = s.tenancy := by
  unfold rejoinJob
  split <;> rfl

theorem State.dropAsks_tenancy {p} : (s.dropAsks p).tenancy = s.tenancy :=
  foldl_tenancy (fun _ _ => by exact foldl_tenancy (fun _ _ => by rfl) _ _) _ _

theorem State.disableQueue_tenancy {n fault} : (s.disableQueue n fault).tenancy = s.tenancy := rfl

theorem State.abortJobs_tenancy {c} : (s.abortJobs c).tenancy = s.tenancy := by
  refine foldl_tenancy (fun s d => ?_) _ _
  dsimp only
  split
  · exact nextCollective_tenancy.trans (foldl_tenancy (fun _ _ => by rfl) _ _)
  · exact foldl_tenancy (fun _ _ => by rfl) _ _

theorem State.ends_takeChans {c die0 shape} : s.Ends (s.takeChans c die0 shape) := by
  refine .trans (.of_tenancy ?_) (ends_setCtx id)
  refine (foldl_tenancy (fun s d => ?_) _ _).trans (dropAsks_tenancy.trans dropAsks_tenancy)
  exact nextCollective_tenancy.trans (foldl_tenancy (fun _ _ => by rfl) _ _)

theorem State.ends_takeLate {c old shape} : s.Ends (s.takeLate c old shape) := ends_takeChans.trans (ends_setCtx id)

theorem State.rejoinJobs_tenancy {d} {l : List Start} : (l.foldl (fun s y => s.rejoinJob d y) s).tenancy = s.tenancy := foldl_tenancy (fun _ _ => rejoinJob_tenancy) _ _

theorem State.recordRows_tenancy {d ch} {l : List (Nat × Start)} : (l.foldl (fun s y => s.soon .jobCompletionRecord d ch (y.1 + 1)) s).tenancy = s.tenancy :=
  foldl_tenancy (fun _ _ => by rfl) _ _

/-- One of a saved context's channels put back on a die of its partition (R310). -/
def State.putChan (old die0 shape : Nat) (rank : Job → Nat) (s : State) (e : Nat × Channel) : State :=
  let d := die0 + e.1 / 64
  let ch := e.1 % 64
  let resume := e.2.resume.map fun j => { j with start := j.start.moveTo old die0 shape, order := rank j }
  let queue := e.2.queue.map fun y => y.moveTo old die0 shape
  let refused := e.2.refused.map fun y => (y.1, y.2.moveTo old die0 shape)
  let s := s.setChan d ch (let now := s.chan d ch
    { now with resume := resume ++ now.resume, queue := queue ++ now.queue, refused := refused ++ now.refused })
  let s := (resume.map Job.start ++ queue ++ refused.map Prod.snd).foldl (fun s y => s.rejoinJob d y) s
  let s := refused.foldl (fun s y => s.soon .jobCompletionRecord d ch (y.1 + 1)) s
  if (s.chan d ch).job.isNone then s.soon .jobApply d ch else s

/-- One of its collectives put back (R364). -/
def State.putColl (die0 order : Nat) (s : State) (e : (Nat × Collective) × Nat) : State :=
  let d := die0 + e.1.1
  (s.updDie d fun y => { y with coll := y.coll ++ [{ e.1.2 with order := s.free + order + e.2 }] }).nextCollective d

/-- The parts of `putChans` in their order. -/
theorem State.putChans_eq {c old die0 shape} : ∃ rank order cs n, s.putChans c old die0 shape =
    { ((List.zipIdx cs).foldl (State.putColl die0 order) (((s.takeLate c old shape).ctx c).chans.foldl (State.putChan old die0 shape rank)
      (s.takeLate c old shape))).updCtx c (fun x => { x with chans := [], colls := [] }) with free := n } := ⟨_, _, _, _, rfl⟩

theorem State.putChan_tenancy {old die0 shape rank e} : (s.putChan old die0 shape rank e).tenancy = s.tenancy := by
  unfold putChan; dsimp only
  split <;> simp only [soon_tenancy, recordRows_tenancy, rejoinJobs_tenancy, setChan_tenancy]

theorem State.putColl_tenancy {die0 order e} : (s.putColl die0 order e).tenancy = s.tenancy := nextCollective_tenancy

theorem State.ends_putChans {c old die0 shape} : s.Ends (s.putChans c old die0 shape) := by
  obtain ⟨rank, order, cs, n, e⟩ := s.putChans_eq (c := c) (old := old) (die0 := die0) (shape := shape)
  have h (u : State) : u.Ends { u.updCtx c (fun x => { x with chans := [], colls := [] }) with free := n } := ends_setCtx (s := u) id
  rw [e]
  exact ends_takeLate.trans ((ends_foldl (fun _ _ => .of_tenancy putChan_tenancy) _ _).trans ((ends_foldl (fun _ _ => .of_tenancy putColl_tenancy) _ _).trans (h _)))

/-- The context that is destroyed has ended, and those that had stay so (R21, R332). -/
theorem State.ends_destroy {n} : s.Ends (s.destroy n) ∧ (RisingMap s.ctxs → ((s.destroy n).ctx n).Ended) := by
  unfold destroy
  extract_lets c s1 s2 s3 s4 s5 s6 s7 s8
  have h1 : s.Ends s1 := by
    unfold s1
    split
    · exact calm_kernelRecord.ends
    · exact .refl
  have h2 : s1.Ends s2 := by
    unfold s2
    split
    · exact (calm_launchFailed.trans calm_leavePartition).ends
    · exact calm_launchFailed.ends
    · exact .refl
  have h3 : s2.Ends s3 := ends_foldl (fun _ _ => calm_launchFailed.ends) _ _
  have h4 : s3.Ends s4 := by
    unfold s4
    split
    · exact ends_putChans
    · exact .refl
  have h5 : s4.Ends s5 := ends_setCtx fun _ => .inr (.inl rfl)
  have h6 : s5.Ends s6 := ends_foldl (fun s k => by split; exacts [calm_updKernel.ends, .refl]) _ _
  have h7 : s6.Ends s7 := .of_tenancy abortJobs_tenancy
  have h8 : s7.Ends s8 := ends_foldl (fun s q => by split; exacts [.of_tenancy disableQueue_tenancy, .refl]) _ _
  have hbefore := h1.trans (h2.trans (h3.trans h4))
  have hafter := h6.trans (h7.trans (h8.trans (calm_loaderSoon (i := .contextWipeComplete) (c := n)).ends))
  refine ⟨hbefore.trans (h5.trans hafter), fun hr => ?_⟩
  obtain ⟨hr4, -⟩ := hbefore.2 hr
  refine (hafter.2 (setCtx_rising hr4)).2 n ?_
  change ((s4.setCtx n _).ctx n).Ended
  rw [ctx_setCtx hr4, if_pos rfl]
  exact .inr (.inl rfl)

end

theorem mapGet_of_mem_rising {α : Type} {d : α} {m : Map α} {e : Nat × α} (h : RisingMap m) (he : e ∈ m) : mapGet d m e.1 = e.2 := by
  induction m with
  | nil => cases he
  | cons a r ih =>
    obtain ⟨ha, hr⟩ := List.pairwise_cons.mp h
    rcases List.mem_cons.mp he with rfl | he
    · exact if_pos rfl
    · exact (if_neg (ha e he).ne).trans (ih hr he)

theorem mapGet_of_not_mem {α : Type} {d : α} {m : Map α} {k : Nat} (h : ∀ e ∈ m, e.1 ≠ k) : mapGet d m k = d := by
  induction m with
  | nil => rfl
  | cons a r ih => exact (if_neg (h a List.mem_cons_self)).trans (ih fun e he => h e (List.mem_cons_of_mem _ he))

/-- What the end of the tenants does with one context of the list (R21). -/
def State.endTenant (s : State) (c : Nat × Context) : State :=
  if c.1 = 0 ∨ c.2.st = .free ∨ c.2.st = .destroyed then s
  else if c.2.st = .yielding then s.updCtx c.1 fun x => { x with doomed := true }
  else s.destroy c.1

theorem State.ends_endTenant {s : State} {c} : s.Ends (s.endTenant c) := by
  unfold endTenant
  split
  · exact .refl
  · split
    · exact ends_setCtx fun _ => .inr (.inr rfl)
    · exact ends_destroy.1

theorem State.endTenant_ended {s : State} {c : Nat × Context} (hr : RisingMap s.ctxs) (h0 : c.1 ≠ 0) (hc : c.2.st = .free ∨ c.2.st = .destroyed → (s.ctx c.1).Ended) :
    ((s.endTenant c).ctx c.1).Ended := by
  unfold endTenant
  split
  · next h => exact hc (h.resolve_left h0)
  · split
    · rw [updCtx, ctx_setCtx hr, if_pos rfl]
      exact .inr (.inr rfl)
    · exact ends_destroy.2 hr

theorem State.endTenant_foldl_ended {l : List (Nat × Context)} {s : State} (hr : RisingMap s.ctxs)
    (hl : ∀ c ∈ l, c.2.st = .free ∨ c.2.st = .destroyed → (s.ctx c.1).Ended) : ∀ c ∈ l, c.1 ≠ 0 → ((l.foldl State.endTenant s).ctx c.1).Ended := by
  induction l generalizing s with
  | nil => simp
  | cons a r ih =>
    obtain ⟨hr', hkeep⟩ := (ends_endTenant (c := a)).2 hr
    intro c hc h0
    rcases List.mem_cons.mp hc with rfl | hc
    · exact ((ends_foldl (fun _ _ => ends_endTenant) r _).2 hr').2 _ (endTenant_ended hr h0 (hl _ List.mem_cons_self))
    · exact ih hr' (fun e he h => hkeep _ (hl e (List.mem_cons_of_mem _ he) h)) c hc h0

/-- What the end of the tenants does before it wipes their keys (R21). -/
def State.withoutTenants (s : State) : State :=
  let s := s.ctxs.foldl State.endTenant s
  s.qe.queues.foldl (fun (s : State) q => if q.2.en then s.disableQueue q.1 0 else s) s

theorem State.endTenants_eq (s : State) : ∃ qe, s.endTenants =
    { s.withoutTenants.updCtx 0 (fun c => { c with launches := [] }) with qe := qe, sec := { s.withoutTenants.sec with keys := [] } } := ⟨_, rfl⟩

theorem State.withoutTenants_tenancy {s : State} : s.withoutTenants.tenancy = (s.ctxs.foldl State.endTenant s).tenancy :=
  foldl_tenancy (fun s q => by split <;> rfl) _ _

theorem State.endTenants_sec {s : State} : s.endTenants.sec = { s.sec with keys := [] } := by
  obtain ⟨qe, h⟩ := s.endTenants_eq
  have hs : s.withoutTenants.sec = s.sec := (congrArg Prod.fst withoutTenants_tenancy).trans (ends_foldl (fun _ _ => ends_endTenant) _ _).1
  rw [h, hs]

theorem State.endTenants_ctx {s : State} {n : Nat} (hn : n ≠ 0) : s.endTenants.ctx n = (s.ctxs.foldl State.endTenant s).ctx n := by
  obtain ⟨qe, h⟩ := s.endTenants_eq
  have hc : s.withoutTenants.ctxs = (s.ctxs.foldl State.endTenant s).ctxs := congrArg Prod.snd withoutTenants_tenancy
  rw [h, State.ctx, State.ctx, ← hc]
  exact mapGet_mapSet_ne _ _ _ hn

/-- The end of the tenants ends every context but the system's (R21). -/
theorem State.endTenants_ended {s : State} (hr : RisingMap s.ctxs) {n : Nat} (hn : n ≠ 0) : (s.endTenants.ctx n).Ended := by
  rw [endTenants_ctx hn]
  by_cases h : ∃ c ∈ s.ctxs, c.1 = n
  · obtain ⟨c, hc, rfl⟩ := h
    refine endTenant_foldl_ended hr (fun c hc h => ?_) c hc hn
    rw [State.ctx, mapGet_of_mem_rising hr hc]
    exact h.elim .inl fun h => .inr (.inl h)
  · refine ((ends_foldl (fun _ _ => ends_endTenant) _ _).2 hr).2 _ (.inl ?_)
    rw [State.ctx, mapGet_of_not_mem fun e he hk => h ⟨e, he, hk⟩]

end Sys2Proof.Machine
end

section
/-!
SUPPORT. The commands of the life cycle (R20, R21).
-/

namespace Sys2Proof.Machine

theorem Security.ready_iff {x : Security} : x.ready = true ↔ x.boot = .running := beq_iff_eq

/-- A big-endian value is below 256 to the number of its bytes. -/
theorem foldl_bigEndian_lt (bs : List Byte) (a n : Nat) (h : a < 256 ^ n) : bs.foldl (fun a b => a * 256 + b.toNat) a < 256 ^ (n + bs.length) := by
  induction bs generalizing a n with
  | nil => exact h
  | cons b r ih =>
    have hb := b.isLt
    have := ih (a * 256 + b.toNat) (n + 1) (by rw [Nat.pow_succ]; omega)
    rwa [Nat.add_right_comm, Nat.add_assoc] at this

theorem bigEndian_lt (bs : List Byte) : bigEndian bs < 256 ^ bs.length := by
  have h := foldl_bigEndian_lt bs 0 0 Nat.one_pos
  rwa [Nat.zero_add] at h

theorem bigEndian_eq (bs : List Byte) : bigEndian bs = bs.foldl (fun a b => 256 * a + b.toNat) 0 := by
  simp only [bigEndian, Nat.mul_comm]

/-- The owner's key hash is that of a body's first 32 bytes (R20). -/
theorem ownerHash_toNat (bs : List Byte) : (BitVec.ofNat 256 (bigEndian (bs.take 32))).toNat = (bs.take 32).foldl (fun a b => 256 * a + b.toNat) 0 := by
  have h : bigEndian (bs.take 32) < 2 ^ 256 := by
    calc bigEndian (bs.take 32) < 256 ^ (bs.take 32).length := bigEndian_lt _
      _ ≤ 256 ^ 32 := Nat.pow_le_pow_right (by decide) (List.length_take_le ..)
      _ = 2 ^ 256 := by norm_num
  rw [BitVec.toNat_ofNat, Nat.mod_eq_of_lt h, bigEndian_eq]

theorem bytesNat_take_one (bs : List Byte) : bytesNat (bs.take 1) = (bs.map BitVec.toNat).getD 0 0 := by
  cases bs <;> simp [bytesNat]

theorem bytesNat_take_one_le (bs : List Byte) : bytesNat (bs.take 1) ≤ 255 := by
  rw [bytesNat_take_one]
  cases bs with
  | nil => exact Nat.zero_le _
  | cons b r => exact Nat.le_of_lt_succ b.isLt

theorem signedBy_ownerKey {x : Security} {cmd : Signed} :
    signedBy cmd x.ownerKey = true ↔ ∃ h, x.owner = some h ∧ h.revoked = false ∧ signedBy cmd [h.hash] = true := by
  unfold Security.ownerKey
  split
  · next h e =>
    cases hr : h.revoked <;> simp [e, hr, signedBy]
  · next e => simp [e, signedBy]

theorem execVendorProvisioning_of {s : State} {d : Word} {e k0 k1 k2 k3 : BitVec 256} (h : s.sec.fuse = .blank ∧ s.sec.boot = .provisioning) :
    exec (.vendorProvisioning d e k0 k1 k2 k3) s = .next { s with sec := { s.sec with
      fuses := some .provisioned, lfst := .provisioned, device := some d, seed := some e, cert := some (Config.identityCertificate d e)
      vendor := [(0, ⟨k0, false⟩), (1, ⟨k1, false⟩), (2, ⟨k2, false⟩), (3, ⟨k3, false⟩)] } } :=
  congrArg Host.Outcome.next (if_pos h)

/-- A device whose return token is taken (R20, R21). -/
def State.returned (s : State) : State :=
  { s with sec := { s.sec.become .returned with owner := s.sec.owner.map fun h => { h with revoked := true }, port := false } }

/-- A device that is scrapped (R20, R21). -/
def State.scrapped (s : State) : State :=
  let x := s.sec.become .scrapped
  { s with sec := { x with
      vendor := x.vendor.map fun h => (h.1, { h.2 with revoked := true }), owner := x.owner.map fun h => { h with revoked := true }
      port := false, boot := .halted, bootWord := x.lfstWord } }

theorem revoked_of_map {x : Option KeyHash} {h : KeyHash} (e : (x.map fun h => { h with revoked := true }) = some h) : h.revoked = true := by
  obtain ⟨-, -, rfl⟩ := Option.map_eq_some_iff.mp e
  rfl

theorem lifeCycleCommands : Sys2Proof.Claims.LifeCycleCommands := by
  intro s x running owner unchanged
  refine ⟨fun d e k0 k1 k2 k3 => ⟨execVendorProvisioning_of, fun h => congrArg Host.Outcome.next (if_neg h)⟩, fun cmd => ?_⟩
  intro vendorSigned
  refine ⟨?_, ?_, ⟨?_, ?_⟩, ⟨?_, ?_⟩, ?_, ?_⟩
  · rintro ⟨hr, hl, hs⟩
    exact ⟨_, ownerHash_toNat cmd.body, congrArg Host.Outcome.next (if_pos ⟨Security.ready_iff.mpr hr, hl, hs⟩)⟩
  · refine fun h => congrArg Host.Outcome.next (if_neg ?_)
    rwa [Security.ready_iff]
  · rintro ⟨hr, ho, hm⟩
    refine ⟨s.returned.endTenants, congrArg Host.Outcome.next (if_pos ⟨Security.ready_iff.mpr hr, ho, signedBy_ownerKey.mpr hm⟩), ?_⟩
    rw [State.endTenants_sec]
    exact ⟨rfl, rfl, rfl, rfl, rfl, fun h e => revoked_of_map e, fun hc n hn => State.endTenants_ended (s := s.returned) hc hn⟩
  · refine fun h => congrArg Host.Outcome.next (if_neg ?_)
    rwa [Security.ready_iff, signedBy_ownerKey]
  · rintro ⟨⟨hr, hl, hs⟩, hv⟩
    rw [← bytesNat_take_one] at hv ⊢
    exact congrArg Host.Outcome.next (if_pos ⟨Security.ready_iff.mpr hr, by simpa [owner] using hl, hs, hv, bytesNat_take_one_le _⟩)
  · refine fun h => congrArg Host.Outcome.next (if_neg ?_)
    rw [← bytesNat_take_one] at h
    rintro ⟨hr, hl, hs, hv, -⟩
    exact h ⟨⟨Security.ready_iff.mp hr, by simpa [owner] using hl, hs⟩, hv⟩
  · rintro ⟨hr, hl, hs⟩
    refine ⟨s.scrapped.endTenants, congrArg Host.Outcome.next (if_pos ⟨Security.ready_iff.mpr hr, hl, hs⟩), ?_⟩
    rw [State.endTenants_sec]
    refine ⟨rfl, rfl, rfl, rfl, rfl, rfl, fun e he => ?_, fun h e => revoked_of_map e⟩
    obtain ⟨-, -, rfl⟩ := List.mem_map.mp he
    rfl
  · refine fun h => congrArg Host.Outcome.next (if_neg ?_)
    rwa [Security.ready_iff]
end Sys2Proof.Machine
end

section
/-!
SUPPORT. Measurement, attestation and debug unlock (R23 to R25).
-/

namespace Sys2Proof.Machine

theorem Security.mapGet_extend_meas {x : Security} {i : Nat} {d : BitVec 256} (h : RisingMap x.meas) (j : Nat) :
    mapGet 0 (x.extend i d).meas j = if j = i then sha256 (digestBytes (mapGet 0 x.meas i) ++ digestBytes d) else mapGet 0 x.meas j := by
  unfold Security.extend
  split
  · next e => subst e; exact mapGet_mapSet_self _ _ _ _ h
  · next e => exact mapGet_mapSet_ne _ _ _ e

theorem execSystemMeasurementExtend_of {s : State} {i : Nat} {d : BitVec 256} (h : s.sec.serves = true) (h5 : 5 ≤ i) (h7 : i ≤ 7) :
    exec (.systemMeasurementExtend i d) s = .next { s with sec := s.sec.extend i d } := congrArg Host.Outcome.next (if_pos ⟨h, h5, h7⟩)

/-- What the checks of R25 take of a token's key: an unrevoked fused hash of those that the fuses name. -/
def Security.Allows (x : Security) (hash : BitVec 256) : Prop :=
  (x.fuse = .provisioned ∧ ∃ h ∈ x.vendor, h.2.revoked = false ∧ h.2.hash = hash) ∨ (x.fuse = .owned ∧ ∃ h, x.owner = some h ∧ h.revoked = false ∧ h.hash = hash)

theorem Security.mem_accepted {x : Security} {hash : BitVec 256} : hash ∈ x.accepted false ↔ ∃ h ∈ x.vendor, h.2.revoked = false ∧ h.2.hash = hash := by
  simp only [Security.accepted, if_neg Bool.false_ne_true, List.append_nil, List.mem_map, List.mem_filter, Bool.not_eq_true', and_assoc]
  exact ⟨fun ⟨_, ⟨e, he, rfl⟩, h⟩ => ⟨e, he, h⟩, fun ⟨e, he, h⟩ => ⟨_, ⟨e, he, rfl⟩, h⟩⟩

theorem Security.mem_ownerKey {x : Security} {hash : BitVec 256} : hash ∈ x.ownerKey ↔ ∃ h, x.owner = some h ∧ h.revoked = false ∧ h.hash = hash := by
  unfold Security.ownerKey
  split
  · next h e =>
    rw [e]
    cases hr : h.revoked
    · exact ⟨fun h' => ⟨h, rfl, hr, (List.mem_singleton.mp h').symm⟩, fun ⟨_, rfl, _, hh⟩ => List.mem_singleton.mpr hh.symm⟩
    · exact ⟨fun h' => absurd h' List.not_mem_nil, fun ⟨_, rfl, hr', _⟩ => by cases hr.symm.trans hr'⟩
  · next e => rw [e]; exact ⟨fun h => absurd h List.not_mem_nil, fun ⟨_, e', _⟩ => by cases e'⟩

/-- The key hashes that the fuses name for a debug unlock, which none but a provisioned or an owned device has. -/
def Security.unlockKeys (x : Security) : Option (List (BitVec 256)) :=
  if x.fuse = .provisioned then some (x.accepted false) else if x.fuse = .owned then some x.ownerKey else none

theorem Security.unlockKeys_none {x : Security} (h : ¬ (x.fuse = .provisioned ∨ x.fuse = .owned)) : x.unlockKeys = none := by
  obtain ⟨hp, ho⟩ := not_or.mp h
  rw [unlockKeys, if_neg hp, if_neg ho]

theorem Security.unlockKeys_some {x : Security} (h : x.fuse = .provisioned ∨ x.fuse = .owned) :
    ∃ hs, x.unlockKeys = some hs ∧ ∀ hash, hs.contains hash = true ↔ x.Allows hash := by
  simp only [List.contains_iff_mem]
  rcases h with h | h
  · exact ⟨_, by rw [unlockKeys, if_pos h], fun hash => by simp only [mem_accepted, Allows, h]; simp⟩
  · exact ⟨_, by rw [unlockKeys, h]; rfl, fun hash => by simp only [mem_ownerKey, Allows, h]; simp⟩

/-- The two checks of a token's key and signature, which fail with one status. -/
theorem keyCheck_eq {c v : Bool} {p : Prop} [Decidable (p ∧ v = true)] (h : c = true ↔ p) (z : Nat) :
    (if !c then 3 else if !v then 3 else z) = if ¬ (p ∧ v = true) then 3 else z := by
  cases c <;> cases v <;> simp [← h]

theorem State.anyTenant_iff {s : State} : (s.ctxs.any fun c => c.1 != 0 && c.2.st != .free && c.2.st != .destroyed) = true ↔
    ¬ ∀ c ∈ s.ctxs, c.1 ≠ 0 → c.2.st = .free ∨ c.2.st = .destroyed := by
  simp only [List.any_eq_true, Bool.and_eq_true, bne_iff_ne, not_forall, not_or, exists_prop, and_assoc]

open Classical in
/-- The status of an unlock attempt: the first check of R25 that fails. -/
theorem State.unlockStatus_eq (s : State) (tok : List Byte) : s.unlockStatus tok =
    if ¬ le tok 0 4 = 0x4F484455 then 8
    else if ¬ onCurve (le tok 0x20 32) (le tok 0x40 32) = true then 3
    else if ¬ (s.sec.fuse = .provisioned ∨ s.sec.fuse = .owned) then 5
    else if ¬ (s.sec.Allows (sha256 ((tok.drop 0x20).take 64)) ∧
      ecdsaVerify (sha256 (tok.take 0x80)) (le tok 0x20 32) (le tok 0x40 32) (le tok 0x80 32) (le tok 0xA0 32) = true) then 3
    else if ¬ s.sec.device = some (BitVec.ofNat 64 (le tok 8 8)) then 4
    else if ¬ le tok 4 1 = s.sec.fuse.code then 5
    else if ¬ le tok 0x10 16 = s.sec.nonce.toNat then 6
    else if ¬ (∀ c ∈ s.ctxs, c.1 ≠ 0 → c.2.st = .free ∨ c.2.st = .destroyed) then 7 else 2 := by
  unfold unlockStatus
  dsimp only
  rw [← Security.unlockKeys]
  by_cases hf : s.sec.fuse = .provisioned ∨ s.sec.fuse = .owned
  · obtain ⟨hs, e, hallow⟩ := Security.unlockKeys_some hf
    rw [e]
    have hnot {b : Bool} : (!b) = true ↔ ¬ b = true := by simp
    refine if_congr .rfl rfl (if_congr hnot rfl ?_)
    rw [if_neg (not_not.mpr hf), ← keyCheck_eq (hallow _)]
    refine if_congr .rfl rfl (if_congr .rfl rfl ?_)
    exact if_congr (not_congr eq_comm) rfl (if_congr .rfl rfl (if_congr .rfl rfl (if_congr anyTenant_iff rfl rfl)))
  · rw [Security.unlockKeys_none hf]
    simp [hf]

@[simp] theorem length_natBytes (n v : Nat) : (natBytes n v).length = n := by
  induction n generalizing v with
  | zero => rfl
  | succ n ih => rw [natBytes, List.length_cons, ih]

@[simp] theorem length_digestBytes (d : BitVec 256) : (digestBytes d).length = 32 := by rw [digestBytes, List.length_reverse, length_natBytes]

/-- An entry of a table of entries of one length. -/
theorem take_drop_flatMap {α β : Type} {f : α → List β} {k : Nat} (hf : ∀ x, (f x).length = k) {l : List α} {i : Nat} (h : i < l.length) (r : List β) :
    ((l.flatMap f ++ r).drop (k * i)).take k = f l[i] := by
  induction l generalizing i with
  | nil => cases h
  | cons a l ih =>
    rw [List.flatMap_cons, List.append_assoc]
    cases i with
    | zero => exact List.take_left' (hf a)
    | succ i =>
      rw [Nat.mul_succ, Nat.add_comm, ← List.drop_drop, List.drop_left' (hf a)]
      exact ih (Nat.lt_of_succ_lt_succ h)

/-- What follows the parts of a concatenation, by their lengths. -/
theorem drop_append_add {α : Type} {a b : List α} {n m : Nat} (ha : a.length = n) : (a ++ b).drop (n + m) = b.drop m := by
  rw [← List.drop_drop, List.drop_left' ha]

/-- The layout of a report (R24): the body's parts at their offsets. -/
theorem Security.report_layout (x : Security) (nonce : BitVec 256) (sig : List Byte) (hs : sig.length = 64) : let r := x.reportBody nonce ++ sig
    r.length = 384 ∧ r.take 4 = natBytes 4 0x4F484154 ∧ (r.drop 4).take 2 = natBytes 2 1 ∧ (r.drop 6).take 2 = natBytes 2 x.lfst.code ∧
      (r.drop 8).take 8 = natBytes 8 (x.device.getD 0).toNat ∧ (r.drop 16).take 16 = natBytes 16 x.rollback ∧ (r.drop 32).take 32 = natBytes 32 nonce.toNat ∧
      ∀ i < 8, (r.drop (64 + 32 * i)).take 32 = digestBytes (mapGet 0 x.meas i) := by
  intro r
  obtain ⟨f, hf⟩ : ∃ f, f = fun i => digestBytes (mapGet 0 x.meas i) := ⟨_, rfl⟩
  have hlen (i : Nat) : (f i).length = 32 := hf ▸ length_digestBytes _
  have hr : r = natBytes 4 0x4F484154 ++ (natBytes 2 1 ++ (natBytes 2 x.lfst.code ++ (natBytes 8 (x.device.getD 0).toNat ++ (natBytes 16 x.rollback ++
      (natBytes 32 nonce.toNat ++ ((List.range 8).flatMap f ++ sig)))))) := by
    simp only [r, Security.reportBody, hf, List.append_assoc]
  have hf' (i : Nat) : digestBytes (mapGet 0 x.meas i) = f i := by rw [hf]
  generalize r = r at hr
  simp only [hf']
  have h4 := length_natBytes 4 0x4F484154
  generalize natBytes 4 0x4F484154 = a at hr h4 ⊢
  have h2 := length_natBytes 2 1
  generalize natBytes 2 1 = b at hr h2 ⊢
  rw [hr]
  refine ⟨?_, List.take_left' h4, ?_, ?_, ?_, ?_, ?_, fun i hi => ?_⟩
  · simp [h4, h2, hs, hlen, List.length_flatMap]
  · rw [List.drop_left' h4, List.take_left' h2]
  · rw [drop_append_add (m := 2) h4, List.drop_left' h2, List.take_left' (length_natBytes ..)]
  · rw [show 8 = 4 + (2 + 2) from rfl, drop_append_add h4, drop_append_add h2, List.drop_left' (length_natBytes ..), List.take_left' (length_natBytes ..)]
  · rw [show 16 = 4 + (2 + (2 + 8)) from rfl, drop_append_add h4, drop_append_add h2, drop_append_add (length_natBytes ..), List.drop_left' (length_natBytes ..),
      List.take_left' (length_natBytes ..)]
  · rw [show 32 = 4 + (2 + (2 + (8 + 16))) from rfl, drop_append_add h4, drop_append_add h2, drop_append_add (length_natBytes ..),
      drop_append_add (length_natBytes ..), List.drop_left' (length_natBytes ..), List.take_left' (length_natBytes ..)]
  · rw [show 64 + 32 * i = 4 + (2 + (2 + (8 + (16 + (32 + 32 * i))))) by omega, drop_append_add h4, drop_append_add h2, drop_append_add (length_natBytes ..),
      drop_append_add (length_natBytes ..), drop_append_add (length_natBytes ..), drop_append_add (length_natBytes ..),
      take_drop_flatMap hlen (by simpa using hi), List.getElem_range]

theorem execAttestationReport_of {s : State} {nonce : BitVec 256} (hb : s.sec.boot = .running) (h : s.sec.lfst ≠ .blank) (h' : s.sec.lfst ≠ .scrapped) :
    ∃ sig : List Byte, sig.length = 64 ∧ exec (.attestationReport nonce) s = .next { s with sec := { s.sec with report := s.sec.reportBody nonce ++ sig } } := by
  rw [exec_attestationReport, execAttestationReport, if_pos ⟨Security.ready_iff.mpr hb, h, h'⟩]
  exact ⟨_, length_natBytes .., rfl⟩

/-- The eight checks of R25 in their order: each status but 2 is that of the first check that fails. -/
theorem statusChecks {r : Nat} {magic curve fused key device code nonce vacant : Prop} [Decidable magic] [Decidable curve] [Decidable fused] [Decidable key]
    [Decidable device] [Decidable code] [Decidable nonce] [Decidable vacant]
    (h : r = if ¬ magic then 8 else if ¬ curve then 3 else if ¬ fused then 5 else if ¬ key then 3 else if ¬ device then 4 else if ¬ code then 5
      else if ¬ nonce then 6 else if ¬ vacant then 7 else 2) : let point := magic ∧ curve; let state := point ∧ fused; let signed := state ∧ key
    let dev := signed ∧ device; let expected := dev ∧ code; let fresh := expected ∧ nonce
    (¬ magic → r = 8) ∧ (magic → ¬ point → r = 3) ∧ (point → ¬ state → r = 5) ∧ (state → ¬ signed → r = 3) ∧ (signed → ¬ dev → r = 4) ∧
      (dev → ¬ expected → r = 5) ∧ (expected → ¬ fresh → r = 6) ∧ (fresh → ¬ (fresh ∧ vacant) → r = 7) ∧ (fresh ∧ vacant → r = 2) := by
  intro point state signed dev expected fresh
  simp only [fresh, expected, dev, signed, state, point]
  subst h
  refine ⟨?_, ?_, ?_, ?_, ?_, ?_, ?_, ?_, ?_⟩ <;> intros <;> simp_all

theorem measureAttestUnlock : Sys2Proof.Claims.MeasureAttestUnlock := by
  intro s x
  refine ⟨fun hb => ⟨fun i d hs h5 h7 hr => ?_, fun i d h => ?_, fun nonce h h' => ?_⟩, fun token => ?_⟩
  · refine ⟨_, execSystemMeasurementExtend_of hs h5 h7, ?_, fun j hj => ?_⟩
    · rw [Security.mapGet_extend_meas hr, if_pos rfl]
    · rw [Security.mapGet_extend_meas hr, if_neg hj]
  · exact congrArg Host.Outcome.next (if_neg fun ⟨_, h5, h7⟩ => by omega)
  · obtain ⟨sig, hsig, e⟩ := execAttestationReport_of (nonce := nonce) hb h h'
    exact ⟨_, e, Security.report_layout x nonce sig hsig⟩
  · intro tok kx ky hash fused allowed magic point state signed device expected fresh vacant nonce fails
    refine ⟨execDbgctlGo_idle, fun hoff hhalted hbusy => ?_⟩
    have hawake : ¬ (s.sec.boot = .off ∨ s.sec.boot = .halted ∨ s.sec.status = 1) := by simp [hoff, hhalted, hbusy, x]
    have hst := s.unlockStatus_eq (tokenOf token)
    have hfails {st : Nat} (h : s.unlockStatus (tokenOf token) = st) (h2 : st ≠ 2) : fails st := execDbgctlGo_fails hawake h h2
    classical
    obtain ⟨h8, h3, h5, h3', h4, h5', h6, h7, h2⟩ := statusChecks hst
    exact ⟨fun h => hfails (h8 h) (by decide), fun h h' => hfails (h3 h h') (by decide), fun h h' => hfails (h5 h h') (by decide),
      fun h h' => hfails (h3' h h') (by decide), fun h h' => hfails (h4 h h') (by decide), fun h h' => hfails (h5' h h') (by decide),
      fun h h' => hfails (h6 h h') (by decide), fun h h' => hfails (h7 h h') (by decide), fun h => execDbgctlGo_unlocks hawake (h2 h)⟩
end Sys2Proof.Machine
end

section
/-!
SUPPORT. Health (R26 to R29), and with it all of power and security.
-/

namespace Sys2Proof.Machine

/-- `t` is `s` with more rows dated, more free values used, and other kernels. -/
def State.Timed (s t : State) : Prop := ∃ ag fr ks, t = { s with agenda := ag, free := fr, kernels := ks } ∧ s.agenda ⊆ ag

theorem State.Dated.timed {s t : State} (h : s.Dated t) : s.Timed t := by
  obtain ⟨ag, fr, rfl, hag⟩ := h
  exact ⟨ag, fr, _, rfl, hag⟩

theorem State.Timed.refl {s : State} : s.Timed s := Dated.refl.timed

theorem State.Timed.trans {s t u : State} (h : s.Timed t) (h' : t.Timed u) : s.Timed u := by
  obtain ⟨ag, fr, ks, rfl, hag⟩ := h
  obtain ⟨ag', fr', ks', rfl, hag'⟩ := h'
  exact ⟨ag', fr', ks', rfl, fun _ he => hag' (hag he)⟩

theorem State.timed_foldl {α : Type} {f : State → α → State} (h : ∀ (s : State) x, s.Timed (f s x)) (l : List α) (s : State) : s.Timed (l.foldl f s) := by
  induction l generalizing s with
  | nil => exact .refl
  | cons x r ih => exact (h s x).trans (ih _)

theorem State.timed_setKernel {s : State} {n : Nat} {k : Kernel} : s.Timed (s.setKernel n k) := ⟨_, _, _, rfl, List.Subset.refl _⟩

theorem State.timed_timeCall {s : State} {n : Nat} : s.Timed (s.timeCall n) := by
  unfold timeCall
  split
  · exact .refl
  · dsimp only
    split
    · exact .refl
    · exact timed_setKernel.trans (dated_foldl (fun _ _ => dated_at) _ _).timed

theorem State.timed_timeCalls {s : State} : s.Timed s.timeCalls := timed_foldl (fun _ _ => timed_timeCall) _ _

theorem State.dated_timeLoop {s : State} {upper : Bool} {old new : CoolingLoop} : s.Dated (s.timeLoop upper old new) := by
  unfold timeLoop
  dsimp only
  split
  · split
    · exact dated_at.trans dated_at
    · exact dated_at
  · split
    · exact dated_at
    · exact .refl

theorem State.timeLoop_lost {s : State} {upper : Bool} {old new : CoolingLoop} (ho : old.bad = none) (hn : new.bad ≠ none) :
    (s.wall + 39 * 10000000, { i := .coolingLoopLost upper, arg := { y := s.wall } }) ∈ (s.timeLoop upper old new).agenda := by
  have h : (old.bad.isNone && new.bad.isSome) = true := by simp [ho, Option.isSome_iff_ne_none, hn]
  unfold timeLoop
  rw [if_pos h]
  dsimp only
  split
  · exact dated_at.mem mem_at
  · exact mem_at

theorem State.timeLoop_fit {s : State} {upper : Bool} {old new : CoolingLoop} (ho : old.good = none) (hn : new.good ≠ none) :
    (s.wall + 39 * 1000000000, { i := .coolingLoopRestored upper, arg := { y := s.wall } }) ∈ (s.timeLoop upper old new).agenda := by
  have h : (old.good.isNone && new.good.isSome) = true := by simp [ho, Option.isSome_iff_ne_none, hn]
  unfold timeLoop
  dsimp only
  rw [if_pos h]
  split
  · exact mem_at
  · exact mem_at

theorem State.nextSample_mem (s : State) : ∃ w r a, (w, { i := .healthSample r, arg := a }) ∈ s.nextSample.agenda := by
  unfold nextSample
  split
  · next h =>
    obtain ⟨⟨w, i, a⟩, hmem, hi⟩ := List.any_eq_true.mp h
    dsimp only at hi
    split at hi
    · next r => exact ⟨w, r, a, hmem⟩
    · cases hi
  · exact ⟨_, _, _, mem_at⟩

/-- A loop's timers after a sample (R28, R29). -/
theorem CoolingLoop.sample_timers (x : CoolingLoop) (c : Coolant) (w : Nat) : let y := x.sample c w
    y.lost = x.lost ∧ y.bad = (if beyondLimits c then some (x.bad.getD w) else none) ∧
      y.good = (if beyondLimits c = false ∧ x.lost ≠ none then some (x.good.getD w) else none) ∧ (beyondLimits c = true → y.back = none) := by
  unfold sample
  cases beyondLimits c <;> simp [Option.isSome_iff_ne_none]

/-- The state in which the rows of a sample are dated (R26). -/
def State.sampled (s : State) (r : Readings) : State :=
  { s with health := { s.health with
      now := r, stamp := s.wclk, hotSince := if tooHot r then some (s.health.hotSince.getD s.wall) else none
      upper := s.health.upper.sample r.upper s.wall, lower := s.health.lower.sample r.lower s.wall } }

/-- The rows of the loops' timers and of the next sample dated (R26, R28, R29). -/
def State.sampleTimed (s : State) (r : Readings) : State :=
  (((s.sampled r).timeCalls.timeLoop true s.health.upper (s.health.upper.sample r.upper s.wall)).timeLoop false s.health.lower
    (s.health.lower.sample r.lower s.wall)).nextSample

/-- The row that removes the package's power, dated where a reading begins to be too hot (R27). -/
def State.timeHot (s : State) (old new : Option Nat) : State :=
  if new.isSome && old.isNone then s.at (s.wall + nsUnits 1000000) { i := .packagePowerRemoval, arg := { x := 0, y := s.wall } } else s

theorem execHealthSample_of {s : State} {r : Readings} (h : s.health.power = true) : ∃ rows, exec (.healthSample r) s =
    .next (((s.sampleTimed r).timeHot s.health.hotSince (s.sampled r).health.hotSince).push rows) := by
  rw [exec_healthSample, execHealthSample, if_neg (by simp [h])]
  exact ⟨_, rfl⟩

theorem State.dated_timeHot {s : State} {old new : Option Nat} : s.Dated (s.timeHot old new) := by
  unfold timeHot
  split
  · exact dated_at
  · exact .refl

theorem State.timed_sampleTimed (s : State) (r : Readings) : (s.sampled r).Timed (s.sampleTimed r) :=
  timed_timeCalls.trans ((dated_timeLoop.trans (dated_timeLoop.trans (dated_nextSample _))).timed)

theorem State.Timed.wall_eq {s t : State} (h : s.Timed t) : t.wall = s.wall := by
  obtain ⟨ag, fr, ks, rfl, -⟩ := h
  rfl

/-- The rows that a loop's timers date (R28, R29). -/
theorem State.timeLoop_mem {s : State} {upper : Bool} {x : CoolingLoop} {c : Coolant} {w : Nat} (hw : s.wall = w) :
    let ag := (s.timeLoop upper x (x.sample c w)).agenda
    (beyondLimits c = true → x.bad = none → (w + 39 * 10000000, { i := .coolingLoopLost upper, arg := { y := w } }) ∈ ag) ∧
      (beyondLimits c = false → x.lost ≠ none → x.good = none → (w + 39 * 1000000000, { i := .coolingLoopRestored upper, arg := { y := w } }) ∈ ag) := by
  subst hw
  obtain ⟨-, hbad, hgood, -⟩ := x.sample_timers c s.wall
  exact ⟨fun h hb => timeLoop_lost hb (by rw [hbad, if_pos h]; exact Option.some_ne_none _),
    fun h hl hg => timeLoop_fit hg (by rw [hgood, if_pos ⟨h, hl⟩]; exact Option.some_ne_none _)⟩

theorem healthSample_claim {s : State} (hp : s.health.power = true) (r : Readings) :
    let h := s.health; let hot := tooHot r
    let timers := fun (x y : CoolingLoop) (c : Coolant) => y.lost = x.lost ∧ y.bad = (if beyondLimits c then some (x.bad.getD s.wall) else none) ∧
        y.good = (if beyondLimits c = false ∧ x.lost ≠ none then some (x.good.getD s.wall) else none) ∧ (beyondLimits c = true → y.back = none)
    ∃ u, exec (.healthSample r) s = .next u ∧ u.health.now = r ∧ u.health.stamp = s.wall / 39 ∧
      u.health.hotSince = (if hot then some (h.hotSince.getD s.wall) else none) ∧ timers h.upper u.health.upper r.upper ∧
      timers h.lower u.health.lower r.lower ∧ u.tiles = s.tiles ∧ u.ctxs = s.ctxs ∧ (∃ w r a, (w, { i := .healthSample r, arg := a }) ∈ u.agenda) ∧
      (hot = true → h.hotSince = none → (s.wall + 39 * 1000000, { i := .packagePowerRemoval, arg := { y := s.wall } }) ∈ u.agenda) ∧
      (beyondLimits r.upper = true → h.upper.bad = none → (s.wall + 39 * 10000000, { i := .coolingLoopLost true, arg := { y := s.wall } }) ∈ u.agenda) ∧
      (beyondLimits r.lower = true → h.lower.bad = none → (s.wall + 39 * 10000000, { i := .coolingLoopLost false, arg := { y := s.wall } }) ∈ u.agenda) ∧
      (beyondLimits r.upper = false → h.upper.lost ≠ none → h.upper.good = none →
        (s.wall + 39 * 1000000000, { i := .coolingLoopRestored true, arg := { y := s.wall } }) ∈ u.agenda) ∧
      (beyondLimits r.lower = false → h.lower.lost ≠ none → h.lower.good = none →
        (s.wall + 39 * 1000000000, { i := .coolingLoopRestored false, arg := { y := s.wall } }) ∈ u.agenda) := by
  intro h hot timers
  obtain ⟨rows, e⟩ := execHealthSample_of (r := r) hp
  have htimed := s.timed_sampleTimed r
  have hhot : (s.sampleTimed r).Dated ((s.sampleTimed r).timeHot s.health.hotSince (s.sampled r).health.hotSince) := State.dated_timeHot
  have hcalls := (State.timed_timeCalls (s := s.sampled r)).wall_eq
  have hupper := State.timeLoop_mem (upper := true) (x := h.upper) (c := r.upper) hcalls
  have hlower := State.timeLoop_mem (upper := false) (x := h.lower) (c := r.lower) ((State.dated_timeLoop (upper := true) (old := h.upper)
    (new := h.upper.sample r.upper s.wall)).timed.wall_eq.trans hcalls)
  have hkeep {e : Nat × Due} (he : e ∈ ((s.sampled r).timeCalls.timeLoop true h.upper (h.upper.sample r.upper s.wall)).agenda) : e ∈ (s.sampleTimed r).agenda :=
    (State.dated_nextSample _).mem (State.dated_timeLoop.mem he)
  obtain ⟨ag, fr, ks, hu, -⟩ := htimed.trans hhot.timed
  have hhealth : ((s.sampleTimed r).timeHot s.health.hotSince (s.sampled r).health.hotSince).health = (s.sampled r).health := by rw [hu]
  refine ⟨_, e, ?_⟩
  simp only [State.push_health, State.push_tiles, State.push_ctxs, State.push_agenda, hhealth]
  refine ⟨rfl, rfl, rfl, CoolingLoop.sample_timers .., CoolingLoop.sample_timers .., by rw [hu]; rfl, by rw [hu]; rfl, ?_, fun hh hn => ?_,
    fun hb hn => hhot.mem (hkeep (hupper.1 hb hn)), fun hb hn => ?_, fun hb hl hg => hhot.mem (hkeep (hupper.2 hb hl hg)), fun hb hl hg => ?_⟩
  · obtain ⟨w, i, a, hm⟩ := State.nextSample_mem (((s.sampled r).timeCalls.timeLoop true h.upper (h.upper.sample r.upper s.wall)).timeLoop false h.lower
      (h.lower.sample r.lower s.wall))
    exact ⟨w, i, a, hhot.mem hm⟩
  · have hsince : (s.sampled r).health.hotSince = some (h.hotSince.getD s.wall) := if_pos hh
    rw [hsince, State.timeHot, hn, htimed.wall_eq]
    exact State.mem_at
  · exact hhot.mem ((State.dated_nextSample _).mem (hlower.1 hb hn))
  · exact hhot.mem ((State.dated_nextSample _).mem (hlower.2 hb hl hg))

/-- The row that removes the package's power within 10 ms, dated where both loops are lost (R28). -/
def State.timeRemoval (s : State) (h : Health) : State :=
  if h.upper.lost.isSome ∧ h.lower.lost.isSome then
    (s.at (s.wall + Config.freeNat s.free % nsUnits 10000000 + 1) { i := .packagePowerRemoval, arg := { x := 1 } }).tickFree
  else s

theorem State.dated_timeRemoval {s : State} {h : Health} : s.Dated (s.timeRemoval h) := by
  unfold timeRemoval
  split
  · exact dated_at.trans dated_tickFree
  · exact .refl

theorem State.timeRemoval_mem {s : State} {h : Health} (hu : h.upper.lost ≠ none) (hl : h.lower.lost ≠ none) :
    ∃ w, w ≤ s.wall + 39 * 10000000 ∧ (w, { i := .packagePowerRemoval, arg := { x := 1 } }) ∈ (s.timeRemoval h).agenda := by
  rw [timeRemoval, if_pos ⟨Option.isSome_iff_ne_none.mpr hu, Option.isSome_iff_ne_none.mpr hl⟩]
  exact ⟨_, Nat.add_le_add_left (Nat.mod_lt (Config.freeNat s.free) (show 0 < nsUnits 10000000 by decide)) s.wall, mem_at⟩

/-- A loop that has been beyond its limits for 10 ms is lost, and with both lost the package's power goes within 10 ms (R28). -/
theorem execCoolingLoopLost_of {s : State} {upper : Bool} (hp : s.health.power = true) (hb : (s.health.loop upper).bad = some s.ev.y) :
    let x := s.health.loop upper; let h := s.health.setLoop upper { x with lost := some (x.lost.getD s.wall) }
    ∃ u, exec (.coolingLoopLost upper) s = .next u ∧ u.health = h ∧
      (h.upper.lost ≠ none → h.lower.lost ≠ none → ∃ w, w ≤ s.wall + 39 * 10000000 ∧ (w, { i := .packagePowerRemoval, arg := { x := 1 } }) ∈ u.agenda) := by
  intro x h
  have hcond : ¬ (!s.health.power || x.bad != some s.ev.y) = true := by simp [hp, x, hb]
  have hcalls := State.timed_timeCalls (s := { s with health := h })
  have hhealth : ({ s with health := h } : State).timeCalls.health = h := by
    obtain ⟨ag, fr, ks, ht, -⟩ := hcalls
    rw [ht]
  refine ⟨({ s with health := h } : State).timeCalls.timeRemoval ({ s with health := h } : State).timeCalls.health, ?_, ?_, fun hu hl => ?_⟩
  · rw [hhealth]
    exact congrArg Host.Outcome.next (if_neg hcond)
  · obtain ⟨ag, fr, ht, -⟩ := State.dated_timeRemoval (s := ({ s with health := h } : State).timeCalls) (h := h)
    rw [hhealth, ht]
    exact hhealth
  · rw [hhealth]
    obtain ⟨w, hw, hm⟩ := State.timeRemoval_mem (s := ({ s with health := h } : State).timeCalls) hu hl
    rw [hcalls.wall_eq] at hw
    exact ⟨w, hw, hm⟩

theorem execCoolingLoopLost_idle {s : State} {upper : Bool} (h : (s.health.loop upper).bad ≠ some s.ev.y) : exec (.coolingLoopLost upper) s = .next s :=
  congrArg Host.Outcome.next (if_pos (by simp [h]))

theorem execCoolingLoopRestored_of {s : State} {upper : Bool} (hl : (s.health.loop upper).lost ≠ none) (hg : (s.health.loop upper).good = some s.ev.y) :
    exec (.coolingLoopRestored upper) s = .next { s with health := s.health.setLoop upper { s.health.loop upper with back := some s.wall } } :=
  congrArg Host.Outcome.next (if_pos ⟨Option.isSome_iff_ne_none.mpr hl, hg⟩)

theorem execCoolingLoopRestored_idle {s : State} {upper : Bool} (h : (s.health.loop upper).good ≠ some s.ev.y) : exec (.coolingLoopRestored upper) s = .next s :=
  congrArg Host.Outcome.next (if_neg fun ⟨_, hg⟩ => h hg)

theorem healthEvents : Sys2Proof.Claims.HealthEvents := by
  intro s h hp
  refine ⟨healthSample_claim hp, fun hb => ?_, fun hb => ?_, execCoolingLoopLost_idle (upper := true), execCoolingLoopLost_idle (upper := false),
    execCoolingLoopRestored_of (upper := true), execCoolingLoopRestored_of (upper := false), execCoolingLoopRestored_idle (upper := true),
    execCoolingLoopRestored_idle (upper := false), fun hc => ?_, fun h0 hn => ?_⟩
  · obtain ⟨u, e, hh, hrow⟩ := execCoolingLoopLost_of (upper := true) hp hb
    exact ⟨u, e, hh, hrow (Option.some_ne_none _)⟩
  · obtain ⟨u, e, hh, hrow⟩ := execCoolingLoopLost_of (upper := false) hp hb
    exact ⟨u, e, hh, fun hu => hrow hu (Option.some_ne_none _)⟩
  · refine ⟨s.unpowered, congrArg Host.Outcome.next (if_pos ?_), rfl, rfl, rfl, rfl, rfl, rfl, rfl, rfl⟩
    simpa only [Option.isSome_iff_ne_none] using hc
  · refine congrArg Host.Outcome.next (if_neg ?_)
    rintro (⟨-, hh⟩ | ⟨h1, -⟩)
    · exact hn hh
    · rw [h0] at h1; cases h1

/-- Settles O55: its four claims, each from the laws of the rows that it names. -/
theorem powerAndSecurity : Obligations.PowerAndSecurity := ⟨powerOn, lifeCycleCommands, measureAttestUnlock, healthEvents⟩

end Sys2Proof.Machine
end

section
/-!
SUPPORT. Writes to many tiles, the holds of a kernel and the calls for a variant (R27 to R30, R323).
-/

namespace Sys2Proof.Machine

/-! ### Tiles written -/

/-- `t` is `s` with other tiles. -/
def State.Tiled (s t : State) : Prop := ∃ ts, t = { s with tiles := ts }

theorem State.tiled_updTile {s : State} {t : TileId} {f : Tile → Tile} : s.Tiled (s.updTile t f) := ⟨_, rfl⟩

theorem State.tiled_foldl {α : Type} {f : State → α → State} (h : ∀ (s : State) x, s.Tiled (f s x)) (l : List α) (s : State) : s.Tiled (l.foldl f s) := by
  induction l generalizing s with
  | nil => exact ⟨_, rfl⟩
  | cons x r ih =>
    obtain ⟨ts, e⟩ := h s x
    obtain ⟨ts', e'⟩ := ih (f s x)
    exact ⟨ts', by rw [List.foldl_cons, e', e]⟩

theorem State.updTiles_eq (s : State) (ts : List TileId) (f : Tile → Tile) : s.Tiled (s.updTiles ts f) := tiled_foldl (fun _ _ => tiled_updTile) _ _

section
variable {s : State} {ts : List TileId} {f : Tile → Tile}

@[simp] theorem State.updTiles_kernels : (s.updTiles ts f).kernels = s.kernels := by
  obtain ⟨m, e⟩ := s.updTiles_eq ts f
  rw [e]
@[simp] theorem State.updTiles_todo : (s.updTiles ts f).todo = s.todo := by
  obtain ⟨m, e⟩ := s.updTiles_eq ts f
  rw [e]
@[simp] theorem State.updTiles_wall : (s.updTiles ts f).wall = s.wall := by
  obtain ⟨m, e⟩ := s.updTiles_eq ts f
  rw [e]
@[simp] theorem State.updTiles_agenda : (s.updTiles ts f).agenda = s.agenda := by
  obtain ⟨m, e⟩ := s.updTiles_eq ts f
  rw [e]
@[simp] theorem State.updTiles_ctxs : (s.updTiles ts f).ctxs = s.ctxs := by
  obtain ⟨m, e⟩ := s.updTiles_eq ts f
  rw [e]
@[simp] theorem State.updTiles_host : (s.updTiles ts f).host = s.host := by
  obtain ⟨m, e⟩ := s.updTiles_eq ts f
  rw [e]
@[simp] theorem State.updTiles_dies : (s.updTiles ts f).dies = s.dies := by
  obtain ⟨m, e⟩ := s.updTiles_eq ts f
  rw [e]
@[simp] theorem State.kernel_updTiles {n : Nat} : (s.updTiles ts f).kernel? n = s.kernel? n := by rw [kernel?, updTiles_kernels, kernel?]
end

/-! ### Kernels -/

section
variable {s : State} {n : Nat} {k : Kernel}

theorem State.kernel_updKernel {f : Kernel → Kernel} (hk : s.kernel? n = some k) : (s.updKernel n f).kernel? n = some (f k) := by
  unfold updKernel
  rw [hk]
  exact s.kernel_setKernel_self n (f k)

/-- A hold cause that arises in a kernel: what it makes of the kernel (R323). -/
theorem State.kernel_openHold (hk : s.kernel? n = some k) (cause : Nat) : ∃ mask w st,
    (s.openHold n cause).kernel? n = some { k with holds := cause :: k.holds, holdMask := mask, holdFrom := some w, st := st } ∧
      (k.holdFrom = none → st = if k.st = .running then .held else k.st) := by
  unfold openHold
  rw [hk]
  dsimp only
  split
  · next w hw => exact ⟨k.holdMask ||| 2 ^ cause, w, k.st, by rw [kernel_setKernel_self, ← hw], fun h => by cases h.symm.trans hw⟩
  · next hw =>
    refine ⟨k.holdMask ||| 2 ^ cause, s.wall, if k.st = .running then .held else k.st, ?_, fun _ => rfl⟩
    rw [kernel_at, kernel_updTiles, holdTiles, kernel_updTiles, ctxHeld, kernel_updCtx, kernel_setKernel_self]

theorem State.kernel_beginHold (hk : s.kernel? n = some k) {cause : Nat} (h1 : cause ≠ 1) (h7 : cause ≠ 7) : ∃ mask w st,
    (s.beginHold n cause).kernel? n = some { k with holds := cause :: k.holds, holdMask := mask, holdFrom := some w, st := st } := by
  obtain ⟨mask, w, st, h, -⟩ := kernel_openHold hk cause
  exact ⟨mask, w, st, by rw [beginHold, if_neg h1, if_neg h7]; exact h⟩

/-- A kernel that ends for thermal overrun (R27, R28, R30). -/
theorem State.kernel_thermalOverrun (hk : s.kernel? n = some k) (he : k.ending = none) :
    ∃ k', (s.thermalOverrun n).kernel? n = some k' ∧ k'.st = .faulted ∧ k'.ending = some 3 ∧ k'.holds = 9 :: k.holds := by
  unfold thermalOverrun
  rw [hk]
  dsimp only
  rw [he]
  obtain ⟨mask, w, st, h⟩ := kernel_beginHold hk (cause := 9) (by decide) (by decide)
  refine ⟨_, kernel_updKernel (kernel_updTiles.trans h), ?_⟩
  simp [Kernel.endFaulted, he]

/-! ### The calls for a variant -/

/-- `t` is `s` but for rows dated, free values used, and what the kernels' calls for a variant are timed from. -/
def State.Called (s t : State) : Prop := s.Timed t ∧ ∀ n k, s.kernel? n = some k → ∃ calls, t.kernel? n = some { k with callFrom := calls }

theorem State.Called.refl : s.Called s := ⟨.refl, fun _ _ h => ⟨_, h⟩⟩

theorem State.Called.trans {t u : State} (h : s.Called t) (h' : t.Called u) : s.Called u := by
  refine ⟨h.1.trans h'.1, fun n k hk => ?_⟩
  obtain ⟨c, h2⟩ := h.2 n k hk
  obtain ⟨c', h3⟩ := h'.2 n _ h2
  exact ⟨c', h3⟩

theorem State.kernel_foldl_at {α : Type} {w : State → α → Nat} {d : State → α → Due} {l : List α} {m : Nat} :
    (l.foldl (fun s x => s.at (w s x) (d s x)) s).kernel? m = s.kernel? m := by
  induction l generalizing s with
  | nil => rfl
  | cons x r ih => exact ih.trans rfl

/-- The kernel whose calls are timed. -/
theorem State.kernel_timeCall (hk : s.kernel? n = some k) : ∃ calls, (s.timeCall n).kernel? n = some { k with callFrom := calls } ∧
    (s.health.calls k = [] → k.callFrom = [] → calls = []) := by
  unfold timeCall
  rw [hk]
  dsimp only
  split
  · exact ⟨k.callFrom, hk, fun _ h => h⟩
  · exact ⟨_, kernel_foldl_at.trans (s.kernel_setKernel_self n _), fun h1 h2 => by simp [h1, h2]⟩

theorem State.kernel_timeCall_ne {m : Nat} (h : m ≠ n) : (s.timeCall n).kernel? m = s.kernel? m := by
  unfold timeCall
  split
  · rfl
  · dsimp only
    split
    · rfl
    · exact kernel_foldl_at.trans (s.kernel_setKernel_ne _ h)

theorem State.called_timeCall : s.Called (s.timeCall n) := by
  refine ⟨timed_timeCall, fun m k hk => ?_⟩
  by_cases h : m = n
  · subst h
    obtain ⟨calls, e, -⟩ := kernel_timeCall hk
    exact ⟨calls, e⟩
  · exact ⟨k.callFrom, (kernel_timeCall_ne h).trans hk⟩

theorem State.called_timeCalls : s.Called s.timeCalls := by
  unfold timeCalls
  generalize s.kernels.map Prod.fst = l
  induction l generalizing s with
  | nil => exact .refl
  | cons n r ih => exact called_timeCall.trans ih

theorem State.kernel_endHold (hk : s.kernel? n = some k) (cause : Nat) : ∃ from' host,
    (s.endHold n cause).kernel? n = some { k with holds := k.holds.erase cause, linkFrom := from', hostFrom := host } := by
  unfold endHold
  rw [hk]
  dsimp only
  split
  · exact ⟨_, _, s.kernel_setKernel_self n _⟩
  · exact ⟨_, _, s.kernel_setKernel_self n _⟩
end

end Sys2Proof.Machine
end

section
/-!
SUPPORT. The replan points and the thermal overrun (R27 to R30, R178, R321, R322).
-/

namespace Sys2Proof.Machine

/-! ### Replan switches -/

/-- A replan point taken: a restored loop is in use again, and no call for a variant stands (R29, R322). -/
def State.replanned (s : State) (n : Nat) (k : Kernel) : State :=
  ({ s.setKernel n { k with replanAt := none } with health := s.health.takeBack } : State).timeCalls.updKernel n fun k => { k with callFrom := [] }

/-- What follows the selection of a variant at a replan point (R28, R322). -/
def State.replanTo (s : State) (n : Nat) (k : Kernel) : Option Nat → State
  | none => s.thermalOverrun n
  | some v =>
    if v = k.variant then s.timeCall n
    else
      let s := (s.beginHold n 6).updKernel n fun k => { k with st := .replanning }
      (s.at (s.wall + Config.freeNat s.free % nsUnits 20000 + 1) { i := .replanSwitch, arg := { tile := v, x := n, y := 1 } }).tickFree

/-- A replan point is due: no tile stands in a stop (R322, log 88). -/
def State.replanDue (s : State) (k : Kernel) : Prop := k.replanAt = none ∨ ∀ t ∈ s.tilesOf k, t.2.flow.st = .running ∨ t.2.flow.st = .halted

section
variable {s : State} {k : Kernel}

theorem State.replanDue_iff : (k.replanAt.isNone || (s.tilesOf k).all fun t => t.2.atPoint) = true ↔ s.replanDue k := by
  simp [replanDue, Tile.atPoint]

theorem State.replanned_eq (s : State) (n : Nat) (k : Kernel) : ∃ ag fr ks, s.replanned n k = { s with health := s.health.takeBack, agenda := ag, free := fr, kernels := ks } := by
  obtain ⟨ag, fr, ks, e, -⟩ := State.timed_timeCalls (s := { s.setKernel n { k with replanAt := none } with health := s.health.takeBack })
  unfold replanned updKernel
  rw [e]
  split
  · exact ⟨_, _, _, rfl⟩
  · exact ⟨_, _, _, rfl⟩

theorem State.kernel_replanned {n : Nat} : (s.replanned n k).kernel? n = some { k with replanAt := none, callFrom := [] } := by
  have h := s.kernel_setKernel_self n { k with replanAt := none }
  obtain ⟨calls, e⟩ := (State.called_timeCalls (s := { s.setKernel n { k with replanAt := none } with health := s.health.takeBack })).2 n _ h
  exact kernel_updKernel e

variable (hk : s.kernel? s.ev.x = some k)
include hk

theorem execReplanSwitch_waits (hy : s.ev.y = 0) (hd : ¬ s.replanDue k) : exec .replanSwitch s = .next (s.setKernel s.ev.x { k with replanAt := none }) := by
  rw [← State.replanDue_iff] at hd
  rw [exec_replanSwitch, execReplanSwitch]
  simp only [hk, hy]
  rw [if_neg (by decide), if_pos (by rw [Bool.eq_false_iff.mpr hd]; rfl)]

theorem execReplanSwitch_due (hy : s.ev.y = 0) (hd : s.replanDue k) : exec .replanSwitch s =
    .next ((s.replanned s.ev.x k).replanTo s.ev.x k (k.nextVariant (s.health.takeBack.select k.die0 k.shape k.variant))) := by
  have hhealth : (s.replanned s.ev.x k).health = s.health.takeBack := by
    obtain ⟨ag, fr, ks, e⟩ := s.replanned_eq s.ev.x k
    rw [e]
  rw [← hhealth]
  rw [← State.replanDue_iff] at hd
  rw [exec_replanSwitch, execReplanSwitch]
  simp only [hk, hy]
  rw [if_neg (by decide), if_neg (by rw [hd]; decide)]
  rfl

theorem execReplanSwitch_ends (hy : s.ev.y = 1) (hst : k.st = .replanning) : exec .replanSwitch s = .next (s.switchVariant s.ev.x k s.ev.tile) := by
  rw [exec_replanSwitch, execReplanSwitch]
  simp only [hk, hy, if_pos hst, if_true]

theorem execVariantWaitTimeout_of (h : (s.ev.tile, s.ev.y) ∈ k.callFrom) : exec .variantWaitTimeout s = .next (s.thermalOverrun s.ev.x) := by
  rw [exec_variantWaitTimeout, execVariantWaitTimeout]
  simp only [hk, if_pos (List.contains_iff_mem.mpr h)]

theorem execVariantWaitTimeout_idle (h : (s.ev.tile, s.ev.y) ∉ k.callFrom) : exec .variantWaitTimeout s = .next s := by
  rw [exec_variantWaitTimeout, execVariantWaitTimeout]
  simp only [hk, if_neg (mt List.contains_iff_mem.mp h)]

theorem execLayerLimitExceeded_of (h : layerLimit k.variant < s.health.hottest k.die0 k.shape) : exec .layerLimitExceeded s = .next (s.thermalOverrun s.ev.x) := by
  rw [exec_layerLimitExceeded, execLayerLimitExceeded]
  simp only [hk, if_pos h]

theorem execLayerLimitExceeded_idle (h : s.health.hottest k.die0 k.shape ≤ layerLimit k.variant) : exec .layerLimitExceeded s = .next s := by
  rw [exec_layerLimitExceeded, execLayerLimitExceeded]
  simp only [hk, if_neg (not_lt.mpr h)]
end

section
variable {s : State} {n : Nat} {k : Kernel}

/-- A switch to the variant in use goes on as it was, with no call standing (R29, R322). -/
theorem State.replanTo_same (hsel : s.health.takeBack.select k.die0 k.shape k.variant = k.variant) :
    let u := (s.replanned n k).replanTo n k (some k.variant)
    u.kernel? n = some { k with replanAt := none, callFrom := [] } ∧ u.health = s.health.takeBack ∧ u.tiles = s.tiles ∧ u.host = s.host ∧ u.ctxs = s.ctxs := by
  intro u
  obtain ⟨ag, fr, ks, e⟩ := s.replanned_eq n k
  obtain ⟨ag', fr', ks', e', -⟩ := State.timed_timeCall (s := s.replanned n k) (n := n)
  obtain ⟨calls, hk, hc⟩ := State.kernel_timeCall (s.kernel_replanned (n := n) (k := k))
  have hu : u = (s.replanned n k).timeCall n := if_pos rfl
  have hcalls : calls = [] := hc (by rw [e]; exact if_pos hsel) rfl
  rw [hu]
  refine ⟨by rw [hk, hcalls], ?_⟩
  rw [e', e]
  exact ⟨rfl, rfl, rfl, rfl⟩

/-- A switch to another variant holds the partition until it has been made (R322). -/
theorem State.replanTo_other {v : Nat} (hv : v ≠ k.variant) : ∃ k', ((s.replanned n k).replanTo n k (some v)).kernel? n = some k' ∧ k'.st = .replanning ∧
    k'.holds = 6 :: k.holds ∧ k'.cycle = k.cycle ∧ ∃ w, (w, { i := .replanSwitch, arg := { tile := v, x := n, y := 1 } }) ∈ ((s.replanned n k).replanTo n k (some v)).agenda := by
  obtain ⟨mask, w, st, h⟩ := State.kernel_beginHold (s.kernel_replanned (n := n) (k := k)) (cause := 6) (by decide) (by decide)
  rw [replanTo, if_neg hv]
  exact ⟨_, kernel_updKernel h, rfl, rfl, rfl, _, mem_at⟩

theorem State.replanTo_none (he : k.ending = none) :
    ∃ k', ((s.replanned n k).replanTo n k none).kernel? n = some k' ∧ k'.st = .faulted ∧ k'.ending = some 3 ∧ k'.holds = 9 :: k.holds :=
  kernel_thermalOverrun (k := { k with replanAt := none, callFrom := [] }) s.kernel_replanned he

/-- The last hold cause clears: the release follows (R324). -/
theorem State.endHold_todo (hk : s.kernel? n = some k) {cause : Nat} (hh : k.holds.erase cause = []) :
    (s.endHold n cause).todo = { i := .holdRelease, arg := { x := n } } :: s.todo := by
  unfold endHold
  rw [hk]
  dsimp only
  rw [hh]
  rfl

/-- A switch that ends: the variant stands, and with no other cause the hold is released (R322). -/
theorem State.switchVariant_released {v : Nat} (hh : k.holds = [6]) : ∃ k', (s.switchVariant n k v).kernel? n = some k' ∧ k'.variant = v ∧ k'.slow = (v == 3) ∧
    k'.holds = [] ∧ k'.cycle = k.cycle ∧ (s.switchVariant n k v).todo.head? = some { i := .holdRelease, arg := { x := n } } := by
  unfold switchVariant
  dsimp only
  generalize s.updTiles k.tiles _ = u
  generalize hnew : ({ k with variant := v, slow := v == 3, st := .held } : Kernel) = new
  have hk := u.kernel_setKernel_self n new
  have herase : new.holds.erase 6 = [] := by
    rw [← hnew]
    exact congrArg (List.erase · 6) hh
  have htodo := State.endHold_todo hk herase
  obtain ⟨from', host, h⟩ := State.kernel_endHold hk 6
  obtain ⟨calls, h', -⟩ := State.kernel_timeCall h
  obtain ⟨ag, fr, ks, e, -⟩ := State.timed_timeCall (s := (u.setKernel n new).endHold n 6) (n := n)
  refine ⟨_, h', ?_, ?_, herase, ?_, ?_⟩
  · rw [← hnew]
  · rw [← hnew]
  · rw [← hnew]
  · rw [e]
    exact congrArg List.head? htodo
end

theorem replanAndThermal : Sys2Proof.Claims.ReplanAndThermal := by
  refine ⟨?_, ?_, ?_⟩
  · intro s k n sel hk he hr due overruns
    refine ⟨execReplanSwitch_waits hk, fun hy hd hm hs => ?_, fun hy hd hm hs => ?_, fun hy hd hm hs => ?_, fun hy hst hh hv => ?_, fun h => ?_,
      execVariantWaitTimeout_idle hk, ?_⟩
    · refine ⟨_, execReplanSwitch_due hk hy hd, ?_⟩
      rw [Kernel.nextVariant, if_pos hm, show s.health.takeBack.select k.die0 k.shape k.variant = k.variant from hs]
      exact State.replanTo_same hs
    · obtain ⟨k', h⟩ := State.replanTo_other (s := s) (n := n) hs
      refine ⟨_, k', execReplanSwitch_due hk hy hd, ?_⟩
      rw [Kernel.nextVariant, if_pos hm]
      exact h
    · obtain ⟨k', h⟩ := State.replanTo_none (s := s) (n := n) he
      refine ⟨_, k', execReplanSwitch_due hk hy hd, ?_⟩
      rw [Kernel.nextVariant, show s.health.takeBack.select k.die0 k.shape k.variant = 3 from hs, hm, if_neg Bool.false_ne_true, if_pos rfl]
      exact h
    · obtain ⟨k', h⟩ := State.switchVariant_released (s := s) (n := n) (v := s.ev.tile) hh
      exact ⟨_, k', execReplanSwitch_ends hk hy hst, h⟩
    · obtain ⟨k', h'⟩ := State.kernel_thermalOverrun hk he
      exact ⟨_, k', execVariantWaitTimeout_of hk h, h'⟩
    · intro limit hot
      refine ⟨fun h => ?_, execLayerLimitExceeded_idle hk⟩
      obtain ⟨k', h'⟩ := State.kernel_thermalOverrun hk he
      exact ⟨_, k', execLayerLimitExceeded_of hk h, h'⟩
  · intro h die0 shape used t hu hl
    rw [Health.select, if_neg (by simp [hu, hl])]
    rfl
  · intro h die0 shape used hlost
    rw [Health.select, if_pos (by simpa [Option.isSome_iff_ne_none] using hlost)]

end Sys2Proof.Machine
end

section
/-!
SUPPORT. The end of a kernel and its record (R325 to R328).
-/

namespace Sys2Proof.Machine

/-! ### Records in the host's memory -/

theorem memRange_eq (m : Mem) (lo n : Nat) : memRange m lo n = (List.range n).map fun i => memGet m (lo + i) := by
  refine List.map_congr_left fun i hi => ?_
  have hi := List.mem_range.mp hi
  exact mapGet_filter 0 m (fun a => lo ≤ a && a < lo + n) (lo + i) (by simp [hi])

/-- A write read back. -/
theorem memRange_memPutRange (m : Mem) (lo : Nat) (bs : List Byte) : memRange (memPutRange m lo bs) lo bs.length = bs := by
  rw [memRange_eq]
  refine List.ext_getElem (by simp) fun i _ h => ?_
  rw [List.getElem_map, List.getElem_range, memGet_memPutRange_in _ _ _ _ h, List.getD_eq_getElem _ _ h]

/-- A kernel's record that lies in a writable grain of the host's memory (R326). -/
theorem State.kernelRecord_host {s : State} {c : Nat} {l : Launch} {ws : List Nat} {g : Grain} (hg : (s.ctx c).grain l.recAt = some g) (hkind : g.kind = 0)
    (hwr : g.wr = true) (hlen : ws.length = 8) (hcov : g.covers l.recAt 64 = true) (hat : l.recAt % 64 = 0) (hwake : l.wake = false) :
    ∃ ts bi, s.kernelRecord c l ws = { s with
      tiles := ts, host := { s.host with
        backInv := bi, mem := memPutRange s.host.mem (g.offset l.recAt) (ws.flatMap (natBytes 8)), irqs := if l.irq then s.host.irqs ++ [c] else s.host.irqs } } := by
  have hbytes : (ws.flatMap (natBytes 8)).length = 64 := by simp [List.length_flatMap, hlen]
  have haddr : s.queueAddr c l.recAt = true := by simp [queueAddr, hg, hkind]
  obtain ⟨ts, bi, e⟩ : ∃ ts bi, s.backInvalidate = { s with tiles := ts, host := { s.host with backInv := bi } } := ⟨_, _, rfl⟩
  have hwrite : (s.backInvalidate.sysWrite c 1 l.recAt (ws.flatMap (natBytes 8))).1 =
      { s with tiles := ts, host := { s.host with backInv := bi, mem := memPutRange s.host.mem (g.offset l.recAt) (ws.flatMap (natBytes 8)) } } := by
    rw [e]
    generalize ws.flatMap (natBytes 8) = bs at hbytes ⊢
    unfold sysWrite
    rw [show (State.ctx { s with tiles := ts, host := { s.host with backInv := bi } } c).grain l.recAt = some g from hg]
    simp [hwr, hkind, hbytes, hcov]
  refine ⟨ts, bi, ?_⟩
  rw [kernelRecord, if_pos ⟨hat, haddr⟩, hwrite, hwake]
  rfl

/-! ### The end of a kernel -/

theorem mapFind_of_not_mem {α : Type} {m : Map α} {k : Nat} (h : ∀ e ∈ m, e.1 ≠ k) : mapFind m k = none := by
  induction m with
  | nil => rfl
  | cons a r ih => exact (if_neg (h a List.mem_cons_self)).trans (ih fun e he => h e (List.mem_cons_of_mem _ he))

theorem mapFind_mapDel_self {α : Type} {m : Map α} {k : Nat} (h : RisingMap m) : mapFind (mapDel m k) k = none := by
  induction m with
  | nil => rfl
  | cons e r ih =>
    obtain ⟨he, hr⟩ := List.pairwise_cons.mp h
    unfold mapDel
    split
    · next hk => exact mapFind_of_not_mem fun a ha => hk ▸ (he a ha).ne'
    · next hk => exact (if_neg hk).trans (ih hr)

/-- The first word of a kernel's record (R327). -/
def Kernel.recordWord (k : Kernel) (status : Nat) : Nat :=
  status + k.variant * 2 ^ 4 + (k.first.map FirstFault.cause).getD 0 * 2 ^ 8 + (k.first.map FirstFault.pos).getD 0 * 2 ^ 16 + k.nflt * 2 ^ 32

theorem Kernel.recordWord_fields (k : Kernel) {status : Nat} (h : status < 16) :
    k.recordWord status % 2 ^ 4 = status ∧ (k.variant < 4 → k.recordWord status / 2 ^ 4 % 4 = k.variant) := by
  unfold recordWord
  generalize (k.first.map FirstFault.cause).getD 0 = a
  generalize (k.first.map FirstFault.pos).getD 0 = b
  omega

theorem Kernel.record_eq (k : Kernel) (status : Nat) : ∃ ws, k.record status = k.recordWord status :: ws ∧ ws.length = 7 := ⟨_, rfl, rfl⟩

theorem Kernel.record_of_first_none {k : Kernel} (h : k.first = none) (status : Nat) : k.record status =
    [status + k.variant * 2 ^ 4 + k.nflt * 2 ^ 32, 0, k.tstart % 2 ^ 64, k.tend % 2 ^ 64, k.holdSum, k.tcyc % 2 ^ 48,
      k.lyield.getD (2 ^ 48 - 1) % 2 ^ 48 + min k.nhold 65535 * 2 ^ 48, k.thash.toNat] := by
  unfold record
  rw [h]
  dsimp only
  split
  · simp
  · simp
  · next e => cases e

/-- A kernel as its record is written (R325, R326). -/
def Kernel.recorded (k : Kernel) : Kernel := { k with st := if k.ending.getD 1 = 1 then .completed else .faulted }

section
variable {s : State} {k : Kernel} (hk : s.kernel? s.ev.x = some k)
include hk

theorem execKernelComplete_record (hy : s.ev.y = 0)
    (hidle : ∀ t ∈ k.tiles, (s.tile t).vault.retries = [] ∧ (s.tile t).sync.decs = [] ∧ (k.closed = true → (s.tile t).vault.streams = [])) :
    exec .kernelComplete s = .next (((s.setKernel s.ev.x k.recorded).kernelRecord k.ctx k.launch (k.record (k.ending.getD 1))).push
      [{ i := .kernelComplete, arg := { x := s.ev.x, y := 2 } }]) := by
  have hretries : (k.tiles.any fun t => !(s.tile t).vault.retries.isEmpty) = false := by
    simp only [List.any_eq_false, Bool.not_eq_true, Bool.not_eq_false', List.isEmpty_iff]
    exact fun t ht => (hidle t ht).1
  have hdecs : (k.tiles.any fun t => !(s.tile t).sync.decs.isEmpty) = false := by
    simp only [List.any_eq_false, Bool.not_eq_true, Bool.not_eq_false', List.isEmpty_iff]
    exact fun t ht => (hidle t ht).2.1
  have hstreams : (k.closed && k.tiles.any fun t => !(s.tile t).vault.streams.isEmpty) = false := by
    cases hc : k.closed with
    | false => rfl
    | true =>
      simp only [Bool.true_and, List.any_eq_false, Bool.not_eq_true, Bool.not_eq_false', List.isEmpty_iff]
      exact fun t ht => (hidle t ht).2.2 hc
  rw [exec_kernelComplete, execKernelComplete]
  simp only [hk, hy, hretries, hdecs, hstreams]
  rfl

theorem execKernelComplete_ends (hy : s.ev.y = 2) : exec .kernelComplete s = .next (s.endKernel s.ev.x k) := by
  rw [exec_kernelComplete, execKernelComplete]
  simp only [hk, hy]
  rfl

theorem execKernelComplete_closes (hy : s.ev.y = 1) (hc : k.closed = false) : exec .kernelComplete s = .next (s.closeKernel s.ev.x k) := by
  rw [exec_kernelComplete, execKernelComplete]
  simp only [hk, hy, hc]
  rfl
end

section
variable {s : State} {n : Nat} {k : Kernel}

theorem State.dropAsks_eq (s : State) (p : Due → Bool) : ∃ ts as, s.dropAsks p = { s with tiles := ts, asks := as } := by
  obtain ⟨ts, e⟩ : State.Tiled { s with asks := s.asks.filter fun a => !p a.row } (s.dropAsks p) :=
    tiled_foldl (fun _ _ => tiled_foldl (fun _ _ => tiled_updTile) _ _) _ _
  exact ⟨ts, _, e⟩

theorem State.dated_bindWaiting {s : State} : s.Dated s.bindWaiting :=
  dated_foldl (fun s c => by
    split
    · exact dated_at.trans dated_tickFree
    · exact .refl) _ _

theorem State.freePartition_eq (s : State) (n : Nat) (k : Kernel) : ∃ ag fr ts as, s.freePartition n k =
    { s with agenda := ag, free := fr, tiles := ts, asks := as, kernels := mapDel s.kernels n } := by
  unfold freePartition leavePartition
  obtain ⟨ts, as, e⟩ := dropAsks_eq { s with agenda := s.agenda.filter fun a => !k.owns n a.2 } (k.owns n)
  rw [e]
  dsimp only
  generalize hu : State.updTiles _ k.tiles _ = u
  obtain ⟨ts', rfl⟩ : State.Tiled _ u := hu ▸ updTiles_eq ..
  obtain ⟨ag, fr, e', -⟩ := dated_bindWaiting (s := (_ : State).delKernel n)
  rw [e']
  exact ⟨_, _, _, _, rfl⟩

theorem Context.afterKernel_launches {c : Context} {status : Nat} : (c.afterKernel k status).launches = c.launches := by
  unfold afterKernel
  split
  · rfl
  · split
    · rfl
    · split
      · dsimp only
        split <;> rfl
      · rfl

/-- A kernel that ends without yielding: its context is what R331 makes of it, and its partition is idle. -/
theorem State.endKernel_parts (hrest : k.ending.getD 1 = 4 → k.restored = false) (hl : (s.ctx k.ctx).launches = []) (hr : RisingMap s.ctxs)
    (hk : RisingMap s.kernels) : (s.endKernel n k).kernel? n = none ∧ (s.endKernel n k).host = s.host ∧
      (s.endKernel n k).ctx k.ctx = (s.ctx k.ctx).afterKernel k (k.ending.getD 1) := by
  have hstay : ¬ (k.ending.getD 1 = 4 ∧ k.restored = true) := fun ⟨h4, h⟩ => by rw [hrest h4] at h; cases h
  have hctx : (s.updCtx k.ctx fun c => c.afterKernel k (k.ending.getD 1)).ctx k.ctx = (s.ctx k.ctx).afterKernel k (k.ending.getD 1) :=
    s.ctx_setCtx_self k.ctx _ hr
  obtain ⟨ag, fr, ts, as, e⟩ := freePartition_eq (s.updCtx k.ctx fun c => c.afterKernel k (k.ending.getD 1)) n k
  have hnone := congrArg List.isEmpty ((congrArg Context.launches hctx).trans (Context.afterKernel_launches.trans hl))
  have hend : s.endKernel n k = (s.updCtx k.ctx fun c => c.afterKernel k (k.ending.getD 1)).freePartition n k := by
    unfold endKernel
    dsimp only
    rw [if_neg hstay, e]
    exact if_pos hnone
  rw [hend, e]
  exact ⟨mapFind_mapDel_self hk, rfl, hctx⟩

end

section
variable {s : State} {n : Nat} {k : Kernel}

theorem State.kernel_recordHold (hk : s.kernel? n = some k) (start mask : Nat) :
    ∃ sum count, (s.recordHold n start mask).kernel? n = some { k with holdSum := sum, nhold := count } := by
  unfold recordHold
  rw [hk]
  exact ⟨_, _, kernel_setKernel_self ..⟩

/-- What a fold leaves alone, where each of its steps does. -/
theorem State.foldl_same {α β : Type} (g : State → β) {f : State → α → State} (h : ∀ s x, g (f s x) = g s) (l : List α) (s : State) : g (l.foldl f s) = g s := by
  induction l generalizing s with
  | nil => rfl
  | cons x r ih => rw [List.foldl_cons, ih, h]

theorem State.recordHold_todo {start mask : Nat} : (s.recordHold n start mask).todo = s.todo := by
  unfold recordHold
  split
  · rfl
  · dsimp only
    rw [setKernel_todo]
    exact (foldl_same State.todo (fun _ _ => by rfl) _ _).trans updTiles_todo

theorem State.recordHold_wall {start mask : Nat} : (s.recordHold n start mask).wall = s.wall := by
  unfold recordHold
  split
  · rfl
  · dsimp only
    rw [setKernel_wall]
    exact (foldl_same State.wall (fun _ _ => by rfl) _ _).trans updTiles_wall

/-- The hold interval that stands recorded, where one does (R324, R325). -/
def State.holdClosed (s : State) (n : Nat) (k : Kernel) : State := match k.holdFrom with
  | some w => s.recordHold n w k.holdMask
  | none => s

theorem State.holdClosed_todo : (s.holdClosed n k).todo = s.todo := by
  unfold holdClosed
  split
  · exact recordHold_todo
  · rfl

theorem State.holdClosed_wall : (s.holdClosed n k).wall = s.wall := by
  unfold holdClosed
  split
  · exact recordHold_wall
  · rfl

theorem State.kernel_holdClosed (hk : s.kernel? n = some k) : ∃ sum count, (s.holdClosed n k).kernel? n = some { k with holdSum := sum, nhold := count } := by
  unfold holdClosed
  split
  · exact kernel_recordHold hk ..
  · exact ⟨_, _, hk⟩

/-- What a faulted ending makes of a kernel, at a wall time in ns (R325). -/
def Kernel.close (wclk : Nat) (k : Kernel) : Kernel :=
  { k with closed := true, holds := [], holdMask := 0, holdFrom := none, linkFrom := none, hostFrom := none, recv := [], horizon := none, reached := none
           tend := wclk, tcyc := k.cycle }

theorem State.closeKernel_eq (s : State) (n : Nat) (k : Kernel) : ∃ f rows, s.closeKernel n k =
    (((s.holdClosed n k).updTiles k.tiles f).updKernel n (Kernel.close ((s.holdClosed n k).updTiles k.tiles f).wclk)).push
      (rows ++ [{ i := .kernelComplete, arg := { x := n } }]) := ⟨_, _, rfl⟩

/-- A faulted ending that begins (R325). -/
theorem State.kernel_closeKernel (hk : s.kernel? n = some k) : ∃ k', (s.closeKernel n k).kernel? n = some k' ∧ k'.closed = true ∧ k'.holds = [] ∧
    k'.tend = s.wall / 39 ∧ k'.tcyc = k.cycle := by
  obtain ⟨f, rows, e⟩ := s.closeKernel_eq n k
  obtain ⟨sum, count, hk'⟩ := kernel_holdClosed hk
  rw [e]
  refine ⟨_, kernel_updKernel (kernel_updTiles.trans hk'), rfl, rfl, ?_, rfl⟩
  rw [Kernel.close, wclk, updTiles_wall, holdClosed_wall]

theorem State.closeKernel_todo : ∃ rows, (s.closeKernel n k).todo = rows ++ { i := .kernelComplete, arg := { x := n } } :: s.todo := by
  obtain ⟨f, rows, e⟩ := s.closeKernel_eq n k
  obtain ⟨-, -, -, htodo, -⟩ := ((s.holdClosed n k).updTiles k.tiles f).updKernel_parts n (Kernel.close ((s.holdClosed n k).updTiles k.tiles f).wclk)
  refine ⟨rows, ?_⟩
  rw [e, push_todo, htodo, updTiles_todo, holdClosed_todo, List.append_assoc]
  rfl
end

theorem completion : Sys2Proof.Claims.Completion := by
  intro s k g n c l st hk hrk hrc hwf hst
  refine ⟨fun hy hidle hg hkind hwr hcov hat hwake => ?_, fun hy hl h4 hres => ?_, fun hy hl h4 => ?_, fun hy hc => ?_⟩
  · obtain ⟨ts, bi, e⟩ := State.kernelRecord_host (s := s.setKernel n k.recorded) (ws := k.record st) hg hkind hwr rfl hcov hat hwake
    obtain ⟨ws, hrec, hws⟩ := k.record_eq st
    have hmem : memRange (memPutRange s.host.mem (g.offset l.recAt) ((k.record st).flatMap (natBytes 8))) (g.offset l.recAt) 64 =
        (k.record st).flatMap (natBytes 8) := by
      have hlen : ((k.record st).flatMap (natBytes 8)).length = 64 := by simp [List.length_flatMap, hrec, hws]
      rw [← hlen, memRange_memPutRange]
    obtain ⟨hlow, hvar⟩ := k.recordWord_fields hst
    refine ⟨_, k.recordWord st, execKernelComplete_record hk hy hidle, ?_⟩
    rw [e]
    refine ⟨s.kernel_setKernel_self n k.recorded, rfl, rfl, ?_, hlow, hvar, fun hf => ?_, rfl⟩
    · change memRange (memPutRange s.host.mem _ _) _ 64 = natBytes 8 _ ++ (memRange (memPutRange s.host.mem _ _) _ 64).drop 8
      rw [hmem, hrec, List.flatMap_cons, List.drop_left' (length_natBytes ..)]
    · refine hmem.trans ?_
      rw [Kernel.record_of_first_none hf]
      simp only [List.flatMap_cons, List.flatMap_nil, List.append_nil, List.append_assoc]
  · obtain ⟨hkernel, hhost, hctx⟩ := State.endKernel_parts (s := s) (n := n) (k := k) (fun _ => hres) hl hrc hrk
    refine ⟨_, execKernelComplete_ends hk hy, hkernel, hhost, fun hd => ?_⟩
    rw [hctx, Context.afterKernel, if_neg hd, show k.ending.getD 1 = 4 from h4, if_neg (by decide), if_pos rfl, hres]
    exact ⟨rfl, rfl⟩
  · obtain ⟨hkernel, hhost, hctx⟩ := State.endKernel_parts (s := s) (n := n) (k := k) (fun h => absurd h h4) hl hrc hrk
    refine ⟨_, execKernelComplete_ends hk hy, hkernel, hhost, ?_⟩
    rw [hctx, Context.afterKernel]
    split
    · next hd => exact ⟨rfl, hd⟩
    · split
      · exact ⟨rfl, rfl⟩
      · exact ⟨rfl, rfl⟩
  · obtain ⟨k', hkernel, hclosed, hholds, htend, htcyc⟩ := State.kernel_closeKernel hk
    refine ⟨_, k', execKernelComplete_closes hk hy hc, hkernel, hclosed, hholds, htend, htcyc, ?_⟩
    obtain ⟨rows, e⟩ := State.closeKernel_todo (s := s) (n := n) (k := k)
    rw [e, List.getLast?_append, List.getLast?_cons]
    cases s.todo.getLast? <;> rfl

end Sys2Proof.Machine
end

section
/-!
SUPPORT. The launches that a context takes (R316 to R318, R356).
-/

namespace Sys2Proof.Machine

/-! ### Launches -/

/-- A launch that fails the loader's checks: its record, and the next launch looked at (R318, R328). -/
def State.loadFailed (u : State) (c : Nat) (l : Launch) (rest : List Launch) (f : Nat × Nat) : State :=
  let v := (u.setCtx c { u.ctx c with launches := rest }).launchFailed c l f.1 f.2
  if rest = [] then v else v.loaderSoon .kernelLoad c

/-- The tables of a gang's other members taken (R356). -/
def State.tablesUsed (u : State) (x : Context) : State :=
  if bitOf (x.descWord 8) 43 then u.setDie x.die0 { u.die x.die0 with peers := [] } else u

/-- A launch that passes them: the kernel is loaded, and waits to be bound (R316, R318). -/
def State.loadTaken (u : State) (c : Nat) (x : Context) (l : Launch) (rest : List Launch) (img : List Byte) (peers : Map (List (List Word))) : State :=
  let v := if l.tabled then u else u.sendTable c (imageInfo img l.image).links
  ((v.tablesUsed x).updCtx c fun y => { y with launches := rest, loaded := some (loadedKernel c y l img peers) }).loaderSoon .kernelBind c

section
variable {s : State} {l : Launch} {rest : List Launch} (hl : (s.ctx s.ev.x).launches = l :: rest) (hn : (s.ctx s.ev.x).loaded = none)
  (hst : (s.ctx s.ev.x).st = .loaded) (hk : s.hasKernel s.ev.x = false)
include hl hn hst hk

theorem execKernelLoad_unread {u : State} (hr : s.readImage s.ev.x l.image = (u, none)) : exec .kernelLoad s = .next (u.loadFailed s.ev.x l rest (1, 0)) := by
  rw [exec_kernelLoad, execKernelLoad]
  simp only [hl, hn, hst, hk, hr]
  cases rest <;> rfl

variable {u : State} {img : List Byte} {dir : List DirEntry} (hr : s.readImage s.ev.x l.image = (u, some (img, dir)))
include hr

theorem execKernelLoad_faulty {f : Nat × Nat} {peers : Map (List (List Word))} (ht : s.peerTables s.ev.x = some peers)
    (hf : u.imageFault s.ev.x img dir (some peers) = some f) : exec .kernelLoad s = .next ((u.tablesUsed (s.ctx s.ev.x)).loadFailed s.ev.x l rest f) := by
  rw [exec_kernelLoad, execKernelLoad]
  simp only [hl, hn, hst, hk, hr, ht, hf]
  cases rest <;> rfl

theorem execKernelLoad_early {f : Nat × Nat} (ht : s.peerTables s.ev.x = none) (hf : u.imageFault s.ev.x img dir none = some f) (h9 : f.1 = 6 → f.2 < 9) :
    exec .kernelLoad s = .next (u.loadFailed s.ev.x l rest f) := by
  obtain ⟨a, b⟩ := f
  rw [exec_kernelLoad, execKernelLoad]
  simp only [hl, hn, hst, hk, hr, ht, hf]
  rw [if_neg (by decide)]
  refine congrArg Host.Outcome.next ?_
  split
  · next e => cases e
  · next d e _ =>
    cases e
    rw [if_pos (h9 rfl)]
    cases rest <;> rfl
  · next r _ e _ =>
    cases e
    cases rest <;> rfl
  · next e _ => cases e
  · next e _ => cases e

theorem execKernelLoad_waits (ht : s.peerTables s.ev.x = none)
    (hf : u.imageFault s.ev.x img dir none = none ∨ ∃ d, 9 ≤ d ∧ u.imageFault s.ev.x img dir none = some (6, d)) :
    exec .kernelLoad s = .next (u.awaitTables s.ev.x l rest (imageInfo img l.image).links) := by
  rw [exec_kernelLoad, execKernelLoad]
  rcases hf with hf | ⟨d, h9, hf⟩
  · simp only [hl, hn, hst, hk, hr, ht, hf]
    rfl
  · simp only [hl, hn, hst, hk, hr, ht, hf, if_neg (not_lt.mpr h9)]
    rfl

theorem execKernelLoad_taken {peers : Map (List (List Word))} (ht : s.peerTables s.ev.x = some peers) (hf : u.imageFault s.ev.x img dir (some peers) = none) :
    exec .kernelLoad s = .next (u.loadTaken s.ev.x (s.ctx s.ev.x) l rest img peers) := by
  rw [exec_kernelLoad, execKernelLoad]
  simp only [hl, hn, hst, hk, hr, ht, hf]
  rfl
end

/-! ### What the loader's operations leave -/

section
variable {s : State} {c : Nat}

theorem State.sendTable_eq (s : State) (c : Nat) (links : List (List Word)) : s.sendTable c links =
    if bitOf ((s.ctx c).descWord 8) 43 then s.sendReserved (s.ctx c).die0 (.table (s.ctx c).gang (s.ctx c).gangRank links) else s := rfl

theorem Context.gang_eq (x : Context) : x.gang = x.descWord 8 % 2 ^ 16 := by simp [gang, field]

theorem Context.gangRank_eq {x : Context} (h : bitOf (x.descWord 8) 43 = true) : x.gangRank = x.descWord 8 / 2 ^ 16 % 2 ^ 13 := by simp [gangRank, h, field]

theorem State.peerTables_isSome (h : bitOf ((s.ctx c).descWord 8) 43 = false) : (s.peerTables c).isSome = true := by
  have hsize : (s.ctx c).gangSize = 1 := if_neg (by simp [h])
  have hrank : (s.ctx c).gangRank = 0 := if_neg (by simp [h])
  unfold peerTables
  dsimp only
  rw [hsize, hrank]
  rfl

theorem State.link_updLink_self {n : Nat} {f : Link → Link} (h : RisingMap s.links) : (s.updLink n f).link n = f (s.link n) := mapGet_mapSet_self _ _ _ _ h

/-- A flit sent on the reserved channels joins those that were sent (log 81). -/
theorem State.sendReserved_reserved {d : Nat} {x : PeerFlit} (h : RisingMap s.links) :
    ((s.sendReserved d x).link (4 * d)).reserved = (s.link (4 * d)).reserved ++ [(s.ltime, x)] := by
  rw [sendReserved, link_updLink_self h]

theorem State.Calm.ltime_eq {t : State} (h : s.Calm t) : t.ltime = s.ltime := by
  obtain ⟨hw, hl, -⟩ := h
  rw [ltime, ltime, hw, hl]

theorem Context.Held.desc_eq {x y : Context} (h : x.Held y) : y.desc = x.desc := by rw [h.1]

theorem State.mem_loaderSoon {i : Instr} : ∃ w, s.wall < w ∧ (w, { i := i, arg := { x := c } }) ∈ (s.loaderSoon i c).agenda :=
  ⟨_, Nat.lt_succ_of_le (Nat.le_add_right ..), mem_at⟩

/-- A load that waits for its peers' tables (R356). -/
theorem State.awaitTables_parts {u : State} {l : Launch} {rest : List Launch} {links : List (List Word)} (hr : RisingMap u.ctxs) (hk : RisingMap u.links)
    (hl : (u.ctx c).launches = l :: rest) (hgang : bitOf ((u.ctx c).descWord 8) 43 = true) : let v := u.awaitTables c l rest links
    (v.ctx c).launches = { l with tabled := true } :: rest ∧ (∃ w, u.wall < w ∧ (w, { i := .kernelLoad, arg := { x := c } }) ∈ v.agenda) ∧ v.host = u.host ∧ v.tiles = u.tiles ∧
      (v.link (4 * (u.ctx c).die0)).reserved = (u.link (4 * (u.ctx c).die0)).reserved ++
        if l.tabled then [] else [(u.ltime, .table ((u.ctx c).descWord 8 % 2 ^ 16) ((u.ctx c).descWord 8 / 2 ^ 16 % 2 ^ 13) links)] := by
  intro v
  cases ht : l.tabled with
  | true =>
    have hv : v = u.loaderSoon .kernelLoad c := by simp [v, awaitTables, ht]
    have hl' : l = { l with tabled := true } := by rw [← ht]
    rw [hv]
    refine ⟨by rw [← hl']; exact hl, mem_loaderSoon, rfl, rfl, (List.append_nil _).symm⟩
  | false =>
    have hv : v = ((u.sendReserved (u.ctx c).die0 (.table (u.ctx c).gang (u.ctx c).gangRank links)).updCtx c fun x =>
        { x with launches := { l with tabled := true } :: rest }).loaderSoon .kernelLoad c := by
      simp [v, awaitTables, ht, sendTable_eq, hgang]
    rw [hv]
    refine ⟨?_, mem_loaderSoon, rfl, rfl, ?_⟩
    · exact congrArg Context.launches (ctx_setCtx_self _ c _ hr)
    · rw [← Context.gang_eq, ← Context.gangRank_eq hgang]
      exact sendReserved_reserved hk

/-- The link table sent and those of the others taken leave all but links and dies alone. -/
theorem State.tablesUsed_sent_eq (u : State) (c : Nat) (x : Context) (tabled : Bool) (links : List (List Word)) : ∃ ls ds,
    (if tabled then u else u.sendTable c links).tablesUsed x = { u with links := ls, dies := ds } := by
  obtain ⟨ls, e⟩ : ∃ ls, (if tabled then u else u.sendTable c links) = { u with links := ls } := by
    rw [sendTable_eq]
    split
    · exact ⟨_, rfl⟩
    · split
      · exact ⟨_, rfl⟩
      · exact ⟨_, rfl⟩
  rw [e, tablesUsed]
  split
  · exact ⟨_, _, rfl⟩
  · exact ⟨_, _, rfl⟩

/-- A kernel that is loaded waits to be bound (R316). -/
theorem State.loadTaken_parts {u : State} {x : Context} {l : Launch} {rest : List Launch} {img : List Byte} {peers : Map (List (List Word))} (hr : RisingMap u.ctxs) :
    let v := u.loadTaken c x l rest img peers
    v.ctx c = { u.ctx c with launches := rest, loaded := some (loadedKernel c (u.ctx c) l img peers) } ∧
      (∃ w, (w, { i := .kernelBind, arg := { x := c } }) ∈ v.agenda) ∧ v.host = u.host ∧ v.tiles = u.tiles := by
  intro v
  obtain ⟨ls, ds, e⟩ := u.tablesUsed_sent_eq c x l.tabled (imageInfo img l.image).links
  obtain ⟨w, -, hw⟩ := mem_loaderSoon (s := ((if l.tabled then u else u.sendTable c (imageInfo img l.image).links).tablesUsed x).updCtx c fun y =>
    { y with launches := rest, loaded := some (loadedKernel c y l img peers) }) (c := c) (i := .kernelBind)
  refine ⟨?_, ⟨w, hw⟩, ?_⟩
  · unfold v loadTaken
    dsimp only
    rw [e]
    exact ctx_setCtx_self _ c _ hr
  · unfold v loadTaken
    dsimp only
    rw [e]
    exact ⟨rfl, rfl⟩

theorem loadedKernel_of_desc {x y : Context} {l : Launch} {img : List Byte} {peers : Map (List (List Word))} (h : y.desc = x.desc) :
    loadedKernel c y l img peers = loadedKernel c x l img peers := by
  simp only [loadedKernel, Context.die0, Context.shape, Context.descWord, h]
end

/-! ### The loader's first checks -/

section
variable {s : State} {c : Nat} {img : List Byte} {dir : List DirEntry} {peers : Option (Map (List (List Word)))}

theorem State.imageFault_header (h : headerOk img dir = false) : s.imageFault c img dir peers = some (1, 0) := by simp [imageFault, h]

variable (h : headerOk img dir = true)
include h

theorem State.imageFault_size (h8 : le img 8 16 / 2 ^ 12 ≠ 0) : s.imageFault c img dir peers = some (2, 0) := by
  rw [imageFault, h]
  exact if_pos h8

variable (h8 : le img 8 16 / 2 ^ 12 = 0)
include h8

theorem State.imageFault_shape (hs : 4 ≤ le img 7 1 ∨ le img 7 1 ≠ (s.ctx c).shape) : s.imageFault c img dir peers = some (3, 0) := by
  rw [imageFault, h]
  exact (if_neg (not_not.mpr h8)).trans (if_pos hs)

variable (hs4 : le img 7 1 < 4) (hs : le img 7 1 = (s.ctx c).shape)
include hs4 hs

theorem State.imageFault_privileged (hp : bitOf (le img 6 1) 1 = true) (hc : c ≠ 0) : s.imageFault c img dir peers = some (4, 0) := by
  rw [imageFault, h]
  exact (if_neg (not_not.mpr h8)).trans ((if_neg (not_or.mpr ⟨not_le.mpr hs4, not_not.mpr hs⟩)).trans (if_pos ⟨hp, hc⟩))

variable (hp : bitOf (le img 6 1) 1 = true → c = 0) (h0 : bitOf (le img 6 1) 0 = false)
include hp h0

theorem State.imageFault_revision (hv : le img 0x1C 2 ≠ 1) : s.imageFault c img dir peers = some (5, 0) := by
  rw [imageFault, h]
  exact (if_neg (not_not.mpr h8)).trans ((if_neg (not_or.mpr ⟨not_le.mpr hs4, not_not.mpr hs⟩)).trans
    ((if_neg fun ⟨h1, h2⟩ => h2 (hp h1)).trans (if_pos ⟨by rw [h0]; rfl, hv⟩)))

theorem State.imageFault_service (hv : le img 0x1C 2 = 1) (hf : le img 0x18 1 = 0 ∨ 32 < le img 0x18 1) : s.imageFault c img dir peers = some (6, 1) := by
  have hfields : fieldsFail img dir 1 = true := by simpa [fieldsFail] using hf
  have hcheck : s.scheduleCheck c img dir peers = some 1 := by
    unfold scheduleCheck
    dsimp only
    rw [show List.range 12 = 0 :: List.range' 1 11 from rfl, List.findSome?_cons, h0, hfields]
    rfl
  rw [imageFault, h, hcheck]
  exact (if_neg (not_not.mpr h8)).trans ((if_neg (not_or.mpr ⟨not_le.mpr hs4, not_not.mpr hs⟩)).trans
    ((if_neg fun ⟨h1, h2⟩ => h2 (hp h1)).trans (if_neg fun ⟨_, h2⟩ => h2 hv)))
end

/-! ### The record of an image that cannot be read -/

theorem State.readImage_unreadable {s : State} {c addr : Nat} {g : Grain} (hg : (s.ctx c).grain addr = some g) (hrd : g.rd = false) : s.readImage c addr = (s, none) := by
  have h : s.sysRead c 1 addr 0x1000 = (s, .error 4) := by
    unfold sysRead
    rw [hg]
    simp [hrd]
  unfold readImage
  rw [h]

/-- The record of a launch whose image cannot be read, in the host's memory (R318, R327, R328). -/
theorem State.loadFailed_record {s : State} {c : Nat} {l : Launch} (hr : RisingMap s.ctxs) {g : Grain} (hg : (s.ctx c).grain l.recAt = some g) (hkind : g.kind = 0)
    (hwr : g.wr = true) (hcov : g.covers l.recAt 64 = true) (hat : l.recAt % 64 = 0) (hwake : l.wake = false) : let u := s.loadFailed c l [] (1, 0)
    (u.ctx c).launches = [] ∧ (u.ctx c).loaded = (s.ctx c).loaded ∧
      memRange u.host.mem (g.offset l.recAt) 64 = natBytes 8 6 ++ natBytes 8 (2 ^ 32) ++ List.replicate 48 0 := by
  intro u
  have hctx : (s.setCtx c { s.ctx c with launches := [] }).ctx c = { s.ctx c with launches := [] } := s.ctx_setCtx_self c _ hr
  have hg' : ((s.setCtx c { s.ctx c with launches := [] }).ctx c).grain l.recAt = some g := by rw [hctx]; exact hg
  obtain ⟨ts, bi, e⟩ := kernelRecord_host (ws := [6, 1 % 256 * 2 ^ 32 + 0 % 256 * 2 ^ 40, 0, 0, 0, 0, 0, 0]) hg' hkind hwr rfl hcov hat hwake
  have hu : u = (s.setCtx c { s.ctx c with launches := [] }).kernelRecord c l [6, 1 % 256 * 2 ^ 32 + 0 % 256 * 2 ^ 40, 0, 0, 0, 0, 0, 0] := rfl
  have hlaunches := congrArg Context.launches hctx
  have hloaded := congrArg Context.loaded hctx
  rw [hu, e]
  refine ⟨hlaunches, hloaded, ?_⟩
  exact memRange_memPutRange _ _ ([6, 1 % 256 * 2 ^ 32 + 0 % 256 * 2 ^ 40, 0, 0, 0, 0, 0, 0].flatMap (natBytes 8))

theorem loading : Sys2Proof.Claims.Loading := by
  intro s l rest c x gang hl hn hst hk hrc hrl
  refine ⟨?_, ?_, fun _ _ _ => State.imageFault_header, fun _ _ _ => State.imageFault_size, fun _ _ _ => State.imageFault_shape, fun img dir peers h h8 hs4 hs =>
    ⟨State.imageFault_privileged h h8 hs4 hs, fun hp h0 => ⟨State.imageFault_revision h h8 hs4 hs hp h0, State.imageFault_service h h8 hs4 hs hp h0⟩⟩⟩
  · intro r tables failed used
    have hcalm : s.Calm r.1 := State.calm_readImage
    obtain ⟨hwall, -, -, hlinks, -, hctxs⟩ := id hcalm
    have htables : gang = false → tables.isSome = true := State.peerTables_isSome
    refine ⟨htables, fun hnone => execKernelLoad_unread hl hn hst hk (Prod.ext rfl hnone), fun img dir himg => ?_⟩
    have hr : s.readImage c l.image = (r.1, some (img, dir)) := Prod.ext rfl himg
    refine ⟨fun f peers ht hf => ?_, fun f ht hf => ?_, fun ht hf => ?_, fun peers ht hf => ?_⟩
    · exact execKernelLoad_faulty hl hn hst hk hr ht (ht ▸ hf)
    · exact execKernelLoad_early hl hn hst hk hr ht (ht ▸ hf)
    · obtain ⟨hrc', hheld⟩ := hctxs hrc
      have hgang : gang = true := by
        rw [← Bool.not_eq_false]
        intro h
        exact absurd (htables h) (by rw [ht]; decide)
      have hx : r.1.ctx c = { x with st := (r.1.ctx c).st } := (hheld c).1
      have hword : (r.1.ctx c).descWord 8 = x.descWord 8 := by rw [hx]; rfl
      have hdie : (r.1.ctx c).die0 = x.die0 := by rw [hx]; rfl
      obtain ⟨h1, ⟨w, hw, hmem⟩, h2, h3, h4⟩ := State.awaitTables_parts (c := c) (links := (imageInfo img l.image).links) hrc' (hlinks ▸ hrl)
        (show (r.1.ctx c).launches = l :: rest by rw [hx]; exact hl) (hword ▸ hgang)
      rw [hword, hdie, hcalm.ltime_eq] at h4
      exact ⟨_, w, execKernelLoad_waits hl hn hst hk hr ht (ht ▸ hf), h1, hwall ▸ hw, hmem, h2, h3, h4⟩
    · obtain ⟨hrc', hheld⟩ := hctxs hrc
      obtain ⟨h1, h2, h3, h4⟩ := State.loadTaken_parts (c := c) (x := x) (l := l) (rest := rest) (img := img) (peers := peers) hrc'
      rw [loadedKernel_of_desc (hheld c).desc_eq] at h1
      exact ⟨_, execKernelLoad_taken hl hn hst hk hr ht (ht ▸ hf), h1, h2, h3, h4⟩
  · intro g hg hrd hat haddr hrest h hh hkind hwr hcov hwake hwf
    subst hrest
    obtain ⟨h1, h2, h3⟩ := State.loadFailed_record (c := c) (l := l) hrc hh hkind hwr hcov hat hwake
    exact ⟨_, execKernelLoad_unread hl hn hst hk (State.readImage_unreadable hg hrd), h1, h2.trans hn, h3⟩

end Sys2Proof.Machine
end

section
/-!
SUPPORT. Binding, installing and the start of the timetable (R316, R319, R345, R346), and with it the life of a kernel.
-/

namespace Sys2Proof.Machine

/-! ### Binding -/

/-- `t` is `s` with other tiles, of which the flow and the registers are as they were, and all is that are not among some. -/
def State.Placed (ids : List TileId) (s t : State) : Prop := s.Tiled t ∧ (RisingMap s.tiles → RisingMap t.tiles ∧
  (∀ i, (t.tile i).flow = (s.tile i).flow ∧ (t.tile i).regs = (s.tile i).regs) ∧ ∀ i, i ∉ ids → t.tile i = s.tile i)

section
variable {ids : List TileId}

theorem State.Placed.refl {s : State} : s.Placed ids s := ⟨⟨_, rfl⟩, fun h => ⟨h, fun _ => ⟨rfl, rfl⟩, fun _ _ => rfl⟩⟩

theorem State.Placed.trans {s t u : State} (h : s.Placed ids t) (h' : t.Placed ids u) : s.Placed ids u := by
  obtain ⟨⟨ts, rfl⟩, h⟩ := h
  obtain ⟨⟨us, rfl⟩, h'⟩ := h'
  refine ⟨⟨us, rfl⟩, fun hr => ?_⟩
  obtain ⟨hts, hkeep, hout⟩ := h hr
  obtain ⟨hus, hkeep', hout'⟩ := h' hts
  exact ⟨hus, fun i => ⟨(hkeep' i).1.trans (hkeep i).1, (hkeep' i).2.trans (hkeep i).2⟩, fun i hi => (hout' i hi).trans (hout i hi)⟩

theorem State.placed_foldl {α : Type} {f : State → α → State} {l : List α} (h : ∀ (s : State), ∀ x ∈ l, s.Placed ids (f s x)) (s : State) : s.Placed ids (l.foldl f s) := by
  induction l generalizing s with
  | nil => exact .refl
  | cons x r ih => exact (h s x List.mem_cons_self).trans (ih (fun s y hy => h s y (List.mem_cons_of_mem _ hy)) _)

theorem State.placed_updVault {s : State} {i : TileId} {f : Vault → Vault} (hi : i ∈ ids) : s.Placed ids (s.updTile i fun t => t.updVault f) := by
  refine ⟨tiled_updTile, fun hr => ⟨mapSet_rising _ _ _ _ hr, fun j => ?_, fun j hj => tile_updTile_ne s _ fun e => hj (e ▸ hi)⟩⟩
  by_cases e : j = i
  · rw [e, tile_updTile_self s i _ hr]
    exact ⟨rfl, rfl⟩
  · rw [tile_updTile_ne s _ e]
    exact ⟨rfl, rfl⟩

/-- The segments placed in a tile's service banks (R319). -/
theorem State.placed_placeSegments {s : State} {k : Kernel} {i : TileId} {t : Tile} (hi : i ∈ ids) : s.Placed ids (s.placeSegments k i t) :=
  placed_foldl (fun _ _ _ => placed_foldl (fun _ _ _ => placed_updVault hi) _) s

/-- A loaded kernel as its context's partition takes it (R316). -/
def Kernel.bound (k : Kernel) (die0 : Nat) : Kernel := { k with die0 := die0, st := .bound, img := k.img.movedTo k.die0 die0 }

/-- The segments of all tiles of a kernel placed. -/
def State.segmentsPlaced (s : State) (k : Kernel) : State := k.tileImages.foldl (fun s e => s.placeSegments k e.1 { imem := e.2.imem }) s

theorem State.placed_segmentsPlaced {s : State} {k : Kernel} : s.Placed k.tiles (s.segmentsPlaced k) :=
  placed_foldl (fun _ e he => placed_placeSegments (List.of_mem_zip (a := e.1) (b := e.2) he).1) s

theorem State.bind_of_empty {s : State} {c : Nat} {k : Kernel} (h : objectList k.image = []) : s.bind c k =
    (((s.segmentsPlaced (k.bound (s.ctx c).die0)).setKernel (s.ctx c).die0 (k.bound (s.ctx c).die0)).updCtx c
      fun x => { x with loaded := none }).loaderSoon .kernelBind c := by
  unfold bind
  rw [h]
  rfl

theorem State.bind_refused {s : State} {c : Nat} {k : Kernel} (h : (s.ctx c).canInstall (objectList k.image) = false) :
    s.bind c k = (s.launchFailed c k.launch 7 0).launchOver c := by
  unfold bind
  dsimp only
  rw [h]
  rfl
end

section
variable {s : State} {k : Kernel} (hb : s.boundOf s.ev.x = none) (hl : (s.ctx s.ev.x).loaded = some k) (hst : (s.ctx s.ev.x).st = .loaded)
  (hk : s.hasKernel s.ev.x = false)
include hb hl hst hk

theorem execKernelBind_waits (h : ∀ d ∈ (s.ctx s.ev.x).die0 :: (s.ctx s.ev.x).places, s.partitionIdle d (s.ctx s.ev.x).shape = false) :
    exec .kernelBind s = .next s := by
  have hnone : (s.ctx s.ev.x).homes.find? (fun d => s.partitionIdle d (s.ctx s.ev.x).shape) = none := by
    refine List.find?_eq_none.mpr fun d hd => ?_
    rw [h d]
    · decide
    · rcases List.mem_cons.mp hd with e | hd
      · exact e ▸ List.mem_cons_self
      · exact List.mem_cons_of_mem _ (List.mem_of_mem_filter hd)
  rw [exec_kernelBind, execKernelBind]
  simp only [hb, hl, hst, hk, hnone]
  rfl

theorem execKernelBind_binds (h : s.partitionIdle (s.ctx s.ev.x).die0 (s.ctx s.ev.x).shape = true) :
    exec .kernelBind s = .next ((s.setCtx s.ev.x (s.ctx s.ev.x)).bind s.ev.x k) := by
  have hsome : (s.ctx s.ev.x).homes.find? (fun d => s.partitionIdle d (s.ctx s.ev.x).shape) = some (s.ctx s.ev.x).die0 := List.find?_cons_of_pos h
  rw [exec_kernelBind, execKernelBind]
  simp only [hb, hl, hst, hk, hsome]
  rfl
end

/-! ### Installing -/

/-- `t` is `s` with other dies, links and free values. -/
def State.Cleared (s t : State) : Prop := ∃ ds ls fr, t = { s with dies := ds, links := ls, free := fr }

theorem State.Cleared.refl {s : State} : s.Cleared s := ⟨_, _, _, rfl⟩

theorem State.Cleared.trans {s t u : State} (h : s.Cleared t) (h' : t.Cleared u) : s.Cleared u := by
  obtain ⟨_, _, _, rfl⟩ := h
  obtain ⟨_, _, _, rfl⟩ := h'
  exact ⟨_, _, _, rfl⟩

theorem State.cleared_foldl {α : Type} {f : State → α → State} (h : ∀ (s : State) x, s.Cleared (f s x)) (l : List α) (s : State) : s.Cleared (l.foldl f s) := by
  induction l generalizing s with
  | nil => exact .refl
  | cons x r ih => exact (h s x).trans (ih _)

section
variable {s : State}

theorem State.cleared_updDie {d : Nat} {f : Die → Die} : s.Cleared (s.updDie d f) := ⟨_, _, _, rfl⟩

theorem State.cleared_updLink {l : Nat} {f : Link → Link} : s.Cleared (s.updLink l f) := ⟨_, _, _, rfl⟩

theorem State.cleared_clearDies {die0 shape : Nat} : s.Cleared (s.clearDies die0 shape) :=
  (Cleared.trans (t := s.tickFree) ⟨_, _, _, rfl⟩ (cleared_foldl (fun _ _ => cleared_updDie) _ _)).trans (cleared_foldl (fun _ _ => cleared_updLink) _ _)

theorem State.cleared_padLinks {die0 shape rank : Nat} {img : ImageInfo} {tables : Map (List (List Word))} : s.Cleared (s.padLinks die0 shape rank img tables) :=
  cleared_foldl (fun _ _ => cleared_updLink) _ _

/-- The dies of a partition as a launch begins: cleared, and the image's cistern words written (R319). -/
def State.diesBegun (s : State) (k : Kernel) : State :=
  (cisternList k.image).foldl (fun s e => match e with
    | some (a, d, v) => s.setCword (k.die0 + d) a v
    | none => s) (s.clearDies k.die0 k.shape)

theorem State.cleared_diesBegun {k : Kernel} : s.Cleared (s.diesBegun k) :=
  cleared_clearDies.trans (cleared_foldl (fun _ e => by
    split
    · exact cleared_updDie
    · exact .refl) _ _)

/-- The tiles that a launch makes, with their pins (R319, R320). -/
def State.tilesBegun (s : State) (c die0 : Nat) (l : List ((TileId × TileImage) × Map OhEntry)) : State :=
  l.foldl (fun s e => s.setTile e.1.1 (e.1.2.tile (s.tile e.1.1) ((s.ctx c).membership s.pkg die0 e.1.1) e.2 (vparams false 0).tREFB s.wall)) s

/-- A kernel that is launched (R316). -/
def Kernel.launched (k : Kernel) (begun : Map Nat) : Kernel := { k with st := .launched, image := [], begun := begun }

/-- A launched kernel whose context runs it, and whose start is dated (R316, R319). -/
def State.launchDated (s : State) (c n : Nat) (k : Kernel) : State :=
  ((s.setKernel n k).updCtx c fun x => { x with st := .running }).loaderSoon .timetableStart n

theorem State.launchDated_parts {c n : Nat} {k : Kernel} (hc : RisingMap s.ctxs) : (s.launchDated c n k).kernel? n = some k ∧ ((s.launchDated c n k).ctx c).st = .running ∧
    ∃ w, (w, { i := .timetableStart, arg := { x := n } }) ∈ (s.launchDated c n k).agenda := by
  obtain ⟨w, -, hw⟩ := mem_loaderSoon (s := (s.setKernel n k).updCtx c fun x => { x with st := .running }) (i := .timetableStart) (c := n)
  exact ⟨s.kernel_setKernel_self n k, congrArg Context.st ((s.setKernel n k).ctx_setCtx_self c { s.ctx c with st := .running } hc), ⟨w, hw⟩⟩

/-- The rest of a launch whose pins stand (R319). -/
def State.launched (s : State) (c n : Nat) (k : Kernel) (pins : List (Map OhEntry)) : State :=
  let t := (s.diesBegun k).tilesBegun c k.die0 (k.tileImages.zip pins)
  (t.padLinks k.die0 k.shape (t.ctx c).gangRank k.img k.peers).launchDated c n (k.launched (t.ctx c).begun)

theorem State.install_eq (c n : Nat) (k : Kernel) : s.install c n k = match badPin (s.allPins c k.tileImages).2 with
    | some p => (((s.allPins c k.tileImages).1.launchFailed c k.launch 8 p).leavePartition n).launchOver c
    | none => (s.allPins c k.tileImages).1.launched c n k (s.allPins c k.tileImages).2 := rfl

theorem State.length_allPins (c : Nat) (l : List (TileId × TileImage)) (s : State) : (s.allPins c l).2.length = l.length := by
  induction l generalizing s with
  | nil => rfl
  | cons x r ih => exact congrArg Nat.succ (ih _)

/-- What a fold writes to tiles, each once: by what it makes of one tile, and no other tile changed. -/
theorem State.tile_foldl_setTile {α : Type} {id : α → TileId} {g : State → α → Tile} {P : Tile → Tile → Prop} (h : ∀ s x, P (s.tile (id x)) (g s x)) (l : List α)
    (s : State) (hr : RisingMap s.tiles) (hn : (l.map id).Nodup) : let u := l.foldl (fun s x => s.setTile (id x) (g s x)) s
    (∀ t ∈ l.map id, P (s.tile t) (u.tile t)) ∧ ∀ t, t ∉ l.map id → u.tile t = s.tile t := by
  induction l generalizing s with
  | nil => exact ⟨fun _ h => absurd h List.not_mem_nil, fun _ _ => rfl⟩
  | cons x r ih =>
    rw [List.map_cons, List.nodup_cons] at hn
    obtain ⟨hin, hout⟩ := ih (s.setTile (id x) (g s x)) (mapSet_rising _ _ _ _ hr) hn.2
    refine ⟨fun t ht => ?_, fun t ht => ?_⟩
    · by_cases e : t = id x
      · subst e
        have heq := (hout (id x) hn.1).trans (s.tile_setTile_self (id x) (g s x) hr)
        rw [List.foldl_cons, heq]
        exact h s x
      · have hstep := hin t ((List.mem_cons.mp ht).resolve_left e)
        rwa [s.tile_setTile_ne _ e] at hstep
    · rw [List.map_cons, List.mem_cons, not_or] at ht
      exact (hout t ht.2).trans (s.tile_setTile_ne _ ht.1)

/-- What a launch makes of a tile, by the tile before (R319, R320). -/
def Tile.Begun (x y : Tile) : Prop :=
  y.flow.st = .ready ∧ y.flow.pc = {} ∧ y.flow.loops = [] ∧ y.flight = [] ∧ y.matrix = {} ∧ y.sync = {} ∧ y.perf = {} ∧ y.vault.streams = [] ∧
    y.vault.pages = x.vault.pages ∧ ∀ b < 128, (y.vault.bank b).st = .idle ∧ (y.vault.bank b).deadline = (vparams false 0).tREFB

theorem Vault.bank_launched {v : Vault} {deadline wall b : Nat} (h : b < 128) : (v.launched deadline wall).bank b = { deadline := deadline } := by
  have hrising : RisingMap ((List.range 128).map fun b => (b, ({ deadline := deadline } : Bank))) :=
    List.pairwise_map.mpr List.pairwise_lt_range
  exact mapGet_of_mem_rising hrising (List.mem_map.mpr ⟨b, List.mem_range.mpr h, rfl⟩)

theorem TileImage.begun_tile {x : TileImage} {old : Tile} {mbr : Map Word} {oh : Map OhEntry} {wall : Nat} : old.Begun (x.tile old mbr oh (vparams false 0).tREFB wall) := by
  generalize hd : (vparams false 0).tREFB = deadline
  have hbank : ∀ b < 128, ((x.tile old mbr oh deadline wall).vault.bank b).st = .idle ∧ ((x.tile old mbr oh deadline wall).vault.bank b).deadline = deadline := by
    intro b hlt
    have h : (x.tile old mbr oh deadline wall).vault.bank b = { deadline := deadline } := Vault.bank_launched hlt
    rw [h]
    exact ⟨rfl, rfl⟩
  unfold Tile.Begun
  rw [hd]
  exact ⟨rfl, rfl, rfl, rfl, rfl, rfl, rfl, rfl, rfl, hbank⟩

theorem State.tiled_tilesBegun {c die0 : Nat} {l : List ((TileId × TileImage) × Map OhEntry)} : s.Tiled (s.tilesBegun c die0 l) :=
  tiled_foldl (fun _ _ => ⟨_, rfl⟩) _ _

theorem State.tilesBegun_begun {c die0 : Nat} {l : List ((TileId × TileImage) × Map OhEntry)} (hr : RisingMap s.tiles) (hn : (l.map fun e => e.1.1).Nodup) :
    ∀ t ∈ l.map fun e => e.1.1, (s.tile t).Begun ((s.tilesBegun c die0 l).tile t) :=
  (tile_foldl_setTile (P := Tile.Begun) (id := fun e => e.1.1) (fun _ _ => TileImage.begun_tile) l s hr hn).1

/-- A launch whose pins stand: the kernel, its context and its tiles (R316, R319, R320). -/
theorem State.launched_parts {c n : Nat} {k : Kernel} {pins : List (Map OhEntry)} (hd : (imageDir k.image).length = k.tiles.length) (hp : pins.length = k.tileImages.length)
    (hn : k.tiles.Nodup) (hr : RisingMap s.tiles) (hc : RisingMap s.ctxs) : let u := s.launched c n k pins
    u.kernel? n = some (k.launched (s.ctx c).begun) ∧ (u.ctx c).st = .running ∧ (∃ w, (w, { i := .timetableStart, arg := { x := n } }) ∈ u.agenda) ∧
      ∀ t ∈ k.tiles, (s.tile t).Begun (u.tile t) := by
  have hfst : (k.tileImages.zip pins).map (fun e => e.1.1) = k.tiles := by
    rw [show (k.tileImages.zip pins).map (fun e => e.1.1) = ((k.tileImages.zip pins).map Prod.fst).map Prod.fst from List.map_map.symm, List.map_fst_zip hp.ge, Kernel.tileImages, tileImages,
      List.map_fst_zip (by rw [List.length_map]; exact hd.ge)]
    rfl
  have hbegun := tilesBegun_begun (s := s.diesBegun k) (c := c) (die0 := k.die0) (l := k.tileImages.zip pins)
  rw [hfst] at hbegun
  intro u
  obtain ⟨ds, ls, fr, e⟩ := cleared_diesBegun (s := s) (k := k)
  rw [e] at hbegun
  have hbegun := hbegun hr hn
  obtain ⟨ts, e1⟩ := tiled_tilesBegun (s := { s with dies := ds, links := ls, free := fr }) (c := c) (die0 := k.die0) (l := k.tileImages.zip pins)
  rw [e1] at hbegun
  obtain ⟨ds', ls', fr', e2⟩ := cleared_padLinks (s := { s with dies := ds, links := ls, free := fr, tiles := ts }) (die0 := k.die0) (shape := k.shape)
    (rank := (s.ctx c).gangRank) (img := k.img) (tables := k.peers)
  have hu : u = ({ s with dies := ds', links := ls', free := fr', tiles := ts } : State).launchDated c n (k.launched (s.ctx c).begun) := by
    unfold u launched
    rw [e, e1]
    exact congrArg (fun v : State => v.launchDated c n (k.launched (s.ctx c).begun)) e2
  obtain ⟨hkernel, hst, hdated⟩ := launchDated_parts (s := { s with dies := ds', links := ls', free := fr', tiles := ts }) (c := c) (n := n)
    (k := k.launched (s.ctx c).begun) hc
  rw [hu]
  exact ⟨hkernel, hst, hdated, hbegun⟩
end

/-! ### The start of the timetable -/

section
variable {s : State}

theorem State.dated_awaitAll {k : Kernel} : s.Dated (s.awaitAll k) := dated_foldl (fun _ _ => dated_foldl (fun _ _ => dated_at) _ _) _ _

/-- A kernel at the start of its timetable (R319). -/
def Kernel.begin (k : Kernel) (wall : Nat) : Kernel :=
  { k with st := .running, nextWall := wall, phase := 0, tstart := if k.restored then k.tstart else wall / 39 }

/-- A tile that is ready runs (R319). -/
def Tile.start (t : Tile) : Tile := if t.flow.st = .ready then { t with flow := { t.flow with st := .running } } else t

/-- The tiles of a kernel started at one cycle (R319). -/
def State.tilesStarted (s : State) (n : Nat) (k : Kernel) : State :=
  ((s.updTiles k.tiles Tile.start).setKernel n (k.begin s.wall)).awaitAll k

/-- The tiles started: nothing but tiles, the kernel and the agenda changed. -/
theorem State.tilesStarted_eq (s : State) (n : Nat) (k : Kernel) : ∃ ag fr, s.agenda ⊆ ag ∧
    s.tilesStarted n k = { (s.updTiles k.tiles Tile.start).setKernel n (k.begin s.wall) with agenda := ag, free := fr } := by
  obtain ⟨ag, fr, e, hag⟩ := dated_awaitAll (s := (s.updTiles k.tiles Tile.start).setKernel n (k.begin s.wall)) (k := k)
  rw [setKernel_agenda, updTiles_agenda] at hag
  exact ⟨ag, fr, hag, e⟩

theorem execTimetableStart_eq {k : Kernel} (hk : s.kernel? s.ev.x = some k) (hst : k.st = .launched) : exec .timetableStart s = .next (
    if (s.ctx k.ctx).aborted then
      (((s.tilesStarted s.ev.x k).updKernel s.ev.x fun k => k.endFaulted 4).updCtx k.ctx fun x => { x with aborted := false }).sendAbort k.ctx
    else ((s.tilesStarted s.ev.x k).sliceHold s.ev.x).timeCall s.ev.x) := by
  have hctx : (s.tilesStarted s.ev.x k).ctx k.ctx = s.ctx k.ctx := by
    obtain ⟨ag, fr, -, e⟩ := s.tilesStarted_eq s.ev.x k
    rw [e]
    exact congrArg (mapGet {} · k.ctx) State.updTiles_ctxs
  have hu : s.tilesStarted s.ev.x k = ((s.updTiles k.tiles Tile.start).setKernel s.ev.x (k.begin (s.updTiles k.tiles Tile.start).wall)).awaitAll k := by
    rw [State.updTiles_wall, State.tilesStarted]
  rw [exec_timetableStart, execTimetableStart, ← hctx, hu]
  simp only [hk, hst]
  rfl

theorem State.ctx_tilesStarted {n : Nat} {k : Kernel} (c : Nat) : (s.tilesStarted n k).ctx c = s.ctx c := by
  obtain ⟨ag, fr, -, e⟩ := s.tilesStarted_eq n k
  rw [e]
  exact congrArg (mapGet {} · c) updTiles_ctxs

theorem State.kernel_tilesStarted {n : Nat} {k : Kernel} : (s.tilesStarted n k).kernel? n = some (k.begin s.wall) := by
  obtain ⟨ag, fr, -, e⟩ := s.tilesStarted_eq n k
  rw [e]
  exact (s.updTiles k.tiles Tile.start).kernel_setKernel_self n _

/-- What the start of the tiles leaves alone of a state. -/
theorem State.tilesStarted_kept (s : State) (n : Nat) (k : Kernel) : let u := s.tilesStarted n k
    u.host = s.host ∧ u.dies = s.dies ∧ u.links = s.links ∧ u.ltime = s.ltime ∧ u.ctxs = s.ctxs ∧ u.tiles = (s.updTiles k.tiles Tile.start).tiles := by
  obtain ⟨ag, fr, -, e⟩ := s.tilesStarted_eq n k
  obtain ⟨ts, e'⟩ := s.updTiles_eq k.tiles Tile.start
  rw [e]
  refine ⟨updTiles_host, updTiles_dies, ?_, ?_, updTiles_ctxs, rfl⟩
  · rw [e']
    rfl
  · rw [e']
    rfl

theorem State.tile_updTiles {ts : List TileId} {f : Tile → Tile} (hr : RisingMap s.tiles) (hn : ts.Nodup) :
    (∀ t ∈ ts, (s.updTiles ts f).tile t = f (s.tile t)) ∧ ∀ t, t ∉ ts → (s.updTiles ts f).tile t = s.tile t := by
  have h := tile_foldl_setTile (P := fun x y => y = f x) (id := id) (g := fun s t => f (s.tile t)) (fun _ _ => rfl) ts s hr (by rwa [List.map_id])
  rwa [List.map_id] at h

theorem State.sliceHold_alone {n : Nat} {k : Kernel} (hk : s.kernel? n = some k) (h : bitOf ((s.ctx k.ctx).descWord 8) 43 = false) : s.sliceHold n = s := by
  unfold sliceHold
  rw [hk]
  dsimp only
  rw [h]
  rfl

theorem State.Timed.links_eq {t : State} (h : s.Timed t) : t.links = s.links := by
  obtain ⟨ag, fr, ks, rfl, -⟩ := h
  rfl

theorem State.Timed.mem {t : State} (h : s.Timed t) {e : Nat × Due} (he : e ∈ s.agenda) : e ∈ t.agenda := by
  obtain ⟨ag, fr, ks, rfl, hag⟩ := h
  exact hag he

theorem State.dateSlice_mem {n start : Nat} : ∃ w, (w, { i := .sliceStartTimeReached, arg := { x := n } }) ∈ (s.dateSlice n start).agenda :=
  ⟨_, dated_at.mem mem_at⟩

/-- A gang's member at the start: its entry flit sent, and its partition held until the slice may start (R345). -/
theorem State.sliceHold_gang {n : Nat} {k : Kernel} (hk : s.kernel? n = some k) (h : bitOf ((s.ctx k.ctx).descWord 8) 43 = true) (hst : k.st = .running)
    (hf : k.holdFrom = none) (hr : RisingMap s.links) : ∃ k' start, (s.sliceHold n).kernel? n = some k' ∧ k'.st = .held ∧ k'.holds = 1 :: k.holds ∧ k'.slice = some start ∧
      ((s.sliceHold n).link (4 * k.die0)).reserved = (s.link (4 * k.die0)).reserved ++
        [(s.ltime, .entry ((s.ctx k.ctx).descWord 8 % 2 ^ 16) ((s.ctx k.ctx).descWord 8 / 2 ^ 16 % 2 ^ 13))] ∧
      ∃ w, (w, { i := .sliceStartTimeReached, arg := { x := n } }) ∈ (s.sliceHold n).agenda := by
  obtain ⟨start, hstart⟩ : ∃ x, x = s.ltime + Config.freeNat s.free - Config.freeNat (s.free + 1) := ⟨_, rfl⟩
  obtain ⟨v, hv⟩ : ∃ v, v = ((s.setKernel n { k with slice := some start }).openHold n 1).tickFree.tickFree := ⟨_, rfl⟩
  have hslice : s.sliceHold n = (v.sendReserved k.die0 (.entry (s.ctx k.ctx).gang (s.ctx k.ctx).gangRank)).dateSlice n start := by
    unfold sliceHold
    rw [hk]
    dsimp only
    rw [h, ← hstart, hv]
    rfl
  obtain ⟨mask, w, st, hopen, hheld⟩ := kernel_openHold (s.kernel_setKernel_self n { k with slice := some start }) 1
  have hcalm : s.Calm v := hv ▸ calm_setKernel.trans (calm_openHold.trans (calm_tickFree.trans calm_tickFree))
  obtain ⟨-, -, -, hlinks, -, -⟩ := id hcalm
  have hsent := sendReserved_reserved (s := v) (d := k.die0) (x := .entry (s.ctx k.ctx).gang (s.ctx k.ctx).gangRank) (hlinks ▸ hr)
  rw [hcalm.ltime_eq, Context.gang_eq, Context.gangRank_eq h, show v.link (4 * k.die0) = s.link (4 * k.die0) by rw [link, hlinks, link]] at hsent
  rw [hslice]
  refine ⟨_, start, (congrArg (State.kernel? · n) hv).trans hopen, (hheld hf).trans (if_pos hst), rfl, rfl, ?_, dateSlice_mem⟩
  rw [Context.gang_eq, Context.gangRank_eq h]
  exact hsent

/-- A member whose slice was aborted before sends its abort flit (R346). -/
theorem State.sendAbort_reserved {c : Nat} (h : bitOf ((s.ctx c).descWord 8) 43 = true) (hr : RisingMap s.links) :
    ((s.sendAbort c).link (4 * (s.ctx c).die0)).reserved = (s.link (4 * (s.ctx c).die0)).reserved ++
      [(s.ltime, .abort ((s.ctx c).descWord 8 % 2 ^ 16) ((s.ctx c).descWord 8 / 2 ^ 16 % 2 ^ 13))] := by
  rw [sendAbort, if_pos h, sendReserved_reserved hr, Context.gang_eq, Context.gangRank_eq h]

theorem State.kernel_sendAbort {n c : Nat} : (s.sendAbort c).kernel? n = s.kernel? n := by
  unfold sendAbort
  dsimp only
  split
  · rfl
  · rfl
end

section
variable {s : State} {k : Kernel} (hk : s.kernel? s.ev.x = some k) (hst : k.st = .launched)
include hk hst

/-- A kernel of no gang starts (R319). -/
theorem timetableStart_alone (ha : (s.ctx k.ctx).aborted = false) (h : bitOf ((s.ctx k.ctx).descWord 8) 43 = false) (hr : RisingMap s.tiles) (hn : k.tiles.Nodup) :
    ∃ u calls, exec .timetableStart s = .next u ∧ u.kernel? s.ev.x = some { k.begin s.wall with callFrom := calls } ∧
      (∀ t ∈ k.tiles, u.tile t = (s.tile t).start) ∧ (∀ t, t ∉ k.tiles → u.tile t = s.tile t) ∧ u.host = s.host ∧ u.dies = s.dies := by
  have hexec := execTimetableStart_eq hk hst
  rw [ha, if_neg Bool.false_ne_true, State.sliceHold_alone State.kernel_tilesStarted (by rw [State.ctx_tilesStarted]; exact h)] at hexec
  obtain ⟨calls, hkernel, -⟩ := State.kernel_timeCall (State.kernel_tilesStarted (s := s) (n := s.ev.x) (k := k))
  obtain ⟨hhost, hdies, -, -, -, htiles⟩ := s.tilesStarted_kept s.ev.x k
  obtain ⟨ag, fr, ks, e, -⟩ := State.timed_timeCall (s := s.tilesStarted s.ev.x k) (n := s.ev.x)
  obtain ⟨hin, hout⟩ := State.tile_updTiles (f := Tile.start) hr hn
  have htile : ∀ t, ((s.tilesStarted s.ev.x k).timeCall s.ev.x).tile t = (s.updTiles k.tiles Tile.start).tile t := by
    intro t
    rw [e]
    exact congrArg (mapGet {} · t) htiles
  refine ⟨_, calls, hexec, hkernel, fun t ht => (htile t).trans (hin t ht), fun t ht => (htile t).trans (hout t ht), ?_, ?_⟩
  · rw [e]
    exact hhost
  · rw [e]
    exact hdies

/-- A gang's member starts held (R345). -/
theorem timetableStart_gang (ha : (s.ctx k.ctx).aborted = false) (h : bitOf ((s.ctx k.ctx).descWord 8) 43 = true) (hf : k.holdFrom = none) (hr : RisingMap s.links) :
    ∃ u k' start, exec .timetableStart s = .next u ∧ u.kernel? s.ev.x = some k' ∧ k'.st = .held ∧ k'.holds = 1 :: k.holds ∧ k'.slice = some start ∧
      (u.link (4 * k.die0)).reserved = (s.link (4 * k.die0)).reserved ++
        [(s.ltime, .entry ((s.ctx k.ctx).descWord 8 % 2 ^ 16) ((s.ctx k.ctx).descWord 8 / 2 ^ 16 % 2 ^ 13))] ∧
      ∃ w, (w, { i := .sliceStartTimeReached, arg := { x := s.ev.x } }) ∈ u.agenda := by
  have hexec := execTimetableStart_eq hk hst
  rw [ha, if_neg Bool.false_ne_true] at hexec
  obtain ⟨-, -, hlinks, htime, -, -⟩ := s.tilesStarted_kept s.ev.x k
  obtain ⟨k', start, hkernel, hheld, hholds, hslice, hsent, w, hw⟩ := State.sliceHold_gang (State.kernel_tilesStarted (s := s) (n := s.ev.x) (k := k))
    (by rw [State.ctx_tilesStarted]; exact h) rfl hf (hlinks ▸ hr)
  rw [htime, State.ctx_tilesStarted] at hsent
  obtain ⟨calls, hcalled, -⟩ := State.kernel_timeCall hkernel
  have htimed := State.timed_timeCall (s := (s.tilesStarted s.ev.x k).sliceHold s.ev.x) (n := s.ev.x)
  refine ⟨_, _, start, hexec, hcalled, hheld, hholds, hslice, ?_, w, htimed.mem hw⟩
  rw [State.link, htimed.links_eq]
  refine hsent.trans ?_
  rw [State.link, hlinks]
  rfl

/-- A member whose slice was aborted ends with status 4 (R346). -/
theorem timetableStart_aborted (ha : (s.ctx k.ctx).aborted = true) (he : k.ending = none) :
    ∃ u k', exec .timetableStart s = .next u ∧ u.kernel? s.ev.x = some k' ∧ k'.st = .faulted ∧ k'.ending = some 4 ∧
      (bitOf ((s.ctx k.ctx).descWord 8) 43 = true → RisingMap s.ctxs → RisingMap s.links → (u.link (4 * (s.ctx k.ctx).die0)).reserved =
        (s.link (4 * (s.ctx k.ctx).die0)).reserved ++ [(s.ltime, .abort ((s.ctx k.ctx).descWord 8 % 2 ^ 16) ((s.ctx k.ctx).descWord 8 / 2 ^ 16 % 2 ^ 13))]) := by
  have hexec := execTimetableStart_eq hk hst
  rw [ha, if_pos rfl] at hexec
  have hend : (k.begin s.wall).endFaulted 4 = { k.begin s.wall with st := .faulted, ending := some 4 } := by
    unfold Kernel.endFaulted
    rw [show (k.begin s.wall).ending = none from he]
  obtain ⟨-, -, hlinks, htime, hctxs, -⟩ := s.tilesStarted_kept s.ev.x k
  have hkernel := State.kernel_updKernel (f := fun k => k.endFaulted 4) (State.kernel_tilesStarted (s := s) (n := s.ev.x) (k := k))
  rw [hend] at hkernel
  refine ⟨_, _, hexec, State.kernel_sendAbort.trans hkernel, rfl, rfl, fun h hrc hrl => ?_⟩
  obtain ⟨v, hv⟩ : ∃ v, v = (s.tilesStarted s.ev.x k).updKernel s.ev.x fun k => k.endFaulted 4 := ⟨_, rfl⟩
  have hvk : v = (s.tilesStarted s.ev.x k).setKernel s.ev.x ((k.begin s.wall).endFaulted 4) := by
    rw [hv, State.updKernel, State.kernel_tilesStarted]
  have hvctxs : v.ctxs = s.ctxs := by rw [hvk]; exact hctxs
  have hctx : (v.updCtx k.ctx fun x => { x with aborted := false }).ctx k.ctx = { s.ctx k.ctx with aborted := false } := by
    rw [State.updCtx, v.ctx_setCtx_self k.ctx _ (hvctxs ▸ hrc), State.ctx, hvctxs, State.ctx]
  have hvlinks : v.links = s.links := by rw [hvk]; exact hlinks
  have hvtime : v.ltime = s.ltime := by rw [hvk]; exact htime
  have hsent := State.sendAbort_reserved (s := v.updCtx k.ctx fun x => { x with aborted := false }) (c := k.ctx) (by rw [hctx]; exact h) (hvlinks ▸ hrl)
  rw [hctx] at hsent
  rw [← hv]
  refine hsent.trans ?_
  rw [State.link, State.updCtx_links, hvlinks, show (v.updCtx k.ctx fun x => { x with aborted := false }).ltime = s.ltime from hvtime]
  rfl
end

/-- A kernel with an empty object list is bound to an idle partition (R316, R319). -/
theorem State.bind_parts {s : State} {c : Nat} {k : Kernel} (h : objectList k.image = []) (hc : RisingMap s.ctxs) (hr : RisingMap s.tiles) :
    let d := (s.ctx c).die0; let u := s.bind c k
    u.kernel? d = some (k.bound d) ∧ (u.ctx c).loaded = none ∧ u.host = s.host ∧ u.dies = s.dies ∧ (∃ w, (w, { i := .kernelBind, arg := { x := c } }) ∈ u.agenda) ∧
      (∀ t, (u.tile t).flow = (s.tile t).flow ∧ (u.tile t).regs = (s.tile t).regs) ∧ ∀ t, t ∉ partTiles d k.shape → u.tile t = s.tile t := by
  intro d u
  obtain ⟨⟨ts, e⟩, hplaced⟩ := State.placed_segmentsPlaced (s := s) (k := k.bound d)
  obtain ⟨-, hkeep, hout⟩ := hplaced hr
  obtain ⟨v, hv⟩ : ∃ v : State, v = (({ s with tiles := ts } : State).setKernel d (k.bound d)).updCtx c fun x => { x with loaded := none } := ⟨_, rfl⟩
  have hu : u = v.loaderSoon .kernelBind c := by
    unfold u
    rw [bind_of_empty h, e, hv]
  obtain ⟨w, -, hw⟩ := mem_loaderSoon (s := v) (i := .kernelBind) (c := c)
  rw [e] at hkeep hout
  have hkernel : v.kernel? d = some (k.bound d) := hv ▸ ({ s with tiles := ts } : State).kernel_setKernel_self d (k.bound d)
  have hloaded : (v.ctx c).loaded = none := by
    rw [hv]
    exact congrArg Context.loaded ((({ s with tiles := ts } : State).setKernel d (k.bound d)).ctx_setCtx_self c { s.ctx c with loaded := none } hc)
  rw [hu]
  refine ⟨hkernel, hloaded, ?_, ?_, ⟨w, hw⟩, ?_, ?_⟩
  · rw [hv]
    rfl
  · rw [hv]
    rfl
  · rw [hv]
    exact hkeep
  · rw [hv]
    exact hout

theorem execKernelBind_installs {s : State} {n : Nat} {k : Kernel} (hb : s.boundOf s.ev.x = some (n, k)) : exec .kernelBind s = .next (s.install s.ev.x n k) := by
  rw [exec_kernelBind, execKernelBind]
  simp only [hb]

theorem bindingAndStart : Sys2Proof.Claims.BindingAndStart := by
  refine ⟨fun s k => ?_, fun s n k => ?_, fun s k => ?_⟩
  · intro c x hb hl hst hk hrc hrt
    have hself : (s.setCtx c x).ctx c = x := s.ctx_setCtx_self c x hrc
    refine ⟨execKernelBind_waits hb hl hst hk, fun hidle => ⟨fun hno => ?_, fun hnil => ?_⟩⟩
    · rw [execKernelBind_binds hb hl hst hk hidle, State.bind_refused (by rw [hself]; exact hno)]
    · obtain ⟨hkernel, hloaded, hhost, hdies, hdated, hkeep, hout⟩ := State.bind_parts (s := s.setCtx c x) (c := c) (k := k) hnil (State.setCtx_rising hrc) hrt
      rw [hself] at hkernel hout
      exact ⟨_, _, execKernelBind_binds hb hl hst hk hidle, hkernel, rfl, rfl, rfl, rfl, rfl, hloaded, hhost, hdies, hdated, hkeep, hout⟩
  · intro c hb hd hn q hrt hrc
    have hexec := execKernelBind_installs hb
    rw [State.install_eq] at hexec
    have hlen : q.2.length = k.tileImages.length := State.length_allPins ..
    split
    · next p hp =>
      rw [show badPin (s.allPins s.ev.x k.tileImages).2 = some p from hp] at hexec
      exact hexec
    · next hp =>
      rw [show badPin (s.allPins s.ev.x k.tileImages).2 = none from hp] at hexec
      obtain ⟨hkernel, hst, hdated, htiles⟩ := State.launched_parts (c := c) (n := n) hd hlen hn hrt hrc
      exact ⟨_, hexec, hkernel, hst, hdated, htiles⟩
  · intro n d hk hst hrt hn
    refine ⟨fun ha h => ?_, fun ha h => timetableStart_gang hk hst ha h, timetableStart_aborted hk hst⟩
    obtain ⟨u, calls, hexec, hkernel, hin, hout, hhost, hdies⟩ := timetableStart_alone hk hst ha h hrt hn
    exact ⟨u, calls, hexec, hkernel, fun t ht hready => (hin t ht).trans (if_pos hready), hout, hhost, hdies⟩

/-- Settles O51: its four claims, each from the laws of the rows that it names. -/
theorem kernelLife : Obligations.KernelLife := ⟨loading, bindingAndStart, replanAndThermal, completion⟩

end Sys2Proof.Machine
end

section
/-!
SUPPORT. The encodings of slots, ops and bundles (R39 to R55, R60, R294): the round trip, the cells of R50, the slots of a bundle.
-/

namespace Sys2Proof

/-! ### Fields of a word -/

section
/-! Each side of `++`, as `simp` finds it where the width is written as a numeral: the width is not indexed. -/
variable {v w : Nat} {s l : Nat} (x : BitVec v) (y : BitVec w)

@[simp] theorem extract_append_low (h : s + l ≤ w) :
    @BitVec.extractLsb' (no_index (v + w)) s l (@HAppend.hAppend _ _ (BitVec (no_index (v + w))) _ x y) = y.extractLsb' s l :=
  BitVec.extractLsb'_append_eq_of_add_le h

@[simp] theorem extract_append_high (h : w ≤ s) :
    @BitVec.extractLsb' (no_index (v + w)) s l (@HAppend.hAppend _ _ (BitVec (no_index (v + w))) _ x y) = x.extractLsb' (s - w) l :=
  BitVec.extractLsb'_append_eq_of_le h

@[simp] theorem bit_append_low {i : Nat} (h : i < w) :
    @BitVec.getLsbD (no_index (v + w)) (@HAppend.hAppend _ _ (BitVec (no_index (v + w))) _ x y) i = y.getLsbD i := by
  rw [BitVec.getLsbD_append, if_pos h]

@[simp] theorem bit_append_high {i : Nat} (h : w ≤ i) :
    @BitVec.getLsbD (no_index (v + w)) (@HAppend.hAppend _ _ (BitVec (no_index (v + w))) _ x y) i = x.getLsbD (i - w) := by
  rw [BitVec.getLsbD_append, if_neg (Nat.not_lt.2 h)]

/-- A mask over two fields is a mask over each. -/
@[simp] theorem append_and_eq_iff (k r : BitVec (v + w)) :
    @Eq (BitVec (no_index (v + w))) (@HAnd.hAnd (BitVec (no_index (v + w))) (BitVec (no_index (v + w))) (BitVec (no_index (v + w))) _
      (@HAppend.hAppend _ _ (BitVec (no_index (v + w))) _ x y) k) r ↔
      x &&& k.extractLsb' w v = r.extractLsb' w v ∧ y &&& k.extractLsb' 0 w = r.extractLsb' 0 w := by
  have key (k : BitVec (v + w)) : k.extractLsb' w v ++ k.extractLsb' 0 w = k := BitVec.extractLsb'_append_extractLsb'
  constructor
  · rintro rfl
    rw [BitVec.extractLsb'_and, BitVec.extractLsb'_and, BitVec.extractLsb'_append_eq_left, BitVec.extractLsb'_append_eq_right]
    exact ⟨rfl, rfl⟩
  · rintro ⟨hhi, hlo⟩
    rw [← key r, ← hhi, ← hlo, ← BitVec.and_append, key]
end

/-- The frame of a packed frame is that frame (R45). -/
theorem Frame.unpack_pack (f : Frame) : Frame.unpack f.pack f.k = f := by
  cases f
  simp [Frame.unpack, Frame.pack, -BitVec.getLsbD_eq_getElem]

/-! ### The round trip -/

open Laws.RoundTrip in
/-- Every row's law of the round trip, under one name. -/
theorem roundTrip : (i : Instr) → Laws.RoundTrip.Statement i
  | .vendorProvisioning .. => vendorProvisioning _ _ _ _ _ _ | .ownerEnrolment .. => ownerEnrolment _ | .returnToken .. => returnToken _
  | .rollbackAdvance .. => rollbackAdvance _ | .scrapCommand .. => scrapCommand _ | .attestationReport .. => attestationReport _
  | .dbgctlGo .. => dbgctlGo _ | .healthSample .. => healthSample _ | .coolingLoopLost .. => coolingLoopLost _
  | .coolingLoopRestored .. => coolingLoopRestored _ | .hint .. => hint _ | .add .. => add _ _ _ | .sub .. => sub _ _ _ | .mul .. => mul _ _ _
  | .mulh .. => mulh _ _ _ | .mulhu .. => mulhu _ _ _ | .div .. => div _ _ _ | .divu .. => divu _ _ _ | .rem .. => rem _ _ _ | .remu .. => remu _ _ _
  | .and .. => and _ _ _ | .or .. => or _ _ _ | .xor .. => xor _ _ _ | .andn .. => andn _ _ _ | .shl .. => shl _ _ _ | .shr .. => shr _ _ _
  | .sar .. => sar _ _ _ | .rot .. => rot _ _ _ | .clz .. => clz _ _ | .ctz .. => ctz _ _ | .popc .. => popc _ _ | .min .. => min _ _ _
  | .max .. => max _ _ _ | .minu .. => minu _ _ _ | .maxu .. => maxu _ _ _ | .sel .. => sel _ _ _ _ | .cmp .. => cmp _ _ _ _ | .movi .. => movi _ _
  | .sext .. => sext _ _ _ | .zext .. => zext _ _ _ | .bfx .. => bfx _ _ _ _ _ | .bfi .. => bfi _ _ _ _ _ | .idx .. => idx _ _ _ _
  | .madd .. => madd _ _ _ _ | .br .. => br _ _ _ _ | .j .. => j _ | .call .. => call _ _ | .ret .. => ret _ | .brme .. => brme _
  | .loop .. => loop _ _ _ | .lbrk .. => lbrk _ _ | .ld .. => ld _ _ _ _ _ | .st .. => st _ _ _ _ | .stIo .. => stIo _ _ _ | .fence .. => fence _
  | .amoCas .. => amoCas _ _ _ _ _ _ | .amoAdd .. => amoAdd _ _ _ _ | .amoSwp .. => amoSwp _ _ _ _ | .amoMin .. => amoMin _ _ _ _
  | .amoMax .. => amoMax _ _ _ _ | .amoAnd .. => amoAnd _ _ _ _ | .amoOr .. => amoOr _ _ _ _ | .objpin .. => objpin _ _ | .objunp .. => objunp _
  | .objq .. => objq _ _ _ | .objchk .. => objchk _ _ _ _ | .trap .. => trap _ | .mfs .. => mfs _ _ | .mts .. => mts _ _ | .wfe .. => wfe _
  | .sev .. => sev _ | .mark .. => mark _ _ | .vfadd .. => vfadd _ _ _ _ _ _ | .vfsub .. => vfsub _ _ _ _ _ _ | .vfmul .. => vfmul _ _ _ _ _ _
  | .vfma .. => vfma _ _ _ _ _ _ _ | .vfms .. => vfms _ _ _ _ _ _ _ | .vfnma .. => vfnma _ _ _ _ _ _ _ | .vfdiv .. => vfdiv _ _ _ _ _ _
  | .vfsqrt .. => vfsqrt _ _ _ _ _ | .vfmin .. => vfmin _ _ _ _ _ | .vfmax .. => vfmax _ _ _ _ _ | .vfabs .. => vfabs _ _ _ _
  | .vfneg .. => vfneg _ _ _ _ | .vfcmp .. => vfcmp _ _ _ _ _ _ | .vfcvt .. => vfcvt _ _ _ _ _ _ _ _ | .vfrnd .. => vfrnd _ _ _ _ _
  | .vscalb .. => vscalb _ _ _ _ _ _ | .vexp2 .. => vexp2 _ _ _ | .vlog2 .. => vlog2 _ _ _ | .vrcp .. => vrcp _ _ _ | .vrsq .. => vrsq _ _ _
  | .vadd .. => vadd _ _ _ _ | .vsub .. => vsub _ _ _ _ | .vmul .. => vmul _ _ _ _ | .vmulh .. => vmulh _ _ _ _ _ | .vmad .. => vmad _ _ _ _ _
  | .vand .. => vand _ _ _ _ | .vor .. => vor _ _ _ _ | .vxor .. => vxor _ _ _ _ | .vshl .. => vshl _ _ _ _ | .vshr .. => vshr _ _ _ _
  | .vsar .. => vsar _ _ _ _ | .vmin .. => vmin _ _ _ _ _ | .vmax .. => vmax _ _ _ _ _ | .vcmp .. => vcmp _ _ _ _ _ | .vsel .. => vsel _ _ _ _ _
  | .vabs .. => vabs _ _ _ | .vclz .. => vclz _ _ _ | .vpopc .. => vpopc _ _ _ | .vclmulLo .. => vclmulLo _ _ _ _ | .vclmulHi .. => vclmulHi _ _ _ _
  | .vperm .. => vperm _ _ _ _ | .vshuf .. => vshuf _ _ _ _ _ | .vbcast .. => vbcast _ _ _ _ | .vredadd .. => vredadd _ _ _ _
  | .vredmax .. => vredmax _ _ _ _ | .vredmin .. => vredmin _ _ _ _ | .vscan .. => vscan _ _ _ _ | .vtopk .. => vtopk _ _ _ _ _
  | .mpush .. => mpush _ | .mand .. => mand _ _ _ | .mor .. => mor _ _ _ | .mnot .. => mnot _ _ | .mcnt .. => mcnt _ _ _ | .vmov .. => vmov _ _ _ _
  | .vmovs .. => vmovs _ _ _ _ | .vext .. => vext _ _ _ _ _ | .mma .. => mma _ _ _ _ | .mmaZ .. => mmaZ _ _ _ _ | .mmaN .. => mmaN _ _ _ _
  | .accz .. => accz _ | .accret .. => accret _ _ | .accretAmax .. => accretAmax _ _ _ | .accretApply .. => accretApply _ _ _
  | .accretDerive .. => accretDerive _ _ _ | .accrd .. => accrd _ _ _ | .accwr .. => accwr _ _ _ _ | .accwait .. => accwait _
  | .accst .. => accst _ _ | .opld .. => opld _ _ _ _ _ | .opst .. => opst _ _ _ _ | .opclr .. => opclr _ | .scld .. => scld _ _ _ _
  | .scst .. => scst _ _ _ | .scmov .. => scmov _ _ _ | .scmul .. => scmul _ _ _ _ | .scmax .. => scmax _ _ _ _ | .scmin .. => scmin _ _ _ _
  | .scq .. => scq _ _ _ _ | .scset .. => scset _ _ _ | .scbind .. => scbind _ _ | .screl .. => screl _ | .scgen .. => scgen _ _ _
  | .fmt .. => fmt _ _ | .ftsel .. => ftsel _ _ | .act .. => act _ _ | .rd .. => rd _ _ _ _ _ | .rda .. => rda _ _ _ _ _ | .wr .. => wr _ _ _ _ _
  | .wra .. => wra _ _ _ _ _ | .pre .. => pre _ _ | .ref .. => ref _ | .rdop .. => rdop _ _ _ _ _ _ _ | .rdsc .. => rdsc _ _ _ _
  | .vfence .. => vfence _ | .train .. => train _ | .bstat .. => bstat _ _ | .actraw .. => actraw _ _ | .rdraw .. => rdraw _ _ _ _
  | .wrraw .. => wrraw _ _ _ _ | .msend .. => msend _ _ _ _ | .msendv .. => msendv _ _ _ | .mcast .. => mcast _ _ _ _ | .lsend .. => lsend _ _ _ _
  | .lrecv .. => lrecv _ _ _ _ | .vld .. => vld _ _ _ _ _ _ _ | .vst .. => vst _ _ _ _ _ _ | .vgath .. => vgath _ _ _ _ _ _ _ _
  | .vscat .. => vscat _ _ _ _ _ _ _ | .apst .. => apst _ _ _ | .warr .. => warr _ _ _ | .wwait .. => wwait _ _ _ _ _ | .wpoll .. => wpoll _ _ _
  | .wpend .. => wpend _ _ _ _ | .jcbraise .. => jcbraise _ _ _ | .jcbpost .. => jcbpost _ _ _ | .jcbwait .. => jcbwait _ _ _
  | .queueEnable .. => queueEnable _ | .queueDisable .. => queueDisable _ | .programInstall .. => programInstall _ _ _ _
  | .preemptionRequest .. => preemptionRequest _ | .ivLdp .. => ivLdp _ _ | .ivLdw .. => ivLdw _ _ _ _ | .ivStw .. => ivStw _ _ _ _
  | .ivMovi .. => ivMovi _ _ | .ivMovh .. => ivMovh _ _ | .ivAdd .. => ivAdd _ _ _ | .ivSub .. => ivSub _ _ _ | .ivAnd .. => ivAnd _ _ _
  | .ivOr .. => ivOr _ _ _ | .ivXor .. => ivXor _ _ _ | .ivShl .. => ivShl _ _ _ | .ivShr .. => ivShr _ _ _ | .ivBeq .. => ivBeq _ _ _
  | .ivBne .. => ivBne _ _ _ | .ivBltu .. => ivBltu _ _ _ | .ivJf .. => ivJf _ | .ivLoop .. => ivLoop _ _ _ | .ivRank .. => ivRank _
  | .ivNeed .. => ivNeed _ _ | .ivTokadd .. => ivTokadd _ _ | .ivJob .. => ivJob _ _ _ | .ivLaunch .. => ivLaunch _ | .ivEvt .. => ivEvt _
  | .contextCreate .. => contextCreate _ | .contextTableInstall .. => contextTableInstall _ | .contextDestroy .. => contextDestroy _
  | .faultAcknowledge .. => faultAcknowledge _ | .restore .. => restore _ _ | .gangEntryFlit .. => gangEntryFlit _ _
  | .gangAbortFlit .. => gangAbortFlit _ | .linkFlitEnqueue .. => linkFlitEnqueue _ _ _ | .flitReplay .. => flitReplay _
  | .creditReturn .. => creditReturn _ _ | .linkDown .. => linkDown _ | .linkBeacon .. => linkBeacon _
  | .collectiveNodeValue .. => collectiveNodeValue _ _ _ _ | .hostMemRead .. => hostMemRead _ | .hostMemWrite .. => hostMemWrite _ _
  | .hostApertureStart .. => hostApertureStart _ _ _ | .hostSnoop .. => hostSnoop _ | .systemMeasurementExtend .. => systemMeasurementExtend _ _
  | .queueServiceWrite .. => queueServiceWrite _ | .linkTraining .. => linkTraining _ _ | .powerOn => powerOn
  | .layerLimitExceeded => layerLimitExceeded | .packagePowerRemoval => packagePowerRemoval | .variantWaitTimeout => variantWaitTimeout
  | .bundleIssue => bundleIssue | .handlerBundleIssue => handlerBundleIssue | .resultLanding => resultLanding
  | .formatWriteEffect => formatWriteEffect | .stopHorizon => stopHorizon | .partitionRelease => partitionRelease | .deferredTrap => deferredTrap
  | .tileHalted => tileHalted | .holdRelease => holdRelease | .nop => nop | .eret => eret | .eretSkip => eretSkip | .yield => yield | .halt => halt
  | .minv => minv | .mpop => mpop | .prea => prea | .lqEntryDiscard => lqEntryDiscard | .lqFlagsWrite => lqFlagsWrite | .lqvWrite => lqvWrite
  | .vwdatWrite => vwdatWrite | .mwdatWrite => mwdatWrite | .vlcntWrite => vlcntWrite | .vinjParityInject => vinjParityInject
  | .vinjStuckLane => vinjStuckLane | .pccClear => pccClear | .pccReprogram => pccReprogram | .pccOvfClear => pccOvfClear
  | .counterOverflow => counterOverflow | .bankActivationComplete => bankActivationComplete | .autoPrecharge => autoPrecharge
  | .prechargeComplete => prechargeComplete | .refreshComplete => refreshComplete | .trainingWindowStart => trainingWindowStart
  | .trainingWindowEnd => trainingWindowEnd | .lendEnd => lendEnd | .refreshOverdue => refreshOverdue | .vaultReadTransfer => vaultReadTransfer
  | .vaultWriteTransfer => vaultWriteTransfer | .busRetry => busRetry | .laneSwap => laneSwap | .selfRefreshEntry => selfRefreshEntry
  | .retrainingDue => retrainingDue | .forcedRetraining => forcedRetraining | .segmentCopyComplete => segmentCopyComplete
  | .recordLoadComplete => recordLoadComplete | .meshFlitInject => meshFlitInject | .meshFlitHop => meshFlitHop | .meshFlitArrival => meshFlitArrival
  | .cisternRequestApply => cisternRequestApply | .weirByteDecrement => weirByteDecrement | .eventLatchSet => eventLatchSet
  | .packetFetch => packetFetch | .packetDispatch => packetDispatch | .ivDone => ivDone | .ivDrop => ivDrop
  | .sluiceStartArrival => sluiceStartArrival | .jobApply => jobApply | .jobUnit => jobUnit | .jobCompletionRecord => jobCompletionRecord
  | .kernelLoad => kernelLoad | .kernelBind => kernelBind | .timetableStart => timetableStart | .replanSwitch => replanSwitch
  | .hostServiceTimeout => hostServiceTimeout | .kernelComplete => kernelComplete | .contextWipeComplete => contextWipeComplete
  | .yieldStop => yieldStop | .contextSaveComplete => contextSaveComplete | .gangSliceAbort => gangSliceAbort
  | .linkReceiveTimeout => linkReceiveTimeout | .linkFlitAccept => linkFlitAccept | .collectiveStart => collectiveStart
  | .collectiveComplete => collectiveComplete | .sliceStartTimeReached => sliceStartTimeReached

theorem decodeSlot_of_decodePart {p : Part} {f : Frame} {i : Instr} (h : decodePart p f = some i) (hwf : i.wf = true) :
    decodeSlot p f.pack f.k = some i := by
  rw [decodeSlot, Frame.unpack_pack, h]
  exact if_pos hwf

/-- Settles O2: the laws of the round trip say it of frames, and a frame is read back from its word. -/
theorem everyWordDecodesBack : Obligations.EveryWordDecodesBack := by
  intro i hwf
  obtain ⟨hslot, hop⟩ := roundTrip i hwf
  refine ⟨fun w k h => ?_, hop⟩
  obtain ⟨f, hf, hw⟩ := Option.map_eq_some_iff.1 h
  obtain ⟨p, hp⟩ := hslot f hf
  cases hw
  exact ⟨p, decodeSlot_of_decodePart hp hwf⟩

/-! ### Hint cells and NOP (R50) -/

/-- The maps of R51 to R55 leave opcode 0 and the opcodes from 0xF0 to what every slot holds (R50). -/
theorem decodePart_eq_common {p : Part} {f : Frame} (h : f.op.toNat = 0 ∨ 0xF0 ≤ f.op.toNat) : decodePart p f = decodeCommon f := by
  -- each row of a map names an opcode between; the wildcard is left
  cases p
  · rw [decodePart, decodeC]
    split <;> try omega
    rfl
  · rw [decodePart, decodeV]
    split <;> try omega
    rfl
  · rw [decodePart, decodeM]
    split <;> try omega
    rfl
  · rw [decodePart, decodeD]
    split <;> try omega
    rfl
  · rw [decodePart, decodeX]
    split <;> try omega
    rfl

theorem decodePart_hint {p : Part} {f : Frame} (h : f.op.extractLsb' 4 4 = 0xF#4) : decodePart p f = some (.hint (f.op.extractLsb' 0 4)) := by
  have hop : 0xF0 ≤ f.op.toNat := by
    have := congrArg BitVec.toNat h
    simp only [BitVec.extractLsb'_toNat, Nat.shiftRight_eq_div_pow, BitVec.reduceToNat] at this
    omega
  have hne : (f.op == 0) = false := by
    rw [beq_eq_false_iff_ne]
    rintro h0
    rw [h0] at hop
    exact absurd hop (by decide)
  rw [decodePart_eq_common (.inr hop), decodeCommon, hne, h]
  rfl

/-- A slot word is its fields, the hint bits among them (R45). -/
theorem word_eq_fields (w : BitVec 64) : w = w.extractLsb' 56 8 ++ w.extractLsb' 52 4 ++ w.extractLsb' 46 6 ++ w.extractLsb' 40 6 ++ w.extractLsb' 34 6 ++
    w.extractLsb' 28 6 ++ w.extractLsb' 27 1 ++ w.extractLsb' 26 1 ++ w.extractLsb' 23 3 ++ w.extractLsb' 22 1 ++ w.extractLsb' 20 2 ++ w.extractLsb' 0 20 := by
  iterate 11 rw [BitVec.extractLsb'_append_extractLsb'_eq_extractLsb' (by rfl)]
  exact BitVec.extractLsb'_eq_self.symm

@[simp] theorem bit_field_eq_zero_iff (w : BitVec 64) (i : Nat) : w.extractLsb' i 1 = 0#1 ↔ w.getLsbD i = false := by
  rw [BitVec.getLsbD_eq_extractLsb']
  generalize w.extractLsb' i 1 = b
  revert b
  decide

/-- The mask of R50 covers every field of a slot word but the opcode and the hint bits. -/
theorem Frame.fits_unpack_iff (w : BitVec 64) (k : BitVec 32) : (Frame.unpack w k).fits {} = true ↔ w &&& 0x00FFFFFFFFCFFFFF = 0 := by
  have h1 (b : BitVec 1) : b &&& 1#1 = b := BitVec.and_allOnes
  have h3 (b : BitVec 3) : b &&& 7#3 = b := BitVec.and_allOnes
  have h4 (b : BitVec 4) : b &&& 15#4 = b := BitVec.and_allOnes
  have h6 (b : BitVec 6) : b &&& 63#6 = b := BitVec.and_allOnes
  have h20 (b : BitVec 20) : b &&& 1048575#20 = b := BitVec.and_allOnes
  conv => rhs; rw [word_eq_fields w]
  simp [Frame.unpack, Frame.fits, h1, h3, h4, h6, h20]
  exact ⟨fun h => by simp [h], fun h => by simp [h]⟩

theorem Frame.op_extract_unpack {w : BitVec 64} {k : BitVec 32} {s l : Nat} (h : s + l ≤ 8) : (Frame.unpack w k).op.extractLsb' s l = w.extractLsb' (56 + s) l := by
  refine BitVec.eq_of_getLsbD_eq fun i hi => ?_
  simp [Frame.unpack, show s + i < 8 by omega, hi, Nat.add_assoc, -BitVec.getLsbD_eq_getElem]

theorem decodePart_nop {p : Part} {f : Frame} (h : f.op = 0) : decodePart p f = if f.fits {} then some .nop else none := by
  rw [decodePart_eq_common (.inl (by rw [h]; rfl)), decodeCommon, h]
  rfl

/-- Settles O3: by the fields of the word that each cell leaves open. -/
theorem hintAndNopCellsDecode : Obligations.HintAndNopCellsDecode := by
  intro p w k
  have hfits := Frame.fits_unpack_iff w 0
  refine ⟨fun h => ?_, fun h hw => ?_, fun h hw => ?_⟩
  · rw [decodeSlot, decodePart_hint ((Frame.op_extract_unpack (by decide)).trans h), Frame.op_extract_unpack (by decide)]
    rfl
  · rw [decodeSlot, decodePart_nop h, if_pos (hfits.2 hw)]
    rfl
  · rw [decodeSlot, decodePart_nop h, if_neg (mt hfits.1 hw)]
    rfl

end Sys2Proof

namespace Sys2Proof.Machine

/-! ### Bundles (R40, R42, R60) -/

/-- A legal header's fields, by the bits of the bundle (R40). -/
theorem decodeHeader_some {b : Bundle} {h : Header} (e : decodeHeader b = some h) :
    h.gap = b.toNat % 64 ∧ h.pres = allParts.filter (fun p => b.getLsbD (5 + p.code)) ∧ b.toNat / 2 ^ 19 % 2 ^ 13 = 0 := by
  have hbit (p : Part) : (b.extractLsb' 0 32).getLsbD (5 + p.code) = b.getLsbD (5 + p.code) := by
    cases p <;> simp [Part.code]
  unfold decodeHeader at e
  dsimp only at e
  split at e
  · cases e
  · rw [Option.ite_none_left_eq_some] at e
    obtain ⟨hbad, e⟩ := e
    cases e
    simp only [Bool.or_eq_true, not_or, Bool.not_eq_true, bne_eq_false_iff_eq] at hbad
    obtain ⟨⟨hzero, -⟩, -⟩ := hbad
    refine ⟨?_, by simp only [hbit], ?_⟩
    · simp
    · have := congrArg BitVec.toNat hzero
      simp [Nat.shiftRight_eq_div_pow] at this
      omega

/-- The slots read are those asked for, in their order, each from its word and the K lent to it (R42, R60). -/
theorem decodeSlots_ok {h : Header} {b : Bundle} {ps : List Part} {is : List (Part × Instr)} (e : decodeSlots h b ps = .ok is) :
    is.map Prod.fst = ps ∧ ∀ x ∈ is, decodeSlot x.1 (slotWord b x.1) (h.kFor b x.1) = some x.2 := by
  induction ps generalizing is with
  | nil =>
    rw [decodeSlots, Except.ok.injEq] at e
    subst e
    exact ⟨rfl, List.forall_mem_nil _⟩
  | cons p ps ih =>
    rw [decodeSlots] at e
    generalize hi : (if h.kxFits b p then decodeSlot p (slotWord b p) (h.kFor b p) else none) = o at e
    generalize hl : decodeSlots h b ps = rest at e
    obtain _ | i := o
    · exact nomatch e
    obtain _ | l := rest
    · exact nomatch e
    rw [Except.ok.injEq] at e
    subst e
    obtain ⟨hfst, hall⟩ := ih hl
    exact ⟨congrArg (p :: ·) hfst, List.forall_mem_cons.2 ⟨(Option.ite_none_right_eq_some.1 hi).2, hall⟩⟩

theorem wf_of_decodeSlot {p : Part} {w : BitVec 64} {k : BitVec 32} {i : Instr} (h : decodeSlot p w k = some i) : i.wf = true := by
  obtain ⟨j, -, hj⟩ := Option.bind_eq_some_iff.1 h
  split at hj
  · next hwf => cases hj; exact hwf
  · cases hj

theorem readBundle_ok {c : Ctx} {t : Tile} {b : Bundle} {h : Header} {is : List (Part × Instr)} (e : c.readBundle t b = .ok (h, is)) :
    decodeHeader b = some h ∧ decodeSlots h b h.pres = .ok is := by
  unfold Ctx.readBundle at e
  split at e
  · cases e
  · next hd =>
    split at e
    · cases e
    split at e
    · cases e
    split at e
    · cases e
    split at e
    · cases e
    · next hs =>
      split at e
      · cases e
      · cases e
        exact ⟨hd, hs⟩

/-- Settles O4: a bundle that is read has a legal header and its slots are read one by one. -/
theorem bundlesAreReadSlotBySlot : Obligations.BundlesAreReadSlotBySlot := by
  intro c t b h is e
  obtain ⟨hd, hs⟩ := readBundle_ok e
  obtain ⟨hfst, hall⟩ := decodeSlots_ok hs
  refine ⟨hd, hfst, fun x hx => ⟨?_, wf_of_decodeSlot (hall x hx)⟩, decodeHeader_some hd⟩
  have hk := hall x hx
  rw [Header.kFor] at hk
  simpa only [beq_iff_eq] using hk

/-- Settles O1: each word is read by the decoder itself. -/
theorem specWordsDecode : Obligations.SpecWordsDecode := ⟨rfl, rfl, rfl, rfl, rfl, rfl, rfl, rfl, rfl, rfl, rfl, rfl, rfl, rfl, rfl, rfl, rfl⟩

end Sys2Proof.Machine
end

section
/-!
SUPPORT. Where the sequencer goes after a bundle (R34, R35, R59, R92, R99, R106, R107, R114).
-/

namespace Sys2Proof.Machine

section
variable {t : Tile}

/-- The format row at an iteration start of the top of a loop stack (R92). -/
def Formats.rowAt (f : Formats) : List LoopEntry → Nat
  | [] => f.row
  | e :: r => if f.level = r.length then (f.base + e.i) % 16 else f.row

theorem Tile.selectRow_eq (t : Tile) : t.selectRow = { t with fmts := { t.fmts with row := t.fmts.rowAt t.flow.loops } } := by
  unfold Tile.selectRow
  cases hl : t.flow.loops with
  | nil => rfl
  | cons e r =>
    simp only [Formats.rowAt]
    split <;> rfl

theorem Tile.escapedAt_eq (v : Nat) (p : PC) : t.escapedAt v p = if (t.segment v p.seg)[p.off]? = some 0xFFFF then 1 else 0 := by
  unfold Tile.escapedAt
  split <;> simp_all [b2n]

theorem loopEnd_quiet {off : Nat} {l : List LoopEntry} (h : ∀ e r, l = e :: r → e.last ≠ off) : loopEnd off l = (l, none) := by
  cases l with
  | nil => rfl
  | cons e r => exact if_neg (h e r rfl)

theorem loopEnd_again {off : Nat} {e : LoopEntry} {r : List LoopEntry} (h : e.last = off) (hn : e.i + 1 < e.n) :
    loopEnd off (e :: r) = ({ e with i := e.i + 1 } :: r, some e.start) := (if_pos h).trans (if_pos hn)

theorem loopEnd_leaves {off : Nat} {e : LoopEntry} {r : List LoopEntry} (h : e.last = off) (hn : e.n ≤ e.i + 1) :
    loopEnd off (e :: r) = loopEnd off r := (if_pos h).trans (if_neg (Nat.not_lt.2 hn))

/-- The first count of a bundle: the loop end (R107). -/
def Tile.atLoopEnd (t : Tile) (off : Nat) : Tile :=
  let l := loopEnd off t.flow.loops
  let u : Tile := { t with flow := { t.flow with loops := l.1, iterStart := l.2.isSome, resumed := false } }
  if l.2.isSome then u.selectRow else u

/-- A pending transfer counts a bundle, or is made (R99). -/
def Tile.countTransfer (t : Tile) : Option Transfer → Tile
  | none => t
  | some x =>
    if x.left ≤ 1 then { t with flow := { t.flow with transfer := none, popDue := x.pop } }
    else { t with flow := { t.flow with transfer := some { x with left := x.left - 1 } } }

/-- A LOOP's pending push counts a bundle, or is made (R106). -/
def Tile.countPush (t : Tile) : Option Push → Tile
  | none => t
  | some x =>
    if x.left ≤ 1 then ({ t with flow := { t.flow with push := none, loops := x.entry :: t.flow.loops, iterStart := true } } : Tile).selectRow
    else { t with flow := { t.flow with push := some { x with left := x.left - 1 } } }

/-- A HALT's delay bundles count one (R114). -/
def Tile.countHalt (t : Tile) (base : Nat) : Option Nat → Tile
  | none => t
  | some n => if n ≤ 1 then { t with flow := { t.flow with haltLeft := none, haltBase := some base } } else { t with flow := { t.flow with haltLeft := some (n - 1) } }

/-- The PC past a bundle: the target of a transfer that is made, the start of a body that repeats, or the stream successor (R35, R59, R107). -/
def Flow.nextPc (f : Flow) (pc succ : PC) : PC :=
  let next := match (loopEnd pc.off f.loops).2 with
    | some st => { succ with seg := pc.seg, off := st : PC }
    | none => succ
  match f.transfer with
  | none => next
  | some x => if x.left ≤ 1 then { pc with off := x.target } else next

/-- The counts of a bundle in their order: the loop end, the transfer, the push, the halt. -/
def Tile.counted (t : Tile) (off base : Nat) : Tile :=
  (((t.atLoopEnd off).countTransfer t.flow.transfer).countPush t.flow.push).countHalt base t.flow.haltLeft

/-- A tile at its next position, its next bundle due (R35). -/
def Tile.movedTo (t : Tile) (v : Nat) (next : PC) (base : Nat) : Tile :=
  { t with flow := { t.flow with pc := next, due := base + t.escapedAt v next } }

theorem Tile.advance_eq (t : Tile) (v : Nat) (pc : PC) (issue gap : Nat) (hand : Bool) : t.advance v pc issue gap hand =
    (t.counted pc.off (issue + 1 + gap)).movedTo v
      (t.flow.nextPc pc (if hand then { seg := pc.seg + 1, off := 0 } else t.successor v pc)) (issue + 1 + gap) := by
  unfold Tile.advance
  extract_lets succ f
  split
  next loops rep hl =>
  extract_lets t1 next t2
  have h2 : t.atLoopEnd pc.off = t2 := by rw [Tile.atLoopEnd, show loopEnd pc.off t.flow.loops = (loops, rep) from hl]
  have hnext : f.nextPc pc succ = match f.transfer with
      | none => next
      | some x => if x.left ≤ 1 then { pc with off := x.target } else next := by
    rw [Flow.nextPc, hl] <;> rfl
  split
  next t3 next' e =>
  have h3 : t2.countTransfer f.transfer = t3 ∧ f.nextPc pc succ = next' := by
    rw [hnext]
    split at e
    · next ht => rw [ht]; cases e; exact ⟨rfl, rfl⟩
    · next x ht =>
      rw [ht]
      split at e
      · next hx => cases e; exact ⟨if_pos hx, if_pos hx⟩
      · next hx => cases e; exact ⟨if_neg hx, if_neg hx⟩
  obtain ⟨h3, hnext⟩ := h3
  rw [show t.flow.nextPc pc (if hand then { seg := pc.seg + 1, off := 0 } else t.successor v pc) = next' from hnext]
  rw [Tile.counted, h2, show t2.countTransfer t.flow.transfer = t3 from h3]
  rfl

/-- What each count of a bundle may change. -/
theorem Tile.atLoopEnd_eq (t : Tile) (off : Nat) : ∃ row, t.atLoopEnd off = { t with
    flow := { t.flow with loops := (loopEnd off t.flow.loops).1, iterStart := (loopEnd off t.flow.loops).2.isSome, resumed := false }
    fmts := { t.fmts with row := row } } := by
  unfold Tile.atLoopEnd
  dsimp only
  split
  · exact ⟨_, Tile.selectRow_eq _⟩
  · exact ⟨t.fmts.row, rfl⟩

theorem Tile.countTransfer_eq (t : Tile) (x : Option Transfer) :
    ∃ tr p, t.countTransfer x = { t with flow := { t.flow with transfer := tr, popDue := p } } := by
  unfold Tile.countTransfer
  repeat' split
  all_goals exact ⟨_, _, rfl⟩

theorem Tile.countPush_eq (t : Tile) (x : Option Push) :
    ∃ p ls i row, t.countPush x = { t with flow := { t.flow with push := p, loops := ls, iterStart := i }, fmts := { t.fmts with row := row } } := by
  unfold Tile.countPush
  repeat' split
  · exact ⟨_, _, _, t.fmts.row, rfl⟩
  · exact ⟨_, _, _, _, Tile.selectRow_eq _⟩
  · exact ⟨_, _, _, t.fmts.row, rfl⟩

theorem Tile.countHalt_eq (t : Tile) (base : Nat) (x : Option Nat) :
    ∃ l b, t.countHalt base x = { t with flow := { t.flow with haltLeft := l, haltBase := b } } := by
  unfold Tile.countHalt
  repeat' split
  all_goals exact ⟨_, _, rfl⟩

/-- What the move past a bundle may change: the PC, the loop stack and what counts bundles, and the format row. -/
theorem Tile.advance_frame (t : Tile) (v : Nat) (pc : PC) (issue gap : Nat) (hand : Bool) : ∃ next due tr pd q ls it l b row,
    t.advance v pc issue gap hand = { t with
      flow := { t.flow with pc := next, due := due, transfer := tr, popDue := pd, push := q, loops := ls, iterStart := it, haltLeft := l, haltBase := b
                            resumed := false }
      fmts := { t.fmts with row := row } } := by
  obtain ⟨row, h1⟩ := t.atLoopEnd_eq pc.off
  obtain ⟨tr, p, h2⟩ := (t.atLoopEnd pc.off).countTransfer_eq t.flow.transfer
  obtain ⟨q, ls, i, row', h3⟩ := ((t.atLoopEnd pc.off).countTransfer t.flow.transfer).countPush_eq t.flow.push
  obtain ⟨l, b, h4⟩ := (((t.atLoopEnd pc.off).countTransfer t.flow.transfer).countPush t.flow.push).countHalt_eq (issue + 1 + gap) t.flow.haltLeft
  rw [Tile.advance_eq, Tile.counted, h4, h3, h2, h1]
  exact ⟨_, _, tr, p, q, ls, i, l, b, row', rfl⟩

/-- At no loop's end nothing of the loop stack moves. -/
theorem Tile.atLoopEnd_quiet {off : Nat} (h : ∀ e r, t.flow.loops = e :: r → e.last ≠ off) :
    t.atLoopEnd off = { t with flow := { t.flow with iterStart := false, resumed := false } } := by
  rw [Tile.atLoopEnd, loopEnd_quiet h]
  rfl

/-- At the end of a body with a trip to come, the next iteration starts. -/
theorem Tile.atLoopEnd_again {off : Nat} {e : LoopEntry} {r : List LoopEntry} (hl : t.flow.loops = e :: r) (h : e.last = off) (hn : e.i + 1 < e.n) :
    t.atLoopEnd off = { t with
      flow := { t.flow with loops := { e with i := e.i + 1 } :: r, iterStart := true, resumed := false }
      fmts := { t.fmts with row := if t.fmts.level = r.length then (t.fmts.base + (e.i + 1)) % 16 else t.fmts.row } } := by
  rw [Tile.atLoopEnd, hl, loopEnd_again h hn]
  exact (if_pos rfl).trans (Tile.selectRow_eq _)
end

/-- Settles O43: the move is its counts in order, and each clause reads the counts that its hypotheses leave. -/
theorem sequencerAdvances : Obligations.SequencerAdvances := by
  intro t variant pc issue gap hand u f esc succ quiet
  have hsucc : (if hand then { seg := pc.seg + 1, off := 0 : PC } else t.successor variant pc) = succ := by
    simp only [Tile.successor, Tile.escapedAt_eq]
    rfl
  have hu : u = (((((t.atLoopEnd pc.off).countTransfer f.transfer).countPush f.push).countHalt (issue + 1 + gap) f.haltLeft)).movedTo variant
      (f.nextPc pc succ) (issue + 1 + gap) := hsucc ▸ t.advance_eq ..
  have hpc : u.flow.pc = f.nextPc pc succ := by rw [hu]; rfl
  have hq (h : quiet) : loopEnd pc.off f.loops = (f.loops, none) := loopEnd_quiet h
  obtain ⟨l, b, hhalt⟩ := (((t.atLoopEnd pc.off).countTransfer f.transfer).countPush f.push).countHalt_eq (issue + 1 + gap) f.haltLeft
  obtain ⟨next, due, tr, pd, q, ls, it, hl, hb, row, hframe⟩ := t.advance_frame variant pc issue gap hand
  refine ⟨?_, fun h1 h2 => ?_, fun h1 h2 h3 => ?_, fun e r h1 h2 h3 h4 h5 => ?_, fun e r h1 h2 h3 h4 h5 h6 => ?_, fun x h1 h2 h3 h4 => ?_, fun x h1 h2 h3 => ?_,
    fun x h1 h2 h3 => ?_, fun m h => ?_, ?_⟩
  · have hsame : u.escapedAt variant u.flow.pc = esc u.flow.pc := by
      rw [Tile.escapedAt_eq, show u = _ from hframe]
      rfl
    rw [← hsame, hu]
    rfl
  · rw [hpc, Flow.nextPc, hq h1, h2]
  · rw [hu, hhalt, h2, h3, Tile.atLoopEnd_quiet h1]
    exact ⟨rfl, rfl, rfl⟩
  · rw [hpc, hu, hhalt, h4, h5, Tile.atLoopEnd_again h1 h2 h3, Flow.nextPc, h1, loopEnd_again h2 h3, h4, ← hsucc]
    refine ⟨?_, rfl, rfl, rfl⟩
    cases hand <;> rfl
  · have hl : loopEnd pc.off f.loops = (r, none) := by rw [h1, loopEnd_leaves h2 h3, loopEnd_quiet h4]
    obtain ⟨row, hend⟩ := t.atLoopEnd_eq pc.off
    refine ⟨?_, ?_⟩
    · rw [hpc, Flow.nextPc, hl, h5]
    · rw [hu, hhalt, h5, h6, hend]
      exact congrArg Prod.fst hl
  · rw [hpc, hu, hhalt, Flow.nextPc, h1, h4, Tile.atLoopEnd_quiet h3, Tile.countTransfer, if_pos h2]
    exact ⟨if_pos h2, rfl, rfl, rfl⟩
  · obtain ⟨p, ls, i, row', hp⟩ := ((t.atLoopEnd pc.off).countTransfer f.transfer).countPush_eq f.push
    rw [hpc, hu, hhalt, hp, Flow.nextPc, h1, Tile.countTransfer, if_neg (Nat.not_le.2 h2), hq h3]
    exact ⟨if_neg (Nat.not_le.2 h2), rfl⟩
  · rw [hu, hhalt, h1, h3, Tile.atLoopEnd_quiet h2, Tile.countTransfer, Tile.countPush]
    split
    · rw [Tile.selectRow_eq]
      exact ⟨rfl, rfl, rfl⟩
    · exact ⟨rfl, rfl⟩
  · obtain ⟨row1, h1⟩ := t.atLoopEnd_eq pc.off
    obtain ⟨tr, p, h2⟩ := (t.atLoopEnd pc.off).countTransfer_eq f.transfer
    obtain ⟨q, ls, i, row', h3⟩ := ((t.atLoopEnd pc.off).countTransfer f.transfer).countPush_eq f.push
    rw [hu, h, h3, h2, h1, Tile.countHalt]
    split
    · exact ⟨rfl, rfl⟩
    · exact ⟨rfl, rfl⟩
  · rw [show u = _ from hframe]
    exact ⟨rfl, rfl, rfl, rfl, rfl, rfl⟩

end Sys2Proof.Machine
end

section
/-!
SUPPORT. The system instructions of the C slot (R50, R111, R113, R114) and the return from a trap (R126).
-/

namespace Sys2Proof.Machine

open Sys2Proof.Claims

section
variable {s : State} {t : Tile} {id : TileId}

/-! ### Leaving a handler -/

/-- The end of a handler sets its tile and touches nothing else but the kernel. -/
theorem State.endHandler_eq (s : State) (id : TileId) (t : Tile) : ∃ ks, s.endHandler id t = { s.setTile id t with kernels := ks } := by
  unfold State.endHandler
  dsimp only
  split
  · exact ⟨s.kernels, rfl⟩
  · exact ⟨_, rfl⟩

@[simp] theorem State.tile_endHandler (u : TileId) : (s.endHandler id t).tile u = (s.setTile id t).tile u := by
  obtain ⟨ks, h⟩ := s.endHandler_eq id t
  rw [h]
  rfl

@[simp] theorem State.cur_endHandler : (s.endHandler id t).cur = s.cur := by
  obtain ⟨ks, h⟩ := s.endHandler_eq id t
  rw [h]
  rfl

/-- A segment handed over changes the index window of its tile, and dates its copy (R36). -/
theorem State.handOver_eq (s : State) (id : TileId) (v k : Nat) : ∃ im ag, s.handOver id v k = { s.setTile id { s.tile id with imem := im } with agenda := ag } := by
  unfold State.handOver
  dsimp only
  split
  · exact ⟨_, _, rfl⟩
  · exact ⟨_, s.agenda, rfl⟩

theorem Tile.popped_eq (t : Tile) : ∃ pd ls, t.popped = { t with flow := { t.flow with popDue := pd, loops := ls } } := by
  unfold Tile.popped
  split
  · exact ⟨_, _, rfl⟩
  · exact ⟨_, _, rfl⟩

/-- The delay count that the trap registers name (R126). -/
theorem Tile.resumePos_transfer (t : Tile) : (t.resumePos.flow.transfer = none ↔ t.sys.xpc.toNat / 2 ^ 32 % 4 = 0) ∧
    ∀ x, t.resumePos.flow.transfer = some x → x.left = t.sys.xpc.toNat / 2 ^ 32 % 4 ∧ x.target % 2 ^ 16 = t.sys.xtgt.toNat % 2 ^ 16 := by
  obtain ⟨d, hd⟩ : ∃ d, d = t.sys.xpc.toNat / 2 ^ 32 % 4 := ⟨_, rfl⟩
  obtain ⟨g, hg⟩ : ∃ g, g = t.sys.xtgt.toNat % 2 ^ 16 := ⟨_, rfl⟩
  have hdelay : field t.sys.xpc.toNat 33 32 = d := hd.symm
  have htarget : field t.sys.xtgt.toNat 15 0 = g := by simp [field, hg]
  have hpick (held : Nat) : (if held % 65536 = g then held else g) % 2 ^ 16 = g := by
    split
    · assumption
    · omega
  unfold Tile.resumePos
  dsimp only
  rw [hdelay, htarget, ← hd, ← hg]
  split
  · next h0 => exact ⟨⟨fun _ => h0, fun _ => rfl⟩, nofun⟩
  · next h0 =>
    refine ⟨⟨nofun, fun h => absurd h h0⟩, fun x hx => ?_⟩
    cases hx
    exact ⟨rfl, hpick _⟩

/-- Where a transfer is at its last count, its target comes next (R99). -/
theorem Tile.advance_pc_of_transfer {v : Nat} {pc : PC} {issue gap : Nat} {hand : Bool} {x : Transfer} (h : t.flow.transfer = some x) (hx : x.left ≤ 1) :
    (t.advance v pc issue gap hand).flow.pc = { pc with off := x.target } := by
  rw [Tile.advance_eq, Tile.movedTo, Flow.nextPc, h]
  exact if_pos hx

/-- A bundle abandoned: what is left of its tile (R126). -/
theorem Tile.abandon_frame (t : Tile) (v gap : Nat) (hand : Bool) : let u := t.abandon v gap hand
    u.flow.st = t.flow.st ∧ u.flow.handler = t.flow.handler ∧ u.flow.resumed = false ∧ u.sys.bpsk = false ∧
    u.fmts.pend = (t.fmts.pend.map fun w => { w with left := w.left - 1 }) ∧ u.regs = t.regs ∧ u.flight = t.flight ∧ u.staging = t.staging := by
  obtain ⟨pd, ls, hp⟩ := t.popped_eq
  obtain ⟨_, _, _, _, _, _, _, _, _, _, ha⟩ := t.popped.advance_frame v t.flow.pc t.flow.due gap hand
  intro u
  rw [show u = t.abandon v gap hand from rfl, Tile.abandon, ha, hp]
  exact ⟨rfl, rfl, rfl, rfl, rfl, rfl, rfl, rfl⟩

theorem Tile.abandon_pc_of_transfer {v gap : Nat} {hand : Bool} {x : Transfer} (h : t.flow.transfer = some x) (hx : x.left ≤ 1) :
    (t.abandon v gap hand).flow.pc = { t.flow.pc with off := x.target } := by
  obtain ⟨pd, ls, hp⟩ := t.popped_eq
  exact Tile.advance_pc_of_transfer (issue := t.flow.due) (gap := gap) (by rw [hp]; exact h) hx

/-- What ERET with skip makes of the machine, with its tile as the abandoned bundle leaves it (R126). -/
def State.handlerSkipped (s : State) (t : Tile) (hand : Bool) (seg : Nat) : State :=
  let u := (s.endHandler s.cur.tile t).push (t.fmtRows s.cur.tile)
  if hand then u.handOver s.cur.tile s.slotCtx.variant seg else u

/-- The tile after it, but for its index window, and the other tiles. -/
theorem State.tile_handlerSkipped (s : State) (t : Tile) (hand : Bool) (seg : Nat) (hr : RisingMap s.tiles) :
    (∃ im, (s.handlerSkipped t hand seg).tile s.cur.tile = { t with imem := im }) ∧
    ∀ id, id ≠ s.cur.tile → (s.handlerSkipped t hand seg).tile id = s.tile id := by
  obtain ⟨u, hu⟩ : ∃ u, u = (s.endHandler s.cur.tile t).push (t.fmtRows s.cur.tile) := ⟨_, rfl⟩
  have htile (id : TileId) : u.tile id = (s.setTile s.cur.tile t).tile id := by rw [hu, State.tile_push, State.tile_endHandler]
  have hrising : RisingMap u.tiles := by
    obtain ⟨ks, he⟩ := s.endHandler_eq s.cur.tile t
    rw [hu, he]
    exact mapSet_rising _ _ _ _ hr
  have hself := (htile s.cur.tile).trans (s.tile_setTile_self _ t hr)
  unfold State.handlerSkipped
  rw [← hu]
  cases hand with
  | false => exact ⟨⟨t.imem, hself⟩, fun id hid => (htile id).trans (s.tile_setTile_ne _ hid)⟩
  | true =>
    obtain ⟨im, ag, hand⟩ := u.handOver_eq s.cur.tile s.slotCtx.variant seg
    dsimp only
    rw [if_pos rfl, hand]
    refine ⟨⟨im, ?_⟩, fun id hid => ?_⟩
    · exact (u.tile_setTile_self s.cur.tile { u.tile s.cur.tile with imem := im } hrising).trans (by rw [hself])
    · exact (u.tile_setTile_ne { u.tile s.cur.tile with imem := im } hid).trans ((htile id).trans (s.tile_setTile_ne _ hid))
end

theorem plainSystemInstructions : PlainSystemInstructions := by
  intro s
  have hmode {b : Bool} (h : s.cur.handler = b) : s.slotCtx.handler = b := h
  refine ⟨?_, fun n => ?_, fun a tag => ?_, fun h => ?_, fun h => ?_, fun h => ?_⟩
  · exact (exec_nop s).trans (runSlot_ok rfl)
  · exact (exec_hint s n).trans (runSlot_ok rfl)
  · exact (exec_mark s a tag).trans (runSlot_ok rfl)
  · exact (exec_yield s).trans (runSlot_ok (by rw [hmode h]; rfl))
  · exact (exec_yield s).trans (runSlot_trap (by rw [hmode h]; rfl))
  · rw [Gives, exec_halt, execHalt, h]
    exact (if_neg Bool.false_ne_true).trans (runSlot_ok rfl)

theorem returnFromTrap : ReturnFromTrap := by
  intro s
  refine ⟨fun h hr => ?_, fun h hr => ?_, fun h => ⟨?_, ?_⟩⟩
  · have hexec : exec .eret s = .next (s.endHandler s.cur.tile (mine s).resumePos) := (exec_eret s).trans (if_pos h)
    obtain ⟨ks, he⟩ := s.endHandler_eq s.cur.tile (mine s).resumePos
    obtain ⟨hnone, hsome⟩ := (mine s).resumePos_transfer
    refine ⟨_, hexec, ?_⟩
    rw [State.tile_endHandler, s.tile_setTile_self _ _ hr]
    refine ⟨rfl, rfl, by simp [Tile.resumePos, field], rfl, rfl, hnone, hsome, rfl, rfl, rfl, rfl, rfl, rfl, fun id hid => ?_, ?_⟩
    · rw [State.tile_endHandler, s.tile_setTile_ne _ hid]
    · rw [he]
      exact ⟨rfl, rfl, rfl, rfl⟩
  · obtain ⟨⟨gap, hand⟩, hx⟩ : ∃ x, (mine s).resumePos.abandoned s.slotCtx.variant = x := ⟨_, rfl⟩
    obtain ⟨t', ht'⟩ : ∃ t', t' = (mine s).resumePos.abandon s.slotCtx.variant gap hand := ⟨_, rfl⟩
    have hexec : exec .eretSkip s = .next (s.handlerSkipped t' hand (mine s).resumePos.flow.pc.seg) := by
      rw [exec_eretSkip, execEretSkip, if_pos h, ht']
      dsimp only
      rw [show (s.tile s.cur.tile).resumePos.abandoned s.slotCtx.variant = (gap, hand) from hx, State.push_cur, State.cur_endHandler]
      rfl
    obtain ⟨⟨im, htile⟩, hothers⟩ := s.tile_handlerSkipped t' hand (mine s).resumePos.flow.pc.seg hr
    obtain ⟨hst, hhandler, hresumed, hbpsk, hpend, hregs, hflight, hstaging⟩ := (mine s).resumePos.abandon_frame s.slotCtx.variant gap hand
    obtain ⟨hnone, hsome⟩ := (mine s).resumePos_transfer
    rw [← ht'] at hst hhandler hresumed hbpsk hpend hregs hflight hstaging
    refine ⟨_, hexec, ?_⟩
    rw [htile]
    refine ⟨hst, hhandler, hresumed, hbpsk, hpend, fun h1 => ?_, hregs, hflight, hstaging, hothers⟩
    obtain ⟨tr, htr⟩ := Option.ne_none_iff_exists'.1 (mt hnone.1 (by rw [h1]; decide))
    obtain ⟨hleft, htarget⟩ := hsome tr htr
    dsimp only
    rw [ht', Tile.abandon_pc_of_transfer htr (by rw [hleft, h1])]
    exact htarget
  · rw [Traps, exec_eret, execEret, h]
    exact (if_neg Bool.false_ne_true).trans (runSlot_trap rfl)
  · rw [Traps, exec_eretSkip, execEretSkip, h]
    exact (if_neg Bool.false_ne_true).trans (runSlot_trap rfl)

/-- Settles O11: the instructions that stay in the bundle, and those that leave the handler. -/
theorem systemInstructions : Obligations.SystemInstructions := ⟨plainSystemInstructions, returnFromTrap⟩

end Sys2Proof.Machine
end

section
/-!
SUPPORT. The windows of numbers with fields replaced, and of packed lanes (R131, R239).
-/

namespace Sys2Proof.Machine

/-- A bit of a value with a field replaced. -/
theorem testBit_setField (x lo w v i : Nat) : (setField x lo w v).testBit i = if lo ≤ i ∧ i < lo + w then v.testBit (i - lo) else x.testBit i := by
  have hv : v % 2 ^ w * 2 ^ lo + x % 2 ^ lo < 2 ^ (lo + w) := by
    have h1 := Nat.mod_lt v (Nat.two_pow_pos w)
    have h2 := Nat.mod_lt x (Nat.two_pow_pos lo)
    calc v % 2 ^ w * 2 ^ lo + x % 2 ^ lo < v % 2 ^ w * 2 ^ lo + 2 ^ lo := Nat.add_lt_add_left h2 _
      _ = (v % 2 ^ w + 1) * 2 ^ lo := (Nat.succ_mul _ _).symm
      _ ≤ 2 ^ w * 2 ^ lo := Nat.mul_le_mul_right _ h1
      _ = 2 ^ (lo + w) := by rw [← pow_add, Nat.add_comm]
  rw [setField, Nat.add_assoc, Nat.mul_comm (x / _), Nat.testBit_two_pow_mul_add _ hv, Nat.mul_comm (v % _),
    Nat.testBit_two_pow_mul_add _ (Nat.mod_lt x (Nat.two_pow_pos lo)), Nat.testBit_mod_two_pow, Nat.testBit_mod_two_pow, Nat.testBit_div_two_pow]
  by_cases h1 : i < lo
  · rw [if_pos (by omega), if_pos h1, if_neg (by omega)]
    simp [h1]
  · by_cases h2 : i < lo + w
    · rw [if_pos h2, if_neg h1, if_pos (by omega)]
      simp only [show i - lo < w by omega, decide_true, Bool.true_and]
    · rw [if_neg h2, if_neg (by omega)]
      congr 1
      omega

/-- Windows of two values are one where their bits are. -/
theorem window_eq {x y a b w : Nat} (h : ∀ i < w, x.testBit (a + i) = y.testBit (b + i)) : x / 2 ^ a % 2 ^ w = y / 2 ^ b % 2 ^ w := by
  refine Nat.eq_of_testBit_eq fun i => ?_
  rw [Nat.testBit_mod_two_pow, Nat.testBit_mod_two_pow, Nat.testBit_div_two_pow, Nat.testBit_div_two_pow]
  by_cases hi : i < w
  · rw [Nat.add_comm i a, Nat.add_comm i b, h i hi]
  · simp only [hi, decide_false, Bool.false_and]

/-- A window within a field that is replaced. -/
theorem window_setField_in (x v : Nat) {lo w a n : Nat} (h1 : lo ≤ a) (h2 : a + n ≤ lo + w) : setField x lo w v / 2 ^ a % 2 ^ n = v / 2 ^ (a - lo) % 2 ^ n :=
  window_eq fun i hi => by
    rw [testBit_setField, if_pos (by omega)]
    congr 1
    omega

/-- A window outside a field that is replaced. -/
theorem window_setField_out (x v : Nat) {lo w a n : Nat} (h : a + n ≤ lo ∨ lo + w ≤ a) : setField x lo w v / 2 ^ a % 2 ^ n = x / 2 ^ a % 2 ^ n :=
  window_eq fun i hi => by rw [testBit_setField, if_neg (by omega)]

/-- A window of a value within its bits that a vector keeps. -/
theorem window_ofNat (x : Nat) {m a n : Nat} (h : a + n ≤ m) : (BitVec.ofNat m x).toNat / 2 ^ a % 2 ^ n = x / 2 ^ a % 2 ^ n :=
  window_eq fun i hi => by
    rw [BitVec.toNat_ofNat, Nat.testBit_mod_two_pow, decide_eq_true (show a + i < m by omega), Bool.true_and]

/-- A lane of packed lanes. -/
theorem window_packLanes (l : List Nat) (k : Nat) : packLanes l / 2 ^ (32 * k) % 2 ^ 32 = l.getD k 0 % 2 ^ 32 := by
  induction l generalizing k with
  | nil => simp [packLanes]
  | cons x r ih =>
    cases k with
    | zero => simp [packLanes]
    | succ k =>
      have hx := Nat.mod_lt x (Nat.two_pow_pos 32)
      rw [packLanes, show 32 * (k + 1) = 32 + 32 * k by omega, pow_add, ← Nat.div_div_eq_div_mul, Nat.add_mul_div_left _ _ (Nat.two_pow_pos 32),
        Nat.div_eq_of_lt hx, Nat.zero_add, ih, List.getD_cons_succ]

/-- A lane of a register after a result lands in those that it does not keep (R134). -/
theorem lane_keepLanes (keep : Mask) (old : VWord) (val : Nat) {k : Nat} (hk : k < 64) :
    (keepLanes keep old val).toNat / 2 ^ (32 * k) % 2 ^ 32 = (if keep.getLsbD k then old.toNat else val) / 2 ^ (32 * k) % 2 ^ 32 := by
  unfold keepLanes
  split
  · next h =>
    rw [window_ofNat _ (by omega), h, if_neg (by simp)]
  · rw [window_ofNat _ (by omega), window_packLanes, List.getD_eq_getElem _ _ (by simpa using hk), List.getElem_map, List.getElem_range]
    unfold laneOn laneOf
    split <;> exact Nat.mod_mod _ _

/-- The bytes of a value are its digits to the base 256. -/
theorem natBytes_eq (n v : Nat) : natBytes n v = (List.range n).map fun i => BitVec.ofNat 8 (v / 256 ^ i) := by
  induction n generalizing v with
  | zero => rfl
  | succ n ih =>
    rw [natBytes, ih, List.range_succ_eq_map, List.map_cons, List.map_map, pow_zero, Nat.div_one]
    congr 1
    refine List.map_congr_left fun i _ => ?_
    rw [Function.comp_apply, pow_succ', Nat.div_div_eq_div_mul]

end Sys2Proof.Machine
end

section
/-!
SUPPORT. The landing of a result (R56, R226, R239, R240).
-/

namespace Sys2Proof.Machine

open Sys2Proof.Claims

section
variable {s : State} {t : Tile} {id : TileId} {r : Result}

@[simp] theorem Tile.setS_flight (n : Nat) (v : Word) : (t.setS n v).flight = t.flight := by
  unfold Tile.setS
  split <;> rfl

@[simp] theorem Tile.writeSys_flight (n v : Nat) : (t.writeSys n v).flight = t.flight := by
  unfold Tile.writeSys
  simp only [apply_ite Tile.flight, Tile.updVault, ite_self]

@[simp] theorem Tile.setV_flight (n : Nat) (v : VWord) : (t.setV n v).flight = t.flight := rfl
@[simp] theorem Tile.setMk_flight (n : Nat) (v : Mask) : (t.setMk n v).flight = t.flight := rfl
@[simp] theorem Tile.setAcc_flight (k : Nat) (a : Accum) : (t.setAcc k a).flight = t.flight := rfl
@[simp] theorem Tile.setBuf_flight (k : Nat) (b : Buffer) : (t.setBuf k b).flight = t.flight := rfl
@[simp] theorem Tile.setOhe_flight (k : Nat) (e : OhEntry) : (t.setOhe k e).flight = t.flight := rfl
@[simp] theorem Tile.retire_flight (k n : Nat) : (t.retire k n).flight = t.flight := by
  unfold Tile.retire
  exact Tile.setAcc_flight _ _
@[simp] theorem Tile.bufferSlot_flight (k q : Nat) (l : Bool) (c v n : Nat) (bs : List Byte) : (t.bufferSlot k q l c v n bs).flight = t.flight := by
  unfold Tile.bufferSlot
  exact Tile.setBuf_flight _ _

@[simp] theorem Tile.stamp_flight (k : Nat) (n : Option Nat) : (t.stamp k n).flight = t.flight := by cases n <;> rfl

/-- The writing of a result leaves the results in flight alone. -/
theorem Tile.writeResult_flight : (t.writeResult r).flight = t.flight := by
  unfold Tile.writeResult
  split <;> simp only [Tile.setS_flight, Tile.writeSys_flight, Tile.setV_flight, Tile.setMk_flight, Tile.setAcc_flight, Tile.setBuf_flight, Tile.setOhe_flight,
    Tile.retire_flight, Tile.bufferSlot_flight, Tile.stamp_flight]
  case h_5 => split <;> rfl
  case h_17 =>
    split
    · split <;> rfl
    · rfl

/-! What the writing of a result comes to, for each destination. -/

theorem Tile.writeResult_sreg {n : Nat} (h : r.dst = .sreg n) : t.writeResult r = t.setS n (BitVec.ofNat 64 r.val) := by simp only [Tile.writeResult, h]

theorem Tile.writeResult_vreg {n : Nat} (h : r.dst = .vreg n) : t.writeResult r = t.setV n (keepLanes r.keep (mapGet 0 t.regs.v n) r.val) := by
  simp only [Tile.writeResult, h]

theorem Tile.writeResult_mk {n : Nat} (h : r.dst = .mk n) : t.writeResult r = t.setMk n (BitVec.ofNat 64 r.val) := by simp only [Tile.writeResult, h]

theorem Tile.writeResult_mstack {d : Nat} (h : r.dst = .mstack d) : t.writeResult r =
    { t with regs := { t.regs with ms := if d = 0 then [] else BitVec.ofNat 64 r.val :: t.regs.ms.drop (t.regs.ms.length - (d - 1)) } } := by
  simp only [Tile.writeResult, h]

theorem Tile.writeResult_flagsOnly (h : r.dst = .flagsOnly) : t.writeResult r = t := by simp only [Tile.writeResult, h]

theorem Tile.writeResult_fcsr (h : r.dst = .fcsr) : t.writeResult r = { t with fmts := { t.fmts with fcsr := fcsrKept r.val } } := by
  simp only [Tile.writeResult, h]

theorem Tile.writeResult_sysreg {n : Nat} (h : r.dst = .sysreg n) : t.writeResult r = t.writeSys n r.val := by simp only [Tile.writeResult, h]

theorem Tile.writeResult_staging {n : Nat} {c : Bool} (h : r.dst = .staging n c) : t.writeResult r = { t with staging := putSBytes t.staging r.bytes } := by
  simp only [Tile.writeResult, h]

theorem Tile.writeResult_acc {k : Nat} {int clear : Bool} (h : r.dst = .acc k int clear) : t.writeResult r =
    t.setAcc k { t.acc k with elems := BitVec.ofNat 131072 r.val, int := int, flags := (if clear then 0 else (t.acc k).flags) ||| r.flags } := by
  simp only [Tile.writeResult, h]

theorem Tile.writeResult_accRow {k row : Nat} {int : Bool} (h : r.dst = .accRow k row int) : t.writeResult r =
    t.setAcc k { t.acc k with elems := BitVec.ofNat 131072 (setField (t.acc k).elems.toNat (2048 * row) 2048 r.val), int := int } := by
  simp only [Tile.writeResult, h]

theorem Tile.writeResult_accZero {k : Nat} (h : r.dst = .accZero k) : t.writeResult r = t.setAcc k { t.acc k with elems := 0, int := false, flags := 0 } := by
  simp only [Tile.writeResult, h]

theorem Tile.writeResult_accRetire {k : Nat} (h : r.dst = .accRetire k) : t.writeResult r = t.retire k r.seq := by simp only [Tile.writeResult, h]

theorem Tile.writeResult_buffer {k lo len : Nat} (h : r.dst = .buffer k lo len) : t.writeResult r =
    t.setBuf k { t.buf k with data := BitVec.ofNat 65536 (setField (t.buf k).data.toNat (8 * lo) (8 * len) r.val) } := by simp only [Tile.writeResult, h]

theorem Tile.writeResult_bufSlot {k q cont lvl slot : Nat} {lay : Bool} (h : r.dst = .bufSlot k q lay cont lvl slot) : t.writeResult r =
    t.bufferSlot k q lay cont lvl slot (natBytes 64 r.val) := by simp only [Tile.writeResult, h]

theorem Tile.writeResult_tag {k : Nat} {name : Option Nat} (h : r.dst = .tag k name) : t.writeResult r = t.stamp k name := by simp only [Tile.writeResult, h]

theorem Tile.writeResult_scale {name slot : Nat} {ip : Bool} (h : r.dst = .scale name slot ip) : t.writeResult r =
    if ip then t.setSlot slot { codes := BitVec.ofNat 1024 r.val, gen := ((t.scaleSlot slot).gen + 1) % 16 }
    else (t.setSlot slot { t.scaleSlot slot with codes := BitVec.ofNat 1024 r.val }).mapName name slot := by simp only [Tile.writeResult, h]

theorem Tile.writeResult_unpin {k : Nat} (h : r.dst = .unpin k) : t.writeResult r = t.setOhe k {} := by simp only [Tile.writeResult, h]

/-- A record entry lands as its load found it. -/
theorem Tile.writeResult_handle {k : Nat} {l : RecLoad} {e : OhEntry} (h : r.dst = .handle k) (hl : t.loads.find? (fun l => l.seq == r.seq) = some l) (hd : l.done = some e) :
    t.writeResult r = { t.setOhe k e with loads := t.loads.filter fun x => x.seq != r.seq } := by
  simp only [Tile.writeResult, h, hl, hd]

/-- A landing, of a result for no accumulator: what it writes, its flags, and its place among the results in flight. -/
theorem Tile.landResult_eq (h : ∀ k i c, r.dst ≠ .acc k i c) : t.landResult r = { (t.writeResult r).orFlags r.flags with flight := t.flight.filter fun x => x.seq != r.seq } := by
  unfold Tile.landResult
  dsimp only
  split
  · next k i c e => exact absurd e (h k i c)
  · rw [← Tile.writeResult_flight (t := t) (r := r)]
    rfl

/-- A result in flight lands, where its load has come, no row is brought about and no collision strikes. -/
theorem exec_resultLanding_lands (hf : (s.tile s.ev.tile).flight.find? (fun x => x.seq == s.ev.x) = some r) (hm : (s.tile s.ev.tile).loadMissing r = false)
    (hr : ∀ n, r.dst = .sysreg n → (s.tile s.ev.tile).sysRows s.ev.tile n r.val = []) (hs : ∀ n c, r.dst = .staging n c → ∀ b, s.struck s.ev.tile r.due b = false) :
    exec .resultLanding s = .next (s.setTile s.ev.tile ((s.tile s.ev.tile).landResult r)) := by
  have land : ∀ rows hit, rows = [] → hit = false → (s.setTile s.ev.tile ((s.tile s.ev.tile).landResult (if hit = true then { r with bytes := [] } else r))).push rows =
      s.setTile s.ev.tile ((s.tile s.ev.tile).landResult r) := by
    rintro _ _ rfl rfl
    rfl
  rw [exec_resultLanding, execResultLanding]
  simp only [hf, hm, Bool.false_eq_true, if_false]
  refine congrArg _ (land _ _ ?_ ?_)
  · split
    · next n e => exact hr n e
    · rfl
  · split
    · next n c e => simp [hs n c e]
    · rfl

/-- A destination whose landing writes it alone: no row is brought about, no load is awaited, no collision strikes it and its flags go to fcsr. -/
def Dest.plain : Dest → Bool
  | .acc _ _ _ | .handle _ | .sysreg _ | .staging _ _ => false
  | _ => true

/-- No load is awaited but where a record entry lands. -/
theorem Tile.loadMissing_eq_false (h : ∀ k, r.dst ≠ .handle k) : t.loadMissing r = false := by
  unfold Tile.loadMissing
  split
  · next k e => exact absurd e (h k)
  · rfl

/-- A result lands at a plain destination. -/
theorem exec_resultLanding_plain (hf : (s.tile s.ev.tile).flight.find? (fun x => x.seq == s.ev.x) = some r) (hp : r.dst.plain = true) {u : Tile}
    (hu : (s.tile s.ev.tile).writeResult r = u) :
    exec .resultLanding s = .next (s.setTile s.ev.tile { u.orFlags r.flags with flight := (s.tile s.ev.tile).flight.filter fun x => x.seq != r.seq }) := by
  have hne : ∀ {d : Dest}, d.plain = false → r.dst ≠ d := fun hd e => by rw [e, hd] at hp; exact absurd hp Bool.false_ne_true
  rw [exec_resultLanding_lands hf (Tile.loadMissing_eq_false fun k => hne rfl) (fun n e => absurd e (hne rfl)) (fun n c e => absurd e (hne rfl)),
    Tile.landResult_eq fun k i c => hne rfl, hu]

/-- No flags leave fcsr as it is. -/
theorem Tile.orFlags_zero (t : Tile) : t.orFlags 0 = t := by
  unfold Tile.orFlags
  rw [show t.fmts.fcsr ||| ((0 : FlagSet).setWidth 64 <<< 8) = t.fmts.fcsr by simp]

/-- A result without flags lands at a plain destination. -/
theorem exec_resultLanding_quiet (hf : (s.tile s.ev.tile).flight.find? (fun x => x.seq == s.ev.x) = some r) (hp : r.dst.plain = true) (h0 : r.flags = 0) {u : Tile}
    (hu : (s.tile s.ev.tile).writeResult r = u) :
    exec .resultLanding s = .next (s.setTile s.ev.tile { u with flight := (s.tile s.ev.tile).flight.filter fun x => x.seq != r.seq }) := by
  rw [exec_resultLanding_plain hf hp hu, h0, Tile.orFlags_zero]

/-- The numbers of the system registers whose writes bring about no row. -/
theorem Tile.sysRows_eq_nil {n : Nat} (v : Nat) (h : n ∉ [0x112, 0x113, 0x131, 0x146, 0x151]) (hc : ¬ (0x200 ≤ n ∧ n < 0x208)) : t.sysRows id n v = [] := by
  simp only [List.mem_cons, List.not_mem_nil, or_false, not_or] at h
  obtain ⟨h1, h2, h3, h4, h5⟩ := h
  rw [Tile.sysRows, if_neg h1, if_neg h2, if_neg h3, if_neg h4, if_neg h5, if_neg hc]

end

theorem resultsLandInRegisters : ResultsLandInRegisters := by
  intro s r id hf
  refine ⟨fun n h => ?_, fun n h => ⟨keepLanes r.keep (mapGet 0 (s.tile id).regs.v n) r.val, ?_, fun k hk => lane_keepLanes _ _ _ hk⟩,
    fun n h => ?_, fun h => ?_, fun h => ?_, fun n h h1 h2 => ?_⟩
  · exact exec_resultLanding_plain hf (by rw [h]; rfl) (Tile.writeResult_sreg h)
  · exact exec_resultLanding_plain hf (by rw [h]; rfl) (Tile.writeResult_vreg h)
  · exact exec_resultLanding_plain hf (by rw [h]; rfl) (Tile.writeResult_mk h)
  · exact exec_resultLanding_plain hf (by rw [h]; rfl) (Tile.writeResult_flagsOnly h)
  · exact exec_resultLanding_plain hf (by rw [h]; rfl) (Tile.writeResult_fcsr h)
  · have rows : ∀ m, r.dst = .sysreg m → (s.tile id).sysRows id m r.val = [] := fun m e => by
      rw [h] at e
      cases e
      exact Tile.sysRows_eq_nil _ h1 h2
    rw [exec_resultLanding_lands hf (Tile.loadMissing_eq_false (by simp [h])) rows (by simp [h]), Tile.landResult_eq (by simp [h]), Tile.writeResult_sysreg h]
    rfl

/-- Whole bytes at rising addresses are a run. -/
theorem contiguous_bytesAt (a n v : Nat) : contiguous a (bytesAt a n v) = true := by
  induction n generalizing a v with
  | zero => rfl
  | succ n ih =>
    have e : bytesAt a (n + 1) v = ⟨a, 0xFF, BitVec.ofNat 8 v⟩ :: bytesAt (a + 1) n (v / 256) := by
      unfold bytesAt
      rw [List.range_succ_eq_map, List.map_cons, List.map_map]
      simp [Function.comp_def, pow_succ', Nat.div_div_eq_div_mul, Nat.add_assoc, Nat.add_comm 1]
    rw [e, contiguous, ih]
    simp

/-- A run of whole bytes is written as one. -/
theorem putSBytes_eq_of_contiguous (m : Mem) (a : Nat) (b : SByte) (bs : List SByte) (h : contiguous a (b :: bs) = true) :
    putSBytes m (b :: bs) = memPutRange m a ((b :: bs).map SByte.val) := by
  have ha : b.addr = a := by
    rw [contiguous, Bool.and_eq_true, Bool.and_eq_true, beq_iff_eq] at h
    obtain ⟨⟨ha, -⟩, -⟩ := h
    exact ha
  subst ha
  rw [putSBytes, if_pos h]

/-- The byte of a write of n whole bytes that stands at an address of it. -/
theorem memGet_putSBytes_bytesAt (m : Mem) (a v : Nat) {n k : Nat} (hk : k < n) : memGet (putSBytes m (bytesAt a n v)) (a + k) = BitVec.ofNat 8 (v / 256 ^ k) := by
  have hlen : (bytesAt a n v).length = n := by simp [bytesAt]
  have hval : (bytesAt a n v).map SByte.val = (List.range n).map fun k => BitVec.ofNat 8 (v / 256 ^ k) := by simp [bytesAt, Function.comp_def]
  have hput : putSBytes m (bytesAt a n v) = memPutRange m a ((bytesAt a n v).map SByte.val) := by
    have hc := contiguous_bytesAt a n v
    cases hb : bytesAt a n v with
    | nil => rw [hb, List.length_nil] at hlen; omega
    | cons b bs => rw [hb] at hc; exact putSBytes_eq_of_contiguous m a b bs hc
  rw [hput, hval, memGet_memPutRange_in _ _ _ _ (by simpa using hk)]
  simp [hk]

theorem storesLandInStaging : StoresLandInStaging := by
  intro s r code cap a n v id hf hd hbytes h0 hw hs
  refine ⟨putSBytes (s.tile id).staging r.bytes, putSBytes_wf _ _ hw, ?_, fun k hk => ?_, fun b hb => ?_⟩
  · rw [exec_resultLanding_lands hf (Tile.loadMissing_eq_false (by simp [hd])) (by simp [hd]) (fun _ _ _ => hs), Tile.landResult_eq (by simp [hd]), Tile.writeResult_staging hd, h0,
      Tile.orFlags_zero]
  · rw [hbytes, memGet_putSBytes_bytesAt _ _ _ hk]
  · rw [hbytes]
    refine memGet_putSBytes_out _ _ _ fun x hx => ?_
    obtain ⟨k, hk, rfl⟩ := List.mem_map.mp hx
    have := List.mem_range.mp hk
    show b ≠ a + k
    omega

theorem maskStackLands : MaskStackLands := by
  intro s r n id t hf hd h0 hn
  refine ⟨if n = 0 then [] else BitVec.ofNat 64 r.val :: t.regs.ms.drop (t.regs.ms.length - (n - 1)),
    exec_resultLanding_quiet hf (by rw [hd]; rfl) h0 (Tile.writeResult_mstack hd), ?_, fun h => ?_, ?_⟩
  · split
    · next h => exact h.symm
    · rw [List.length_cons, List.length_drop]
      omega
  · rw [if_neg (by omega), List.head?_cons]
  · split
    · next h => rw [h, List.drop_nil, List.drop_eq_nil_of_le (by omega)]
    · rw [List.drop_one, List.tail_cons]
      congr 1
      omega

/-- An element of an accumulator after a row of it lands. -/
theorem accElem_setRow (x v : Nat) {row j : Nat} (hj : j < 4096) :
    accElem (BitVec.ofNat 131072 (setField x (2048 * row) 2048 v)).toNat j = if j / 64 = row then accElem v (j % 64) else accElem x j := by
  unfold accElem
  rw [window_ofNat _ (by omega)]
  split
  · rw [window_setField_in _ _ (by omega) (by omega), show 32 * j - 2048 * row = 32 * (j % 64) by omega]
  · rw [window_setField_out _ _ (by omega)]

/-- A byte of a buffer after some bytes of it land. -/
theorem byte_setBytes (x v : Nat) {lo len j : Nat} (hj : j < 8192) :
    (BitVec.ofNat 65536 (setField x (8 * lo) (8 * len) v)).toNat / 256 ^ j % 256 = if lo ≤ j ∧ j < lo + len then v / 256 ^ (j - lo) % 256 else x / 256 ^ j % 256 := by
  have e : ∀ i, 256 ^ i = 2 ^ (8 * i) := fun i => by rw [show (256 : Nat) = 2 ^ 8 from rfl, ← pow_mul]
  rw [e, e, show (256 : Nat) = 2 ^ 8 from rfl, window_ofNat _ (by omega)]
  split
  · rw [window_setField_in _ _ (by omega) (by omega), show 8 * j - 8 * lo = 8 * (j - lo) by omega]
  · rw [window_setField_out _ _ (by omega)]

theorem matrixResultsLand : MatrixResultsLand := by
  intro s r id t hf lands
  have quiet : ∀ {u : Tile}, r.dst.plain = true → r.flags = 0 → t.writeResult r = u → lands u := fun hp h0 hu => exec_resultLanding_quiet hf hp h0 hu
  refine ⟨fun k int clear h => ?_, fun h0 => ⟨fun k row int _ h => ⟨_, quiet (by rw [h]; rfl) h0 (Tile.writeResult_accRow h), fun j hj => accElem_setRow _ _ hj⟩,
    fun k h => quiet (by rw [h]; rfl) h0 (Tile.writeResult_accZero h), fun k h => ⟨_, quiet (by rw [h]; rfl) h0 (Tile.writeResult_accRetire h), rfl⟩,
    fun k lo len hl h => ⟨_, quiet (by rw [h]; rfl) h0 (Tile.writeResult_buffer h), fun j hj => byte_setBytes _ _ hj⟩,
    fun k q lay cont lvl slot h => quiet (by rw [h]; rfl) h0 ?_, fun k h => quiet (by rw [h]; rfl) h0 (Tile.writeResult_tag h),
    fun k n h => quiet (by rw [h]; rfl) h0 (Tile.writeResult_tag h), fun name slot h => quiet (by rw [h]; rfl) h0 (Tile.writeResult_scale h),
    fun name slot h => quiet (by rw [h]; rfl) h0 (Tile.writeResult_scale h)⟩⟩
  · have hl : t.landResult r = { t.writeResult r with flight := t.flight.filter fun x => x.seq != r.seq } := by
      rw [← Tile.writeResult_flight (t := t) (r := r)]
      simp only [Tile.landResult, h]
    show exec .resultLanding s = _
    rw [exec_resultLanding_lands hf (Tile.loadMissing_eq_false (by simp [h])) (by simp [h]) (by simp [h]), show (s.tile s.ev.tile).landResult r = _ from hl, Tile.writeResult_acc h]
  · rw [← natBytes_eq]
    exact Tile.writeResult_bufSlot h

end Sys2Proof.Machine
end

section
/-!
SUPPORT. Record loads (R197, R198, R200) and the landing of record entries (R218).
-/

namespace Sys2Proof.Machine

open Sys2Proof.Claims

/-! ### The checks of a record leave its companion's word aside -/

section
variable (r : List Word)

theorem recWord_set_ne {w k : Nat} (x : Word) (h : w ≠ k) : recWord (r.set k x) w = recWord r w := by
  rw [recWord, recWord, List.getD_eq_getElem?_getD, List.getD_eq_getElem?_getD, List.getElem?_set_ne h.symm]

theorem recBits_set_ne {w k : Nat} (x : Word) (hi lo : Nat) (h : w ≠ k) : recBits (r.set k x) w hi lo = recBits r w hi lo := by
  rw [recBits, recBits, recWord_set_ne r x h]

/-- Word 11 of a record with that word cleared. -/
theorem recWord_clear : recWord (r.set 11 0) 11 = 0 := by
  rw [recWord, List.getD_eq_getElem?_getD, List.getElem?_set_self']
  cases r[11]? <;> rfl

theorem recSix_clear {w i : Nat} (hw : w ≤ 4) (hi : i < 6) : recSix (r.set 11 0) w i = recSix r w i := by
  rw [recSix, recSix, recBits_set_ne r 0 31 0 (show w + i / 2 ≠ 11 by omega), recBits_set_ne r 0 63 32 (show w + i / 2 ≠ 11 by omega)]

theorem recExtent_clear {i : Nat} (hi : i < 6) : recExtent (r.set 11 0) i = recExtent r i := recSix_clear r (by omega) hi

theorem recStride_clear {i : Nat} (hi : i < 6) : recStride (r.set 11 0) i = recStride r i := recSix_clear r (by omega) hi

theorem recState_clear : recState (r.set 11 0) = recState r := recBits_set_ne r 0 _ _ (by omega)

theorem recProt_clear : recProt (r.set 11 0) = recProt r := recBits_set_ne r 0 _ _ (by omega)

theorem recTiles_clear : recTiles (r.set 11 0) = recTiles r := recBits_set_ne r 0 _ _ (by omega)

theorem recBeta_clear : recBeta (r.set 11 0) = recBeta r := congrArg (· + 1) (recBits_set_ne r 0 _ _ (by omega))

theorem brickExtent_clear (nib : Bool) {i : Nat} (hi : i < 6) : brickExtent (r.set 11 0) nib i = brickExtent r nib i := by
  rw [brickExtent, brickExtent, recBits_set_ne r 0 _ _ (by omega), recProt_clear, recExtent_clear r (by omega), recExtent_clear r (by omega), recExtent_clear r hi]

/-- A sum over the six dimensions of a record does not read word 11. -/
theorem sum_clear {f g : Nat → Nat} (h : ∀ i < 6, f i = g i) : ((List.range 6).map f).sum = ((List.range 6).map g).sum :=
  congrArg List.sum (List.map_congr_left fun i hi => h i (List.mem_range.mp hi))

theorem localMax_clear (nib : Bool) : localMax (r.set 11 0) nib = localMax r nib := by
  rw [localMax, localMax, recBeta_clear, recTiles_clear, show gMax (r.set 11 0) nib = gMax r nib from
    sum_clear fun i hi => by rw [brickExtent_clear r nib hi, recStride_clear r hi]]

/-- A record is usable whatever companion its word 11 names. -/
theorem recUsable_clear (nib : Bool) (tiles : Nat) : recUsable (r.set 11 0) nib tiles = recUsable r nib tiles := by
  have hsum := sum_clear fun i hi => congrArg ceilLog2 (brickExtent_clear r nib (i := i) hi)
  have hall : ∀ q : Nat → Bool, ((List.range 6).all fun i => decide (1 ≤ recExtent (r.set 11 0) i) && (q i || recExtent (r.set 11 0) i == 1)) =
      (List.range 6).all fun i => decide (1 ≤ recExtent r i) && (q i || recExtent r i == 1) := fun q => by
    rw [Bool.eq_iff_iff, List.all_eq_true, List.all_eq_true]
    refine forall₂_congr fun i hi => ?_
    rw [recExtent_clear r (List.mem_range.mp hi)]
  unfold recUsable
  simp only [recState_clear, recProt_clear, recTiles_clear, localMax_clear, hsum, hall, recBits_set_ne r 0 _ _ (show 0 ≠ 11 by omega),
    recBits_set_ne r 0 _ _ (show 7 ≠ 11 by omega), recBits_set_ne r 0 _ _ (show 8 ≠ 11 by omega), recBits_set_ne r 0 _ _ (show 12 ≠ 11 by omega)]

end

/-! ### What the checks find -/

section
variable {ctx : Context} {pos tiles v : Nat} {nib : Bool} {r x : List Word}

theorem pinOutcome_names : (pinOutcome ctx pos tiles v nib r x).id = v % 2 ^ 16 ∧ (pinOutcome ctx pos tiles v nib r x).gen = v / 2 ^ 16 % 2 ^ 16 ∧
    (pinOutcome ctx pos tiles v nib r x).nib = nib := by
  unfold pinOutcome
  dsimp only
  repeat' split
  all_goals exact ⟨rfl, rfl, rfl⟩

/-- A number past the table, or no number, fails first. -/
theorem pinOutcome_outside (h : ctx.objLen ≤ v % 2 ^ 16 ∨ 2 ^ 32 ≤ v) : pinOutcome ctx pos tiles v nib r x =
    { est := 2, why := 1, id := v % 2 ^ 16, gen := v / 2 ^ 16 % 2 ^ 16, nib := nib } :=
  if_pos (h.imp id fun h => by omega)

section
variable (hi : v % 2 ^ 16 < ctx.objLen) (hv : v < 2 ^ 32)
include hi hv

theorem pinOutcome_free (h : recState r = 0) : pinOutcome ctx pos tiles v nib r x =
    { est := 2, why := 2, id := v % 2 ^ 16, gen := v / 2 ^ 16 % 2 ^ 16, nib := nib } := by
  exact (if_neg (by omega)).trans (if_pos h)

theorem pinOutcome_stale (h : recState r ≠ 0) (hg : recBits r 0 31 16 ≠ v / 2 ^ 16 % 2 ^ 16) : pinOutcome ctx pos tiles v nib r x =
    { est := 2, why := 3, id := v % 2 ^ 16, gen := v / 2 ^ 16 % 2 ^ 16, nib := nib } := by
  exact (if_neg (by omega)).trans ((if_neg h).trans (if_pos hg))

theorem pinOutcome_checked (h : recState r ≠ 0) (hg : recBits r 0 31 16 = v / 2 ^ 16 % 2 ^ 16) : pinOutcome ctx pos tiles v nib r x =
    if recUsable r nib tiles && companionOk r x ctx.objLen then
      { est := 1, id := v % 2 ^ 16, gen := v / 2 ^ 16 % 2 ^ 16, nib := nib, words := r,
        wm := if recState r = 2 then mapGet (recBits r 12 63 32) ctx.wmks (wmKey pos (v % 2 ^ 16)) else 0 }
    else { est := 2, why := 4, id := v % 2 ^ 16, gen := v / 2 ^ 16 % 2 ^ 16, nib := nib } := by
  exact (if_neg (by omega)).trans ((if_neg h).trans (if_neg (not_not.mpr hg)))

/-- A record within the table is established where it passes every check. -/
theorem pinOutcome_est : (pinOutcome ctx pos tiles v nib r x).est = 1 ↔
    recState r ≠ 0 ∧ recBits r 0 31 16 = v / 2 ^ 16 % 2 ^ 16 ∧ recUsable r nib tiles = true ∧ companionOk r x ctx.objLen = true := by
  by_cases h : recState r = 0
  · simp [pinOutcome_free hi hv h, h]
  by_cases hg : recBits r 0 31 16 = v / 2 ^ 16 % 2 ^ 16
  · rw [pinOutcome_checked hi hv h hg, ← Bool.and_eq_true]
    split
    · next hc => simp [h, hg, hc]
    · next hc => simp [hc]
  · rw [pinOutcome_stale hi hv h hg]
    exact iff_of_false (Nat.succ_ne_self 1) fun ⟨_, h, _⟩ => hg h

end

/-- The record alone passes its checks. -/
theorem pinOutcome_alone_est (hi : v % 2 ^ 16 < ctx.objLen) (hv : v < 2 ^ 32) : (pinOutcome ctx pos tiles v nib (r.set 11 0) []).est = 1 ↔
    recState r ≠ 0 ∧ recBits r 0 31 16 = v / 2 ^ 16 % 2 ^ 16 ∧ recUsable r nib tiles = true := by
  have hc : companionOk (r.set 11 0) [] ctx.objLen = true := by
    rw [companionOk, recWord_clear]
    rfl
  rw [pinOutcome_est hi hv, recState_clear, recBits_set_ne r 0 _ _ (show 0 ≠ 11 by omega), recUsable_clear, hc]
  simp

end

/-! ### The reads of a record load -/

section
variable {s u w : State} {m tiles v : Nat} {id : TileId} {nib : Bool} {r x : List Word}

theorem State.pin_outside (h : (s.ctx m).objLen ≤ v % 2 ^ 16 ∨ 2 ^ 32 ≤ v) :
    s.pin m id tiles v nib = (s, { est := 2, why := 1, id := v % 2 ^ 16, gen := v / 2 ^ 16 % 2 ^ 16, nib := nib }) := by
  unfold State.pin
  dsimp only
  rw [pinOutcome_outside h]
  exact if_pos rfl

section
variable (hi : v % 2 ^ 16 < (s.ctx m).objLen) (hv : v < 2 ^ 32)
include hi hv

/-- Within the table the record is read. -/
theorem pin_reads : (pinOutcome (s.ctx m) (posOfTile (s.ctx m).die0 (s.ctx m).shape id) tiles v nib [] []).why ≠ 1 := by
  rw [pinOutcome_free hi hv rfl]
  exact Nat.succ_ne_self 1

/-- The companion is read where the record has one in the table, and passes its checks alone. -/
theorem pin_reads_companion : (!bitOf (recWord r 11) 32 || decide ((s.ctx m).objLen ≤ recBits r 11 15 0) ||
      (pinOutcome (s.ctx m) (posOfTile (s.ctx m).die0 (s.ctx m).shape id) tiles v nib (r.set 11 0) []).est != 1) = false ↔
    recWord r 11 / 2 ^ 32 % 2 = 1 ∧ recWord r 11 % 2 ^ 16 < (s.ctx m).objLen ∧ recState r ≠ 0 ∧ recBits r 0 31 16 = v / 2 ^ 16 % 2 ^ 16 ∧ recUsable r nib tiles = true := by
  rw [Bool.or_eq_false_iff, Bool.or_eq_false_iff, Bool.not_eq_false', bitOf, beq_iff_eq, decide_eq_false_iff_not, not_le, bne_eq_false_iff_eq, pinOutcome_alone_est hi hv,
    recBits, field, pow_zero, Nat.div_one, and_assoc]

theorem State.pin_lost (hq : s.recordRead m (dieOf id) (v % 2 ^ 16) = (u, none)) :
    s.pin m id tiles v nib = (u, { est := 2, why := 5, id := v % 2 ^ 16, gen := v / 2 ^ 16 % 2 ^ 16, nib := nib }) := by
  unfold State.pin
  simp only [if_neg (pin_reads hi hv), show s.recordRead m (dieOf id) (v % 65536) = _ from hq, Nat.reducePow]

/-- The companion is left unread where the record has none in the table, or fails its checks alone. -/
theorem State.pin_alone (hq : s.recordRead m (dieOf id) (v % 2 ^ 16) = (u, some r))
    (h : recWord r 11 / 2 ^ 32 % 2 = 0 ∨ (s.ctx m).objLen ≤ recWord r 11 % 2 ^ 16 ∨ recState r = 0 ∨ recBits r 0 31 16 ≠ v / 2 ^ 16 % 2 ^ 16 ∨ recUsable r nib tiles = false) :
    s.pin m id tiles v nib = (u, pinOutcome (s.ctx m) (posOfTile (s.ctx m).die0 (s.ctx m).shape id) tiles v nib r []) := by
  have hno := (not_congr (pin_reads_companion (nib := nib) (tiles := tiles) (r := r) (id := id) hi hv)).mpr (by
    rintro ⟨h1, h2, h3, h4, h5⟩
    rcases h with h | h | h | h | h
    · omega
    · omega
    · exact h3 h
    · exact h h4
    · exact absurd (h5.symm.trans h) (by decide))
  unfold State.pin
  simp only [if_neg (pin_reads hi hv), show s.recordRead m (dieOf id) (v % 65536) = _ from hq, Bool.eq_true_of_not_eq_false hno, if_true]

/-- The companion is read, and may be lost. -/
theorem State.pin_companion (hq : s.recordRead m (dieOf id) (v % 2 ^ 16) = (u, some r)) (hb : recWord r 11 / 2 ^ 32 % 2 = 1)
    (hk : recWord r 11 % 2 ^ 16 < (s.ctx m).objLen) (hr : recState r ≠ 0) (hg : recBits r 0 31 16 = v / 2 ^ 16 % 2 ^ 16) (hu : recUsable r nib tiles = true)
    {o : Option (List Word)} (hw : u.recordRead m (dieOf id) (recWord r 11 % 2 ^ 16) = (w, o)) :
    s.pin m id tiles v nib = (w, o.elim { est := 2, why := 5, id := v % 2 ^ 16, gen := v / 2 ^ 16 % 2 ^ 16, nib := nib }
      fun x => pinOutcome (s.ctx m) (posOfTile (s.ctx m).die0 (s.ctx m).shape id) tiles v nib r x) := by
  have hyes := (pin_reads_companion (nib := nib) (tiles := tiles) (r := r) (id := id) hi hv).mpr ⟨hb, hk, hr, hg, hu⟩
  have hk' : recBits r 11 15 0 = recWord r 11 % 2 ^ 16 := by rw [recBits, field, pow_zero, Nat.div_one]
  unfold State.pin
  simp only [if_neg (pin_reads hi hv), show s.recordRead m (dieOf id) (v % 65536) = _ from hq, hyes, Bool.false_eq_true, if_false]
  rw [hk', hw]
  cases o <;> rfl

end
end

/-! ### The record-load agent -/

section
variable {s : State}

/-- A vault read leaves the event in hand. -/
theorem State.ev_recordRead (m die i : Nat) : (s.recordRead m die i).1.ev = s.ev := by
  unfold State.recordRead
  split
  · rfl
  · next t o _ =>
    obtain ⟨-, -, hev, -⟩ := State.calm_vaultRead (s := s) (t := sameSpot t die) (req := 1) (o := o + 128 * i) (n := 128)
    split <;> (next e => rw [e] at hev; exact hev)

/-- A record load leaves the event in hand. -/
theorem State.ev_pin (m : Nat) (id : TileId) (tiles v : Nat) (nib : Bool) : (s.pin m id tiles v nib).1.ev = s.ev := by
  unfold State.pin
  dsimp only
  split
  · rfl
  have h1 := s.ev_recordRead m (dieOf id) (v % 65536)
  split
  · next e => rw [e] at h1; exact h1
  · next u r e =>
    rw [e] at h1
    split
    · exact h1
    · have h2 := u.ev_recordRead m (dieOf id) (recBits r 11 15 0)
      split <;> (next e => rw [e] at h2; exact h2.trans h1)

variable {n : Nat} {k : Kernel} {l : RecLoad}

theorem recordLoaded_eq (hk : s.kernelOf s.ev.tile = some (n, k)) (hl : (s.tile s.ev.tile).loads.find? (fun l => l.seq == s.ev.x) = some l) :
    recordLoaded s = (s.pin k.ctx s.ev.tile (256 * shapeDies k.shape) l.v l.nib).1.updTile s.ev.tile fun t =>
      { t with loads := t.loads.map fun x => if x.seq = l.seq then { x with done := some (s.pin k.ctx s.ev.tile (256 * shapeDies k.shape) l.v l.nib).2 } else x } := by
  simp only [recordLoaded, hk, hl]

/-- A granted load has its outcome, where no hold for record loads stands. -/
theorem exec_recordLoadComplete_given (hg : s.ev.grant = .given) (hk : s.kernelOf s.ev.tile = some (n, k))
    (hl : (s.tile s.ev.tile).loads.find? (fun l => l.seq == s.ev.x) = some l) {k' : Kernel}
    (hk' : (s.pin k.ctx s.ev.tile (256 * shapeDies k.shape) l.v l.nib).1.kernelOf s.ev.tile = some (n, k')) (h5 : 5 ∉ k'.holds) :
    exec .recordLoadComplete s = .next (recordLoaded s) := by
  have hnot : k'.holds.contains 5 = false := by simpa using h5
  have hev : (recordLoaded s).ev = s.ev := by
    rw [recordLoaded_eq hk hl]
    exact s.ev_pin ..
  have hof : (recordLoaded s).kernelOf s.ev.tile = some (n, k') := by
    rw [recordLoaded_eq hk hl]
    exact hk'
  rw [exec_recordLoadComplete, execRecordLoadComplete, State.served, hg]
  simp only [hev, hof, hnot, Bool.false_and, Bool.false_eq_true, if_false]

/-- A fresh load asks for its transfers. -/
theorem exec_recordLoadComplete_fresh (hg : s.ev.grant = .fresh) (hk : s.kernelOf s.ev.tile = some (n, k))
    (hl : (s.tile s.ev.tile).loads.find? (fun l => l.seq == s.ev.x) = some l) (hne : s.recordNeeds k.ctx (dieOf s.ev.tile) l.v ≠ []) :
    exec .recordLoadComplete s = .next (s.ask 2 { i := .recordLoadComplete, arg := s.ev } (s.recordNeeds k.ctx (dieOf s.ev.tile) l.v)) := by
  have hneeds : s.loadNeeds = s.recordNeeds k.ctx (dieOf s.ev.tile) l.v := by simp only [State.loadNeeds, hk, hl]
  rw [exec_recordLoadComplete, execRecordLoadComplete, State.served, hg]
  simp only [hneeds, List.isEmpty_iff, if_neg hne]

theorem State.recordRead_none {m die i : Nat} (h : (s.ctx m).tablePlace = none) : s.recordRead m die i = (s, some (mapGet [] (s.ctx m).objs i)) := by
  rw [State.recordRead, h]

/-- A record in a vault is read from the copy of the die's own. -/
theorem State.recordRead_vault {m die i o : Nat} {a : TileId} (h : (s.ctx m).tablePlace = some (a, o)) :
    s.recordRead m die i = ((s.vaultRead (sameSpot a die) 1 (o + 128 * i) 128).1, match (s.vaultRead (sameSpot a die) 1 (o + 128 * i) 128).2 with
      | .error _ => none
      | .ok bs => some (wordsOf bs)) := by
  simp only [State.recordRead, h]
  split <;> next e => rw [e]

/-- The entry of a load that has come lands as the load found it. -/
theorem exec_resultLanding_handle {r : Result} {h : Nat} {e : OhEntry} (hf : (s.tile s.ev.tile).flight.find? (fun x => x.seq == s.ev.x) = some r) (h0 : r.flags = 0)
    (hd : r.dst = .handle h) (hone : ∀ y ∈ (s.tile s.ev.tile).loads, y.seq = r.seq → y = l) (hl : l ∈ (s.tile s.ev.tile).loads) (hs : l.seq = r.seq) (he : l.done = some e) :
    exec .resultLanding s = .next (s.setTile s.ev.tile { (s.tile s.ev.tile).setOhe h e with
      flight := (s.tile s.ev.tile).flight.filter fun x => x.seq != r.seq, loads := (s.tile s.ev.tile).loads.filter fun x => x.seq != r.seq }) := by
  have hfind : (s.tile s.ev.tile).loads.find? (fun l => l.seq == r.seq) = some l := by
    obtain ⟨y, hy⟩ := Option.isSome_iff_exists.mp (List.find?_isSome.mpr ⟨l, hl, beq_iff_eq.mpr hs⟩ : ((s.tile s.ev.tile).loads.find? fun l => l.seq == r.seq).isSome = true)
    rw [hy, hone y (List.mem_of_find?_eq_some hy) (by simpa using List.find?_some hy)]
  have hcome : (s.tile s.ev.tile).loadMissing r = false := by
    simp only [Tile.loadMissing, hd, List.any_eq_false, Bool.and_eq_true, beq_iff_eq, not_and]
    intro y hy hys
    rw [hone y hy hys, he]
    exact Bool.false_ne_true
  rw [exec_resultLanding_lands hf hcome (by simp [hd]) (by simp [hd]), Tile.landResult_eq (by simp [hd]), Tile.writeResult_handle hd hfind he, h0, Tile.orFlags_zero]

/-- The partition waits in its hold for a load that has not come. -/
theorem exec_resultLanding_awaits {r : Result} {h : Nat} (hf : (s.tile s.ev.tile).flight.find? (fun x => x.seq == s.ev.x) = some r)
    (hd : r.dst = .handle h) (hl : l ∈ (s.tile s.ev.tile).loads) (hs : l.seq = r.seq) (he : l.done = none) (hk : s.kernelOf s.ev.tile = some (n, k)) (h5 : 5 ∈ k.holds) :
    exec .resultLanding s = .next s := by
  have hmiss : (s.tile s.ev.tile).loadMissing r = true := by
    simp only [Tile.loadMissing, hd, List.any_eq_true]
    exact ⟨l, hl, by simp [hs, he]⟩
  rw [exec_resultLanding, execResultLanding]
  simp only [hf, hmiss, if_true, hk, List.contains_iff_mem.mpr h5]

end

/-- What the pin checks find, in their order. -/
theorem pinOutcome_order (ctx : Context) (pos tiles v : Nat) (nib : Bool) (r x : List Word) (hi : v % 2 ^ 16 < ctx.objLen) (hv : v < 2 ^ 32) :
    let o := pinOutcome ctx pos tiles v nib r x
    (recState r = 0 → o.est = 2 ∧ o.why = 2) ∧
    (recState r ≠ 0 → recBits r 0 31 16 ≠ v / 2 ^ 16 % 2 ^ 16 → o.est = 2 ∧ o.why = 3) ∧
    (recState r ≠ 0 → recBits r 0 31 16 = v / 2 ^ 16 % 2 ^ 16 →
      if recUsable r nib tiles && companionOk r x ctx.objLen then o.est = 1 ∧ o.why = 0 ∧ o.words = r ∧
        (recState r = 2 → o.wm = mapGet (recWord r 12 / 2 ^ 32) ctx.wmks (pos * 2 ^ 16 + v % 2 ^ 16)) else o.est = 2 ∧ o.why = 4) := by
  refine ⟨fun h => ?_, fun h hg => ?_, fun h hg => ?_⟩
  · rw [pinOutcome_free hi hv h]
    exact ⟨rfl, rfl⟩
  · rw [pinOutcome_stale hi hv h hg]
    exact ⟨rfl, rfl⟩
  · rw [pinOutcome_checked hi hv h hg]
    split
    · have hw : recBits r 12 63 32 = recWord r 12 / 2 ^ 32 := Nat.mod_eq_of_lt (by have := (r.getD 12 0).isLt; unfold recWord; omega)
      refine ⟨rfl, rfl, rfl, fun h2 => ?_⟩
      rw [← hw]
      exact if_pos h2
    · exact ⟨rfl, rfl⟩

theorem recordCacheLands : RecordCacheLands := by
  intro s id t
  refine ⟨?_, fun n k l hg hk hl hne => exec_recordLoadComplete_fresh hg hk hl hne,
    fun m die i => ⟨State.recordRead_none, fun a o => State.recordRead_vault⟩, ?_, ?_, fun r l hf h0 => ⟨?_, ?_, ?_⟩⟩
  · intro n k l hg hk hl p k' hk' h5
    rw [exec_recordLoadComplete_given hg hk hl hk' h5, recordLoaded_eq hk hl]
    rfl
  · intro m tiles v nib
    refine ⟨State.pin_outside, fun hi hv => ⟨fun h => State.pin_lost hi hv (Prod.ext rfl h), fun r h => ⟨State.pin_alone hi hv (Prod.ext rfl h),
      fun hb hk hr hg hu => ⟨fun hw => ?_, fun x hw => ?_⟩⟩⟩⟩
    · exact State.pin_companion hi hv (Prod.ext rfl h) hb hk hr hg hu (o := none) (Prod.ext rfl hw)
    · exact State.pin_companion hi hv (Prod.ext rfl h) hb hk hr hg hu (o := some x) (Prod.ext rfl hw)
  · intro ctx pos tiles v nib r x
    obtain ⟨hid, hgen, hnib⟩ := pinOutcome_names (ctx := ctx) (pos := pos) (tiles := tiles) (v := v) (nib := nib) (r := r) (x := x)
    exact ⟨hid, hgen, hnib, fun h => by rw [pinOutcome_outside h]; exact ⟨rfl, rfl⟩, pinOutcome_order ctx pos tiles v nib r x⟩
  · exact fun h hd => exec_resultLanding_quiet hf (by rw [hd]; rfl) h0 (Tile.writeResult_unpin hd)
  · exact fun h e hd hone hl hs he => exec_resultLanding_handle hf h0 hd hone hl hs he
  · exact fun h n k hd hl hs he hk h5 => exec_resultLanding_awaits hf hd hl hs he hk h5

/-- Settles O14: results land in registers, staging, masks, accumulators and record entries, each part by what its landing writes. -/
theorem resultsLand : Obligations.ResultsLand :=
  ⟨resultsLandInRegisters, storesLandInStaging, maskStackLands, matrixResultsLand, recordCacheLands⟩

end Sys2Proof.Machine
end

section
/-!
SUPPORT. The issue of a bundle of a timetabled kernel and its end (R35, R60, R95, R322, R333), and handler bundles (R129, R408).
-/

namespace Sys2Proof.Machine

open Sys2Proof.Claims

section
variable {s : State} {t : Tile} {id : TileId} {n c : Nat} {k : Kernel}

/-! ### The bundle due -/

/-- The state in which the bundle due at a tile issues its slots. -/
def State.inBundle (s : State) (id : TileId) (c gap : Nat) : State :=
  { s with cur := { tile := id, now := c, pc := (s.tile id).flow.pc, gap := gap, handler := false, pre := s.tile id } }

theorem State.issueCtx_eq (s : State) (id : TileId) (c gap : Nat) : s.issueCtx id c gap = (s.inBundle id c gap).slotCtx := rfl

theorem State.variant_inBundle {gap : Nat} (hk : s.kernelOf id = some (n, k)) : (s.inBundle id c gap).slotCtx.variant = k.variant := by
  rw [Ctx.variant, show (s.inBundle id c gap).slotCtx.kernel = some (n, k) from hk]

theorem State.portable_inBundle {gap : Nat} (hk : s.kernelOf id = some (n, k)) (hp : k.img.portable = false) : (s.inBundle id c gap).slotCtx.portable = false := by
  rw [Ctx.portable, show (s.inBundle id c gap).slotCtx.kernel = some (n, k) from hk]
  exact (congrArg (· && _) hp).trans (Bool.false_and _)

theorem State.privileged_inBundle {gap : Nat} (hk : s.kernelOf id = some (n, k)) : (s.inBundle id c gap).slotCtx.privileged = k.img.priv := by
  rw [Ctx.privileged, show (s.inBundle id c gap).slotCtx.kernel = some (n, k) from hk]
  exact Bool.false_or _

theorem exec_bundleIssue_due (hk : s.kernelOf s.ev.tile = some (n, k)) (hh : k.holds = []) (hy : s.ev.y = 0) :
    exec .bundleIssue s = .next (s.issueBundle s.ev.tile k.cycle) := by
  rw [exec_bundleIssue, execBundleIssue]
  simp only [hk, hy, hh]
  rfl

theorem State.issueBundle_bad {x : Nat} (h : mapFind (s.tile id).imem.bad (s.tile id).flow.pc.seg = some x) :
    s.issueBundle id c = ({ s with todo := [] } : State).takeTrap id (s.tile id) causeData 0 x c 0 true := by
  simp only [State.issueBundle, h]

section
variable (hbad : mapFind (s.tile id).imem.bad (s.tile id).flow.pc.seg = none) (hstop : (s.tile id).stopBefore = none) (hk : s.kernelOf id = some (n, k))
include hbad hstop hk

theorem State.issueBundle_illegal {info : Nat} (hf : (s.tile id).fetch k.variant (s.tile id).flow.pc = .illegal info) :
    s.issueBundle id c = s.bundleTrap id (s.tile id) causeIndex 0 info c := by
  simp only [State.issueBundle, hbad, hstop, State.issueCtx_eq, State.variant_inBundle hk, hf]

variable {b : Bundle} {esc : Bool} (hf : (s.tile id).fetch k.variant (s.tile id).flow.pc = .bundle b esc)
include hf

theorem State.issueBundle_error {p : Nat} (hr : (s.issueCtx id c 0).readBundle (s.tile id).popped b = .error p) :
    s.issueBundle id c = s.bundleTrap id (s.tile id) causeEncoding p p c := by
  rw [State.issueCtx_eq] at hr
  simp only [State.issueBundle, hbad, hstop, State.issueCtx_eq, State.variant_inBundle hk, hf, hr]

theorem State.issueBundle_ok {h : Header} {is : List (Part × Instr)} (hr : (s.issueCtx id c 0).readBundle (s.tile id).popped b = .ok (h, is)) :
    s.issueBundle id c = s.startBundle id c h is := by
  rw [State.issueCtx_eq] at hr
  simp only [State.issueBundle, hbad, hstop, State.issueCtx_eq, State.variant_inBundle hk, hf, hr]

end

/-- The start of a bundle, with its checks in their order. -/
theorem State.startBundle_eq (hk : s.kernelOf id = some (n, k)) (hp : k.img.portable = false) (h : Header) (is : List (Part × Instr)) : s.startBundle id c h is =
    (is.find? fun x => needsPrivilege x.2 && !k.img.priv).elim
      (((s.inBundle id c h.gap).slotCtx.conflict (s.tile id).popped {} is).elim
        ((if h.svc then (s.tile id).popped.vault.svcCheck (s.inBundle id c h.gap).slotCtx.params c h.gap else none).elim
          (((s.inBundle id c h.gap).setTile id (s.tile id).popped).push
            (is.map (fun x => { i := x.2, arg := { tile := id } }) ++ [{ i := .bundleIssue, arg := { tile := id, y := 2 } }]))
          fun f => (s.inBundle id c h.gap).bundleTrap id ((s.tile id).noteRefusal { op := 0, bank := f.bank } f) causeVault 0 (vaultInfo f) c)
        fun x => (s.inBundle id c h.gap).bundleTrap id (s.tile id) causeConflict x.1 x.2 c)
      fun x => (s.inBundle id c h.gap).bundleTrap id (s.tile id) causePriv x.1.code x.1.code c := by
  obtain ⟨pd, ls, hpop⟩ := (s.tile id).popped_eq
  have hpc : (s.tile id).popped.flow.pc = (s.tile id).flow.pc := by rw [hpop]
  have hin : ({ s with cur := { tile := id, now := c, pc := (s.tile id).popped.flow.pc, gap := h.gap, handler := false, pre := s.tile id } } : State) = s.inBundle id c h.gap := by
    rw [hpc]
    rfl
  unfold State.startBundle
  dsimp only
  rw [hin]
  simp only [State.privileged_inBundle hk, State.portable_inBundle hk hp, Bool.false_and, Bool.false_eq_true, if_false]
  split
  · next e => rw [e]; rfl
  · next e =>
    rw [e]
    split
    · next e => rw [e]; rfl
    · next e =>
      rw [e]
      split <;> (next e => rw [e]; rfl)

/-- The privilege check finds a slot only in an image without privilege. -/
theorem find_privileged (is : List (Part × Instr)) (priv : Bool) :
    (is.find? fun x => needsPrivilege x.2 && !priv) = if priv then none else is.find? fun x => needsPrivilege x.2 := by
  cases priv with
  | true => simp
  | false => simp

end

theorem bundleIssues : BundleIssues := by
  intro s n k id t hk hp hh hy hstop
  have hexec : exec .bundleIssue s = .next (s.issueBundle id k.cycle) := exec_bundleIssue_due hk hh hy
  refine ⟨fun x hx => by rw [hexec, State.issueBundle_bad hx]; rfl, fun hbad => ⟨fun info hf => ?_, fun b esc hf => ⟨fun p hr => ?_, fun h is hr => ?_⟩⟩⟩
  · rw [hexec, State.issueBundle_illegal hbad hstop hk hf]
    rfl
  · rw [hexec, State.issueBundle_error hbad hstop hk hf hr]
    rfl
  · have hstart := hexec.trans (congrArg _ ((State.issueBundle_ok hbad hstop hk hf hr).trans (State.startBundle_eq hk hp h is)))
    refine ⟨fun x hx hpriv => ?_, fun hpriv => ?_⟩
    · rw [hstart, find_privileged, hpriv, if_neg Bool.false_ne_true, hx]
      rfl
    · have hnone : (is.find? fun x => needsPrivilege x.2 && !k.img.priv) = none := by
        rw [find_privileged]
        rcases hpriv with hpriv | hpriv
        · exact if_pos hpriv
        · split
          · rfl
          · exact List.find?_eq_none.mpr fun x hx => by simp [hpriv x hx]
      rw [hstart, hnone]
      refine ⟨fun p info hc => ?_, fun hc hsvc => ?_⟩
      · rw [show (s.inBundle id k.cycle h.gap).slotCtx.conflict (s.tile id).popped {} is = some (p, info) from hc]
        rfl
      · have hcheck : (if h.svc then (s.tile id).popped.vault.svcCheck (s.inBundle id k.cycle h.gap).slotCtx.params k.cycle h.gap else none) = none := by
          obtain ⟨pd, ls, hpop⟩ := (s.tile id).popped_eq
          rw [hpop]
          split
          · next e => exact hsvc e
          · rfl
        rw [show (s.inBundle id k.cycle h.gap).slotCtx.conflict (s.tile id).popped {} is = none from hc, hcheck]
        refine congrArg Host.Outcome.next ?_
        show State.push _ _ = _
        rw [State.push, List.append_assoc]
        rfl

/-! ### The points of a bundle -/

section
variable (k : Kernel) (h : Header) (c : Nat) (asked : Bool) (wait : Nat)

/-- A replan point is noted unless a bundle has trapped in the cycle. -/
theorem Kernel.points_replanAt (hr : h.rpl = true) : (k.points h c asked wait).replanAt = if c ∈ k.stops then k.replanAt else some (c + 1 + h.gap, c) := by
  have hstops : (k.points h c asked wait).replanAt = if h.rpl && !k.stops.contains c then some (c + 1 + h.gap, c) else k.replanAt := by
    unfold Kernel.points
    dsimp only
    repeat' split
    all_goals simp_all
  rw [hstops, hr]
  by_cases hc : c ∈ k.stops <;> simp [hc]

/-- The yield points reached with the one at cycle c, which several tiles may reach. -/
def Kernel.yieldsWith (k : Kernel) (c : Nat) : Nat := k.yields + if k.lyield = some c then 0 else 1

/-- The index of the point agreed on, once a request has been delivered. -/
def Kernel.agreedWith (k : Kernel) (c wait : Nat) : Option Nat := if k.requested c && k.agreed.isNone then some (k.yieldsWith c + wait) else k.agreed

/-- What a yield point that no later one has overtaken does to its kernel. -/
theorem Kernel.points_yield (hy : h.yld = true) (hl : ∀ l, k.lyield = some l → l ≤ c) : k.points h c asked wait =
    { k with
      yields := k.yieldsWith c, agreed := k.agreedWith c wait, lyield := some c
      yieldAt := if asked || (k.requested c && k.agreedWith c wait == some (k.yieldsWith c)) then some (c + 1 + h.gap, c) else k.yieldAt
      replanAt := if h.rpl && !k.stops.contains c then some (c + 1 + h.gap, c) else k.replanAt } := by
  unfold Kernel.points
  extract_lets fresh k1 k2 land
  have hfresh : fresh = decide (k.lyield ≠ some c) := by
    show (h.yld && _) = _
    rw [hy, Bool.true_and]
    split
    · next l e =>
      have := hl l e
      rw [e, decide_eq_decide, ne_eq, Option.some_inj]
      omega
    · next e => rw [e]; rfl
  have h1 : k1 = { k with yields := k.yieldsWith c } := by
    show (if fresh = true then _ else _) = _
    rw [hfresh, Kernel.yieldsWith]
    by_cases e : k.lyield = some c
    · rw [if_neg (by rw [decide_eq_true_eq, not_not]; exact e), if_pos e, Nat.add_zero]
    · rw [if_pos (decide_eq_true e), if_neg e]
  have h2 : k2 = { k with yields := k.yieldsWith c, agreed := k.agreedWith c wait } := by
    show (if (h.yld && k1.requested c && k1.agreed.isNone) = true then ({ k1 with agreed := some (k1.yields + wait) } : Kernel) else k1) = _
    rw [h1, hy, Kernel.agreedWith]
    show (if (k.requested c && k.agreed.isNone) = true then _ else _) = _
    split <;> rfl
  have hlyield : (if fresh = true then some c else k.lyield) = some c := by
    rw [hfresh]
    by_cases e : k.lyield = some c <;> simp [e]
  have hland : land = (asked || (k.requested c && k.agreedWith c wait == some (k.yieldsWith c))) := by
    show (h.yld && (asked || (k2.requested c && k2.agreed == some k2.yields))) = _
    rw [h2, hy]
    rfl
  clear_value k2 land
  subst h2 hland
  simp only [hlyield]

end
/-! ### The tile after its bundle -/

section
variable {t u : Tile}

@[simp] theorem Tile.selectRow_flow : t.selectRow.flow = t.flow := by rw [Tile.selectRow_eq]

/-! The counts of a bundle read the sequencer alone. -/

theorem Tile.atLoopEnd_flow (off : Nat) : (t.atLoopEnd off).flow =
    { t.flow with loops := (loopEnd off t.flow.loops).1, iterStart := (loopEnd off t.flow.loops).2.isSome, resumed := false } := by
  obtain ⟨row, h⟩ := t.atLoopEnd_eq off
  rw [h]

theorem Tile.countTransfer_flow (h : t.flow = u.flow) (x : Option Transfer) : (t.countTransfer x).flow = (u.countTransfer x).flow := by
  cases x with
  | none => exact h
  | some x =>
    unfold Tile.countTransfer
    dsimp only
    split <;> simp only [h]

theorem Tile.countPush_flow (h : t.flow = u.flow) (x : Option Push) : (t.countPush x).flow = (u.countPush x).flow := by
  cases x with
  | none => exact h
  | some x =>
    unfold Tile.countPush
    dsimp only
    split <;> simp only [Tile.selectRow_flow, h]

theorem Tile.countHalt_flow (h : t.flow = u.flow) (base : Nat) (x : Option Nat) : (t.countHalt base x).flow = (u.countHalt base x).flow := by
  cases x with
  | none => exact h
  | some x =>
    unfold Tile.countHalt
    dsimp only
    split <;> simp only [h]

theorem Tile.counted_flow (h : t.flow = u.flow) (off base : Nat) : (t.counted off base).flow = (u.counted off base).flow := by
  rw [Tile.counted, Tile.counted, h]
  exact Tile.countHalt_flow (Tile.countPush_flow (Tile.countTransfer_flow (by rw [Tile.atLoopEnd_flow, Tile.atLoopEnd_flow, h]) _) _) _ _

theorem Tile.counted_imem (off base : Nat) : (t.counted off base).imem = t.imem := by
  obtain ⟨row, h1⟩ := t.atLoopEnd_eq off
  obtain ⟨tr, p, h2⟩ := (t.atLoopEnd off).countTransfer_eq t.flow.transfer
  obtain ⟨q, ls, i, row', h3⟩ := ((t.atLoopEnd off).countTransfer t.flow.transfer).countPush_eq t.flow.push
  obtain ⟨l, b, h4⟩ := (((t.atLoopEnd off).countTransfer t.flow.transfer).countPush t.flow.push).countHalt_eq base t.flow.haltLeft
  rw [Tile.counted, h4, h3, h2, h1]

/-- The move past a bundle reads the sequencer and the instruction memory alone. -/
theorem Tile.advance_flow (hf : t.flow = u.flow) (hi : t.imem = u.imem) (v : Nat) (pc : PC) (issue gap : Nat) (hand : Bool) :
    (t.advance v pc issue gap hand).flow = (u.advance v pc issue gap hand).flow := by
  have hseg (x y : Tile) (h : x.imem = y.imem) (p : PC) : x.escapedAt v p = y.escapedAt v p := by rw [Tile.escapedAt, Tile.escapedAt, Tile.segment, Tile.segment, h]
  have hc : (t.counted pc.off (issue + 1 + gap)).imem = (u.counted pc.off (issue + 1 + gap)).imem := by rw [Tile.counted_imem, Tile.counted_imem, hi]
  rw [Tile.advance_eq, Tile.advance_eq, Tile.movedTo, Tile.movedTo, Tile.successor, Tile.successor, hf, hseg t u hi, hseg _ _ hc, Tile.counted_flow hf]

theorem Tile.marker_eq (t : Tile) (pc : PC) (c k : Nat) : ∃ perf, t.marker pc c k = { t with perf := perf } := ⟨_, rfl⟩

theorem Tile.count_eq (t : Tile) (e n : Nat) : ∃ perf, t.count e n = { t with perf := perf } := by
  unfold Tile.count
  split
  · exact ⟨t.perf, rfl⟩
  · exact ⟨_, rfl⟩

/-- The header's windows and marker touch the vault and the counters. -/
theorem Tile.noted_eq (t : Tile) (pc : PC) (c : Nat) (h : Header) (k : Nat) : ∃ vault perf,
    (if h.mkr then (if h.svc then t.updVault fun v => v.openWindows c h.gap else t).marker pc c k
      else if h.svc then t.updVault fun v => v.openWindows c h.gap else t) = { t with vault := vault, perf := perf } := by
  cases h.svc with
  | false =>
    obtain ⟨perf, hm⟩ := t.marker_eq pc c k
    cases h.mkr with
    | false => exact ⟨t.vault, t.perf, rfl⟩
    | true => exact ⟨t.vault, perf, hm⟩
  | true =>
    obtain ⟨perf, hm⟩ := (t.updVault fun v => v.openWindows c h.gap).marker_eq pc c k
    cases h.mkr with
    | false => exact ⟨_, t.perf, rfl⟩
    | true => exact ⟨_, perf, hm⟩

/-- The tile noted, moved on and counted, before the last of its bookkeeping. -/
theorem Tile.moved_frame (t : Tile) (variant c : Nat) (pc : PC) (h : Header) (k : Nat) : ∃ row vault perf,
    ((if h.mkr then (if h.svc then t.updVault fun v => v.openWindows c h.gap else t).marker pc c k
      else if h.svc then t.updVault fun v => v.openWindows c h.gap else t).advance variant pc c h.gap h.seg).countFmt.count 1 1 = { t with
      flow := (t.advance variant pc c h.gap h.seg).flow, vault := vault, perf := perf
      fmts := { t.fmts with row := row, pend := t.fmts.pend.map fun w => { w with left := w.left - 1 } } } := by
  obtain ⟨vault, perf, hy⟩ := t.noted_eq pc c h k
  obtain ⟨y, he⟩ : ∃ y : Tile, y = { t with vault := vault, perf := perf } := ⟨_, rfl⟩
  have hflow : (y.advance variant pc c h.gap h.seg).flow = (t.advance variant pc c h.gap h.seg).flow := Tile.advance_flow (by rw [he]) (by rw [he]) ..
  obtain ⟨_, _, _, _, _, _, _, _, _, row, ha⟩ := y.advance_frame variant pc c h.gap h.seg
  obtain ⟨perf', hcount⟩ := (y.advance variant pc c h.gap h.seg).countFmt.count_eq 1 1
  refine ⟨row, vault, perf', ?_⟩
  rw [hy, ← he, hcount, ← hflow, ha, he]
  rfl

/-- The tile after its bundle, but for its vault, its counters and its system registers: the sequencer as it moves on, and the pending format writes. -/
theorem Tile.endBundle_frame (t pre : Tile) (variant c : Nat) (pc : PC) (h : Header) (k : Nat) : ∃ flow row vault perf sys,
    t.endBundle pre variant c pc h k = { t with
      flow := flow, vault := vault, perf := perf, sys := sys
      fmts := { t.fmts with row := row, pend := t.fmts.pend.map fun w => { w with left := w.left - 1 } } } ∧
    let f := (t.advance variant pc c h.gap h.seg).flow
    flow.pc = f.pc ∧ flow.due = f.due ∧ flow.loops = f.loops ∧ flow.transfer = f.transfer ∧ flow.push = f.push ∧ flow.haltLeft = f.haltLeft := by
  obtain ⟨row, vault, perf, hm⟩ := t.moved_frame variant c pc h k
  unfold Tile.endBundle
  extract_lets t1 t2 skip t3
  have h3 : t3 = _ := hm
  clear_value t3
  subst h3
  exact ⟨_, row, vault, perf, _, rfl, rfl, rfl, rfl, rfl, rfl, rfl⟩

/-- The shade that a bundle casts is the sequencer's. -/
theorem Tile.castShade_eq (t : Tile) (variant : Nat) (pc : PC) (b : Bundle) : ∃ sh, t.castShade variant pc b = { t with flow := { t.flow with shade := sh } } := by
  unfold Tile.castShade
  split
  · exact ⟨_, rfl⟩
  · exact ⟨t.flow.shade, rfl⟩

end

section
variable {s : State} {id : TileId}

/-- What dates rows alone changes the agenda alone. -/
theorem foldl_agenda {α : Type} {f : State → α → State} (h : ∀ s x, ∃ ag, f s x = { s with agenda := ag }) (l : List α) (s : State) :
    ∃ ag, l.foldl f s = { s with agenda := ag } := by
  induction l generalizing s with
  | nil => exact ⟨s.agenda, rfl⟩
  | cons x r ih =>
    obtain ⟨ag, hx⟩ := h s x
    obtain ⟨ag', hr⟩ := ih (f s x)
    exact ⟨ag', by rw [List.foldl_cons, hr, hx]⟩

theorem State.awaitLoads_eq (s : State) (id : TileId) (ls : List RecLoad) : ∃ ag, s.awaitLoads id ls = { s with agenda := ag } :=
  foldl_agenda (fun _ _ => ⟨_, rfl⟩) ls s

/-- What the end of a bundle leaves of the machine, its own tile and the kernel's points aside. -/
structure State.Ended (s u : State) (id : TileId) (t : Tile) : Prop where
  mine : ∃ im, u.tile id = { t with imem := im }
  others : ∀ j, j ≠ id → u.tile j = s.tile j
  ctxs : u.ctxs = s.ctxs
  host : u.host = s.host

theorem State.ended_setTile (s : State) (id : TileId) (t : Tile) (hr : RisingMap s.tiles) : s.Ended (s.setTile id t) id t :=
  ⟨⟨t.imem, s.tile_setTile_self id t hr⟩, fun _ hj => s.tile_setTile_ne t hj, rfl, rfl⟩

theorem State.ended_handOver {u : State} {t : Tile} (h : s.Ended u id t) (hr : RisingMap u.tiles) (v k : Nat) : s.Ended (u.handOver id v k) id t := by
  obtain ⟨⟨im, hmine⟩, hothers, hctxs, hhost⟩ := h
  obtain ⟨im', ag, he⟩ := u.handOver_eq id v k
  rw [he]
  exact ⟨⟨im', (u.tile_setTile_self id _ hr).trans (by rw [hmine])⟩, fun j hj => (u.tile_setTile_ne _ hj).trans (hothers j hj), hctxs, hhost⟩

theorem State.finishBundle_eq {n : Nat} {k : Kernel} {b : Bundle} {h : Header} (hk : s.kernelOf id = some (n, k)) (hp : k.img.portable = false) (hid : s.cur.tile = id)
    (hpeek : s.cur.pre.peek k.variant s.cur.pc = some b) (hb : decodeHeader b = some h) (hr : RisingMap s.tiles) : ∃ u ds wait,
    s.Ended u id (((s.tile id).endBundle s.cur.pre k.variant s.cur.now s.cur.pc h (bundleK b).toNat).castShade k.variant s.cur.pc b) ∧
    (bitOf ((s.ctx k.ctx).descWord 8) 43 = false → wait = 0) ∧
    s.finishBundle id = (if h.yld || h.rpl then (u.setKernel n (k.points h s.cur.now (s.tile id).flow.yieldReq wait)).tickFree else u).push ds := by
  subst hid
  have hker : s.slotCtx.kernel = some (n, k) := hk
  have hvar : s.slotCtx.variant = k.variant := by rw [Ctx.variant, hker]
  have hport : s.slotCtx.portable = false := by rw [Ctx.portable, hker]; simp [hp]
  unfold State.finishBundle
  extract_lets pre c ctx
  split
  · next e => rw [show pre.peek ctx.variant s.cur.pc = some b by rw [← hpeek, ← hvar]] at e; cases e
  next b' e =>
  obtain rfl : b = b' := Option.some_inj.mp (by rw [← hpeek, ← hvar]; exact e)
  split
  · next e => rw [hb] at e; cases e
  next h' e =>
  obtain rfl : h = h' := Option.some_inj.mp (hb.symm.trans e)
  extract_lets t' t2 s1 s2 s3 s4 s5 s6
  have hwake : t2 = t' := if_neg (by rw [show ctx.portable = false from hport, Bool.false_and]; exact Bool.false_ne_true)
  have hended1 : s.Ended s1 s.cur.tile t' := by
    rw [← hwake]
    exact s.ended_setTile s.cur.tile t2 hr
  have hrising1 : RisingMap s1.tiles := mapSet_rising _ _ _ _ hr
  obtain ⟨ag2, h2⟩ := s1.awaitLoads_eq s.cur.tile (t2.loads.filter fun l => decide (pre.flow.seq ≤ l.seq))
  have h3 : ∃ ag, s3 = { s2 with agenda := ag } := foldl_agenda (fun s q => by
    split
    · exact ⟨s.agenda, rfl⟩
    · exact ⟨_, rfl⟩) _ s2
  obtain ⟨ag3, h3⟩ := h3
  have h4 : ∃ ds, s4 = { s1 with agenda := ag3, dies := ds } := ⟨s4.dies, by
    show { s3 with dies := s4.dies } = _
    rw [h3, show s2 = _ from h2]⟩
  obtain ⟨ds, h4⟩ := h4
  have hended4 : s.Ended s4 s.cur.tile t' := by
    rw [h4]
    exact ⟨hended1.mine, hended1.others, hended1.ctxs, hended1.host⟩
  have hended5 : s.Ended s5 s.cur.tile t' := by
    show s.Ended (if h.seg then _ else _) _ _
    split
    · exact State.ended_handOver hended4 (by rw [h4]; exact hrising1) _ _
    · exact hended4
  refine ⟨s5, t2.fmtRows s.cur.tile, if bitOf ((s5.ctx k.ctx).descWord 8) 43 then Config.freeNat s5.free else 0, hvar ▸ hended5, fun hg => ?_, congrArg (State.push · _) ?_⟩
  · rw [State.ctx, hended5.ctxs]
    exact if_neg (by rw [show bitOf ((mapGet {} s.ctxs k.ctx).descWord 8) 43 = false from hg]; exact Bool.false_ne_true)
  · show (match ctx.kernel with
      | some (n, k) => _
      | none => _) = _
    split
    · next e => cases hker.symm.trans e; rfl
    · next e => cases hker.symm.trans e

end

/-- What a yield bundle notes in its kernel: the point, and the yield that YIELD or a delivered request lands at it (R333, R345). -/
theorem Kernel.points_lands (k : Kernel) (h : Header) (c : Nat) (asked : Bool) (wait : Nat) (hy : h.yld = true) (hl : ∀ l, k.lyield = some l → l ≤ c) :
    let k' := k.points h c asked wait
    k'.lyield = some c ∧ k'.yields = k.yields + (if k.lyield = some c then 0 else 1) ∧
    (k.request = none → asked = false → k'.yieldAt = k.yieldAt) ∧
    (asked = true → k'.yieldAt = some (c + 1 + h.gap, c)) ∧
    ∀ r, k.request = some r → r + 64 ≤ c →
      (wait = 0 → k.agreed = none → k'.yieldAt = some (c + 1 + h.gap, c)) ∧
      (k.agreed = some k'.yields → k'.yieldAt = some (c + 1 + h.gap, c)) ∧
      (∀ j, k.agreed = some j → j ≠ k'.yields → asked = false → k'.yieldAt = k.yieldAt) ∧
      (k.agreed = none → ∃ j, k'.agreed = some j ∧ k'.yields ≤ j) := by
  intro k'
  rw [show k' = _ from k.points_yield h c asked wait hy hl]
  refine ⟨rfl, rfl, fun hq ha => ?_, fun ha => ?_, fun r hq hc => ?_⟩
  · have hreq : k.requested c = false := by rw [Kernel.requested, hq]
    simp [hreq, ha]
  · simp [ha]
  · have hreq : k.requested c = true := by rw [Kernel.requested, hq]; exact decide_eq_true hc
    have hagreed : k.agreedWith c wait = if k.agreed.isNone then some (k.yieldsWith c + wait) else k.agreed := by rw [Kernel.agreedWith, hreq, Bool.true_and]
    dsimp only
    rw [hagreed, hreq]
    refine ⟨fun hw ha => ?_, fun ha => ?_, fun j ha hj hasked => ?_, fun ha => ⟨k.yieldsWith c + wait, by simp [ha], Nat.le_add_right _ _⟩⟩
    · simp [hw, ha]
    · simp [ha]
    · simp [ha, hj, hasked]

theorem exec_bundleIssue_end {s : State} {n : Nat} {k : Kernel} (hk : s.kernelOf s.ev.tile = some (n, k)) (hy : s.ev.y = 2) :
    exec .bundleIssue s = .next (s.finishBundle s.ev.tile) := by
  rw [exec_bundleIssue, execBundleIssue]
  simp only [hk, hy, if_true]

/-! ### Handler bundles -/

section
variable {s : State} {n : Nat} {k : Kernel} (hk : s.kernelOf s.ev.tile = some (n, k)) (hh : (s.tile s.ev.tile).flow.handler = true)
include hk hh

/-- The next handler bundle follows within its bound (R408). -/
theorem exec_handlerBundleIssue_next (hy : s.ev.y = 1) : exec .handlerBundleIssue s =
    .next ((s.at (s.wall + s.handlerTime k (4 + s.ev.x)) { i := .handlerBundleIssue, arg := { tile := s.ev.tile } }).tickFree) := by
  rw [exec_handlerBundleIssue, execHandlerBundleIssue]
  simp only [hk, hh, hy, Bool.not_true, Bool.false_eq_true, if_false, if_true]

variable (hy : s.ev.y = 0) {b : Bundle} (hb : (s.tile s.ev.tile).imem.handlers[(s.tile s.ev.tile).flow.hpc]? = some b)
include hy hb

theorem exec_handlerBundleIssue_illegal {p : Nat} (hr : (s.tile s.ev.tile).readHandler (s.tile s.ev.tile).flow.hpc b = .error p) :
    exec .handlerBundleIssue s = .next (s.bundleTrap s.ev.tile (s.tile s.ev.tile) causeEncoding p p (s.tile s.ev.tile).flow.stopAt) := by
  rw [exec_handlerBundleIssue, execHandlerBundleIssue]
  simp only [hk, hh, hy, hb, hr, Bool.not_true, Bool.false_eq_true, if_false, Nat.zero_ne_one]

theorem exec_handlerBundleIssue_ok {i : Option Instr} (hr : (s.tile s.ev.tile).readHandler (s.tile s.ev.tile).flow.hpc b = .ok i) :
    ∃ wait, exec .handlerBundleIssue s = .next
      { s.setTile s.ev.tile { s.tile s.ev.tile with flow := { (s.tile s.ev.tile).flow with hpc := (s.tile s.ev.tile).flow.hpc + 1 } } with
        cur := { tile := s.ev.tile, now := (s.tile s.ev.tile).flow.stopAt, pc := { off := (s.tile s.ev.tile).flow.hpc }, gap := 0, handler := true, pre := s.tile s.ev.tile }
        todo := i.toList.map (fun x => { i := x, arg := { tile := s.ev.tile } }) ++ { i := .handlerBundleIssue, arg := { tile := s.ev.tile, x := wait, y := 1 } } :: s.todo } := by
  rw [exec_handlerBundleIssue, execHandlerBundleIssue]
  simp only [hk, hh, hy, hb, hr, Bool.not_true, Bool.false_eq_true, if_false, Nat.zero_ne_one]
  cases i with
  | none => exact ⟨0, rfl⟩
  | some x => exact ⟨_, rfl⟩

end

/-- A handler's time lies within its bound. -/
theorem State.handlerTime_bounds (s : State) (k : Kernel) {b : Nat} (hb : 0 < b) : k.period ≤ s.handlerTime k b ∧ s.handlerTime k b ≤ b * k.period := by
  unfold State.handlerTime
  exact ⟨Nat.le_mul_of_pos_left _ (Nat.succ_pos _), Nat.mul_le_mul_right _ (Nat.mod_lt _ hb)⟩

theorem bundlesEnd : BundlesEnd := by
  refine ⟨fun s n k b h => ?_, fun s n k => ?_⟩
  · intro id t hk hp hy hid hhandler hpeek hb hr v
    obtain ⟨u, ds, wait, hended, hwait, hfinish⟩ := State.finishBundle_eq (id := id) hk hp hid hpeek hb hr
    obtain ⟨⟨im, hmine⟩, hothers, hctxs, hhost⟩ := hended
    obtain ⟨flow, row, vault, perf, sys, hframe, hpc, hdue, hloops, htransfer, hpush, hhalt⟩ := t.endBundle_frame s.cur.pre k.variant s.cur.now s.cur.pc h (bundleK b).toNat
    obtain ⟨sh, hshade⟩ := (t.endBundle s.cur.pre k.variant s.cur.now s.cur.pc h (bundleK b).toNat).castShade_eq k.variant s.cur.pc b
    rw [show s.tile id = t from rfl, hshade, hframe] at hmine
    have htile (j : TileId) : (s.finishBundle id).tile j = u.tile j := by rw [hfinish]; split <;> rfl
    have hkernel (hpoint : (h.yld || h.rpl) = true) : (s.finishBundle id).kernel? n = some (k.points h s.cur.now t.flow.yieldReq wait) := by
      rw [hfinish, if_pos hpoint]
      exact u.kernel_setKernel_self n _
    refine ⟨_, exec_bundleIssue_end hk hy, ?_⟩
    rw [htile, hmine]
    refine ⟨hpc, hdue, hloops, htransfer, hpush, hhalt, rfl, rfl, rfl, rfl, rfl, fun j hj => (htile j).trans (hothers j hj), ?_, ?_,
      fun hrpl => ⟨_, hkernel (by rw [hrpl, Bool.or_true]), k.points_replanAt h _ _ _ hrpl⟩, fun hyld hl => ⟨_, hkernel (by rw [hyld, Bool.true_or]), ?_⟩⟩
    · rw [hfinish, ← hctxs]
      split <;> rfl
    · rw [hfinish, ← hhost]
      split <;> rfl
    · obtain ⟨h1, h2, h3, h4, h5⟩ := k.points_lands h s.cur.now t.flow.yieldReq wait hyld hl
      refine ⟨h1, h2, h3, h4, fun r hq hc => ?_⟩
      obtain ⟨h6, h7, h8, h9⟩ := h5 r hq hc
      exact ⟨fun hg => h6 (hwait hg), h7, h8, h9⟩
  · intro id t hk hh
    refine ⟨fun hy b hb => ⟨fun i hr => ?_, fun p hr => exec_handlerBundleIssue_illegal hk hh hy hb hr⟩, fun hy => ?_⟩
    · obtain ⟨wait, h⟩ := exec_handlerBundleIssue_ok hk hh hy hb hr
      refine ⟨wait, h.trans ?_⟩
      cases i <;> rfl
    · obtain ⟨h1, h2⟩ := s.handlerTime_bounds k (b := 4 + s.ev.x) (by omega)
      exact ⟨s.wall + s.handlerTime k (4 + s.ev.x), Nat.add_le_add_left h1 _, Nat.add_le_add_left h2 _, exec_handlerBundleIssue_next hk hh hy⟩

/-- Settles O42: the checks of a bundle in their order, then the sequencer's move, the points of its kernel, and the handler's bundles. -/
theorem bundlesIssueAndEnd : Obligations.BundlesIssueAndEnd := ⟨bundleIssues, bundlesEnd⟩

end Sys2Proof.Machine
end

section
/-!
The numbers before rounding (R69, R138, R139): a sum is formed at the lower of its operands' exponents, where both are integers, and a product by its magnitudes and exponents.
-/

namespace Sys2Proof.Machine

open Sys2Proof Sys2Proof.Claims

theorem twoPow_mul_zpow (n : Nat) (e : Int) : ((2 ^ n : Nat) : ℚ) * 2 ^ e = 2 ^ (n + e) := by
  rw [Nat.cast_pow, Nat.cast_two, ← zpow_natCast, zpow_add₀ two_ne_zero]

theorem twoPow_toNat_mul_zpow {a b : Int} (h : a ≤ b) : ((2 ^ (b - a).toNat : Nat) : ℚ) * 2 ^ a = 2 ^ b := by
  rw [twoPow_mul_zpow, Int.toNat_of_nonneg (sub_nonneg.mpr h), sub_add_cancel]

@[simp] theorem valQ_false (man : Nat) (exp : Int) : valQ false man exp = man * 2 ^ exp := by
  simp [valQ]

/-- An integer times a power of two, as sign and magnitude. -/
theorem valQ_of_int (v e : Int) : valQ (decide (v < 0)) v.natAbs e = v * 2 ^ e := by
  unfold valQ
  by_cases hv : v < 0
  · rw [if_pos (decide_eq_true hv), Nat.cast_natAbs, abs_of_neg hv]
    push_cast
    ring
  · rw [if_neg (by simpa using hv), Nat.cast_natAbs, abs_of_nonneg (not_lt.mp hv), one_mul]

@[simp] theorem valQ_zero (neg : Bool) (e : Int) : valQ neg 0 e = 0 := by
  simp [valQ]

/-- The product's sign is the exclusive or of its factors' signs. -/
theorem valQ_mul (na nb : Bool) (ma mb : Nat) (ea eb : Int) :
    valQ (na != nb) (ma * mb) (ea + eb) = valQ na ma ea * valQ nb mb eb := by
  unfold valQ
  rw [zpow_add₀ two_ne_zero]
  push_cast
  cases na <;> cases nb <;> simp <;> ring

/-- A value brought to a lower exponent keeps its value. -/
theorem scaled_mul_zpow (neg : Bool) (man : Nat) {exp at0 : Int} (h : at0 ≤ exp) :
    (scaled neg man exp at0 : ℚ) * 2 ^ at0 = valQ neg man exp := by
  have hshift : (((man * 2 ^ (exp - at0).toNat : Nat) : Int) : ℚ) * 2 ^ at0 = man * 2 ^ exp := by
    rw [Int.cast_natCast, Nat.cast_mul, mul_assoc, twoPow_toNat_mul_zpow h]
  unfold scaled valQ
  cases neg with
  | false => rw [if_neg Bool.false_ne_true, if_neg Bool.false_ne_true, hshift, one_mul]
  | true => rw [if_pos rfl, if_pos rfl, Int.cast_neg, neg_mul, hshift, mul_assoc, neg_one_mul]

/-- The sum of two finite values, at the lower of their exponents. -/
theorem scaled_add_mul_zpow (na nb : Bool) (ma mb : Nat) (ea eb : Int) :
    ((scaled na ma ea (min ea eb) + scaled nb mb eb (min ea eb) : Int) : ℚ) * 2 ^ min ea eb = valQ na ma ea + valQ nb mb eb := by
  rw [← scaled_mul_zpow na ma (min_le_left ea eb), ← scaled_mul_zpow nb mb (min_le_right ea eb), Int.cast_add, add_mul]

/-- The finite arm of numAdd, an exact zero. -/
theorem numAdd_fin_of_eq_zero (m : RMode) {na nb : Bool} {ma mb : Nat} {ea eb : Int}
    (h : scaled na ma ea (min ea eb) + scaled nb mb eb (min ea eb) = 0) :
    numAdd m (.fin na ma ea) (.fin nb mb eb) = (.fin (if ma = 0 ∧ mb = 0 ∧ na = nb then na else decide (m = .rdn)) 0 (min ea eb), 0) :=
  if_pos h

/-- The finite arm of numAdd, a sum that is not zero. -/
theorem numAdd_fin_of_ne_zero (m : RMode) {na nb : Bool} {ma mb : Nat} {ea eb : Int}
    (h : scaled na ma ea (min ea eb) + scaled nb mb eb (min ea eb) ≠ 0) :
    numAdd m (.fin na ma ea) (.fin nb mb eb) =
      (.fin (decide (scaled na ma ea (min ea eb) + scaled nb mb eb (min ea eb) < 0))
        (scaled na ma ea (min ea eb) + scaled nb mb eb (min ea eb)).natAbs (min ea eb), 0) :=
  if_neg h

theorem numMul_fin (na nb : Bool) (ma mb : Nat) (ea eb : Int) :
    numMul (.fin na ma ea) (.fin nb mb eb) = (.fin (na != nb) (ma * mb) (ea + eb), 0) := rfl

/-- The sum that the unit forms is exact, and an exact zero has the sign of R138. -/
theorem numAdd_fin_exact (m : RMode) (na nb : Bool) (ma mb : Nat) (ea eb : Int) :
    ∃ n k e, numAdd m (.fin na ma ea) (.fin nb mb eb) = (.fin n k e, 0) ∧ valQ n k e = valQ na ma ea + valQ nb mb eb ∧
      (valQ na ma ea + valQ nb mb eb = 0 → n = if ma = 0 ∧ mb = 0 ∧ na = nb then na else decide (m = .rdn)) := by
  rw [← scaled_add_mul_zpow]
  by_cases hv : scaled na ma ea (min ea eb) + scaled nb mb eb (min ea eb) = 0
  · exact ⟨_, _, _, numAdd_fin_of_eq_zero m hv, by rw [hv, valQ_zero, Int.cast_zero, zero_mul], fun _ => rfl⟩
  · refine ⟨_, _, _, numAdd_fin_of_ne_zero m hv, valQ_of_int _ _, fun hzero => absurd hzero ?_⟩
    exact mul_ne_zero (Int.cast_ne_zero.mpr hv) (zpow_ne_zero _ two_ne_zero)

/-- Settles O16: a sum is formed at the lower exponent, where it is an integer; a product multiplies the magnitudes and adds the exponents. -/
theorem sumsAndProductsAreExact : Obligations.SumsAndProductsAreExact := fun m na nb ma mb ea eb =>
  ⟨numAdd_fin_exact m na nb ma mb ea eb, _, _, numMul_fin na nb ma mb ea eb, valQ_mul na nb ma mb ea eb⟩

end Sys2Proof.Machine
end

section
/-!
Rounding to a floating format (R75 to R77): what rounding a magnitude to a multiple of a unit does in each mode, where the multiple lies, and the value of the code that is made of it.
-/

namespace Sys2Proof.Machine

open Sys2Proof Sys2Proof.Claims

/-! ### A magnitude rounded to a multiple of a unit (R75) -/

/-- r is what the mode makes of a magnitude x of the given sign where consecutive values lie u apart; inx says whether that changed it. -/
structure RoundsBy (mode : RMode) (neg : Bool) (u x r : ℚ) (inx : Bool) : Prop where
  close : |r - x| < u
  nearest : mode = .rne ∨ mode = .rna → 2 * |r - x| ≤ u
  towardZero : mode = .rtz → r ≤ x
  up : mode = .rup → if neg then r ≤ x else x ≤ r
  down : mode = .rdn → if neg then x ≤ r else r ≤ x
  inexact : inx = true ↔ r ≠ x

/-- Rounding at another scale. -/
theorem RoundsBy.scale {mode : RMode} {neg inx : Bool} {u x r c : ℚ} (hc : 0 < c) (h : RoundsBy mode neg u x r inx) :
    RoundsBy mode neg (u * c) (x * c) (r * c) inx := by
  have habs : |r * c - x * c| = |r - x| * c := by rw [← sub_mul, abs_mul, abs_of_pos hc]
  have hle (a b : ℚ) : a * c ≤ b * c ↔ a ≤ b := mul_le_mul_iff_left₀ hc
  constructor
  · rw [habs]
    exact mul_lt_mul_of_pos_right h.close hc
  · rw [habs, ← mul_assoc, hle]
    exact h.nearest
  · rw [hle]
    exact h.towardZero
  · rw [hle, hle]
    exact h.up
  · rw [hle, hle]
    exact h.down
  · rw [Ne, mul_left_inj' hc.ne']
    exact h.inexact

section
variable {mode : RMode} {neg inx : Bool} {u x : ℚ} {q n : Nat}

/-- A magnitude below a multiple of the unit is not rounded past it. -/
theorem RoundsBy.le_of_lt (h : RoundsBy mode neg u x (q * u) inx) (hx : x < n * u) : q ≤ n := by
  have hu : 0 < u := (abs_nonneg _).trans_lt h.close
  have hq : (q : ℚ) * u < (n + 1) * u := by linarith [(abs_lt.mp h.close).2]
  exact Nat.lt_succ_iff.mp (by exact_mod_cast lt_of_mul_lt_mul_right hq hu.le)

/-- A magnitude not below a multiple of the unit is not rounded below it. -/
theorem RoundsBy.le_of_le (h : RoundsBy mode neg u x (q * u) inx) (hx : n * u ≤ x) : n ≤ q := by
  have hu : 0 < u := (abs_nonneg _).trans_lt h.close
  have hq : (n : ℚ) * u < (q + 1) * u := by linarith [(abs_lt.mp h.close).1]
  exact Nat.lt_succ_iff.mp (by exact_mod_cast lt_of_mul_lt_mul_right hq hu.le)

end

/-- roundShift goes up from the quotient q with remainder r. -/
def roundsUp (mode : RMode) (neg : Bool) (k q r : Nat) : Bool :=
  match mode with
  | .rne => decide (2 ^ k < 2 * r) || (2 * r == 2 ^ k && q % 2 == 1)
  | .rtz => false
  | .rup => !neg && r != 0
  | .rdn => neg && r != 0
  | .rna => r != 0 && decide (2 ^ k ≤ 2 * r)

theorem roundShift_eq (mode : RMode) (neg : Bool) (man k : Nat) :
    roundShift mode neg man k =
      (if roundsUp mode neg k (man / 2 ^ k) (man % 2 ^ k) then man / 2 ^ k + 1 else man / 2 ^ k, man % 2 ^ k != 0) := rfl

section
variable {mode : RMode} {neg : Bool} {k q r : Nat}

/-- An exact quotient never goes up. -/
theorem pos_of_roundsUp (h : roundsUp mode neg k q r = true) : 0 < r := by
  have hpow : 0 < 2 ^ k := Nat.two_pow_pos k
  unfold roundsUp at h
  cases mode <;> simp only [Bool.and_eq_true, Bool.or_eq_true, decide_eq_true_eq, beq_iff_eq, bne_iff_ne, Bool.false_eq_true] at h <;> omega

/-- Where the mode goes up, the multiple above is right. -/
theorem roundsBy_up (hr : r < 2 ^ k) (h : roundsUp mode neg k q r = true) :
    RoundsBy mode neg ((2 ^ k : Nat) : ℚ) ((q * 2 ^ k + r : Nat) : ℚ) (((q + 1) * 2 ^ k : Nat) : ℚ) (r != 0) := by
  have hpos := pos_of_roundsUp h
  have hdiff : (((q + 1) * 2 ^ k : Nat) : ℚ) - ((q * 2 ^ k + r : Nat) : ℚ) = ((2 ^ k - r : Nat) : ℚ) := by
    rw [Nat.cast_sub hr.le]; push_cast; ring
  have hle : q * 2 ^ k + r ≤ (q + 1) * 2 ^ k := by rw [Nat.succ_mul]; omega
  constructor
  · rw [hdiff, Nat.abs_cast, Nat.cast_lt]
    omega
  · rw [hdiff, Nat.abs_cast]
    rintro (rfl | rfl) <;> simp only [roundsUp, Bool.and_eq_true, Bool.or_eq_true, decide_eq_true_eq, beq_iff_eq] at h <;>
      exact_mod_cast (by omega : 2 * (2 ^ k - r) ≤ 2 ^ k)
  · rintro rfl
    exact absurd h Bool.false_ne_true
  · rintro rfl
    have hneg : neg = false := by simpa using (Bool.and_eq_true_iff.mp h).1
    rw [hneg]
    exact Nat.cast_le.mpr hle
  · rintro rfl
    rw [(Bool.and_eq_true_iff.mp h).1]
    exact Nat.cast_le.mpr hle
  · rw [bne_iff_ne, Ne, Ne, Nat.cast_inj, Nat.succ_mul]
    omega

/-- Where the mode does not go up, the multiple below is right. -/
theorem roundsBy_down (hr : r < 2 ^ k) (h : roundsUp mode neg k q r = false) :
    RoundsBy mode neg ((2 ^ k : Nat) : ℚ) ((q * 2 ^ k + r : Nat) : ℚ) ((q * 2 ^ k : Nat) : ℚ) (r != 0) := by
  have hdiff : ((q * 2 ^ k : Nat) : ℚ) - ((q * 2 ^ k + r : Nat) : ℚ) = -(r : ℚ) := by push_cast; ring
  have hle : q * 2 ^ k ≤ q * 2 ^ k + r := Nat.le_add_right _ _
  constructor
  · rw [hdiff, abs_neg, Nat.abs_cast, Nat.cast_lt]
    exact hr
  · rw [hdiff, abs_neg, Nat.abs_cast]
    rintro (rfl | rfl) <;> simp only [roundsUp, Bool.and_eq_false_iff, Bool.or_eq_false_iff, decide_eq_false_iff_not, bne_eq_false_iff_eq] at h <;>
      exact_mod_cast (by omega : 2 * r ≤ 2 ^ k)
  · exact fun _ => Nat.cast_le.mpr hle
  · rintro rfl
    cases neg with
    | true => exact Nat.cast_le.mpr hle
    | false =>
      have hzero : r = 0 := by simpa [roundsUp] using h
      simp [hzero]
  · rintro rfl
    cases neg with
    | true =>
      have hzero : r = 0 := by simpa [roundsUp] using h
      simp [hzero]
    | false => exact Nat.cast_le.mpr hle
  · rw [bne_iff_ne, Ne, Ne, Nat.cast_inj]
    omega

end

theorem roundShift_roundsBy (mode : RMode) (neg : Bool) (man k : Nat) :
    RoundsBy mode neg ((2 ^ k : Nat) : ℚ) man (((roundShift mode neg man k).1 * 2 ^ k : Nat) : ℚ) (roundShift mode neg man k).2 := by
  have hr : man % 2 ^ k < 2 ^ k := Nat.mod_lt _ (Nat.two_pow_pos k)
  have hman : man / 2 ^ k * 2 ^ k + man % 2 ^ k = man := Nat.div_add_mod' man (2 ^ k)
  rw [roundShift_eq]
  by_cases h : roundsUp mode neg k (man / 2 ^ k) (man % 2 ^ k) = true
  · simpa only [hman, if_pos h] using roundsBy_up hr h
  · simpa only [hman, if_neg h] using roundsBy_down hr (Bool.eq_false_iff.mpr h)

/-- A value that is a multiple of the unit stands. -/
theorem RoundsBy.refl (mode : RMode) (neg : Bool) {u : ℚ} (hu : 0 < u) (x : ℚ) : RoundsBy mode neg u x x false := by
  constructor <;> simp [hu, hu.le]

/-- roundTo rounds a magnitude to a multiple of 2^ulp. -/
theorem roundTo_roundsBy (mode : RMode) (neg : Bool) (man : Nat) (exp ulp : Int) :
    RoundsBy mode neg (2 ^ ulp) (man * 2 ^ exp) ((roundTo mode neg man exp ulp).1 * 2 ^ ulp) (roundTo mode neg man exp ulp).2 := by
  unfold roundTo
  by_cases h : exp < ulp
  · rw [if_pos h, ← twoPow_toNat_mul_zpow h.le, ← mul_assoc, ← Nat.cast_mul]
    exact (roundShift_roundsBy mode neg man _).scale (zpow_pos two_pos exp)
  · rw [if_neg h, Nat.cast_mul, mul_assoc, twoPow_toNat_mul_zpow (not_lt.mp h)]
    exact .refl mode neg (zpow_pos two_pos ulp) _

/-! ### Where the multiple lies -/

/-- The magnitude lies in the binade of its logFloor. -/
theorem logFloor_bounds {man : Nat} (h : man ≠ 0) (exp : Int) :
    (2 : ℚ) ^ logFloor man exp ≤ man * 2 ^ exp ∧ (man : ℚ) * 2 ^ exp < 2 ^ (logFloor man exp + 1) := by
  have hpos : (0 : ℚ) < 2 ^ exp := zpow_pos two_pos exp
  unfold logFloor
  rw [add_right_comm, zpow_add₀ two_ne_zero, zpow_add₀ two_ne_zero, mul_le_mul_iff_left₀ hpos, mul_lt_mul_iff_left₀ hpos]
  exact ⟨by exact_mod_cast Nat.log2_self_le h, by exact_mod_cast Nat.lt_log2_self⟩

section
variable (mode : RMode) (neg : Bool) {man : Nat} {exp : Int} (m : Nat)

/-- With m bits below the leading one, the multiple has m + 1 bits, or is 2^(m + 1). -/
theorem roundTo_binade (h : man ≠ 0) : 2 ^ m ≤ (roundTo mode neg man exp (logFloor man exp - m)).1 ∧
    (roundTo mode neg man exp (logFloor man exp - m)).1 ≤ 2 ^ (m + 1) := by
  obtain ⟨hlow, hhigh⟩ := logFloor_bounds h exp
  have hr := roundTo_roundsBy mode neg man exp (logFloor man exp - m)
  have hpow (j : Nat) : ((2 ^ (m + j) : Nat) : ℚ) * 2 ^ (logFloor man exp - m) = 2 ^ (logFloor man exp + j) := by
    rw [twoPow_mul_zpow, Nat.cast_add]
    congr 1
    ring
  exact ⟨hr.le_of_le ((hpow 0).trans_le (by simpa using hlow)), hr.le_of_lt (hhigh.trans_eq (hpow 1).symm)⟩

/-- Below the least exponent of a normal number the multiple is at most 2^m. -/
theorem roundTo_below {emin : Int} (h : man ≠ 0) (he : logFloor man exp < emin) : (roundTo mode neg man exp (emin - m)).1 ≤ 2 ^ m := by
  refine (roundTo_roundsBy mode neg man exp (emin - m)).le_of_lt ((logFloor_bounds h exp).2.trans_le ?_)
  rw [twoPow_mul_zpow, add_sub_cancel]
  exact zpow_le_zpow_right₀ one_le_two he

end

/-! ### The value of a code (R69) -/

/-- The exponent and fraction fields of a magnitude code, where it is not a special code. -/
theorem Layout.value_fields (l : Layout) (neg : Bool) {ex fr : Nat} (hex : ex < 2 ^ l.e) (hfr : fr < 2 ^ l.m)
    (hieee : l.sp = .ieee → ex ≠ 2 ^ l.e - 1) (hnan : l.sp = .nanOnly → ex = 2 ^ l.e - 1 → fr ≠ 2 ^ l.m - 1) :
    l.value (l.withSign neg (ex * 2 ^ l.m + fr)) =
      if ex = 0 then .fin neg fr (1 - (l.bias : Int) - l.m) else .fin neg (2 ^ l.m + fr) ((ex : Int) - l.bias - l.m) := by
  have hmag : ex * 2 ^ l.m + fr < 2 ^ (l.e + l.m) := by
    rw [pow_add]
    exact Nat.lt_of_lt_of_le (by rw [Nat.succ_mul]; omega) (Nat.mul_le_mul_right (2 ^ l.m) hex)
  have hsign : bitOf (l.withSign neg (ex * 2 ^ l.m + fr)) (l.e + l.m) = neg := by
    unfold bitOf Layout.withSign
    rw [Nat.mul_comm, Nat.mul_add_div (Nat.two_pow_pos _), Nat.div_eq_of_lt hmag]
    cases neg <;> rfl
  have hbits : l.withSign neg (ex * 2 ^ l.m + fr) = 2 ^ l.m * (2 ^ l.e * b2n neg + ex) + fr := by
    unfold Layout.withSign
    ring
  have hexp : l.withSign neg (ex * 2 ^ l.m + fr) / 2 ^ l.m % 2 ^ l.e = ex := by
    rw [hbits, Nat.mul_add_div (Nat.two_pow_pos _), Nat.div_eq_of_lt hfr, Nat.add_zero, Nat.mul_add_mod, Nat.mod_eq_of_lt hex]
  have hfrac : l.withSign neg (ex * 2 ^ l.m + fr) % 2 ^ l.m = fr := by
    rw [hbits, Nat.mul_add_mod, Nat.mod_eq_of_lt hfr]
  unfold Layout.value
  simp only [hsign, hexp, hfrac]
  rw [if_neg fun h => hieee h.1 h.2, if_neg fun h => hnan h.1 h.2.1 h.2.2]

/-- The greatest exponent of a finite value. -/
def Layout.emax (l : Layout) : Int :=
  match l.sp with
  | .ieee => (2 ^ l.e : Nat) - 2 - (l.bias : Int)
  | _ => (2 ^ l.e : Nat) - 1 - (l.bias : Int)

/-- The greatest significand of a value with the greatest exponent. -/
def Layout.qmax (l : Layout) : Nat :=
  match l.sp with
  | .nanOnly => 2 ^ (l.m + 1) - 2
  | _ => 2 ^ (l.m + 1) - 1

/-- A value with an exponent and a significand of m + 1 bits is not beyond the greatest finite value. -/
def Layout.Fits (l : Layout) (er : Int) (q : Nat) : Prop := ¬(l.emax < er ∨ (er = l.emax ∧ l.qmax < q))

/-- The code of a normal number. -/
theorem Layout.value_normal (l : Layout) (neg : Bool) {er : Int} {q : Nat} (hlow : 2 ^ l.m ≤ q) (hhigh : q < 2 ^ (l.m + 1))
    (her : 1 - (l.bias : Int) ≤ er) (hfits : l.Fits er q) :
    l.value (l.withSign neg ((er + l.bias).toNat * 2 ^ l.m + (q - 2 ^ l.m))) = .fin neg q (er - l.m) := by
  rw [pow_succ] at hhigh
  obtain ⟨ex, rfl⟩ : ∃ ex : Nat, er = ex - (l.bias : Int) := ⟨(er + l.bias).toNat, by omega⟩
  have hcode : ((ex : Int) - l.bias + l.bias).toNat = ex := by omega
  unfold Layout.Fits Layout.emax Layout.qmax at hfits
  rw [pow_succ] at hfits
  rw [hcode, l.value_fields neg, if_neg (by omega), Nat.add_sub_cancel' hlow]
  · cases hsp : l.sp <;> simp only [hsp] at hfits <;> omega
  · omega
  · intro hsp
    simp only [hsp] at hfits
    omega
  · intro hsp
    simp only [hsp] at hfits
    omega

/-- The code of a subnormal number or of zero. -/
theorem Layout.value_subnormal (l : Layout) (neg : Bool) (he : 1 < l.e) {q : Nat} (hq : q < 2 ^ l.m) :
    l.value (l.withSign neg q) = .fin neg q (1 - (l.bias : Int) - l.m) := by
  have hpow : 2 ^ 1 < 2 ^ l.e := Nat.pow_lt_pow_right one_lt_two he
  simpa using l.value_fields neg (ex := 0) (Nat.two_pow_pos _) hq (by omega) (by omega)

/-- The least normal number is finite. -/
theorem Layout.fits_least (l : Layout) (he : 1 < l.e) : l.Fits (1 - (l.bias : Int)) (2 ^ l.m) := by
  have hpow : 2 ^ 2 ≤ 2 ^ l.e := Nat.pow_le_pow_right two_pos he
  have hm : 0 < 2 ^ l.m := Nat.two_pow_pos _
  unfold Layout.Fits Layout.emax Layout.qmax
  rw [pow_succ]
  cases hsp : l.sp <;> simp only <;> omega

/-- The magnitude code that rounding makes of r multiples of 2^ulp. -/
def Layout.codeAt (l : Layout) (ulp : Int) (r : Nat) : Nat :=
  if r < 2 ^ l.m then r
  else if r = 2 ^ (l.m + 1) then (ulp + 1 + l.m + l.bias).toNat * 2 ^ l.m
  else (ulp + l.m + l.bias).toNat * 2 ^ l.m + (r - 2 ^ l.m)

/-- r multiples of 2^(er - m), with the significand 2^(m + 1) carried into the exponent, are not beyond the greatest finite value. -/
def Layout.FitsRounded (l : Layout) (er : Int) (r : Nat) : Prop :=
  l.Fits (if r = 2 ^ (l.m + 1) then er + 1 else er) (if r = 2 ^ (l.m + 1) then 2 ^ l.m else r)

/-- The code made of fewer than 2^m multiples of the least unit. -/
theorem Layout.value_codeAt_subnormal (l : Layout) (neg : Bool) (he : 1 < l.e) {r : Nat} (hr : r < 2 ^ l.m) (ulp : Int) :
    l.value (l.withSign neg (l.codeAt ulp r)) = .fin neg r (1 - (l.bias : Int) - l.m) := by
  rw [Layout.codeAt, if_pos hr, l.value_subnormal neg he hr]

/-- The code made of 2^m to 2^(m + 1) multiples of a unit has their value. -/
theorem Layout.value_codeAt_normal (l : Layout) (neg : Bool) {er : Int} {r : Nat} (hlow : 2 ^ l.m ≤ r) (hhigh : r ≤ 2 ^ (l.m + 1))
    (her : 1 - (l.bias : Int) ≤ er) (hfits : l.FitsRounded er r) :
    ∃ k e, l.value (l.withSign neg (l.codeAt (er - l.m) r)) = .fin neg k e ∧ valQ false k e = r * 2 ^ (er - l.m) := by
  unfold Layout.FitsRounded at hfits
  rw [Layout.codeAt, if_neg hlow.not_gt]
  by_cases hr : r = 2 ^ (l.m + 1)
  · rw [if_pos hr, if_pos hr] at hfits
    have hvalue := l.value_normal neg le_rfl (Nat.pow_lt_pow_succ one_lt_two) (by omega) hfits
    rw [Nat.sub_self, Nat.add_zero] at hvalue
    rw [if_pos hr, show er - l.m + 1 + l.m + l.bias = er + 1 + l.bias by ring, hvalue]
    refine ⟨_, _, rfl, ?_⟩
    rw [valQ_false, hr, twoPow_mul_zpow, twoPow_mul_zpow]
    congr 1
    push_cast
    ring
  · rw [if_neg hr, if_neg hr] at hfits
    rw [if_neg hr, sub_add_cancel, l.value_normal neg hlow (lt_of_le_of_ne hhigh hr) her hfits]
    exact ⟨_, _, rfl, valQ_false _ _⟩

/-! ### A finite value rounded to a floating format (R76, R77) -/

section
variable (l : Layout) {mode : RMode} {neg : Bool} {man : Nat} {exp : Int}

/-- A value beyond the greatest finite value overflows. -/
theorem Layout.roundFin_of_not_fits (h : ¬l.FitsRounded (logFloor man exp) (roundTo mode neg man exp (logFloor man exp - l.m)).1) :
    (l.roundFin mode false false neg man exp).2.getLsbD 2 = true := by
  have hover : l.roundFin mode false false neg man exp = _ := if_pos (not_not.mp h)
  rw [hover, if_neg Bool.false_ne_true]
  have hflag : (flagOf ||| flagNx).getLsbD 2 = true := by decide
  split <;> exact hflag

/-- A value that is not beyond the greatest finite value is rounded at the unit of its exponent, but not below the format's least. -/
theorem Layout.roundFin_of_fits (h : l.FitsRounded (logFloor man exp) (roundTo mode neg man exp (logFloor man exp - l.m)).1)
    {ulp : Int} (hulp : ulp = max (logFloor man exp) (1 - (l.bias : Int)) - l.m) :
    ∃ tiny, l.roundFin mode false false neg man exp = (l.withSign neg (l.codeAt ulp (roundTo mode neg man exp ulp).1),
      flagIf (roundTo mode neg man exp ulp).2 flagNx ||| flagIf (tiny && (roundTo mode neg man exp ulp).2) flagUf) := by
  have hunit : ulp = if logFloor man exp < 1 - (l.bias : Int) then 1 - (l.bias : Int) - l.m else logFloor man exp - l.m := by
    split <;> omega
  have hfinite : l.roundFin mode false false neg man exp = _ := if_neg h
  rw [hfinite, Bool.and_false, if_neg Bool.false_ne_true, ← hunit]
  exact ⟨_, rfl⟩

end

/-- The inexact flag beside the underflow flag. -/
theorem flagIf_nx_or_uf_getLsbD (inx uf : Bool) : (flagIf inx flagNx ||| flagIf uf flagUf).getLsbD 4 = inx := by
  cases inx <;> cases uf <;> rfl

/-- The code made of a value rounded at the unit of its exponent, but not below the format's least, is finite and has the rounded value. -/
theorem Layout.value_codeAt_roundTo (l : Layout) (he : 1 < l.e) {mode : RMode} {neg : Bool} {man : Nat} {exp : Int} (hman : man ≠ 0)
    (hfits : l.FitsRounded (logFloor man exp) (roundTo mode neg man exp (logFloor man exp - l.m)).1)
    {ulp : Int} (hulp : ulp = max (logFloor man exp) (1 - (l.bias : Int)) - l.m) :
    ∃ k e, l.value (l.withSign neg (l.codeAt ulp (roundTo mode neg man exp ulp).1)) = .fin neg k e ∧
      valQ false k e = (roundTo mode neg man exp ulp).1 * 2 ^ ulp := by
  rcases lt_or_ge (logFloor man exp) (1 - (l.bias : Int)) with hsmall | hlarge
  · rw [max_eq_right hsmall.le] at hulp
    have hbelow := roundTo_below mode neg l.m hman hsmall
    rw [← hulp] at hbelow
    rcases hbelow.lt_or_eq with hr | hr
    · exact ⟨_, _, l.value_codeAt_subnormal neg he hr _, by rw [valQ_false, hulp]⟩
    · have hne : (2 : Nat) ^ l.m ≠ 2 ^ (l.m + 1) := (Nat.pow_lt_pow_succ one_lt_two).ne
      have hleast : l.FitsRounded (1 - (l.bias : Int)) (2 ^ l.m) := by
        rw [Layout.FitsRounded, if_neg hne, if_neg hne]
        exact l.fits_least he
      rw [hr, hulp]
      exact l.value_codeAt_normal neg le_rfl (Nat.pow_le_pow_right two_pos l.m.le_succ) le_rfl hleast
  · rw [max_eq_left hlarge] at hulp
    obtain ⟨hlow, hhigh⟩ := roundTo_binade mode neg (exp := exp) l.m hman
    rw [hulp]
    exact l.value_codeAt_normal neg hlow hhigh hlarge hfits

/-- The code of a value rounded without overflow and ftz is finite, its value is the rounded value, and inexact says whether it changed. -/
theorem Layout.value_roundFin (l : Layout) (he : 1 < l.e) {mode : RMode} {neg : Bool} {man : Nat} {exp : Int} (hman : man ≠ 0)
    (h : (l.roundFin mode false false neg man exp).2.getLsbD 2 = false) :
    ∃ k e, l.value (l.roundFin mode false false neg man exp).1 = .fin neg k e ∧
      RoundsBy mode neg (2 ^ (max (logFloor man exp) (1 - (l.bias : Int)) - l.m)) (valQ false man exp) (valQ false k e)
        ((l.roundFin mode false false neg man exp).2.getLsbD 4) := by
  have hfits : l.FitsRounded (logFloor man exp) (roundTo mode neg man exp (logFloor man exp - l.m)).1 := by
    by_contra hnot
    exact Bool.false_ne_true (h.symm.trans (l.roundFin_of_not_fits hnot))
  obtain ⟨tiny, hround⟩ := l.roundFin_of_fits hfits rfl
  obtain ⟨k, e, hvalue, hval⟩ := l.value_codeAt_roundTo he hman hfits rfl
  rw [hround]
  refine ⟨k, e, hvalue, ?_⟩
  rw [hval, valQ_false, flagIf_nx_or_uf_getLsbD]
  exact roundTo_roundsBy mode neg man exp (max (logFloor man exp) (1 - (l.bias : Int)) - l.m)

/-- Rounding to a floating format other than E8M0, of a finite value that is not zero. -/
theorem rndFloat_fin {f : Fmt} (hf : f ≠ .e8m0) (mode : RMode) (ftz neg : Bool) {man : Nat} (h : man ≠ 0) (exp : Int) :
    rndFloat f mode false ftz (.fin neg man exp) = (layoutOf f).roundFin mode false ftz neg man exp := by
  obtain ⟨n, rfl⟩ := Nat.exists_eq_succ_of_ne_zero h
  exact if_neg hf

/-- Settles O17: the value is rounded to a multiple of the unit of its binade, and the code made of the multiple has that value. -/
theorem roundingStaysWithinAnUlp : Obligations.RoundingStaysWithinAnUlp := by
  intro f mode neg man exp hman hf hflag
  have hformats : ∀ f ∈ [Fmt.f64, .f32, .bf16, .f16, .e4m3, .e5m2, .e3m2, .e2m3, .e2m1], f ≠ .e8m0 ∧ 1 < (layoutOf f).e := by decide
  obtain ⟨he8m0, he⟩ := hformats f hf
  rw [rndFloat_fin he8m0 mode false neg hman exp] at hflag ⊢
  obtain ⟨k, e, hvalue, hround⟩ := (layoutOf f).value_roundFin he hman hflag
  exact ⟨k, e, hvalue, hround.close, hround.nearest, hround.towardZero, hround.up, hround.down, hround.inexact⟩

end Sys2Proof.Machine
end

section
/-!
SUPPORT. Scalar operands, the numbers that scalar words stand for, and the scalar arithmetic (R48, R61, R100, R102 to R104).
-/

namespace Sys2Proof.Machine

open Sys2Proof.Claims

/-! ### Words as numbers -/

theorem bitOf_eq_testBit (x n : Nat) : bitOf x n = x.testBit n := by
  rw [bitOf, Nat.testBit_eq_decide_div_mod_eq, beq_eq_decide]

@[simp] theorem bitOf_toNat {n : Nat} (x : BitVec n) (k : Nat) : bitOf x.toNat k = x.getLsbD k := by rw [bitOf_eq_testBit, BitVec.testBit_toNat]

/-- trunc of R61 is the word that an integer wraps to. -/
theorem wrap_eq_toNat_ofInt (x : Int) (n : Nat) : wrap x n = (BitVec.ofInt n x).toNat := by
  rw [wrap, BitVec.toNat_ofInt]
  norm_cast

/-- A word read as signed, and wrapped, is the word. -/
@[simp] theorem wrap_toInt {n : Nat} (x : BitVec n) : wrap x.toInt n = x.toNat := by rw [wrap_eq_toNat_ofInt, BitVec.ofInt_toInt]

/-- The sign extension of R61 reads the low bits as signed. -/
theorem signed_eq_toInt (x n : Nat) : signed x n = (BitVec.ofNat n x).toInt := by
  cases n with
  | zero => simp [signed, Nat.mod_one, BitVec.toInt]
  | succ n =>
    have hlow : x % 2 ^ (n + 1) < 2 ^ (n + 1) := Nat.mod_lt _ (Nat.two_pow_pos _)
    rw [signed, BitVec.toInt, BitVec.toNat_ofNat]
    simp only [Nat.add_sub_cancel, ne_eq, Nat.succ_ne_zero, not_false_eq_true, true_and, pow_succ (2 : Nat) n]
    push_cast
    split <;> split <;> omega

/-! ### Scalar registers -/

/-- A scalar register read after one is written (R100). -/
theorem Tile.sreg_setS (t : Tile) {r : Reg} (q : Reg) (v : Word) (h : RisingMap t.regs.s) (hr : r ≠ 0) :
    (t.setS r.toNat v).sreg q = if q = r then v else t.sreg q := by
  have hr0 : r.toNat ≠ 0 := fun e => hr (BitVec.eq_of_toNat_eq e)
  unfold Tile.setS Tile.sreg
  rw [if_neg hr0]
  by_cases hq : q = r
  · subst hq
    rw [if_neg hr, if_pos rfl]
    exact mapGet_mapSet_self 0 t.regs.s _ v h
  · rw [if_neg hq]
    exact congrArg (ite (q = 0) 0) (mapGet_mapSet_ne 0 t.regs.s v fun e => hq (BitVec.eq_of_toNat_eq e))

theorem operandForms : OperandForms :=
  ⟨fun _ => rfl, fun _ _ => rfl, fun t r v hr h => (t.sreg_setS r v h hr).trans (if_pos rfl), fun _ _ => rfl,
    fun _ v => ⟨BitVec.toInt_signExtend_of_le (by decide), BitVec.toNat_setWidth_of_le (by decide)⟩,
    fun _ v => ⟨BitVec.toInt_signExtend_of_le (by decide), BitVec.toNat_setWidth_of_le (by decide)⟩,
    fun t h => by rw [Tile.topMask, h]; rfl⟩

theorem registerZeroReadsZero : RegisterZeroReadsZero :=
  ⟨fun _ => rfl, fun _ _ => rfl, fun t _ q v h hr => t.sreg_setS q v h hr⟩

/-- Settles O5: a register read after a write, and the widths of the immediates. -/
theorem operandsAndRegisterZero : Obligations.OperandsAndRegisterZero := ⟨operandForms, registerZeroReadsZero⟩

/-! ### Scalar results -/

section
variable {s : State} {i : Instr} {d a c : Reg} {b : Src} {cls : LatClass} {lat v : Nat} {f : Tile → Word}

/-- A scalar instruction sends the number that its word stands for. -/
theorem givesS_of_toNat (he : exec i s = scalarOp s cls lat d f) (hv : (f (mine s)).toNat = v) : GivesS i s d v lat :=
  ⟨_, by rw [he, scalarOp_next, hv]⟩

/-- The same of an integer that the word wraps. -/
theorem givesS_of_toInt (he : exec i s = scalarOp s cls lat d f) {x : Int} (hv : f (mine s) = BitVec.ofInt 64 x) : GivesS i s d (wrap x 64) lat :=
  givesS_of_toNat he (by rw [hv, wrap_eq_toNat_ofInt])

/-- The same of a number below the word's size. -/
theorem givesS_of_ofNat (he : exec i s = scalarOp s cls lat d f) (hf : f (mine s) = BitVec.ofNat 64 v) (hv : v < 2 ^ 64) : GivesS i s d v lat :=
  givesS_of_toNat he (by rw [hf, BitVec.toNat_ofNat, Nat.mod_eq_of_lt hv])

/-- The same where the number is told by what holds of it. -/
theorem givesS_of_toNat_spec (he : exec i s = scalarOp s cls lat d f) {P : Nat → Prop} (hp : P (f (mine s)).toNat) :
    ∃ v < 2 ^ 64, GivesS i s d v lat ∧ P v := ⟨_, (f (mine s)).isLt, givesS_of_toNat he rfl, hp⟩
end

/-- Settles O6: each word of the table as a number. -/
theorem scalarArithmetic : Obligations.ScalarArithmetic := by
  intro s d a c b
  refine ⟨givesS_of_toNat (exec_add s d a b) (BitVec.toNat_add ..), givesS_of_toNat (exec_sub s d a b) ?_,
    givesS_of_toNat (exec_mul s d a b) (BitVec.toNat_mul ..), givesS_of_toInt (exec_mulh s d a b) rfl,
    givesS_of_ofNat (exec_mulhu s d a b) rfl ?_, givesS_of_toNat (exec_madd s d a b c) ?_, fun r sh => givesS_of_toNat (exec_idx s d a r sh) ?_,
    fun v => givesS_of_toNat (exec_movi s d v) rfl⟩
  · rw [BitVec.toNat_sub, Nat.add_comm]
    rfl
  · exact Nat.div_lt_of_lt_mul (Nat.mul_lt_mul'' ((mine s).sreg a).isLt ((mine s).bsrc b).isLt)
  · rw [BitVec.toNat_add, BitVec.toNat_mul, Nat.mod_add_mod]
    rfl
  · rw [BitVec.toNat_add, BitVec.toNat_shiftLeft, Nat.add_mod_mod, Nat.shiftLeft_eq]
    rfl

/-! ### Division (R103) -/

theorem sdiv_eq_ofInt (x y : Word) : x.sdiv y = BitVec.ofInt 64 (x.toInt.tdiv y.toInt) :=
  BitVec.eq_of_toInt_eq (by rw [BitVec.toInt_sdiv, BitVec.toInt_ofInt])

theorem srem_eq_ofInt (x y : Word) : x.srem y = BitVec.ofInt 64 (x.toInt.tmod y.toInt) := by
  rw [← BitVec.toInt_srem, BitVec.ofInt_toInt]

/-- A choice by a zero divisor, as numbers. -/
theorem toNat_ite_zero {p q x : Word} {n m : Nat} (h0 : p.toNat = n) (h1 : q.toNat = m) :
    (if x = 0 then p else q).toNat = if x.toNat = 0 then n else m := by
  by_cases h : x = 0
  · rw [if_pos h, if_pos (by rw [h]; rfl), h0]
  · rw [if_neg h, if_neg fun e : x.toNat = 0 => h (BitVec.eq_of_toNat_eq e), h1]

/-- Settles O7: by the division of words, signed and unsigned. -/
theorem scalarDivision : Obligations.ScalarDivision := by
  intro s d a b
  have hones : (-1 : Word).toNat = 2 ^ 64 - 1 := by decide
  refine ⟨givesS_of_toNat (exec_div s d a b) (toNat_ite_zero hones ?_), givesS_of_toNat (exec_divu s d a b) (toNat_ite_zero hones rfl),
    givesS_of_toNat (exec_rem s d a b) (toNat_ite_zero rfl ?_), givesS_of_toNat (exec_remu s d a b) (toNat_ite_zero rfl rfl)⟩
  · rw [sdiv_eq_ofInt, ← wrap_eq_toNat_ofInt]
    rfl
  · rw [srem_eq_ofInt, ← wrap_eq_toNat_ofInt]
    rfl

end Sys2Proof.Machine
end

section
/-!
SUPPORT. The scalar instructions that work on bits: logic, shifts, counts, choices and fields (R102, R104).
-/

namespace Sys2Proof.Machine

open Sys2Proof.Claims

/-! ### Logic and shifts -/

/-- A bit of a word turned right: the bit that stood so many places up, around the end. -/
theorem getLsbD_rotateRight_mod (x : Word) {k r : Nat} (hk : k < 64) (hr : r < 64) : (x.rotateRight r).getLsbD k = x.getLsbD ((k + r) % 64) := by
  rw [BitVec.getLsbD_rotateRight, Nat.mod_eq_of_lt hr, decide_eq_true hk, Bool.true_and]
  by_cases h : k < 64 - r
  · rw [decide_eq_true h, cond_true, Nat.add_comm, Nat.mod_eq_of_lt (by omega)]
  · rw [decide_eq_false h, cond_false, show (k + r) % 64 = k - (64 - r) by omega]

theorem scalarLogicShift : ScalarLogicShift := by
  intro s d a b
  have hamt : shiftAmt ((mine s).bsrc b) = bv s b % 64 := rfl
  have hlow : bv s b % 64 < 64 := Nat.mod_lt _ (by decide)
  refine ⟨givesS_of_toNat_spec (exec_and s d a b) fun k => ?_, givesS_of_toNat_spec (exec_or s d a b) fun k => ?_,
    givesS_of_toNat_spec (exec_xor s d a b) fun k => ?_, givesS_of_toNat_spec (exec_andn s d a b) fun k => ?_,
    givesS_of_toNat (exec_shl s d a b) ?_, givesS_of_toNat (exec_shr s d a b) ?_, givesS_of_toInt (exec_sar s d a b) ?_,
    givesS_of_toNat_spec (exec_rot s d a b) fun k hk => ?_⟩
  · rw [av, bv, bitOf_toNat, bitOf_toNat, bitOf_toNat, BitVec.getLsbD_and]
  · rw [av, bv, bitOf_toNat, bitOf_toNat, bitOf_toNat, BitVec.getLsbD_or]
  · rw [av, bv, bitOf_toNat, bitOf_toNat, bitOf_toNat, BitVec.getLsbD_xor, Bool.bne_eq_xor]
  · rw [av, bv, bitOf_toNat, bitOf_toNat, bitOf_toNat, BitVec.getLsbD_and, BitVec.getLsbD_not]
    by_cases hk : k < 64
    · rw [decide_eq_true hk, Bool.true_and]
    · rw [BitVec.getLsbD_of_ge _ k (by omega), Bool.false_and, Bool.false_and]
  · rw [BitVec.toNat_shiftLeft, Nat.shiftLeft_eq, hamt]
    rfl
  · rw [BitVec.toNat_ushiftRight, Nat.shiftRight_eq_div_pow, hamt]
    rfl
  · rw [← BitVec.ofInt_toInt (x := BitVec.sshiftRight _ _), BitVec.toInt_sshiftRight, Int.shiftRight_eq_div_pow, hamt]
    rfl
  · rw [hamt, av, bitOf_toNat, bitOf_toNat, getLsbD_rotateRight_mod _ hk hlow]

/-! ### Counts and choices -/

/-- The leading zeros of a number below 2^n leave it below 2^(n − zeros), with its top bit in place. -/
theorem clzOf_spec {n x : Nat} (hx : x < 2 ^ n) : clzOf n x ≤ n ∧ x < 2 ^ (n - clzOf n x) ∧ (clzOf n x < n → 2 ^ (n - 1 - clzOf n x) ≤ x) := by
  unfold clzOf
  split
  · next h => exact ⟨le_rfl, by simp [h], fun h => absurd h (lt_irrefl n)⟩
  · next h =>
    have hlog : Nat.log2 x < n := (Nat.log2_lt h).2 hx
    refine ⟨by omega, ?_, fun _ => ?_⟩
    · rw [show n - (n - 1 - Nat.log2 x) = Nat.log2 x + 1 by omega]
      exact Nat.lt_log2_self
    · rw [show n - 1 - (n - 1 - Nat.log2 x) = Nat.log2 x by omega]
      exact Nat.log2_self_le h

/-- A power of two divides a number that has no bit below it. -/
theorem two_pow_dvd_iff_testBit {n x : Nat} : 2 ^ n ∣ x ↔ ∀ k < n, x.testBit k = false := by
  constructor
  · rintro ⟨c, rfl⟩ k hk
    rw [Nat.testBit_two_pow_mul, decide_eq_false (by omega), Bool.false_and]
  · refine fun h => Nat.dvd_of_mod_eq_zero (Nat.eq_of_testBit_eq fun k => ?_)
    rw [Nat.testBit_mod_two_pow, Nat.zero_testBit]
    by_cases hk : k < n
    · rw [h k hk, Bool.and_false]
    · rw [decide_eq_false hk, Bool.false_and]

/-- The trailing zeros of a word: the highest power of two that divides it, or the word's size where it is zero. -/
theorem ctzOf_spec {n : Nat} (x : BitVec n) :
    ctzOf x ≤ n ∧ 2 ^ ctzOf x ∣ x.toNat ∧ (ctzOf x < n → ¬ 2 ^ (ctzOf x + 1) ∣ x.toNat) ∧ (ctzOf x = n → x.toNat = 0) := by
  unfold ctzOf
  cases h : (List.range n).find? fun k => x.getLsbD k with
  | none =>
    have hzero : x.toNat = 0 := Nat.eq_of_testBit_eq fun k => by
      rw [Nat.zero_testBit, BitVec.testBit_toNat]
      by_cases hk : k < n
      · simpa using List.find?_eq_none.mp h k (List.mem_range.mpr hk)
      · exact BitVec.getLsbD_of_ge x k (by omega)
    exact ⟨le_rfl, by rw [hzero]; exact dvd_zero _, fun h => absurd h (lt_irrefl n), fun _ => hzero⟩
  | some k =>
    obtain ⟨hbit, hmem, hbelow⟩ := List.find?_range_eq_some.mp h
    have hk : k < n := List.mem_range.mp hmem
    refine ⟨hk.le, two_pow_dvd_iff_testBit.2 fun j hj => ?_, fun _ hd => ?_, fun e => absurd e hk.ne⟩
    · rw [BitVec.testBit_toNat]
      simpa using hbelow j hj
    · have := two_pow_dvd_iff_testBit.1 hd k (Nat.lt_succ_self k)
      rw [BitVec.testBit_toNat, hbit] at this
      exact Bool.noConfusion this

theorem foldl_b2n_eq_countP (p : Nat → Bool) (l : List Nat) (n : Nat) : l.foldl (fun a i => a + b2n (p i)) n = n + l.countP p := by
  induction l generalizing n with
  | nil => rfl
  | cons x r ih =>
    rw [List.foldl_cons, ih, List.countP_cons, b2n]
    omega

/-- A choice of a word by a comparison, as the number that the chosen integer wraps to. -/
theorem toNat_ite_min (x y : Word) : (if x.sle y then x else y).toNat = wrap (min x.toInt y.toInt) 64 := by
  simp only [BitVec.sle_eq_decide, decide_eq_true_eq]
  rw [min_def]
  split <;> rw [wrap_toInt]

theorem toNat_ite_max (x y : Word) : (if y.sle x then x else y).toNat = wrap (max x.toInt y.toInt) 64 := by
  simp only [BitVec.sle_eq_decide, decide_eq_true_eq]
  rw [max_comm, max_def]
  split <;> rw [wrap_toInt]

theorem toNat_ite_minu (x y : Word) : (if x.ule y then x else y).toNat = min x.toNat y.toNat := by
  simp only [BitVec.ule_eq_decide, decide_eq_true_eq]
  rw [min_def]
  split <;> rfl

theorem toNat_ite_maxu (x y : Word) : (if y.ule x then x else y).toNat = max x.toNat y.toNat := by
  simp only [BitVec.ule_eq_decide, decide_eq_true_eq]
  rw [max_comm, max_def]
  split <;> rfl

/-- A condition of R47 on words, as a relation of the numbers that it compares. -/
def condOf (cc : Cond) (x y : Word) : Bool := match cc with
  | .eq => decide (x.toNat = y.toNat) | .ne => decide (x.toNat ≠ y.toNat)
  | .lt => decide (x.toInt < y.toInt) | .ge => decide (x.toInt ≥ y.toInt) | .gt => decide (x.toInt > y.toInt) | .le => decide (x.toInt ≤ y.toInt)
  | .ltu => decide (x.toNat < y.toNat) | .geu => decide (x.toNat ≥ y.toNat) | .gtu => decide (x.toNat > y.toNat)
  | .leu => decide (x.toNat ≤ y.toNat)

theorem condHolds_eq_condOf (cc : Cond) (x y : Word) : condHolds cc x y = condOf cc x y := by
  have heq : (x == y) = decide (x.toNat = y.toNat) := by rw [beq_eq_decide, decide_eq_decide, BitVec.toNat_inj]
  cases cc with
  | eq => exact heq
  | ne => rw [condHolds, bne, heq, condOf, decide_not]
  | _ => rfl

theorem scalarCountChoose : ScalarCountChoose := by
  intro s d a c b
  obtain ⟨hz, hzlow, hztop⟩ := clzOf_spec ((mine s).sreg a).isLt
  obtain ⟨ht, htdvd, htnot, htzero⟩ := ctzOf_spec ((mine s).sreg a)
  have hpopc : popcOf 64 (av s a) = (List.range 64).countP fun k => bitOf (av s a) k := (foldl_b2n_eq_countP _ _ 0).trans (Nat.zero_add _)
  refine ⟨⟨_, hz, givesS_of_ofNat (exec_clz s d a) rfl (by omega), hzlow, hztop⟩, ⟨_, ht, givesS_of_ofNat (exec_ctz s d a) rfl (by omega), htdvd, htnot, htzero⟩,
    givesS_of_ofNat (exec_popc s d a) (congrArg _ hpopc) ?_, givesS_of_toNat (exec_min s d a b) (toNat_ite_min _ _),
    givesS_of_toNat (exec_max s d a b) (toNat_ite_max _ _), givesS_of_toNat (exec_minu s d a b) (toNat_ite_minu _ _),
    givesS_of_toNat (exec_maxu s d a b) (toNat_ite_maxu _ _), givesS_of_toNat (exec_sel s d a b c) (toNat_ite_zero rfl rfl),
    fun cc => givesS_of_toNat (exec_cmp s cc d a b) ?_⟩
  · exact (List.countP_le_length.trans_eq List.length_range).trans_lt (by decide)
  · rw [condHolds_eq_condOf, b2n]
    cases cc <;> exact apply_ite BitVec.toNat _ _ _

/-! ### Fields (R104) -/

/-- The low n bits of a word, extended by their sign. -/
theorem ofInt_signed_eq_signExtend (x n : Nat) : BitVec.ofInt 64 (signed x n) = (BitVec.ofNat n x).signExtend 64 := by
  rw [signed_eq_toInt]
  rfl

/-- BFX reads the field of so many bits at a place (R104). -/
theorem bitField_toNat (x : Word) {pos len : Nat} (h : 1 ≤ len) (sx : Bool) : (bitField x pos len sx).toNat =
    if sx then ((x.extractLsb' pos len).signExtend 64).toNat else x.toNat / 2 ^ pos % 2 ^ len := by
  have hfield : field x.toNat (pos + len - 1) pos = x.toNat / 2 ^ pos % 2 ^ len := by rw [field, show pos + len - 1 + 1 - pos = len by omega]
  have hlt : x.toNat / 2 ^ pos % 2 ^ len < 2 ^ 64 := (Nat.mod_le _ _).trans_lt ((Nat.div_le_self _ _).trans_lt x.isLt)
  unfold bitField
  dsimp only
  rw [hfield]
  cases sx with
  | false => exact (BitVec.toNat_ofNat _ _).trans (Nat.mod_eq_of_lt hlt)
  | true =>
    have hlow : BitVec.ofNat len (x.toNat / 2 ^ pos % 2 ^ len) = x.extractLsb' pos len :=
      BitVec.eq_of_toNat_eq (by rw [BitVec.toNat_ofNat, Nat.mod_mod, BitVec.extractLsb'_toNat, Nat.shiftRight_eq_div_pow])
    rw [if_pos rfl, if_pos rfl, ofInt_signed_eq_signExtend, hlow]

theorem scalarFields : ScalarFields := by
  intro s d a b n len pos sx
  refine ⟨fun _ _ => ⟨givesS_of_toNat (exec_sext s d a n) ?_, givesS_of_ofNat (exec_zext s d a n) rfl ?_⟩, fun hl hend =>
    ⟨givesS_of_toNat (exec_bfx s d a pos len sx) (bitField_toNat _ hl sx), givesS_of_toNat_spec (exec_bfi s d a b pos len) fun k hk => ?_⟩⟩
  · rw [ofInt_signed_eq_signExtend, BitVec.ofNat_toNat]
  · exact (Nat.mod_le _ _).trans_lt ((mine s).sreg a).isLt
  · rw [bitOf_toNat, BitVec.getLsbD_ofNat, decide_eq_true hk, Bool.true_and, testBit_setField]
    simp only [bitOf_eq_testBit]
    rfl

/-- Settles O8: the bits, counts and fields of the words. -/
theorem scalarBitInstructions : Obligations.ScalarBitInstructions := ⟨scalarLogicShift, scalarCountChoose, scalarFields⟩

end Sys2Proof.Machine
end

section
/-!
SUPPORT. Control transfers and loops (R59, R105, R106), and the loads and stores of staging (R61, R109).
-/

namespace Sys2Proof.Machine

open Sys2Proof.Claims

/-! ### Targets and the stream around a bundle -/

/-- A transfer's target is the offset that lies so many indices away, or one that no PC can hold (R105). -/
theorem isTarget_targetOff (s : State) (d : Word) : IsTarget s d.toInt (targetOff s.cur.pc.off d) := by
  unfold IsTarget targetOff
  dsimp only
  refine ⟨fun h0 h1 => ?_, fun h => ?_⟩
  · rw [if_pos ⟨h0, h1⟩]
    exact Int.toNat_of_nonneg h0
  · rw [if_neg (by omega)]
    omega

theorem isTarget_signExtend (s : State) (off : BitVec 20) : IsTarget s off.toInt (targetOff s.cur.pc.off (off.signExtend 64)) := by
  rw [← BitVec.toInt_signExtend_of_le (x := off) (v := 64) (by decide)]
  exact isTarget_targetOff s _

section
variable {s : State}

theorem slotCtx_pc : s.slotCtx.pc = s.cur.pc := rfl
theorem slotCtx_handler : s.slotCtx.handler = s.cur.handler := rfl

/-- The stream successor in the segment of the bundle in hand (R34). -/
theorem successor_eq (off : Nat) :
    (mine s).successor s.slotCtx.variant { seg := s.cur.pc.seg, off := off } = { seg := s.cur.pc.seg, off := succOff s off } := by
  rw [Tile.successor, Tile.escapedAt_eq, succOff]
  dsimp only
  split <;> rfl

/-- The bundle after the second delay bundle (R105, R106). -/
theorem third_off : (s.slotCtx.third (mine s)).off = thirdOff s := by
  have hpc : s.slotCtx.pc = { seg := s.cur.pc.seg, off := s.cur.pc.off } := rfl
  rw [Ctx.third, hpc, successor_eq, successor_eq, successor_eq]
  rfl

/-! ### Branches and calls (R105) -/

theorem gives_of_ok {i : Instr} {part : Nat} {f : Ctx → Tile → SlotRes} {t : Tile} (he : exec i s = runSlot part s f)
    (h : f s.slotCtx (mine s) = .ok t) : Gives i s t := he.trans (runSlot_ok h)

theorem traps_of_trap {i : Instr} {part cause info : Nat} {f : Ctx → Tile → SlotRes} (he : exec i s = runSlot part s f)
    (h : f s.slotCtx (mine s) = .trap cause info) : Traps i s part cause info := he.trans (runSlot_trap h)

/-- The link value of a CALL (R105). -/
theorem link_eq : s.slotCtx.link (mine s) = if s.cur.handler then s.cur.pc.off + 1 else thirdOff s % 65536 + s.cur.pc.seg % 65536 * 65536 := by
  rw [Ctx.link, third_off]
  rfl

/-- The place that a RET names is none that it may return to: another segment, or, for a handler, no offset (R105, R129). -/
def RetBarred (s : State) (v : Nat) : Prop := if s.cur.handler then v / 65536 ≠ 0 else field v 63 32 ≠ 0 ∨ field v 31 16 ≠ s.cur.pc.seg

theorem retBarred_handler {v : Nat} (h : s.cur.handler = true) : RetBarred s v ↔ v / 2 ^ 16 ≠ 0 := by
  rw [RetBarred, if_pos h]
  exact Iff.rfl

theorem retBarred_program {v : Nat} (h : s.cur.handler = false) (hv : v < 2 ^ 64) :
    RetBarred s v ↔ v / 2 ^ 32 ≠ 0 ∨ v / 2 ^ 16 % 2 ^ 16 ≠ s.cur.pc.seg := by
  have hhigh : v / 2 ^ 32 % 2 ^ 32 = v / 2 ^ 32 := Nat.mod_eq_of_lt (by omega)
  rw [RetBarred, if_neg (ne_true_of_eq_false h), field, field, hhigh]

theorem ret_gives {a : Reg} (h : ¬ RetBarred s (av s a)) : Gives (.ret a) s (taken s (mine s) (av s a % 2 ^ 16) false) :=
  gives_of_ok (exec_ret s a) (if_neg h)

theorem ret_traps {a : Reg} (h : RetBarred s (av s a)) : Traps (.ret a) s 1 0x02 (av s a % 2 ^ 16) :=
  traps_of_trap (exec_ret s a) (if_pos h)

theorem branchesAndCalls : BranchesAndCalls := by
  intro s d a b off i
  have hlt : av s a < 2 ^ 64 := ((mine s).sreg a).isLt
  refine ⟨fun cc => ⟨_, isTarget_signExtend s off, gives_of_ok (exec_br s cc a b off) rfl⟩, ⟨_, isTarget_targetOff s _, gives_of_ok (exec_j s i) rfl⟩,
    ⟨targetOff s.cur.pc.off (Imm.simm i), s.slotCtx.img (taken s (mine s) (targetOff s.cur.pc.off (Imm.simm i)) false) .scalar 1,
      isTarget_targetOff s _, gives_of_ok (exec_call s d i) ?_⟩, fun h h0 => ?_, fun h h0 hseg => ret_gives ?_,
    fun h h0 => ret_traps ((retBarred_handler h).2 h0), fun h h0 => ret_traps ((retBarred_program h hlt).2 h0),
    ⟨_, isTarget_signExtend s off, gives_of_ok (exec_brme s off) rfl⟩⟩
  · rw [← link_eq, ← Ctx.land_flyS]
    rfl
  · have := ret_gives (mt (retBarred_handler h).1 (not_not_intro h0))
    rwa [Nat.mod_eq_of_lt (by omega)] at this
  · rw [retBarred_program h hlt, hseg]
    omega

/-! ### Loops (R106) -/

theorem hardwareLoops : HardwareLoops := by
  intro s a last stages always stop
  refine ⟨fun h hdepth hstart hend => gives_of_ok (exec_loop s a last stages) ?_, fun h => traps_of_trap (exec_loop s a last stages) (if_pos h),
    fun h hdepth hbad => traps_of_trap (exec_loop s a last stages) ?_, fun h e r hl => gives_of_ok (exec_lbrk s a always) ?_,
    fun h => traps_of_trap (exec_lbrk s a always) ?_⟩
  · have hroom : ¬ (s.cur.handler = true ∨ 6 ≤ (mine s).flow.loops.length) := by simp [h, hdepth]
    have hbody : ¬ (stop < thirdOff s ∨ ((mine s).segment s.slotCtx.variant s.cur.pc.seg).length ≤ stop) := by omega
    dsimp only
    rw [third_off, slotCtx_handler, slotCtx_pc, successor_eq, if_neg hroom, if_neg hbody]
    exact (apply_ite SlotRes.ok _ _ _).symm
  · have hroom : ¬ (s.cur.handler = true ∨ 6 ≤ (mine s).flow.loops.length) := by simp [h, hdepth]
    dsimp only
    rw [third_off]
    exact (if_neg hroom).trans (if_pos hbad)
  · have hne : (mine s).sreg a ≠ 0 ↔ av s a ≠ 0 := not_congr (BitVec.toNat_inj (y := 0)).symm
    dsimp only
    rw [hl]
    dsimp only
    rw [slotCtx_pc, successor_eq, slotCtx_handler, if_neg (ne_true_of_eq_false h)]
    simp only [hne]
    exact (apply_ite SlotRes.ok _ _ _).symm
  · cases hl : (mine s).flow.loops with
    | nil => rfl
    | cons e r => exact if_pos (h.resolve_right (by rw [hl]; exact List.cons_ne_nil _ _))

/-- Settles O9: targets by the stream around the bundle, and each transfer decided at issue. -/
theorem controlFlow : Obligations.ControlFlow := ⟨branchesAndCalls, hardwareLoops⟩

/-! ### Staging (R109) -/

/-- The staging address of a base and an offset (R61). -/
theorem stgAddr_add (x : Word) (off : BitVec 17) (n : Nat) : stgAddr (x + off.signExtend 64) n = alignedAt (x.toInt + off.toInt) n := by
  have hmod (x y : Word) : (x + y).toNat % stagingSize = wrap (x.toInt + y.toInt) 18 := by
    rw [BitVec.toNat_add, stagingSize, wrap, BitVec.toInt_eq_toNat_cond, BitVec.toInt_eq_toNat_cond]
    have := x.isLt
    have := y.isLt
    split <;> split <;> omega
  rw [stgAddr, hmod, BitVec.toInt_signExtend_of_le (by decide), alignedAt]

theorem alignedAt_add_le (x : Int) (w : Width) : alignedAt x (2 ^ w.toNat) + 2 ^ w.toNat ≤ 2 ^ 18 := by
  have hlt : wrap x 18 < 2 ^ 18 := by
    rw [wrap]
    omega
  have hdvd : 2 ^ w.toNat ∣ 2 ^ 18 := Nat.pow_dvd_pow 2 (by omega)
  rw [alignedAt, ← Nat.succ_mul]
  exact (Nat.mul_le_mul_right _ (Nat.div_lt_div_of_lt_of_dvd hdvd hlt)).trans (Nat.div_mul_le_self _ _)

theorem bytesNat_lt (l : List Byte) : bytesNat l < 256 ^ l.length := by
  induction l with
  | nil => exact one_pos
  | cons b r ih =>
    have hb := b.isLt
    rw [bytesNat, List.length_cons, pow_succ]
    omega

theorem staged_lt (m : Mem) (a n : Nat) : staged m a n < 2 ^ (8 * n) := by
  refine (bytesNat_lt _).trans_eq ?_
  rw [List.length_map, List.length_range, pow_mul]
  rfl

theorem stgRd_eq_staged (t : Tile) (x : Word) (n : Nat) : t.stgRd x n = staged t.staging (stgAddr x n) n := congrArg bytesNat (memRange_eq ..)

/-- The sign extension of a value of 1, 2, 4 or 8 bytes to a word. -/
theorem wrap_signed {v n : Nat} (hn : 0 < n) (h8 : n ≤ 8) (hv : v < 2 ^ (8 * n)) :
    wrap (signed v (8 * n)) 64 = if 2 ^ (8 * n - 1) ≤ v then v + (2 ^ 64 - 2 ^ (8 * n)) else v := by
  have hle : 2 ^ (8 * n) ≤ 2 ^ 64 := Nat.pow_le_pow_right two_pos (by omega)
  have hcast : ((2 ^ (8 * n) : Nat) : Int) = 2 ^ (8 * n) := by norm_cast
  unfold signed wrap
  dsimp only
  rw [Nat.mod_eq_of_lt hv, ← hcast]
  generalize 2 ^ (8 * n) = p at *
  by_cases h : 2 ^ (8 * n - 1) ≤ v
  · rw [if_pos ⟨by omega, h⟩, if_pos h]
    omega
  · rw [if_neg fun hc => h hc.2, if_neg h]
    omega

/-- The bytes of a store that does not pass the end of staging. -/
theorem wholeBytes_natBytes {a n : Nat} (v : Nat) (h : a + n ≤ 2 ^ 18) : wholeBytes a (natBytes n v) = bytesAt a n v := by
  induction n generalizing a v with
  | zero => rfl
  | succ n ih =>
    rw [natBytes, wholeBytes, ih _ (by omega), bytesAt, bytesAt, List.range_succ_eq_map, List.map_cons, List.map_map, stagingSize, Nat.mod_eq_of_lt (by omega)]
    refine congr_arg₂ List.cons (by rw [Nat.add_zero, pow_zero, Nat.div_one]) (List.map_congr_left fun k _ => ?_)
    rw [Function.comp_apply, pow_succ', Nat.div_div_eq_div_mul, Nat.add_assoc, Nat.add_comm 1 k]

/-- A write to staging sent on its way. -/
theorem landStaging_flyB (t : Tile) (code : Nat) (captured : Bool) (bs : List SByte) (lat : Nat) (flags : FlagSet) (cls : LatClass) :
    s.slotCtx.landStaging t code captured bs lat flags cls = flyB s t code captured bs lat flags (s.slotCtx.img t cls lat) := rfl
end

/-- Settles O10: the address is aligned by its width, so the access does not pass the end of staging. -/
theorem stagingLoadStore : Obligations.StagingLoadStore := by
  intro s d a b w sx off n at' v
  have hn : 0 < n := Nat.two_pow_pos _
  have h8 : n ≤ 2 ^ 3 := Nat.pow_le_pow_right two_pos (by omega)
  have haddr : stgAddr ((mine s).sreg a + off.signExtend 64) n = at' := stgAddr_add _ _ _
  refine ⟨⟨s.slotCtx.img (mine s) .ld 6, ?_⟩, s.slotCtx.img (mine s) .other 1, gives_of_ok (exec_st s a b w off) ?_⟩
  · refine gives_of_ok (exec_ld s d a w sx off) ?_
    dsimp only
    rw [stgRd_eq_staged, haddr, Ctx.land_flyS, wrap_signed hn h8 (staged_lt _ _ _)]
    cases sx with
    | false => rfl
    | true => simp only [if_true, true_and, v]
  · dsimp only
    rw [haddr, wholeBytes_natBytes _ (alignedAt_add_le _ w), landStaging_flyB]
    rfl

end Sys2Proof.Machine
end

section
/-!
SUPPORT. What taking a trap makes of the machine (R117, R121, R122, R124, R128).
-/

namespace Sys2Proof.Machine

open Sys2Proof.Claims

/-! ### The trap registers (R121) -/

section
variable (r : Sys) (f : Flow) (part info t next : Nat) (cyc : Bool)

theorem isDeviation_eq (cause : Nat) : isDeviation cause = decide (cause ∈ [0x03, 0x04, 0x05, 0x06, 0x0B, 0x0C]) := by
  simp [isDeviation, causeConflict, causeVault, causeOverdue, causePin, causeWheel, causeMesh, Bool.or_assoc, beq_eq_decide]

/-- xcause holds the cause, the part, the deviation bit and the bit of a trap at a cycle, and nothing above. -/
theorem Sys.trapped_xcause {cause part : Nat} (hc : cause < 256) (hp : part < 8) : let x := (r.trapped f cause part info t next cyc).xcause.toNat
    x % 256 = cause ∧ x / 256 % 8 = part ∧ bitOf x 11 = (cause ∈ [0x03, 0x04, 0x05, 0x06, 0x0B, 0x0C] : Bool) ∧ bitOf x 12 = cyc ∧ x < 2 ^ 13 := by
  have hb (b : Bool) : b2n b ≤ 1 := by cases b <;> decide
  have hbit (b : Bool) : (b2n b == 1) = b := by cases b <;> rfl
  have h1 := hb (isDeviation cause)
  have h2 := hb cyc
  intro x
  have hx : x = cause + part * 256 + b2n (isDeviation cause) * 2048 + b2n cyc * 4096 := (BitVec.toNat_ofNat _ _).trans (Nat.mod_eq_of_lt (by omega))
  refine ⟨by omega, by omega, ?_, ?_, by omega⟩
  · rw [← isDeviation_eq, bitOf, show x / 2 ^ 11 % 2 = b2n (isDeviation cause) by omega, hbit]
  · rw [bitOf, show x / 2 ^ 12 % 2 = b2n cyc by omega, hbit]

/-- xpc holds the offset, the segment and the delay bundles of a transfer in progress; xtgt the transfer's target. -/
theorem Sys.trapped_xpc (cause : Nat) (ho : f.pc.off < 2 ^ 16) (hs : f.pc.seg < 2 ^ 16) : let u := r.trapped f cause part info t next cyc
    u.xpc.toNat % 2 ^ 16 = f.pc.off ∧ u.xpc.toNat / 2 ^ 16 % 2 ^ 16 = f.pc.seg ∧ (f.transfer = none → u.xpc.toNat / 2 ^ 32 = 0) ∧
      ∀ tr, f.transfer = some tr → tr.left < 4 → u.xpc.toNat / 2 ^ 32 = tr.left ∧ u.xtgt.toNat % 2 ^ 16 = tr.target % 2 ^ 16 := by
  intro u
  cases hf : f.transfer with
  | none =>
    have hx : u.xpc.toNat = f.pc.off + f.pc.seg * 65536 := by
      simp only [u, Sys.trapped, hf, BitVec.toNat_ofNat]
      omega
    exact ⟨by omega, by omega, fun _ => by omega, nofun⟩
  | some y =>
    have hx : u.xpc.toNat = f.pc.off + f.pc.seg * 65536 + y.left % 4 * 2 ^ 32 := by
      simp only [u, Sys.trapped, hf, BitVec.toNat_ofNat]
      omega
    have hg : u.xtgt.toNat = y.target % 65536 + f.pc.seg * 65536 := by
      simp only [u, Sys.trapped, hf, BitVec.toNat_ofNat]
      omega
    refine ⟨by omega, by omega, nofun, fun tr e h => ?_⟩
    cases e
    omega

theorem Sys.trapped_counts (cause : Nat) (ht : t < 2 ^ 64) : let u := r.trapped f cause part info t next cyc
    u.xnext.toNat = next % 64 ∧ u.xcyc.toNat = t ∧ u.xinfo.toNat = info % 2 ^ 64 := by
  refine ⟨?_, ?_, ?_⟩
  · exact (BitVec.toNat_ofNat _ _).trans (Nat.mod_eq_of_lt (by omega))
  · exact (BitVec.toNat_ofNat _ _).trans (Nat.mod_eq_of_lt ht)
  · exact BitVec.toNat_ofNat _ _
end

/-! ### The kernel of a tile that traps -/

theorem Kernel.noteFault_eq (k : Kernel) (f : FirstFault) : ∃ g, k.noteFault f = { k with first := some g } := by
  unfold Kernel.noteFault
  split
  · exact ⟨f, rfl⟩
  · next g hg =>
    split
    · exact ⟨f, rfl⟩
    · exact ⟨g, by rw [← hg]⟩

theorem Kernel.endFaulted_of_none {k : Kernel} (h : k.ending = none) (status : Nat) : k.endFaulted status = { k with st := .faulted, ending := some status } := by
  rw [Kernel.endFaulted, h]

/-- A kernel whose faults have been noted and that ends faulted (R325, R327). -/
theorem Kernel.endFaulted_noteFault {k : Kernel} (h : k.ending = none) (f : FirstFault) :
    ((k.noteFault f).endFaulted 2).st = .faulted ∧ ((k.noteFault f).endFaulted 2).ending = some 2 ∧ ((k.noteFault f).endFaulted 2).first ≠ none := by
  obtain ⟨g, hg⟩ := k.noteFault_eq f
  rw [Kernel.endFaulted_of_none (k := k.noteFault f) (by rw [hg]; exact h), hg]
  exact ⟨rfl, rfl, Option.some_ne_none g⟩

/-- A trap counted among the kernel's (R327). -/
def Kernel.trapCounted (k : Kernel) (cause : Nat) : Kernel :=
  if isCounted cause then { k with nflt := min (k.nflt + 1) (2 ^ 32 - 1) } else k

/-- A trap counted, and noted among the first faults where it counts or ends its kernel (R327). -/
def Kernel.trapNoted (k : Kernel) (id : TileId) (cause pc info t : Nat) (ends : Bool) : Kernel :=
  let k := k.trapCounted cause
  if isCounted cause || ends then k.noteFault { cycle := t, pos := posOfTile k.die0 k.shape id, cause := cause, pc := pc, info := info } else k

theorem Kernel.trapCounted_eq (k : Kernel) (cause : Nat) : ∃ count, k.trapCounted cause = { k with nflt := count } := by
  unfold Kernel.trapCounted
  split
  · exact ⟨_, rfl⟩
  · exact ⟨k.nflt, rfl⟩

theorem Kernel.trapNoted_eq (k : Kernel) (id : TileId) (cause pc info t : Nat) (ends : Bool) :
    ∃ count g, k.trapNoted id cause pc info t ends = { k with nflt := count, first := g } := by
  obtain ⟨count, hc⟩ := k.trapCounted_eq cause
  unfold Kernel.trapNoted
  rw [hc]
  dsimp only
  split
  · obtain ⟨g, hg⟩ := Kernel.noteFault_eq { k with nflt := count } ⟨t, posOfTile k.die0 k.shape id, cause, pc, info⟩
    exact ⟨count, some g, hg⟩
  · exact ⟨count, k.first, rfl⟩

theorem Kernel.endFaulted_trapNoted {k : Kernel} (h : k.ending = none) (id : TileId) (cause pc info t : Nat) :
    ((k.trapNoted id cause pc info t true).endFaulted 2).st = .faulted ∧ ((k.trapNoted id cause pc info t true).endFaulted 2).ending = some 2 ∧
      ((k.trapNoted id cause pc info t true).endFaulted 2).first ≠ none := by
  unfold Kernel.trapNoted
  rw [Bool.or_true, if_pos rfl]
  obtain ⟨count, hc⟩ := k.trapCounted_eq cause
  exact Kernel.endFaulted_noteFault (by rw [hc]; exact h) _

/-- The kernel waits for a handler (R124): the horizon stands, and one handler more runs; a trap of a bundle cancels its replan point (R60). -/
def Kernel.awaitsHandler (k : Kernel) (t : Nat) (cyc : Bool) : Kernel :=
  let k := { k with horizon := some (k.horizon.getD (t + 40)), handlers := k.handlers + 1 }
  if cyc then k else k.noteStop t

/-! ### A trap of a program bundle -/

section
variable {s : State} {id : TileId} {x : Tile} {n : Nat} {k : Kernel} (cause part info t next : Nat) (cyc : Bool)

/-- The tile after a trap of its program: its trap registers written, its handler entered where it has one (R117, R313). -/
def Tile.trapTaken (x : Tile) (cause part info t next : Nat) (cyc : Bool) (wall : Nat) : Tile :=
  ({ x with
    sys := x.sys.trapped x.flow cause part info t next cyc
    flow := { x.flow with
      st := if x.imem.handlers.isEmpty then .faulted else .trapped
      handler := !x.imem.handlers.isEmpty, hpc := 0, stopAt := t, stopWall := wall } } : Tile).count 6 1

/-- The tile set, and its die's count of traps raised (R341). -/
def State.trapNoted (s : State) (id : TileId) (y : Tile) (cause : Nat) : State :=
  (s.setTile id y).updDie (dieOf id) fun d => { d with tun := { d.tun with traps := bump d.tun.traps cause 1 } }

theorem State.takeTrap_alone (hx : x.flow.handler = false) (hk : s.kernelOf id = none) :
    s.takeTrap id x cause part info t next cyc = s.trapNoted id (x.trapTaken cause part info t next cyc s.wall) cause := by
  unfold takeTrap
  rw [hx, hk]
  rfl

/-- With a handler the kernel waits for it: its first bundle is dated, and the horizon stands. -/
theorem State.takeTrap_handled (hx : x.flow.handler = false) (hi : x.imem.handlers ≠ []) (hk : s.kernelOf id = some (n, k)) :
    ∃ k' w v row, s.takeTrap id x cause part info t next cyc =
      ((((s.trapNoted id (x.trapTaken cause part info t next cyc s.wall) cause).setKernel n k').at w
        { i := .handlerBundleIssue, arg := { tile := id } }).at v row).tickFree ∧
      s.wall + k.period ≤ w ∧ w ≤ s.wall + 64 * k.period ∧ k'.horizon = some (k.horizon.getD (t + 40)) ∧ k'.handlers = k.handlers + 1 := by
  obtain ⟨pc, hpc⟩ : ∃ pc, pc = (x.sys.trapped x.flow cause part info t next cyc).xpc.toNat % 2 ^ 32 := ⟨_, rfl⟩
  obtain ⟨k', hk'⟩ : ∃ k', k' = (k.trapNoted id cause pc (info % 2 ^ 32) t false).awaitsHandler t cyc := ⟨_, rfl⟩
  obtain ⟨hperiod, hhorizon, hhandlers⟩ : k'.period = k.period ∧ k'.horizon = some (k.horizon.getD (t + 40)) ∧ k'.handlers = k.handlers + 1 := by
    obtain ⟨count, g, hnoted⟩ := k.trapNoted_eq id cause pc (info % 2 ^ 32) t false
    rw [hk', hnoted]
    cases cyc <;> exact ⟨rfl, rfl, rfl⟩
  obtain ⟨hlo, hhi⟩ := s.handlerTime_bounds k' (b := 64) (by decide)
  rw [hperiod] at hlo hhi
  refine ⟨k', s.wall + s.handlerTime k' 64, s.wall + nsUnits 20000, { i := .selfRefreshEntry, arg := { tile := id + 1, x := n, y := s.wall } }, ?_,
    Nat.add_le_add_left hlo _, Nat.add_le_add_left hhi _, hhorizon, hhandlers⟩
  have hhandler : x.imem.handlers.isEmpty = false := List.isEmpty_eq_false_iff.2 hi
  unfold takeTrap
  rw [hx, hk, hhandler, hk', hpc, Tile.trapTaken, hhandler]
  rfl

/-- Without one it ends faulted. -/
theorem State.takeTrap_unhandled (hx : x.flow.handler = false) (hi : x.imem.handlers = []) (hk : s.kernelOf id = some (n, k)) :
    ∃ k', s.takeTrap id x cause part info t next cyc = (s.trapNoted id (x.trapTaken cause part info t next cyc s.wall) cause).setKernel n k' ∧
      (k.ending = none → k'.st = .faulted ∧ k'.ending = some 2 ∧ k'.first ≠ none) := by
  refine ⟨_, ?_, fun he => Kernel.endFaulted_trapNoted he id cause ((x.sys.trapped x.flow cause part info t next cyc).xpc.toNat % 2 ^ 32) (info % 2 ^ 32) t⟩
  unfold takeTrap
  rw [hx, hk, Tile.trapTaken, hi]
  rfl

/-- The tiles of a trap noted, and what it leaves alone. -/
theorem State.trapNoted_frame (s : State) (id : TileId) (y : Tile) (cause : Nat) (hr : RisingMap s.tiles) : let u := s.trapNoted id y cause
    u.tile id = y ∧ (∀ j, j ≠ id → u.tile j = s.tile j) ∧ u.ctxs = s.ctxs ∧ u.sec = s.sec ∧ u.host = s.host ∧ u.qe = s.qe ∧ u.agenda = s.agenda := by
  dsimp only
  unfold trapNoted
  refine ⟨?_, fun j hj => ?_, ?_, ?_, ?_, ?_, ?_⟩
  · rw [tile_updDie, tile_setTile_self s id y hr]
  · rw [tile_updDie, tile_setTile_ne s y hj]
  all_goals simp

/-- The tiles after a trap of a program bundle, and what it leaves alone. -/
theorem State.takeTrap_frame (hx : x.flow.handler = false) (hr : RisingMap s.tiles) : let u := s.takeTrap id x cause part info t next cyc
    u.tile id = x.trapTaken cause part info t next cyc s.wall ∧ (∀ j, j ≠ id → u.tile j = s.tile j) ∧
      u.ctxs = s.ctxs ∧ u.sec = s.sec ∧ u.host = s.host ∧ u.qe = s.qe ∧ (x.imem.handlers = [] → u.agenda = s.agenda) := by
  obtain ⟨y, hy⟩ : ∃ y, y = x.trapTaken cause part info t next cyc s.wall := ⟨_, rfl⟩
  obtain ⟨hself, hother, hctxs, hsec, hhost, hqe, hagenda⟩ := s.trapNoted_frame id y cause hr
  intro u
  cases hk : s.kernelOf id with
  | none =>
    rw [show u = _ from takeTrap_alone cause part info t next cyc hx hk, ← hy]
    exact ⟨hself, hother, hctxs, hsec, hhost, hqe, fun _ => hagenda⟩
  | some p =>
    obtain ⟨n, k⟩ := p
    by_cases hi : x.imem.handlers = []
    · obtain ⟨k', he, -⟩ := takeTrap_unhandled cause part info t next cyc hx hi hk
      rw [show u = _ from he, ← hy]
      simpa [hself, hctxs, hsec, hhost, hqe, hagenda] using hother
    · obtain ⟨k', w, v, row, he, -⟩ := takeTrap_handled cause part info t next cyc hx hi hk
      rw [show u = _ from he, ← hy]
      simpa [hself, hctxs, hsec, hhost, hqe, hi] using hother

/-- The tile after a trap: its trap registers and its sequencer, and everything else but its counters as it stood. -/
theorem Tile.trapTaken_eq (x : Tile) (cause part info t next : Nat) (cyc : Bool) (wall : Nat) : ∃ perf, x.trapTaken cause part info t next cyc wall =
    { x with sys := x.sys.trapped x.flow cause part info t next cyc, perf := perf
             flow := { x.flow with
               st := if x.imem.handlers.isEmpty then .faulted else .trapped
               handler := !x.imem.handlers.isEmpty, hpc := 0, stopAt := t, stopWall := wall } } :=
  Tile.count_eq _ 6 1

/-! ### A trap of a handler bundle (R128) -/

/-- The tile whose sequencer is faulted. -/
def Tile.faulted (x : Tile) : Tile := { x with flow := { x.flow with st := .faulted } }

theorem State.takeTrap_inHandler_alone (hx : x.flow.handler = true) (hk : s.kernelOf id = none) :
    s.takeTrap id x cause part info t next cyc = s.setTile id x.faulted := by
  unfold takeTrap
  rw [hx, if_pos rfl, hk]
  rfl

theorem State.takeTrap_inHandler (hx : x.flow.handler = true) (hk : s.kernelOf id = some (n, k)) :
    ∃ k', s.takeTrap id x cause part info t next cyc = (s.setTile id x.faulted).setKernel n k' ∧
      (k.ending = none → k'.st = .faulted ∧ k'.ending = some 2 ∧ k'.first ≠ none) := by
  refine ⟨_, ?_, fun he => Kernel.endFaulted_noteFault (k := { k with handlers := k.handlers - 1 }) he
    ⟨x.sys.xcyc.toNat, posOfTile k.die0 k.shape id, x.sys.xcause.toNat % 256, x.sys.xpc.toNat % 2 ^ 32, x.sys.xinfo.toNat % 2 ^ 32⟩⟩
  unfold takeTrap
  rw [hx, if_pos rfl, hk]
  rfl
end

/-! ### The claims -/

theorem trapTaken : TrapTaken := by
  intro s id x cause part info t next cyc hr hx hi hc hp ht ho hs s' y
  obtain ⟨htile, hothers, hctxs, hsec, hhost, hqe, -⟩ := State.takeTrap_frame (id := id) cause part info t next cyc hx hr
  obtain ⟨perf, hy⟩ := x.trapTaken_eq cause part info t next cyc s.wall
  obtain ⟨hcause, hpart, hdev, hcyc, hsize⟩ := x.sys.trapped_xcause x.flow info t next cyc hc hp
  obtain ⟨hoff, hseg, hnone, hsome⟩ := x.sys.trapped_xpc x.flow part info t next cyc cause ho hs
  obtain ⟨hnext, hcycle, hinfo⟩ := x.sys.trapped_counts x.flow part info t next cyc cause ht
  have hhandler : x.imem.handlers.isEmpty = false := List.isEmpty_eq_false_iff.2 hi
  rw [show y = _ from htile.trans hy, hhandler]
  refine ⟨hcause, hpart, hdev, hcyc, hsize, hoff, hseg, hnone, hsome, hnext, hcycle, hinfo, rfl, rfl, rfl, rfl, rfl, rfl, rfl, rfl, rfl, rfl, rfl, rfl, rfl,
    hothers, hctxs, hsec, hhost, hqe, fun n k hk => ?_⟩
  obtain ⟨k', w, v, row, he, hlo, hhi, hhorizon, hhandlers⟩ :=
    State.takeTrap_handled cause part info t next cyc hx hi hk
  rw [show s' = _ from he]
  exact ⟨w, hlo, hhi, mem_insertDated.mpr (.inr State.mem_at), k', mapFind_mapPut_self _ _ _, hhorizon, hhandlers⟩

theorem trapWithoutHandler : TrapWithoutHandler := by
  intro s id x cause part info t next cyc hr hx hi hc hp ht s' y
  obtain ⟨htile, hothers, -, -, -, -, hagenda⟩ := State.takeTrap_frame (id := id) cause part info t next cyc hx hr
  obtain ⟨perf, hy⟩ := x.trapTaken_eq cause part info t next cyc s.wall
  obtain ⟨hcause, hpart, -⟩ := x.sys.trapped_xcause x.flow info t next cyc hc hp
  obtain ⟨-, hcycle, hinfo⟩ := x.sys.trapped_counts x.flow part info t next cyc cause ht
  rw [show y = _ from htile.trans hy, hi]
  refine ⟨hcause, hpart, hcycle, hinfo, rfl, rfl, rfl, rfl, rfl, hagenda hi, hothers, fun n k hk he => ?_⟩
  obtain ⟨k', heq, hends⟩ := State.takeTrap_unhandled cause part info t next cyc hx hi hk
  exact ⟨k', by rw [show s' = _ from heq]; exact State.kernel_setKernel_self _ n k', hends he⟩

/-- A trap in handler mode writes its tile's sequencer state and its kernel alone. -/
theorem State.takeTrap_inHandler_frame {s : State} {id : TileId} {x : Tile} (cause part info t next : Nat) (cyc : Bool) (hr : RisingMap s.tiles)
    (hx : x.flow.handler = true) : let u := s.takeTrap id x cause part info t next cyc
    u.tile id = x.faulted ∧ u.agenda = s.agenda ∧ ∀ j, j ≠ id → u.tile j = s.tile j := by
  intro u
  have hself : (s.setTile id x.faulted).tile id = x.faulted := s.tile_setTile_self id _ hr
  have hother (j : TileId) (hj : j ≠ id) : (s.setTile id x.faulted).tile j = s.tile j := s.tile_setTile_ne _ hj
  cases hk : s.kernelOf id with
  | none =>
    rw [show u = _ from takeTrap_inHandler_alone cause part info t next cyc hx hk]
    exact ⟨hself, rfl, hother⟩
  | some p =>
    obtain ⟨k', he, -⟩ := takeTrap_inHandler cause part info t next cyc hx hk
    rw [show u = _ from he]
    exact ⟨hself, rfl, hother⟩

theorem trapInHandlerFaults : TrapInHandlerFaults := by
  refine ⟨fun s id x cause part info t next cyc hr hx => ?_, fun s hh hx hr => ?_⟩
  · obtain ⟨htile, hagenda, hothers⟩ := State.takeTrap_inHandler_frame (s := s) (id := id) cause part info t next cyc hr hx
    refine ⟨htile, hagenda, hothers, fun n k hk he => ?_⟩
    obtain ⟨k', heq, hends⟩ := State.takeTrap_inHandler (s := s) cause part info t next cyc hx hk
    exact ⟨k', by rw [heq]; exact State.kernel_setKernel_self _ n k', hends he⟩
  · obtain ⟨htile, -⟩ := State.takeTrap_inHandler_frame (s := { s with todo := [] }) (id := s.cur.tile) 0 1 0 s.cur.now 0 false hr hx
    exact ⟨_, (exec_halt s).trans (if_pos hh), htile⟩

theorem trapInstruction : TrapInstruction := fun s code => traps_of_trap (exec_trap s code) rfl

/-- Settles O12: a trap writes its tile, its die's count and its kernel, by whether the tile runs a handler and whether it has one. -/
theorem takingATrap : Obligations.TakingATrap := ⟨trapTaken, trapWithoutHandler, trapInHandlerFaults, trapInstruction⟩

end Sys2Proof.Machine
end

section
/-!
SUPPORT. The system registers: moves, what they read, and what a write keeps (R101, R112).
-/

namespace Sys2Proof.Machine

open Sys2Proof.Claims

/-! ### Moves (R112) -/

section
variable {s : State} {d a : Reg} {n : BitVec 12}

/-- A register that is assigned, and that the tile may reach, is read. -/
theorem exec_mfs_ok (hn : (sysAccess n.toNat).isSome = true) (hp : sysPrivileged n.toNat = true → s.slotCtx.privileged = true) :
    ∃ img, let t := flyS s (mine s) d (s.slotCtx.readSys (mine s) n.toNat) 1 img
      Gives (.mfs d n) s (if s.cur.handler = false ∧ 0x208 ≤ n.toNat ∧ n.toNat < 0x210 ∧ d ≠ 0
        then { t with perf := { t.perf with reads := t.perf.reads ++ [(n.toNat - 0x208, (mine s).flow.seq)] } } else t) := by
  refine ⟨s.slotCtx.img (mine s) .scalar 1, gives_of_ok (exec_mfs s d n) ?_⟩
  dsimp only
  rw [if_neg (by simpa [Option.isSome_iff_ne_none] using hn), if_neg (by simpa using hp), Ctx.land_flyS]
  simp [and_assoc, slotCtx_handler]

/-- A register that may be written, and that the tile may reach, is written. -/
theorem exec_mts_ok (hn : sysWritable n.toNat = true) (hp : sysPrivileged n.toNat = true → s.slotCtx.privileged = true) :
    ∃ img, Gives (.mts a n) s (fly s (mine s) (if n.toNat = 0x003 then .fcsr else .sysreg n.toNat) (av s a) 1 0 0 img) := by
  refine ⟨s.slotCtx.img (mine s) .scalar 1, gives_of_ok (exec_mts s a n) ?_⟩
  dsimp only
  rw [if_neg (by simp [hn]), if_neg (by simpa using hp), Ctx.land_fly (by split <;> nofun)]
  rfl

theorem specialRegisterMoves : SpecialRegisterMoves := by
  intro s d a n
  refine ⟨exec_mfs_ok, exec_mts_ok, fun hn hp hc => ?_, fun hn hp hc => ?_, fun hn => ?_, fun hn => ?_⟩
  · refine traps_of_trap (exec_mfs s d n) ?_
    dsimp only
    rw [if_neg (by simpa [Option.isSome_iff_ne_none] using hn), if_pos (by simp [hp, hc])]
    rfl
  · refine traps_of_trap (exec_mts s a n) ?_
    dsimp only
    rw [if_neg (by simp [hn]), if_pos (by simp [hp, hc])]
    rfl
  · refine traps_of_trap (exec_mfs s d n) ?_
    dsimp only
    rw [if_pos (by simp [hn])]
    rfl
  · refine traps_of_trap (exec_mts s a n) ?_
    dsimp only
    rw [if_pos (by simp [hn])]
    rfl
end

/-! ### Reading -/

section
variable (c : Ctx) (t : Tile) {n : Nat}

theorem Ctx.readSys_ftRow {k : Nat} (h : k < 16) : c.readSys t (0x010 + k) = (t.ftRow k).toNat := by
  unfold readSys
  iterate 6 rw [if_neg (by omega)]
  rw [if_pos (by omega), Nat.add_sub_cancel_left]

theorem Ctx.readSys_loopI {k : Nat} (h : k < 6) : c.readSys t (0x020 + k) = ((t.loopAt k).map LoopEntry.i).getD 0 := by
  unfold readSys
  iterate 7 rw [if_neg (by omega)]
  rw [if_pos (by omega), Nat.add_sub_cancel_left]

theorem Ctx.readSys_loopN {k : Nat} (h : k < 6) : c.readSys t (0x028 + k) = ((t.loopAt k).map LoopEntry.n).getD 0 := by
  unfold readSys
  iterate 8 rw [if_neg (by omega)]
  rw [if_pos (by omega), Nat.add_sub_cancel_left]

theorem Ctx.readSys_hsv (h1 : 0x108 ≤ n) (h2 : n < 0x110) : c.readSys t n = (mapGet 0 t.sys.hsv (n - 0x108)).toNat := by
  unfold readSys
  repeat rw [if_neg (by omega)]
  rw [if_pos h2]

theorem Ctx.readSys_bpa (h1 : 0x120 ≤ n) (h2 : n < 0x124) : c.readSys t n = (mapGet 0 t.sys.bpa (n - 0x120)).toNat := by
  unfold readSys
  repeat rw [if_neg (by omega)]
  rw [if_pos h2]

theorem Ctx.readSys_jp (h1 : 0x160 ≤ n) (h2 : n < 0x164) : c.readSys t n = (mapGet 0 t.sync.jp (n - 0x160)).toNat := by
  unfold readSys
  repeat rw [if_neg (by omega)]
  rw [if_pos h2]

theorem Ctx.readSys_pcc (h1 : 0x200 ≤ n) (h2 : n < 0x208) : c.readSys t n = (mapGet 0 t.perf.pcc (n - 0x200)).toNat := by
  unfold readSys
  repeat rw [if_neg (by omega)]
  rw [if_pos h2]
end

theorem systemRegistersRead : SystemRegistersRead := by
  intro s t c
  refine ⟨rfl, rfl, rfl, rfl, rfl, rfl, fun k hk => c.readSys_ftRow t hk, fun k hk => ?_, fun k hk => ?_, rfl, rfl, ?_,
    rfl, rfl, rfl, rfl, rfl, rfl, rfl, rfl, rfl, rfl, rfl⟩
  · rw [c.readSys_loopI t hk, Tile.loopAt]
    cases t.flow.loops.reverse[k]? <;> rfl
  · rw [c.readSys_loopN t hk, Tile.loopAt]
    cases t.flow.loops.reverse[k]? <;> rfl
  · have hb : b2n s.cur.handler < 2 := by cases s.cur.handler <;> decide
    calc c.readSys t 0x041 % 2
      _ = (b2n s.cur.handler + _ * 2 + _ * 4) % 2 := rfl
      _ = b2n s.cur.handler := by omega

/-! ### What a write keeps -/

/-- The tiles agree but for system registers, synchronisation registers, counters' controls and the injection register. -/
def Tile.SameButSys (t u : Tile) : Prop :=
  u.regs = t.regs ∧ u.fmts = t.fmts ∧ u.flow = t.flow ∧ u.flight = t.flight ∧ u.staging = t.staging ∧ u.matrix = t.matrix ∧ u.oh = t.oh ∧
    u.imem = t.imem ∧ u.vault.pages = t.vault.pages ∧ u.vault.banks = t.vault.banks

theorem Tile.SameButSys.ite {t a b : Tile} {p : Prop} [Decidable p] (ha : t.SameButSys a) (hb : t.SameButSys b) : t.SameButSys (if p then a else b) := by
  split <;> assumption

theorem Tile.writeSys_frame (t : Tile) (n v : Nat) : t.SameButSys (t.writeSys n v) := by
  unfold writeSys
  iterate 18 refine .ite ⟨rfl, rfl, rfl, rfl, rfl, rfl, rfl, rfl, rfl, rfl⟩ ?_
  exact ⟨rfl, rfl, rfl, rfl, rfl, rfl, rfl, rfl, rfl, rfl⟩

section
variable (t : Tile) {n : Nat} (v : Nat)

theorem Tile.writeSys_hsv (h1 : 0x108 ≤ n) (h2 : n < 0x110) : (t.writeSys n v).sys.hsv = mapSet 0 t.sys.hsv (n - 0x108) (BitVec.ofNat 64 (v % 2 ^ 64)) := by
  unfold writeSys
  repeat rw [if_neg (by omega)]
  rw [if_pos ⟨h1, h2⟩]

theorem Tile.writeSys_bpa (h1 : 0x120 ≤ n) (h2 : n < 0x124) : (t.writeSys n v).sys.bpa = mapSet 0 t.sys.bpa (n - 0x120) (bpaKept v) := by
  unfold writeSys
  repeat rw [if_neg (by omega)]
  rw [if_pos ⟨h1, h2⟩]

theorem Tile.writeSys_jp (h1 : 0x160 ≤ n) (h2 : n < 0x164) : (t.writeSys n v).sync.jp =
    mapSet 0 t.sync.jp (n - 0x160) (jpKept (v % 2 ^ 25 + b2n (bitOf v 25 && (mapGet 0 t.sync.jp (n - 0x160)).getLsbD 25) * 2 ^ 25)) := by
  unfold writeSys
  repeat rw [if_neg (by omega)]
  rw [if_pos ⟨h1, h2⟩]

theorem Tile.writeSys_pcc (h1 : 0x200 ≤ n) (h2 : n < 0x208) : (t.writeSys n v).perf.pcc =
    mapSet 0 t.perf.pcc (n - 0x200)
      (pccKept (v % 2 ^ 7 + b2n (bitOf (mapGet (0 : Word) t.perf.pcc (n - 0x200)).toNat 8) * 2 ^ 8 + b2n (bitOf v 9) * 2 ^ 9)) := by
  unfold writeSys
  repeat rw [if_neg (by omega)]
  rw [if_pos ⟨h1, h2⟩]
end

/-- The low bits that a register keeps, as it reads back. -/
theorem toNat_keptBits {k : Nat} (v : Nat) (h : k ≤ 64) : (BitVec.ofNat 64 (v % 2 ^ k)).toNat = v % 2 ^ k := by
  have hk : v % 2 ^ k < 2 ^ k := Nat.mod_lt _ (Nat.two_pow_pos k)
  exact (BitVec.toNat_ofNat _ _).trans (Nat.mod_eq_of_lt (hk.trans_le (Nat.pow_le_pow_right (by decide) h)))

/-- A register kept in a map reads back as it was written. -/
theorem toNat_mapGet_mapSet {m : Map Word} (h : RisingMap m) (k : Nat) (w : Word) : (mapGet 0 (mapSet 0 m k w) k).toNat = w.toNat := by
  rw [mapGet_mapSet_self _ _ _ _ h]

theorem b2n_bitOf (v k : Nat) : b2n (bitOf v k) = v / 2 ^ k % 2 := by
  rcases Nat.mod_two_eq_zero_or_one (v / 2 ^ k) with h | h <;> simp [bitOf, b2n, h]

section
variable {v : Nat} (hv : v < 2 ^ 64)
include hv

theorem toNat_bpaKept : (bpaKept v).toNat = v % 2 ^ 32 + v / 2 ^ 63 * 2 ^ 63 := by
  rw [bpaKept, b2n_bitOf, BitVec.toNat_ofNat]
  omega

theorem toNat_istpKept : (istpKept v).toNat = v % 2 ^ 39 + v / 2 ^ 63 * 2 ^ 63 := by
  rw [istpKept, b2n_bitOf, BitVec.toNat_ofNat]
  omega
end

theorem toNat_jpKept (v : Nat) (b : Bool) : (jpKept (v % 2 ^ 25 + b2n b * 2 ^ 25)).toNat = v % 2 ^ 25 + if b then 2 ^ 25 else 0 := by
  rw [jpKept, toNat_keptBits _ (by decide)]
  cases b <;> simp [b2n] <;> omega

theorem toNat_pccKept (v : Nat) (b : Bool) :
    (pccKept (v % 2 ^ 7 + b2n b * 2 ^ 8 + b2n (bitOf v 9) * 2 ^ 9)).toNat = v % 2 ^ 7 + (if b then 2 ^ 8 else 0) + v / 2 ^ 9 % 2 * 2 ^ 9 := by
  rw [pccKept, b2n_bitOf, BitVec.toNat_ofNat, field]
  cases b <;> simp [b2n] <;> omega

section
variable (c : Ctx) (t : Tile) (v : Nat)

/-- The plain registers, each read from its field. -/
theorem Ctx.readSys_plain :
    c.readSys t 0x101 = t.sys.xpc.toNat ∧ c.readSys t 0x102 = t.sys.xtgt.toNat ∧ c.readSys t 0x106 = b2n t.sys.ss + b2n t.sys.bpsk * 2 ∧
      c.readSys t 0x111 = t.sys.lqsel.toNat ∧ c.readSys t 0x130 = t.sys.vwsel.toNat ∧ c.readSys t 0x140 = t.sys.vbsel.toNat ∧
      c.readSys t 0x144 = t.sys.vlsel.toNat ∧ c.readSys t 0x147 = t.vault.vinj.toNat ∧ c.readSys t 0x150 = t.sys.mwsel.toNat ∧
      c.readSys t 0x164 = t.sync.wcfg.toNat ∧ c.readSys t 0x171 = t.sys.lksel.toNat ∧ c.readSys t 0x210 = t.sys.dlsel.toNat ∧
      c.readSys t 0x213 = t.sys.dthr.toNat ∧ c.readSys t 0x214 = t.sys.istp.toNat :=
  ⟨rfl, rfl, rfl, rfl, rfl, rfl, rfl, rfl, rfl, rfl, rfl, rfl, rfl, rfl⟩

/-- The plain registers, each written to its field. -/
theorem Tile.writeSys_plain :
    (t.writeSys 0x101 v).sys.xpc = BitVec.ofNat 64 (field v 15 0 + field t.sys.xpc.toNat 31 16 * 65536 + field v 33 32 * 2 ^ 32) ∧
      (t.writeSys 0x102 v).sys.xtgt = BitVec.ofNat 64 (v % 2 ^ 32) ∧
      ((t.writeSys 0x106 v).sys.ss = bitOf v 0 ∧ (t.writeSys 0x106 v).sys.bpsk = bitOf v 1) ∧
      (t.writeSys 0x111 v).sys.lqsel = BitVec.ofNat 64 (v % 2 ^ 10) ∧ (t.writeSys 0x130 v).sys.vwsel = BitVec.ofNat 64 (v % 2 ^ 12) ∧
      (t.writeSys 0x140 v).sys.vbsel = BitVec.ofNat 64 (v % 2 ^ 11) ∧ (t.writeSys 0x144 v).sys.vlsel = BitVec.ofNat 64 (v % 2 ^ 8) ∧
      (t.writeSys 0x147 v).vault.vinj = BitVec.ofNat 64 (v % 2 ^ 13) ∧ (t.writeSys 0x150 v).sys.mwsel = BitVec.ofNat 64 (v % 2 ^ 20) ∧
      (t.writeSys 0x164 v).sync.wcfg = wcfgKept v ∧ (t.writeSys 0x171 v).sys.lksel = BitVec.ofNat 64 (v % 2 ^ 5) ∧
      (t.writeSys 0x210 v).sys.dlsel = BitVec.ofNat 64 (v % 2 ^ 8) ∧ (t.writeSys 0x213 v).sys.dthr = dthrKept v ∧
      (t.writeSys 0x214 v).sys.istp = istpKept v :=
  ⟨rfl, rfl, ⟨rfl, rfl⟩, rfl, rfl, rfl, rfl, rfl, rfl, rfl, rfl, rfl, rfl, rfl⟩

/-- The registers of one number that keep their low bits, and how many. -/
def lowBitRegisters : List (Nat × Nat) :=
  [(0x102, 32), (0x213, 32), (0x111, 10), (0x130, 12), (0x140, 11), (0x144, 8), (0x147, 13), (0x150, 20), (0x164, 20), (0x171, 5), (0x210, 8)]

theorem Ctx.readSys_writeSys_low {n k : Nat} (h : (n, k) ∈ lowBitRegisters) : c.readSys (t.writeSys n v) n = v % 2 ^ k := by
  obtain ⟨-, rxtgt, -, rlqsel, rvwsel, rvbsel, rvlsel, rvinj, rmwsel, rwcfg, rlksel, rdlsel, rdthr, -⟩ := c.readSys_plain (t.writeSys n v)
  obtain ⟨-, wxtgt, -, wlqsel, wvwsel, wvbsel, wvlsel, wvinj, wmwsel, wwcfg, wlksel, wdlsel, wdthr, -⟩ := t.writeSys_plain v
  simp only [lowBitRegisters, List.mem_cons, List.not_mem_nil, or_false, Prod.mk.injEq] at h
  rcases h with ⟨rfl, rfl⟩ | ⟨rfl, rfl⟩ | ⟨rfl, rfl⟩ | ⟨rfl, rfl⟩ | ⟨rfl, rfl⟩ | ⟨rfl, rfl⟩ | ⟨rfl, rfl⟩ | ⟨rfl, rfl⟩ | ⟨rfl, rfl⟩ | ⟨rfl, rfl⟩ | ⟨rfl, rfl⟩
  · rw [rxtgt, wxtgt, toNat_keptBits v (by decide)]
  · rw [rdthr, wdthr, dthrKept, toNat_keptBits v (by decide)]
  · rw [rlqsel, wlqsel, toNat_keptBits v (by decide)]
  · rw [rvwsel, wvwsel, toNat_keptBits v (by decide)]
  · rw [rvbsel, wvbsel, toNat_keptBits v (by decide)]
  · rw [rvlsel, wvlsel, toNat_keptBits v (by decide)]
  · rw [rvinj, wvinj, toNat_keptBits v (by decide)]
  · rw [rmwsel, wmwsel, toNat_keptBits v (by decide)]
  · rw [rwcfg, wwcfg, wcfgKept, toNat_keptBits v (by decide)]
  · rw [rlksel, wlksel, toNat_keptBits v (by decide)]
  · rw [rdlsel, wdlsel, toNat_keptBits v (by decide)]

theorem Ctx.readSys_writeSys_xpc :
    c.readSys (t.writeSys 0x101 v) 0x101 = v % 2 ^ 16 + t.sys.xpc.toNat / 2 ^ 16 % 2 ^ 16 * 2 ^ 16 + v / 2 ^ 32 % 4 * 2 ^ 32 := by
  rw [(c.readSys_plain _).1, (t.writeSys_plain v).1, BitVec.toNat_ofNat]
  simp only [field]
  omega

theorem Ctx.readSys_writeSys_modes : c.readSys (t.writeSys 0x106 v) 0x106 = v % 4 := by
  obtain ⟨-, -, hread, -⟩ := c.readSys_plain (t.writeSys 0x106 v)
  obtain ⟨-, -, ⟨hss, hbpsk⟩, -⟩ := t.writeSys_plain v
  rw [hread, hss, hbpsk, b2n_bitOf, b2n_bitOf]
  omega

theorem Ctx.readSys_writeSys_istp (hv : v < 2 ^ 64) : c.readSys (t.writeSys 0x214 v) 0x214 = v % 2 ^ 39 + v / 2 ^ 63 * 2 ^ 63 := by
  obtain ⟨-, -, -, -, -, -, -, -, -, -, -, -, -, hread⟩ := c.readSys_plain (t.writeSys 0x214 v)
  obtain ⟨-, -, -, -, -, -, -, -, -, -, -, -, -, hwrite⟩ := t.writeSys_plain v
  rw [hread, hwrite, toNat_istpKept hv]

theorem Ctx.readSys_writeSys_hsv (h : RisingMap t.sys.hsv) (hv : v < 2 ^ 64) {n : Nat} (h1 : 0x108 ≤ n) (h2 : n < 0x110) : c.readSys (t.writeSys n v) n = v := by
  rw [c.readSys_hsv _ h1 h2, t.writeSys_hsv v h1 h2, toNat_mapGet_mapSet h, toNat_keptBits v (by decide), Nat.mod_eq_of_lt hv]

theorem Ctx.readSys_writeSys_bpa (h : RisingMap t.sys.bpa) (hv : v < 2 ^ 64) {n : Nat} (h1 : 0x120 ≤ n) (h2 : n < 0x124) :
    c.readSys (t.writeSys n v) n = v % 2 ^ 32 + v / 2 ^ 63 * 2 ^ 63 := by
  rw [c.readSys_bpa _ h1 h2, t.writeSys_bpa v h1 h2, toNat_mapGet_mapSet h, toNat_bpaKept hv]

theorem Ctx.readSys_writeSys_jp (h : RisingMap t.sync.jp) {n : Nat} (h1 : 0x160 ≤ n) (h2 : n < 0x164) : c.readSys (t.writeSys n v) n =
    v % 2 ^ 25 + (if bitOf v 25 = true ∧ (mapGet (0 : Word) t.sync.jp (n - 0x160)).getLsbD 25 = true then 2 ^ 25 else 0) := by
  rw [c.readSys_jp _ h1 h2, t.writeSys_jp v h1 h2, toNat_mapGet_mapSet h, toNat_jpKept]
  simp only [Bool.and_eq_true]

theorem Ctx.readSys_writeSys_pcc (h : RisingMap t.perf.pcc) {n : Nat} (h1 : 0x200 ≤ n) (h2 : n < 0x208) : c.readSys (t.writeSys n v) n =
    v % 2 ^ 7 + (if (mapGet (0 : Word) t.perf.pcc (n - 0x200)).getLsbD 8 then 2 ^ 8 else 0) + v / 2 ^ 9 % 2 * 2 ^ 9 := by
  rw [c.readSys_pcc _ h1 h2, t.writeSys_pcc v h1 h2, toNat_mapGet_mapSet h, toNat_pccKept, bitOf_toNat]
end

theorem systemRegistersReadBack : SystemRegistersReadBack := by
  intro c t n v hv hhsv hbpa hjp hpcc r
  have low {m k : Nat} (h : (m, k) ∈ lowBitRegisters) (e : n = m) : r = v % 2 ^ k := c.readSys_writeSys_low t v (e ▸ h)
  exact ⟨fun e => by subst e; exact c.readSys_writeSys_xpc t v, fun e => e.elim (low (by decide)) (low (by decide)),
    fun e => by subst e; exact c.readSys_writeSys_modes t v, fun h1 h2 => c.readSys_writeSys_hsv t v hhsv hv h1 (Nat.lt_succ_of_le h2),
    low (by decide), fun h1 h2 => c.readSys_writeSys_bpa t v hbpa hv h1 (Nat.lt_succ_of_le h2),
    low (by decide), low (by decide), low (by decide), low (by decide), low (by decide),
    fun h1 h2 => c.readSys_writeSys_jp t v hjp h1 (Nat.lt_succ_of_le h2), low (by decide), low (by decide),
    fun h1 h2 => c.readSys_writeSys_pcc t v hpcc h1 (Nat.lt_succ_of_le h2), low (by decide),
    fun e => by subst e; exact c.readSys_writeSys_istp t v hv, t.writeSys_frame n v⟩

/-- Settles O13: the moves by access, what mirrors the sequencer, and each plain register read after its write. -/
theorem systemRegisters : Obligations.SystemRegisters := ⟨specialRegisterMoves, systemRegistersRead, systemRegistersReadBack⟩

end Sys2Proof.Machine
end

section
/-!
SUPPORT. The handler's windows, the event counters' rows and the pending format writes (R93, R94, R123, R156, R191, R247, R343, R344).
-/

namespace Sys2Proof.Machine

open Sys2Proof.Claims

/-- A row that changes one tile. -/
theorem next_updTile {s : State} {id : TileId} {f : Tile → Tile} {u : Tile} (h : f (s.tile id) = u) :
    (.next (s.updTile id f) : Host.Outcome State Fault Refusal) = .next (s.setTile id u) := by
  rw [State.updTile, h]

/-! ### The landing queue (R123) -/

/-- The flags that a write of a descriptor gives (R123). -/
theorem ofNat_field_flags (y : Nat) : BitVec.ofNat 6 (field y 26 21) = BitVec.ofNat 6 (y / 2 ^ 21) := by
  apply BitVec.eq_of_toNat_eq
  rw [BitVec.toNat_ofNat, BitVec.toNat_ofNat, field]
  omega

theorem setField_whole {x y : Nat} (hx : x < 2 ^ 64) (hy : y < 2 ^ 64) : setField x 0 64 y = y := by
  rw [setField, Nat.zero_add, Nat.div_eq_of_lt hx, Nat.mod_eq_of_lt hy, Nat.pow_zero, Nat.mod_one]
  omega

/-- The one word of a scalar result is its value. -/
theorem Result.setWord_sreg {x : Result} {n y : Nat} (hd : x.dst = .sreg n) (hx : x.val < 2 ^ 64) (hy : y < 2 ^ 64) :
    x.setWord 0 y = { x with val := y } := by
  rw [setWord, hd]
  dsimp only
  rw [Nat.mul_zero, setField_whole hx hy]

theorem landingQueueWrites : LandingQueueWrites := by
  intro s r id t h
  refine ⟨(exec_lqEntryDiscard s).trans (next_updTile ?_), (exec_lqFlagsWrite s).trans (next_updTile ?_),
    fun hp => (exec_lqvWrite s).trans (next_updTile ?_), fun n hd hp hw hr hy => (exec_lqvWrite s).trans (next_updTile ?_)⟩
  · rw [show (s.tile s.ev.tile).lqSelected = _ from h]
  · rw [show (s.tile s.ev.tile).lqSelected = _ from h, ofNat_field_flags]
  · rw [show (s.tile s.ev.tile).lqSelected = _ from h]
    dsimp only
    rw [if_pos hp, ite_self]
  · rw [show (s.tile s.ev.tile).lqSelected = _ from h]
    dsimp only
    have hword : field (s.tile s.ev.tile).sys.lqsel.toNat 9 5 = 0 := hw
    have hwords : (LqEntry.result r).words = 1 := by rw [LqEntry.words, hd]
    rw [hword, hwords, if_neg (by decide), show r.pending _ = false from hp, if_neg Bool.false_ne_true]
    congr 1
    refine List.map_congr_left fun x _ => ?_
    by_cases hx : x.dst = .sreg n ∧ x.val < 2 ^ 64
    · rw [if_pos hx, Result.setWord_sreg hx.1 hx.2 hy]
    · rw [if_neg hx]

/-! ### The views (R156, R247, R191) -/

/-- Word k of a vector of words after word w of it is replaced. -/
theorem word_setField {m k : Nat} (hk : 64 * k + 64 ≤ m) (x w y : Nat) :
    (BitVec.ofNat m (setField x (64 * w) 64 y)).toNat / 2 ^ (64 * k) % 2 ^ 64 = if k = w then y % 2 ^ 64 else x / 2 ^ (64 * k) % 2 ^ 64 := by
  rw [window_ofNat _ hk]
  by_cases h : k = w
  · rw [if_pos h, h, window_setField_in _ _ le_rfl le_rfl, Nat.sub_self, Nat.pow_zero, Nat.div_one]
  · rw [if_neg h, window_setField_out _ _ (by omega)]

/-- The entry of the mask stack at a place counted from the bottom, after one is replaced. -/
theorem getD_reverse_set (l : List Word) (n : Nat) (v : Word) {k : Nat} (hk : k < l.length) :
    (l.reverse.set n v).getD k 0 = if k = n then v else l.reverse.getD k 0 := by
  have hk' : k < l.reverse.length := by rwa [List.length_reverse]
  rw [List.getD_eq_getElem?_getD, List.getD_eq_getElem?_getD, List.getElem?_set]
  by_cases h : n = k
  · rw [if_pos h, if_pos h.symm, if_pos (h ▸ hk')]
    rfl
  · rw [if_neg h, if_neg (Ne.symm h)]

section
variable {s : State} {x : Tile} (hx : s.tile s.ev.tile = x)
include hx

/-- The word of a vector register that the selector names. -/
theorem exec_vwdatWrite_vector (h : x.sys.vwsel.toNat % 4 = 0) : exec .vwdatWrite s = .next (s.setTile s.ev.tile
    (let n := x.sys.vwsel.toNat / 4 % 32
     x.setV n (BitVec.ofNat 2048 (setField (mapGet 0 x.regs.v n).toNat (64 * (x.sys.vwsel.toNat / 2 ^ 7 % 32)) 64 s.ev.y)))) := by
  refine (exec_vwdatWrite s).trans (next_updTile ?_)
  rw [hx]
  dsimp only
  rw [show field x.sys.vwsel.toNat 1 0 = 0 by simpa [field] using h]
  rfl

/-- The mask register that the selector names. -/
theorem exec_vwdatWrite_mask (h : x.sys.vwsel.toNat % 4 = 1) (hn : x.sys.vwsel.toNat / 4 % 32 < 8) :
    exec .vwdatWrite s = .next (s.setTile s.ev.tile (x.setMk (x.sys.vwsel.toNat / 4 % 32) (BitVec.ofNat 64 s.ev.y))) := by
  refine (exec_vwdatWrite s).trans (next_updTile ?_)
  rw [hx]
  dsimp only
  rw [show field x.sys.vwsel.toNat 1 0 = 1 by simpa [field] using h]
  exact if_pos hn

/-- The entry of the mask stack that the selector names. -/
theorem exec_vwdatWrite_stack (h : x.sys.vwsel.toNat % 4 = 2) : exec .vwdatWrite s = .next (s.setTile s.ev.tile
    { x with regs := { x.regs with ms := (x.regs.ms.reverse.set (x.sys.vwsel.toNat / 4 % 32) (BitVec.ofNat 64 s.ev.y)).reverse } }) := by
  refine (exec_vwdatWrite s).trans (next_updTile ?_)
  rw [hx]
  dsimp only
  rw [show field x.sys.vwsel.toNat 1 0 = 2 by simpa [field] using h]
  rfl

/-- The word of an accumulator that the selector names. -/
theorem exec_mwdatWrite_acc (h : x.sys.mwsel.toNat % 4 = 0) (hn : x.sys.mwsel.toNat / 4 % 128 < 4) : exec .mwdatWrite s = .next (s.setTile s.ev.tile
    (let n := x.sys.mwsel.toNat / 4 % 128
     x.setAcc n { x.acc n with elems := BitVec.ofNat 131072 (setField (x.acc n).elems.toNat (64 * (x.sys.mwsel.toNat / 2 ^ 9 % 2 ^ 11)) 64 s.ev.y) })) := by
  refine (exec_mwdatWrite s).trans (next_updTile ?_)
  rw [hx]
  dsimp only
  rw [show field x.sys.mwsel.toNat 1 0 = 0 by simpa [field] using h]
  exact if_pos ⟨hn, Nat.mod_lt _ (by decide)⟩

/-- The word of a weight buffer that the selector names. -/
theorem exec_mwdatWrite_buf (h : x.sys.mwsel.toNat % 4 = 1) (hn : x.sys.mwsel.toNat / 4 % 128 < 8) (hw : x.sys.mwsel.toNat / 2 ^ 9 % 2 ^ 11 < 1024) :
    exec .mwdatWrite s = .next (s.setTile s.ev.tile
      (let n := x.sys.mwsel.toNat / 4 % 128
       x.setBuf n { x.buf n with data := BitVec.ofNat 65536 (setField (x.buf n).data.toNat (64 * (x.sys.mwsel.toNat / 2 ^ 9 % 2 ^ 11)) 64 s.ev.y) })) := by
  refine (exec_mwdatWrite s).trans (next_updTile ?_)
  rw [hx]
  dsimp only
  rw [show field x.sys.mwsel.toNat 1 0 = 1 by simpa [field] using h]
  exact if_pos ⟨hn, hw⟩

/-- The word of a scale slot that the selector names. -/
theorem exec_mwdatWrite_slot (h : x.sys.mwsel.toNat % 4 = 2) (hw : x.sys.mwsel.toNat / 2 ^ 9 % 2 ^ 11 < 16) : exec .mwdatWrite s = .next (s.setTile s.ev.tile
    (let n := x.sys.mwsel.toNat / 4 % 128
     x.setSlot n { x.scaleSlot n with codes := BitVec.ofNat 1024 (setField (x.scaleSlot n).codes.toNat (64 * (x.sys.mwsel.toNat / 2 ^ 9 % 2 ^ 11)) 64 s.ev.y) })) := by
  refine (exec_mwdatWrite s).trans (next_updTile ?_)
  rw [hx]
  dsimp only
  rw [show field x.sys.mwsel.toNat 1 0 = 2 by simpa [field] using h]
  exact if_pos hw
end

theorem viewWrites : ViewWrites := by
  intro s
  exact ⟨fun h => ⟨_, exec_vwdatWrite_vector rfl h, fun w hw => word_setField (by omega) _ _ _⟩, exec_vwdatWrite_mask rfl,
    fun h => ⟨_, exec_vwdatWrite_stack rfl h, by simp, fun k hk => by
      rw [List.reverse_reverse]
      exact getD_reverse_set _ _ _ (by simpa using hk)⟩,
    fun h hn => ⟨_, exec_mwdatWrite_acc rfl h hn, fun w hw => word_setField (by omega) _ _ _⟩,
    fun h hn hm => ⟨_, exec_mwdatWrite_buf rfl h hn hm, fun w hw => word_setField (by omega) _ _ _⟩,
    fun h hm => ⟨_, exec_mwdatWrite_slot rfl h hm, fun w hw => word_setField (by omega) _ _ _⟩, rfl⟩

/-! ### Event counters (R343, R344) -/

/-- Bit 8 of a control word, set and reset. -/
theorem getLsbD_setField_ovf (w : Word) (c : Nat) {j : Nat} (hj : j < 64) :
    (BitVec.ofNat 64 (setField w.toNat 8 1 (field c 8 8))).getLsbD j = if j = 8 then bitOf c 8 else w.getLsbD j := by
  rw [BitVec.getLsbD_ofNat, decide_eq_true hj, Bool.true_and, testBit_setField]
  by_cases h : j = 8
  · subst h
    rw [if_pos (by decide), if_pos rfl, bitOf_eq_testBit, field, Nat.testBit_mod_two_pow, Nat.testBit_div_two_pow]
    simp
  · rw [if_neg (by omega), if_neg h, BitVec.getLsbD]

/-- A counter reprogrammed in the cycle overflows by its count and its control word of before. -/
theorem Tile.lateOverflow_iff {x : Tile} {k n c : Nat} (h : mapFind x.perf.before k = some (n, c)) : x.lateOverflow k = true ↔ 2 ^ 48 ≤ n + x.adding c := by
  rw [lateOverflow, h]
  exact decide_eq_true_iff

section
variable {s : State} {x : Tile} (hx : s.tile s.ev.tile = x)
include hx

theorem exec_pccReprogram_eq : ∃ m b,
    exec .pccReprogram s = .next (s.setTile s.ev.tile { x with perf := { x.perf with pcv := mapSet 0 x.perf.pcv s.ev.x 0, marks := m, before := b } }) ∧
    (x.flow.handler = false → mapFind b s.ev.x = some (mapGet 0 x.perf.pcv s.ev.x, s.ev.y)) := by
  cases hh : x.flow.handler with
  | true =>
    refine ⟨x.perf.marks, x.perf.before, (exec_pccReprogram s).trans (next_updTile ?_), nofun⟩
    rw [hx]
    refine (if_pos hh).trans ?_
    rw [Tile.zeroCount, hh]
    rfl
  | false =>
    refine ⟨mapSet 0 x.perf.marks s.ev.x 2, mapPut x.perf.before s.ev.x (mapGet 0 x.perf.pcv s.ev.x, s.ev.y),
      (exec_pccReprogram s).trans (next_updTile ?_), fun _ => mapFind_mapPut_self _ _ _⟩
    rw [hx]
    refine (if_neg (by simp [hh])).trans ?_
    rw [Tile.zeroCount, hh]
    rfl

theorem exec_counterOverflow_none (hl : x.lateOverflow s.ev.x = false) (ho : x.overflows s.ev.x = false) :
    exec .counterOverflow s = .next (s.setTile s.ev.tile x) := by
  refine (exec_counterOverflow s).trans (next_updTile ?_)
  rw [hx, hl, ho]
  rfl

/-- An overflow of the present cycle: ovf is raised, with bit 63 of the reads of the cycle; the drift log takes an entry where the counter asks for one. -/
theorem exec_counterOverflow_raised (hl : x.lateOverflow s.ev.x = false) (ho : x.overflows s.ev.x = true) : exec .counterOverflow s = .next (s.setTile s.ev.tile
    (let y : Tile := { x with
      perf := { x.perf with pcc := mapSet 0 x.perf.pcc s.ev.x (mapGet 0 x.perf.pcc s.ev.x ||| (0x100 : Word)) }
      flight := x.flight.map fun r => if (s.ev.x, r.seq) ∈ x.perf.reads then { r with val := r.val % 2 ^ 63 + 2 ^ 63 } else r }
     if (mapGet (0 : Word) x.perf.pcc s.ev.x).getLsbD 9 then y.driftOverflow (s.agentCycle s.ev.tile) s.ev.x else y)) := by
  refine (exec_counterOverflow s).trans (next_updTile ?_)
  have hit (r : Result) : (((x.perf.reads.filter fun y => y.1 == s.ev.x).map Prod.snd).contains r.seq = true) = ((s.ev.x, r.seq) ∈ x.perf.reads) := by
    simp
  rw [hx, hl, ho]
  simp only [hit]
  rfl

theorem exec_counterOverflow_late {n c : Nat} (h : mapFind x.perf.before s.ev.x = some (n, c)) (hl : x.lateOverflow s.ev.x = true) :
    exec .counterOverflow s = .next (s.setTile s.ev.tile { x with perf := { x.perf with
      pcc := mapSet 0 x.perf.pcc s.ev.x (BitVec.ofNat 64 (setField (mapGet (0 : Word) x.perf.pcc s.ev.x).toNat 8 1 (field c 8 8))) } }) := by
  refine (exec_counterOverflow s).trans (next_updTile ?_)
  rw [hx]
  dsimp only
  rw [hl, if_pos rfl, h]
  rfl
end

theorem counterRows : CounterRows := by
  intro s
  refine ⟨⟨_, rfl⟩, exec_pccReprogram_eq rfl, rfl, fun hl ho h9 => ?_, fun hl ho h9 hr => ⟨_, exec_counterOverflow_raised rfl hl ho, ?_⟩,
    exec_counterOverflow_none rfl,
    fun n c h => ⟨Tile.lateOverflow_iff h, fun hl => ⟨_, exec_counterOverflow_late rfl h hl, fun j hj => getLsbD_setField_ovf _ _ hj⟩⟩⟩
  · rw [exec_counterOverflow_raised rfl hl ho, h9]
    rfl
  · rw [State.tile_setTile_self _ _ _ hr, h9]
    exact ⟨rfl, rfl, rfl, rfl⟩

/-! ### Pending format writes (R93 to R95) -/

theorem toNat_efrKept (v : Nat) : (efrKept v).toNat = v % 2 ^ 8 := toNat_keptBits v (by decide)

theorem toNat_rowKept (v : Nat) : (rowKept v).toNat = v % 2 ^ 14 + v / 2 ^ 16 % 2 ^ 6 * 2 ^ 16 := by
  rw [rowKept, field, BitVec.toNat_ofNat]
  omega

/-- The index of a loop counted from the bottom, as a row selection finds it (R91). -/
theorem head_drop_eq_reverse (l : List LoopEntry) (n : Nat) :
    (match l.drop (l.length - 1 - n) with
      | e :: _ => if n < l.length then e.i else 0
      | [] => 0) = (match l.reverse[n]? with
      | some e => e.i
      | none => 0) := by
  by_cases h : n < l.length
  · have hi : l.length - 1 - n < l.length := by omega
    rw [List.drop_eq_getElem_cons hi, List.getElem?_reverse h, List.getElem?_eq_getElem hi]
    exact if_pos h
  · rw [List.getElem?_eq_none (by simpa using h)]
    cases l.drop (l.length - 1 - n) with
    | nil => rfl
    | cons e r => exact if_neg h

theorem Tile.popped_loops (t : Tile) : t.popped.flow.loops = if t.flow.popDue then t.flow.loops.drop 1 else t.flow.loops := by
  unfold popped
  split <;> rfl

/-- What a format write makes of the format state (R93, R94). -/
def Tile.writtenFmts (t : Tile) (w : FmtWrite) : Formats :=
  if w.target = 16 then { t.fmts with efr := efrKept w.val }
  else if w.target < 16 then { t.fmts with ft := mapSet 0 t.fmts.ft w.target (rowKept w.val) }
  else
    let l := min (field w.val 6 4) 6
    let i := match t.popped.flow.loops.reverse[l]? with
      | some e => e.i
      | none => 0
    t.fmts.withSelection (w.val % 16) l (w.val % 16 + i)

theorem Tile.applyFmt_eq (t : Tile) {w : FmtWrite} (h : w.flags = 0) : t.applyFmt w = { t with fmts := t.writtenFmts w } := by
  unfold applyFmt writtenFmts
  rw [h, Tile.orFlags_zero]
  dsimp only
  split
  · rfl
  · split
    · rfl
    · exact congrArg (fun i => ({ t with fmts := t.fmts.withSelection (w.val % 16) (min (field w.val 6 4) 6) (w.val % 16 + i) } : Tile))
        (head_drop_eq_reverse _ _)

/-- A pending write that raises no flag takes effect, and is pending no longer. -/
theorem exec_formatWriteEffect_eq {s : State} {x : Tile} {w : FmtWrite} (hx : s.tile s.ev.tile = x)
    (h : x.fmts.pend.find? (fun y => y.seq == s.ev.x) = some w) (hf : w.flags = 0) : exec .formatWriteEffect s =
      .next (s.setTile s.ev.tile { x with fmts := { x.writtenFmts w with pend := x.fmts.pend.filter fun y => y.seq != s.ev.x } }) := by
  refine (exec_formatWriteEffect s).trans (next_updTile ?_)
  rw [hx]
  dsimp only
  rw [h]
  dsimp only
  rw [x.applyFmt_eq hf]

theorem Tile.writtenFmts_row {t : Tile} {w : FmtWrite} (h : w.target < 16) :
    t.writtenFmts w = { t.fmts with ft := mapSet 0 t.fmts.ft w.target (rowKept w.val) } := by
  rw [writtenFmts, if_neg (by omega), if_pos h]

theorem Tile.writtenFmts_selection {t : Tile} {w : FmtWrite} (h : w.target = 17) : t.writtenFmts w =
    (let l := min (w.val / 16 % 8) 6
     { t.fmts with base := w.val % 16, level := l, row := if l = 6 then w.val % 16 else (w.val % 16 +
        (match (if t.flow.popDue then t.flow.loops.drop 1 else t.flow.loops).reverse[l]? with
          | some e => e.i
          | none => 0)) % 16 }) := by
  have hl : min (min (w.val / 16 % 8) 6 % 8) 6 = min (w.val / 16 % 8) 6 := by omega
  rw [writtenFmts, if_neg (by omega), if_neg (by omega), Tile.popped_loops, Formats.withSelection]
  simp only [field, Nat.mod_mod, Nat.reducePow, Nat.reduceAdd, Nat.reduceSub, hl]

theorem exec_fmt_gives (s : State) (d : Reg) (b : Src) : Gives (.fmt d b) s ((mine s).pendFmt d.toNat
    (if d = 16 then ((mine s).zsrc b).toNat % 2 ^ 8 else ((mine s).zsrc b).toNat % 2 ^ 14 + ((mine s).zsrc b).toNat / 2 ^ 16 % 2 ^ 6 * 2 ^ 16)) := by
  refine gives_of_ok (exec_fmt s d b) ?_
  dsimp only
  rw [toNat_efrKept, toNat_rowKept]

theorem formatWrites : FormatWrites := by
  refine ⟨fun s d b lvl base => ⟨exec_fmt_gives s d b, gives_of_ok (exec_ftsel s lvl base) rfl⟩, fun s w h hf hw => ?_⟩
  refine ⟨_, exec_formatWriteEffect_eq rfl h hf, fun ht => if_pos ht, fun ht => ?_, Tile.writtenFmts_selection⟩
  exact Tile.writtenFmts_row ht

/-- Settles O15: each row writes what its selector, its counter or its pending write names. -/
theorem registerWindowsAndCounters : Obligations.RegisterWindowsAndCounters := ⟨landingQueueWrites, viewWrites, counterRows, formatWrites⟩

end Sys2Proof.Machine
end

section
/-!
SUPPORT. Tiles changed together, and what holds and their ends make of them (R97, R98, R184, R323, R324).
-/

namespace Sys2Proof.Machine

open Sys2Proof.Claims

/-! ### Tiles changed by one function -/

/-- An entry of a map written is an entry of before, or the one written. -/
theorem mapSet_mem {α : Type} [DecidableEq α] {d : α} {m : Map α} {k : Nat} {v : α} {e : Nat × α} (h : e ∈ mapSet d m k v) :
    e ∈ m ∨ (e = (k, v) ∧ v ≠ d) := by
  unfold mapSet at h
  split at h
  · exact .inl ((mapDel_sublist m k).subset h)
  · next hne => exact (mapPut_mem m k v e h).elim (fun he => .inr ⟨he, hne⟩) .inl

section
variable {s : State} {ts : List TileId} {f : Tile → Tile}

theorem State.updTiles_rising (hr : RisingMap s.tiles) : RisingMap (s.updTiles ts f).tiles := by
  induction ts generalizing s with
  | nil => exact hr
  | cons t r ih => exact ih (mapSet_rising _ _ _ _ hr)

/-- What the function keeps of a tile stands in every tile. -/
theorem State.tile_updTiles_keeps {β : Type} (g : Tile → β) (hf : ∀ x, g (f x) = g x) (hr : RisingMap s.tiles) (j : TileId) :
    g ((s.updTiles ts f).tile j) = g (s.tile j) := by
  induction ts generalizing s with
  | nil => rfl
  | cons t r ih =>
    refine (ih (s := s.updTile t f) (mapSet_rising _ _ _ _ hr)).trans ?_
    by_cases h : j = t
    · rw [h, State.tile_updTile_self s t f hr, hf]
    · rw [State.tile_updTile_ne s f h]

/-- A function that does no more when it is done twice: each tile of the list is changed once, however often it stands there. -/
theorem State.tile_updTiles_of_idem (hf : ∀ x, f (f x) = f x) (hr : RisingMap s.tiles) (j : TileId) :
    (s.updTiles ts f).tile j = if j ∈ ts then f (s.tile j) else s.tile j := by
  induction ts generalizing s with
  | nil => rfl
  | cons t r ih =>
    refine (ih (s := s.updTile t f) (mapSet_rising _ _ _ _ hr)).trans ?_
    by_cases h : j = t
    · rw [h, State.tile_updTile_self s t f hr, hf, ite_self, if_pos List.mem_cons_self]
    · simp [State.tile_updTile_ne s f h, h]

theorem State.tile_updTiles_of_not_mem {j : TileId} (h : j ∉ ts) : (s.updTiles ts f).tile j = s.tile j := by
  induction ts generalizing s with
  | nil => rfl
  | cons t r ih =>
    obtain ⟨hne, hr⟩ := (by simpa using h : j ≠ t ∧ j ∉ r)
    exact (ih (s := s.updTile t f) hr).trans (State.tile_updTile_ne s f hne)

/-- A tile that a change lists was listed before, when the change leaves an unlisted tile unlisted. -/
theorem State.mem_tiles_updTile {t : TileId} (h0 : f {} = {}) {e : Nat × Tile} (he : e ∈ (s.updTile t f).tiles) : ∃ e0 ∈ s.tiles, e0.1 = e.1 := by
  by_contra hno
  push Not at hno
  have hd : f (s.tile e.1) = {} := by rw [State.tile, mapGet_of_not_mem hno, h0]
  rcases mapSet_mem he with he | ⟨rfl, hne⟩
  · exact hno e he rfl
  · exact hne hd

theorem State.mem_tiles_updTiles (h0 : f {} = {}) {e : Nat × Tile} (he : e ∈ (s.updTiles ts f).tiles) : ∃ e0 ∈ s.tiles, e0.1 = e.1 := by
  induction ts generalizing s with
  | nil => exact ⟨e, he, rfl⟩
  | cons t r ih =>
    obtain ⟨e1, he1, h1⟩ := ih (s := s.updTile t f) he
    obtain ⟨e0, he0, h2⟩ := mem_tiles_updTile h0 he1
    exact ⟨e0, he0, h2.trans h1⟩
end

/-! ### What holds leave alone of a tile -/

/-- The part of a tile that a bundle's work stands in: registers, results, staging and the sequencer. -/
def Tile.working (x : Tile) : Regs × List Result × Mem × Flow := (x.regs, x.flight, x.staging, x.flow)

theorem Tile.working_count (x : Tile) (e n : Nat) : (x.count e n).working = x.working := by
  obtain ⟨perf, h⟩ := x.count_eq e n
  rw [h]
  rfl

section
variable {s : State} {n : Nat} {k : Kernel} (j : TileId)

theorem State.updDies_tiles {ds : List Nat} {g : Nat → Die → Die} : (ds.foldl (fun s d => s.updDie d (g d)) s).tiles = s.tiles :=
  foldl_same State.tiles (f := fun s d => s.updDie d (g d)) (fun _ _ => rfl) ds s

/-- A hold recorded changes the counters of tiles alone (R340). -/
theorem State.working_recordHold (hr : RisingMap s.tiles) (start mask : Nat) : RisingMap (s.recordHold n start mask).tiles ∧
    ((s.recordHold n start mask).tile j).working = (s.tile j).working := by
  unfold recordHold
  cases s.kernel? n with
  | none => exact ⟨hr, rfl⟩
  | some k =>
    dsimp only
    rw [State.tile_setKernel, State.tile, State.setKernel_tiles, updDies_tiles]
    refine ⟨updTiles_rising hr, tile_updTiles_keeps Tile.working ?_ hr j⟩
    exact fun _ => rfl

theorem State.working_holdClosed (hr : RisingMap s.tiles) : RisingMap (s.holdClosed n k).tiles ∧ ((s.holdClosed n k).tile j).working = (s.tile j).working := by
  unfold holdClosed
  split
  · exact working_recordHold j hr _ _
  · exact ⟨hr, rfl⟩

theorem State.working_leaveSelfRefresh (hr : RisingMap s.tiles) : RisingMap (s.leaveSelfRefresh k).tiles ∧
    ((s.leaveSelfRefresh k).tile j).working = (s.tile j).working := by
  refine ⟨updTiles_rising hr, tile_updTiles_keeps Tile.working ?_ hr j⟩
  exact fun _ => rfl

/-- A partition's sequencers held, or running again: what it makes of a sequencer (R97, R98). -/
def Flow.held (f : Flow) (held : Bool) : Flow :=
  { f with st := if held then (if f.st = .running then .held else f.st) else (if f.st = .held then .running else f.st) }

theorem Flow.held_held (f : Flow) (h : Bool) : (f.held h).held h = f.held h := by
  unfold held
  cases h <;> cases f.st <;> rfl

theorem State.holdTiles_eq (s : State) (k : Kernel) (h : Bool) : s.holdTiles k h = s.updTiles k.tiles fun t => { t with flow := t.flow.held h } := rfl

theorem State.tile_holdTiles (hr : RisingMap s.tiles) (h : Bool) :
    (s.holdTiles k h).tile j = if j ∈ k.tiles then { s.tile j with flow := (s.tile j).flow.held h } else s.tile j := by
  rw [holdTiles_eq]
  exact tile_updTiles_of_idem (fun x => by rw [Flow.held_held]) hr j

/-! ### The kernel of a hold that ends (R324) -/

/-- A hold that began at start, recorded in the sums of the completion record. -/
def Kernel.holdRecorded (k : Kernel) (ns : Nat) : Kernel :=
  { k with holdSum := min (k.holdSum + ns) (2 ^ 64 - 1), nhold := min (k.nhold + 1) (2 ^ 32 - 1) }

/-- The kernel once its hold is over: it goes on at a wall time. -/
def Kernel.holdOver (k : Kernel) (next : Nat) : Kernel :=
  { k with holdFrom := none, holdMask := 0, linkFrom := none, hostFrom := none, nextWall := next, st := if k.st = .held then .running else k.st }

theorem State.kernel_recordHold_eq (hk : s.kernel? n = some k) (start mask : Nat) :
    (s.recordHold n start mask).kernel? n = some (k.holdRecorded ((s.wall - start) / 39)) := by
  unfold recordHold
  rw [hk]
  exact kernel_setKernel_self _ n _

theorem State.closeHold_eq (hk : s.kernel? n = some k) (wait : Nat) : s.closeHold n wait =
    ((((s.holdClosed n k).leaveSelfRefresh k).holdTiles k false).ctxHeld k.ctx false).updKernel n (Kernel.holdOver · (s.wall + wait)) := by
  rw [← holdClosed_wall (s := s) (n := n) (k := k)]
  unfold closeHold
  rw [hk]
  rfl

theorem State.ctxHeld_kernel (c : Nat) (h : Bool) (m : Nat) : (s.ctxHeld c h).kernel? m = s.kernel? m := rfl

/-- The kernel after its hold has ended, and the tiles: their sequencers run again, where they were held. -/
theorem State.closeHold_kernel (hk : s.kernel? n = some k) (wait : Nat) : (s.closeHold n wait).kernel? n =
    some (Kernel.holdOver (match k.holdFrom with
      | some start => k.holdRecorded ((s.wall - start) / 39)
      | none => k) (s.wall + wait)) := by
  rw [closeHold_eq hk]
  refine kernel_updKernel ?_
  rw [ctxHeld_kernel, holdTiles, kernel_updTiles, leaveSelfRefresh, kernel_updTiles, holdClosed]
  cases k.holdFrom with
  | none => exact hk
  | some start => exact kernel_recordHold_eq hk _ _

theorem State.closeHold_working (hr : RisingMap s.tiles) (hk : s.kernel? n = some k) (wait : Nat) :
    let y := (s.closeHold n wait).tile j
    y.regs = (s.tile j).regs ∧ y.flight = (s.tile j).flight ∧ y.flow = if j ∈ k.tiles then (s.tile j).flow.held false else (s.tile j).flow := by
  obtain ⟨hr1, h1⟩ := working_holdClosed (s := s) (n := n) (k := k) j hr
  obtain ⟨hr2, h2⟩ := working_leaveSelfRefresh (s := s.holdClosed n k) (k := k) j hr1
  obtain ⟨hregs, hflight, -, hflow⟩ : _ ∧ _ ∧ _ ∧ _ := by simpa [Tile.working] using h2.trans h1
  obtain ⟨htiles, -⟩ := State.updKernel_parts ((((s.holdClosed n k).leaveSelfRefresh k).holdTiles k false).ctxHeld k.ctx false) n (Kernel.holdOver · (s.wall + wait))
  have htile : (s.closeHold n wait).tile j = (((s.holdClosed n k).leaveSelfRefresh k).holdTiles k false).tile j := by
    rw [closeHold_eq hk, State.tile, htiles]
    rfl
  rw [htile, tile_holdTiles j hr2]
  split
  · exact ⟨hregs, hflight, congrArg (Flow.held · false) hflow⟩
  · exact ⟨hregs, hflight, hflow⟩
end

end Sys2Proof.Machine
end

section
/-!
SUPPORT. The stop at the horizon, the release, the end of a hold and self-refresh (R97, R98, R124, R127, R184, R324).
-/

namespace Sys2Proof.Machine

open Sys2Proof.Claims

/-! ### A hold that arises (R323) -/

section
variable {s : State} {n : Nat} {k : Kernel}

/-- The kernel whose first hold cause begins the interval. -/
def Kernel.heldBy (k : Kernel) (cause wall : Nat) : Kernel :=
  { k with holds := cause :: k.holds, holdMask := k.holdMask ||| 2 ^ cause, holdFrom := some wall, st := if k.st = .running then .held else k.st }

theorem State.openHold_first (hk : s.kernel? n = some k) (hf : k.holdFrom = none) (cause : Nat) : ∃ w row, s.openHold n cause =
    ((((s.setKernel n (k.heldBy cause s.wall)).ctxHeld k.ctx true).holdTiles k true).updTiles k.tiles fun t => t.count 7 1).at w row := by
  unfold openHold
  rw [hk]
  dsimp only
  rw [hf]
  exact ⟨_, _, rfl⟩

theorem State.openHold_joined (hk : s.kernel? n = some k) {w : Nat} (hf : k.holdFrom = some w) (cause : Nat) : ∃ k', s.openHold n cause = s.setKernel n k' := by
  unfold openHold
  rw [hk]
  dsimp only
  rw [hf]
  exact ⟨_, rfl⟩

theorem State.kernel_openHold_first (hk : s.kernel? n = some k) (hf : k.holdFrom = none) (cause : Nat) :
    (s.openHold n cause).kernel? n = some (k.heldBy cause s.wall) := by
  obtain ⟨w, row, e⟩ := openHold_first hk hf cause
  rw [e, kernel_at, kernel_updTiles, holdTiles, kernel_updTiles, ctxHeld, kernel_updCtx, kernel_setKernel_self]

theorem Flow.held_of_not_running {f : Flow} (h : f.st ≠ .running) : f.held true = f := by
  rw [held, if_pos rfl, if_neg h]

/-- A hold leaves the tiles of other partitions, and what a tile's sequencer works on, and holds no sequencer that does not run. -/
theorem State.working_openHold (hr : RisingMap s.tiles) (hk : s.kernel? n = some k) (cause : Nat) (j : TileId) : let y := (s.openHold n cause).tile j
    y.regs = (s.tile j).regs ∧ y.flight = (s.tile j).flight ∧ y.staging = (s.tile j).staging ∧
      ((s.tile j).flow.st ≠ .running → y.flow = (s.tile j).flow) ∧ (j ∉ k.tiles → y = s.tile j) := by
  intro y
  obtain ⟨u, hu⟩ : ∃ u, u = (s.setKernel n (k.heldBy cause s.wall)).ctxHeld k.ctx true := ⟨_, rfl⟩
  have htiles : u.tiles = s.tiles := by rw [hu]; rfl
  have htile : u.tile j = s.tile j := by rw [hu]; rfl
  have hheld : RisingMap (u.holdTiles k true).tiles := updTiles_rising (htiles ▸ hr)
  have hstep : y = s.tile j ∨ y = ((u.holdTiles k true).updTiles k.tiles fun t => t.count 7 1).tile j := by
    cases hf : k.holdFrom with
    | none =>
      obtain ⟨w, row, e⟩ := openHold_first hk hf cause
      exact .inr (by simp only [y]; rw [e, hu]; rfl)
    | some w =>
      obtain ⟨k', e⟩ := openHold_joined hk hf cause
      exact .inl (by simp only [y]; rw [e]; rfl)
  rcases hstep with h | h
  · rw [h]
    exact ⟨rfl, rfl, rfl, fun _ => rfl, fun _ => rfl⟩
  · have hwork := tile_updTiles_keeps (ts := k.tiles) Tile.working (fun x => x.working_count 7 1) hheld j
    rw [← h, tile_holdTiles j (htiles ▸ hr), htile] at hwork
    by_cases hj : j ∈ k.tiles
    · rw [if_pos hj] at hwork
      obtain ⟨hregs, hflight, hstaging, hflow⟩ : _ ∧ _ ∧ _ ∧ _ := by simpa [Tile.working] using hwork
      exact ⟨hregs, hflight, hstaging, fun hst => hflow.trans (Flow.held_of_not_running hst), fun hn => absurd hj hn⟩
    · have hsame : y = s.tile j := by rw [h, tile_updTiles_of_not_mem hj, tile_holdTiles j (htiles ▸ hr), if_neg hj, htile]
      rw [hsame]
      exact ⟨rfl, rfl, rfl, fun _ => rfl, fun _ => rfl⟩
end

/-! ### The stop at the horizon (R124) -/

/-- A tile that runs stops at the horizon's cycle. -/
def Tile.stopped (c : Nat) (t : Tile) : Tile := if t.runs then { t with flow := { t.flow with st := .stopped, stopAt := c } } else t

theorem Tile.runs_iff (t : Tile) : t.runs = true ↔ t.flow.st = .running ∨ t.flow.st = .held := by simp [runs]

theorem Tile.stopped_of_runs {t : Tile} (h : t.runs = true) (c : Nat) : t.stopped c = { t with flow := { t.flow with st := .stopped, stopAt := c } } := if_pos h

theorem Tile.stopped_of_not_runs {t : Tile} (h : t.runs = false) (c : Nat) : t.stopped c = t := if_neg (by simp [h])

theorem Tile.runs_stopped (t : Tile) (c : Nat) : (t.stopped c).runs = false := by
  cases h : t.runs with
  | true => rw [stopped_of_runs h]; rfl
  | false => rw [stopped_of_not_runs h, h]

theorem Tile.stopped_stopped (t : Tile) (c : Nat) : (t.stopped c).stopped c = t.stopped c := stopped_of_not_runs (t.runs_stopped c) c

/-- The stop changes the sequencer alone. -/
theorem Tile.stopped_kept (t : Tile) (c : Nat) : (t.stopped c).regs = t.regs ∧ (t.stopped c).flight = t.flight ∧ (t.stopped c).staging = t.staging := by
  unfold stopped
  split <;> exact ⟨rfl, rfl, rfl⟩

section
variable {s : State} {n : Nat} {k : Kernel}

/-- The tiles stopped at the horizon, and the kernel that has reached it. -/
def State.atHorizon (s : State) (n : Nat) (k : Kernel) : State := (s.updTiles k.tiles (Tile.stopped k.cycle)).setKernel n { k with reached := some s.wall }

theorem exec_stopHorizon_eq (hk : s.kernel? s.ev.x = some k) : exec .stopHorizon s =
    .next (if (s.atHorizon s.ev.x k).canRelease { k with reached := some s.wall } then s.atHorizon s.ev.x k else (s.atHorizon s.ev.x k).openHold s.ev.x 8) := by
  obtain ⟨ts, e⟩ := s.updTiles_eq k.tiles (Tile.stopped k.cycle)
  rw [exec_stopHorizon, execStopHorizon, hk, State.atHorizon, e]
  dsimp only
  rw [show (s.updTiles k.tiles fun t => if t.runs then { t with flow := { t.flow with st := .stopped, stopAt := k.cycle } } else t) = _ from e]
  rfl

theorem State.tile_atHorizon (hr : RisingMap s.tiles) (j : TileId) : (s.atHorizon n k).tile j = if j ∈ k.tiles then (s.tile j).stopped k.cycle else s.tile j :=
  tile_updTiles_of_idem (fun x => x.stopped_stopped k.cycle) hr j

/-- A partition whose tiles all run, are held, have stopped or have halted, and that has no handler, can be released where its horizon stops it. -/
theorem State.canRelease_atHorizon (hr : RisingMap s.tiles) (he : k.ending = none) (hh : k.holds = []) (h0 : k.handlers = 0)
    (ht : ∀ e ∈ s.tiles, inPartition k.die0 k.shape (dieOf e.1) = true →
      e.1 ∈ k.tiles ∧ (e.2.flow.st = .stopped ∨ e.2.flow.st = .halted ∨ e.2.flow.st = .running ∨ e.2.flow.st = .held)) :
    (s.atHorizon n k).canRelease { k with reached := some s.wall } = true := by
  have hall : ((s.atHorizon n k).tilesOf { k with reached := some s.wall }).all (fun t => t.2.flow.st == .stopped || t.2.flow.st == .halted) = true := by
    rw [List.all_eq_true]
    intro e hmem
    obtain ⟨hin, hpart⟩ := List.mem_filter.1 hmem
    have hrise : RisingMap (s.atHorizon n k).tiles := updTiles_rising hr
    obtain ⟨e0, he0, hsame⟩ := mem_tiles_updTiles (f := Tile.stopped k.cycle) rfl hin
    obtain ⟨hk, hst⟩ := ht e0 he0 (hsame ▸ hpart)
    have htile : e.2 = e0.2.stopped k.cycle := by
      rw [← mapGet_of_mem_rising (d := {}) hrise hin, ← mapGet_of_mem_rising (d := {}) hr he0, ← hsame]
      exact (s.tile_atHorizon hr e0.1).trans (if_pos hk)
    rw [htile]
    cases h : e0.2.runs with
    | true =>
      rw [Tile.stopped_of_runs h]
      rfl
    | false =>
      rw [Tile.stopped_of_not_runs h]
      have hnot : ¬ (e0.2.flow.st = .running ∨ e0.2.flow.st = .held) := by rw [← Tile.runs_iff, h]; decide
      rcases hst with hst | hst | hst
      · rw [hst]; rfl
      · rw [hst]; rfl
      · exact absurd hst hnot
  unfold canRelease
  rw [hall]
  simp [he, hh, h0]

/-- The state after the stop: released where it stands, or held with cause long trap (R127, R323). -/
def State.stoppedThere (s : State) (n : Nat) (k : Kernel) : State :=
  if (s.atHorizon n k).canRelease { k with reached := some s.wall } then s.atHorizon n k else (s.atHorizon n k).openHold n 8

theorem State.kernel_atHorizon : (s.atHorizon n k).kernel? n = some { k with reached := some s.wall } := kernel_setKernel_self _ n _

/-- A tile of the partition after the stop: its sequencer stopped where it ran, and nothing else of its work changed. -/
theorem State.working_stoppedThere (hr : RisingMap s.tiles) (j : TileId) : let y := (s.stoppedThere n k).tile j
    y.regs = (s.tile j).regs ∧ y.flight = (s.tile j).flight ∧ y.staging = (s.tile j).staging ∧
      (j ∈ k.tiles → y.flow = ((s.tile j).stopped k.cycle).flow) ∧ (j ∉ k.tiles → y = s.tile j) := by
  intro y
  have hat : (s.atHorizon n k).tile j = if j ∈ k.tiles then (s.tile j).stopped k.cycle else s.tile j := tile_atHorizon hr j
  obtain ⟨hregs, hflight, hstaging⟩ := (s.tile j).stopped_kept k.cycle
  have hsame : y = (s.atHorizon n k).tile j ∨ y = ((s.atHorizon n k).openHold n 8).tile j := by
    simp only [y, stoppedThere]
    split
    · exact .inl rfl
    · exact .inr rfl
  by_cases hj : j ∈ k.tiles
  · rw [if_pos hj] at hat
    rcases hsame with h | h
    · rw [h, hat]
      exact ⟨hregs, hflight, hstaging, fun _ => rfl, fun hn => absurd hj hn⟩
    · obtain ⟨h1, h2, h3, h4, -⟩ := working_openHold (s := s.atHorizon n k) (updTiles_rising hr) kernel_atHorizon 8 j
      rw [← h, hat] at h1 h2 h3 h4
      have hst : ((s.tile j).stopped k.cycle).flow.st ≠ .running := fun e => by
        have := ((s.tile j).stopped k.cycle).runs_iff.2 (.inl e)
        rw [Tile.runs_stopped] at this
        cases this
      exact ⟨h1.trans hregs, h2.trans hflight, h3.trans hstaging, fun _ => h4 hst, fun hn => absurd hj hn⟩
  · rw [if_neg hj] at hat
    have hy : y = s.tile j := by
      rcases hsame with h | h
      · exact h.trans hat
      · obtain ⟨-, -, -, -, h5⟩ := working_openHold (s := s.atHorizon n k) (updTiles_rising hr) kernel_atHorizon 8 j
        exact h.trans ((h5 hj).trans hat)
    rw [hy]
    exact ⟨rfl, rfl, rfl, fun h => absurd h hj, fun _ => rfl⟩

/-- The kernel after the stop has reached its horizon, at the cycle it stood at. -/
theorem State.kernel_stoppedThere : ∃ k', (s.stoppedThere n k).kernel? n = some k' ∧ k'.reached = some s.wall ∧ k'.cycle = k.cycle ∧
    ((s.atHorizon n k).canRelease { k with reached := some s.wall } = true → k' = { k with reached := some s.wall }) ∧
    ((s.atHorizon n k).canRelease { k with reached := some s.wall } = false → k.holdFrom = none →
      k' = Kernel.heldBy { k with reached := some s.wall } 8 s.wall) := by
  unfold stoppedThere
  cases hc : (s.atHorizon n k).canRelease { k with reached := some s.wall } with
  | true => exact ⟨_, kernel_atHorizon, rfl, rfl, fun _ => rfl, nofun⟩
  | false =>
    rw [if_neg Bool.false_ne_true]
    have hwall : (s.atHorizon n k).wall = s.wall := updTiles_wall
    cases hf : k.holdFrom with
    | none =>
      have h := kernel_openHold_first (kernel_atHorizon (s := s) (n := n) (k := k)) hf 8
      rw [hwall] at h
      exact ⟨_, h, rfl, rfl, nofun, fun _ _ => rfl⟩
    | some w =>
      obtain ⟨mask, w', st, h, -⟩ := kernel_openHold (kernel_atHorizon (s := s) (n := n) (k := k)) 8
      exact ⟨_, h, rfl, rfl, nofun, fun _ => nofun⟩

theorem stopHorizon_stops (hr : RisingMap s.tiles) (hk : s.kernel? s.ev.x = some k) :
    ∃ u k', exec .stopHorizon s = .next u ∧ u.kernel? s.ev.x = some k' ∧ k'.reached = some s.wall ∧ k'.cycle = k.cycle ∧
      (k.ending = none → k.holds = [] → k.holdFrom = none →
        ((k.handlers = 0 ∧ ∀ e ∈ s.tiles, inPartition k.die0 k.shape (dieOf e.1) = true →
          e.1 ∈ k.tiles ∧ (e.2.flow.st = .stopped ∨ e.2.flow.st = .halted ∨ e.2.flow.st = .running ∨ e.2.flow.st = .held)) →
          k' = { k with reached := some s.wall }) ∧
        (k.handlers ≠ 0 → k'.holds = [8] ∧ k'.holdMask = k.holdMask ||| 2 ^ 8 ∧ k'.holdFrom = some s.wall ∧ k'.st = (if k.st = .running then .held else k.st))) ∧
      ∀ j, (u.tile j).regs = (s.tile j).regs ∧ (u.tile j).flight = (s.tile j).flight ∧ (u.tile j).staging = (s.tile j).staging ∧
        (j ∈ k.tiles → (s.tile j).flow.st = .running ∨ (s.tile j).flow.st = .held →
          (u.tile j).flow = { (s.tile j).flow with st := .stopped, stopAt := k.cycle }) ∧
        (j ∈ k.tiles → (s.tile j).flow.st ≠ .running → (s.tile j).flow.st ≠ .held → (u.tile j).flow = (s.tile j).flow) ∧
        (j ∉ k.tiles → u.tile j = s.tile j) := by
  obtain ⟨k', hk', hreached, hcycle, hfree, hheld⟩ := State.kernel_stoppedThere (s := s) (n := s.ev.x) (k := k)
  refine ⟨_, k', exec_stopHorizon_eq hk, hk', hreached, hcycle,
    fun he hh hf => ⟨fun ⟨h0, ht⟩ => hfree (State.canRelease_atHorizon hr he hh h0 ht), fun h0 => ?_⟩,
    fun j => ?_⟩
  · have hwaits : (s.atHorizon s.ev.x k).canRelease { k with reached := some s.wall } = false := by simp [State.canRelease, h0]
    rw [hheld hwaits hf]
    exact ⟨congrArg (8 :: ·) hh, rfl, rfl, rfl⟩
  · obtain ⟨hregs, hflight, hstaging, hin, hout⟩ := State.working_stoppedThere (n := s.ev.x) (k := k) hr j
    exact ⟨hregs, hflight, hstaging, fun hj hst => (hin hj).trans (congrArg Tile.flow (Tile.stopped_of_runs ((Tile.runs_iff _).2 hst) _)),
      fun hj h1 h2 => (hin hj).trans (congrArg Tile.flow (Tile.stopped_of_not_runs (by simp [Tile.runs, h1, h2]) _)), hout⟩
end

end Sys2Proof.Machine
end

section
/-!
SUPPORT. A partition released, a hold's end, and self-refresh entered (R127, R184, R324, R408).
-/

namespace Sys2Proof.Machine

open Sys2Proof.Claims

section
variable {s : State} {k : Kernel}

/-- The sequencer of a tile after its partition's hold has ended. -/
theorem Flow.held_false_eq (f : Flow) (p : Prop) [Decidable p] : (if p then f.held false else f) = { f with st := if p ∧ f.st = .held then .running else f.st } := by
  by_cases hp : p
  · rw [if_pos hp, held, if_neg Bool.false_ne_true]
    simp only [hp, true_and]
  · rw [if_neg hp, if_neg (fun h => hp h.1)]

/-- The tiles after a hold has ended. -/
theorem State.closeHold_tile {n : Nat} (hr : RisingMap s.tiles) (hk : s.kernel? n = some k) (wait : Nat) (j : TileId) : let y := (s.closeHold n wait).tile j
    y.regs = (s.tile j).regs ∧ y.flight = (s.tile j).flight ∧
      y.flow = { (s.tile j).flow with st := if j ∈ k.tiles ∧ (s.tile j).flow.st = .held then .running else (s.tile j).flow.st } := by
  obtain ⟨hregs, hflight, hflow⟩ := closeHold_working j hr hk wait
  exact ⟨hregs, hflight, hflow.trans (Flow.held_false_eq _ _)⟩

/-! ### The release of a stopped partition (R127, R408) -/

/-- The earliest stop cycle: a bound of every stopped tile's, and one of them or the kernel's cycle. -/
theorem State.earliestStop_spec (s : State) (k : Kernel) :
    s.earliestStop k ≤ k.cycle ∧ (∀ j ∈ k.tiles, (s.tile j).flow.st = .stopped → s.earliestStop k ≤ (s.tile j).flow.stopAt) ∧
      (s.earliestStop k = k.cycle ∨ ∃ j ∈ k.tiles, (s.tile j).flow.st = .stopped ∧ s.earliestStop k = (s.tile j).flow.stopAt) := by
  obtain ⟨l, hl⟩ : ∃ l, l = ((k.tiles.map s.tile).filter fun t => t.flow.st == .stopped).map fun t => t.flow.stopAt := ⟨_, rfl⟩
  have hmem (x : Nat) : x ∈ l ↔ ∃ j ∈ k.tiles, (s.tile j).flow.st = .stopped ∧ (s.tile j).flow.stopAt = x := by
    simp [hl, and_assoc]
  have hmin : (k.cycle :: l).min? = some (s.earliestStop k) := by rw [hl]; rfl
  obtain ⟨hin, hle⟩ := List.min?_eq_some_iff.1 hmin
  refine ⟨hle _ List.mem_cons_self, fun j hj hst => hle _ (List.mem_cons_of_mem _ ((hmem _).2 ⟨j, hj, hst, rfl⟩)), ?_⟩
  rcases List.mem_cons.1 hin with h | h
  · exact .inl h
  · obtain ⟨j, hj, hst, e⟩ := (hmem _).1 h
    exact .inr ⟨j, hj, hst, e.symm⟩

theorem Kernel.period_pos (k : Kernel) : 0 < k.period := by
  unfold period
  split <;> decide

/-- The release takes at least one cycle and at most 64, in which what self-refresh closed is opened again (R184, R408). -/
theorem State.releaseTime_bounds (s : State) (k : Kernel) : 0 < s.releaseTime k ∧ s.releaseTime k ≤ 64 * k.period := by
  obtain ⟨hlo, hhi⟩ := s.handlerTime_bounds k (b := 64) (by decide)
  refine ⟨k.period_pos.trans_le (hlo.trans (le_max_right _ _)), max_le ?_ hhi⟩
  unfold reactivation
  split
  · exact Nat.mul_le_mul_right _ (by split <;> decide)
  · exact Nat.zero_le _

/-- The kernel released: its count restarts at a cycle. -/
def Kernel.released (k : Kernel) (first : Nat) : Kernel := { k with holds := [], horizon := none, reached := none, cycle := first, phase := 0 }

theorem exec_partitionRelease_eq (hk : s.kernel? s.ev.x = some k) : exec .partitionRelease s =
    .next (((s.closeHold s.ev.x (s.releaseTime k)).updKernel s.ev.x (Kernel.released · (s.earliestStop k))).tickFree) := by
  rw [exec_partitionRelease, execPartitionRelease]
  dsimp only
  rw [hk]
  rfl

/-- The kernel of the hold that ends, with the interval recorded where one stands (R324). -/
def Kernel.holdSummed (k : Kernel) (wall : Nat) : Kernel := match k.holdFrom with
  | some start => k.holdRecorded ((wall - start) / 39)
  | none => k

theorem Kernel.holdSummed_eq (k : Kernel) (wall : Nat) : ∃ sum, k.holdSummed wall =
    { k with holdSum := sum, nhold := if k.holdFrom = none then k.nhold else min (k.nhold + 1) (2 ^ 32 - 1) } := by
  unfold holdSummed
  split
  · next start h => exact ⟨_, by rw [if_neg (by simp [h])]; rfl⟩
  · next h => exact ⟨k.holdSum, by rw [if_pos h]⟩

theorem partitionRelease_releases (hr : RisingMap s.tiles) (hk : s.kernel? s.ev.x = some k) :
    ∃ u k', exec .partitionRelease s = .next u ∧ u.kernel? s.ev.x = some k' ∧ k'.horizon = none ∧ k'.reached = none ∧ k'.holds = [] ∧ k'.holdFrom = none ∧
      k'.cycle ≤ k.cycle ∧ k'.st = (if k.st = .held then .running else k.st) ∧ s.wall < k'.nextWall ∧ k'.nextWall ≤ s.wall + 64 * k.period ∧
      k'.nhold = (if k.holdFrom = none then k.nhold else min (k.nhold + 1) (2 ^ 32 - 1)) ∧
      (∀ j ∈ k.tiles, (s.tile j).flow.st = .stopped → k'.cycle ≤ (s.tile j).flow.stopAt) ∧
      (k'.cycle = k.cycle ∨ ∃ j ∈ k.tiles, (s.tile j).flow.st = .stopped ∧ k'.cycle = (s.tile j).flow.stopAt) ∧
      (∀ j, (u.tile j).regs = (s.tile j).regs ∧ (u.tile j).flight = (s.tile j).flight ∧
        (u.tile j).flow = { (s.tile j).flow with st := if j ∈ k.tiles ∧ (s.tile j).flow.st = .held then .running else (s.tile j).flow.st }) := by
  obtain ⟨sum, hsum⟩ := k.holdSummed_eq s.wall
  obtain ⟨hcycle, hbound, hattained⟩ := s.earliestStop_spec k
  obtain ⟨hpos, hle⟩ := s.releaseTime_bounds k
  have hclosed : (s.closeHold s.ev.x (s.releaseTime k)).kernel? s.ev.x = some ((k.holdSummed s.wall).holdOver (s.wall + s.releaseTime k)) := State.closeHold_kernel hk _
  rw [hsum] at hclosed
  refine ⟨_, _, exec_partitionRelease_eq hk, State.kernel_updKernel hclosed, rfl, rfl, rfl, rfl, hcycle, rfl, Nat.lt_add_of_pos_right hpos,
    Nat.add_le_add_left hle _, rfl, hbound, hattained, fun j => ?_⟩
  obtain ⟨htiles, -⟩ := (s.closeHold s.ev.x (s.releaseTime k)).updKernel_parts s.ev.x (Kernel.released · (s.earliestStop k))
  rw [State.tile_tickFree, show State.tile _ j = (s.closeHold s.ev.x (s.releaseTime k)).tile j from congrArg (mapGet ({} : Tile) · j) htiles]
  exact State.closeHold_tile hr hk _ j

/-! ### The end of a hold (R324) -/

theorem holdRelease_releases (hr : RisingMap s.tiles) (hk : s.kernel? s.ev.x = some k) {start : Nat} (hh : k.holds = []) (hf : k.holdFrom = some start) :
    ∃ u k', exec .holdRelease s = .next u ∧ u.kernel? s.ev.x = some k' ∧ k'.holdFrom = none ∧ k'.cycle = k.cycle ∧
      k'.st = (if k.st = .held then .running else k.st) ∧ k'.nhold = min (k.nhold + 1) (2 ^ 32 - 1) ∧
      k'.holdSum = min (k.holdSum + (s.wall - start) / 39) (2 ^ 64 - 1) ∧
      (∀ j, (u.tile j).regs = (s.tile j).regs ∧ (u.tile j).flight = (s.tile j).flight ∧
        (u.tile j).flow = { (s.tile j).flow with st := if j ∈ k.tiles ∧ (s.tile j).flow.st = .held then .running else (s.tile j).flow.st }) := by
  have hexec : exec .holdRelease s = .next (s.closeHold s.ev.x (s.reactivation k)) := by
    rw [exec_holdRelease, execHoldRelease, hk]
    simp [hh, hf]
  have hclosed : (s.closeHold s.ev.x (s.reactivation k)).kernel? s.ev.x = some ((k.holdRecorded ((s.wall - start) / 39)).holdOver (s.wall + s.reactivation k)) := by
    rw [State.closeHold_kernel hk, hf]
  exact ⟨_, _, hexec, hclosed, rfl, rfl, rfl, rfl, rfl, State.closeHold_tile hr hk _⟩

/-! ### Self-refresh (R184) -/

/-- A vault that refreshes itself. -/
def Tile.selfRefreshed (t : Tile) : Tile := { t with vault := { t.vault with selfRef := true } }

theorem selfRefreshEntry_stopped (hk : s.kernel? s.ev.x = some k) {i : TileId} (hi : s.ev.tile = i + 1) (hst : (s.tile i).flow.st = .trapped)
    (hh : k.horizon.isSome = true) (hw : (s.tile i).flow.stopWall = s.ev.y) : exec .selfRefreshEntry s = .next (s.setTile i (s.tile i).selfRefreshed) := by
  rw [exec_selfRefreshEntry, execSelfRefreshEntry]
  dsimp only
  rw [hk, hi]
  dsimp only
  rw [if_neg (Nat.succ_ne_zero i), Nat.add_sub_cancel, if_pos ⟨.inl hst, hh, hw⟩]
  rfl

theorem selfRefreshEntry_held (hr : RisingMap s.tiles) (hk : s.kernel? s.ev.x = some k) (h0 : s.ev.tile = 0) (hf : k.holdFrom = some s.ev.y) :
    ∃ u, exec .selfRefreshEntry s = .next u ∧ u.kernels = s.kernels ∧ ∀ j, u.tile j = if j ∈ k.tiles then (s.tile j).selfRefreshed else s.tile j := by
  refine ⟨s.updTiles k.tiles Tile.selfRefreshed, ?_, State.updTiles_kernels, State.tile_updTiles_of_idem (fun _ => rfl) hr⟩
  rw [exec_selfRefreshEntry, execSelfRefreshEntry]
  dsimp only
  rw [hk]
  dsimp only
  rw [if_pos h0, if_pos hf]
  rfl
end

end Sys2Proof.Machine
end

section
/-!
SUPPORT. Traps at a cycle, the halting of a tile and the copy of a segment (R36, R114, R117, R182, R186, R409), and the events of stops and holds together.
-/

namespace Sys2Proof.Machine

open Sys2Proof.Claims

/-! ### A trap at a cycle (R117, R409) -/

section
variable {s : State} {m : Nat} {k : Kernel} {x : CycTrap} {rest : List CycTrap}

/-- The first trap of a tile awaits the end of its partition's hold (R359). -/
theorem deferredTrap_waits (hk : s.kernelOf s.ev.tile = some (m, k)) (hx : (s.tile s.ev.tile).flow.cycTraps = x :: rest) (hh : k.holds ≠ []) :
    exec .deferredTrap s = .next s := by
  rw [exec_deferredTrap, execDeferredTrap]
  dsimp only
  rw [hx, hk]
  dsimp only
  rw [if_pos (by simp [hh])]

theorem deferredTrap_taken (hk : s.kernelOf s.ev.tile = some (m, k)) (hx : (s.tile s.ev.tile).flow.cycTraps = x :: rest) (hh : k.holds = [])
    (hst : (s.tile s.ev.tile).flow.st = .running ∨ (s.tile s.ev.tile).flow.st = .held) :
    exec .deferredTrap s = .next (({ s with todo := [] } : State).takeTrap s.ev.tile
      { s.tile s.ev.tile with flow := { (s.tile s.ev.tile).flow with cycTraps := rest } } x.cause 0 x.info (max x.cycle k.cycle)
      ((s.tile s.ev.tile).flow.due - k.cycle) true) := by
  have hnot : (s.tile s.ev.tile).flow.st ≠ .halted := by rcases hst with h | h <;> rw [h] <;> decide
  have hruns : (s.tile s.ev.tile).runs = true := (Tile.runs_iff _).2 hst
  rw [exec_deferredTrap, execDeferredTrap]
  dsimp only
  rw [hx, hk]
  dsimp only
  rw [if_neg (by simp [hh]), if_neg hnot]
  exact congrArg _ (if_pos hruns)

/-- A halted tile's trap: its sequencer is faulted, and its kernel ends faulted (R409). -/
theorem State.haltedFault_spec (hr : RisingMap s.tiles) {id : TileId} (hk : s.kernelOf id = some (m, k)) (he : k.ending = none) :
    ((s.haltedFault id x).tile id).flow.st = .faulted ∧ ∃ k', (s.haltedFault id x).kernel? m = some k' ∧ k'.st = .faulted ∧ k'.ending = some 2 := by
  obtain ⟨y, hy⟩ : ∃ y, y = fun t : Tile => ({ (t.count 6 1) with flow := { t.flow with st := .faulted } } : Tile) := ⟨_, rfl⟩
  obtain ⟨u, hu⟩ : ∃ u, u = (s.updTile id y).updDie (dieOf id) fun d => { d with tun := { d.tun with traps := bump d.tun.traps x.cause 1 } } := ⟨_, rfl⟩
  obtain ⟨f, hf⟩ : ∃ f, s.haltedFault id x = u.setKernel m ((Kernel.noteFault { k with nflt := min (k.nflt + 1) (2 ^ 32 - 1) } f).endFaulted 2) := by
    have hku : u.kernelOf id = some (m, k) := by rw [hu]; exact hk
    rw [hy] at hu
    unfold haltedFault
    dsimp only
    rw [← hu, hku]
    exact ⟨_, rfl⟩
  obtain ⟨hst, hend, -⟩ := Kernel.endFaulted_noteFault (k := { k with nflt := min (k.nflt + 1) (2 ^ 32 - 1) }) he f
  rw [hf]
  refine ⟨?_, _, State.kernel_setKernel_self _ m _, hst, hend⟩
  rw [State.tile_setKernel, hu, State.tile_updDie, State.tile_updTile_self s id y hr, hy]

theorem deferredTrap_halted (hr : RisingMap s.tiles) (hk : s.kernelOf s.ev.tile = some (m, k)) (hx : (s.tile s.ev.tile).flow.cycTraps = x :: rest) (hh : k.holds = [])
    (hst : (s.tile s.ev.tile).flow.st = .halted) (he : k.ending = none) :
    ∃ u k', exec .deferredTrap s = .next u ∧ (u.tile s.ev.tile).flow.st = .faulted ∧ u.kernel? m = some k' ∧ k'.st = .faulted ∧ k'.ending = some 2 := by
  obtain ⟨y, hy⟩ : ∃ y, y = ({ s.tile s.ev.tile with flow := { (s.tile s.ev.tile).flow with cycTraps := rest } } : Tile) := ⟨_, rfl⟩
  have hexec : exec .deferredTrap s = .next ((s.setTile s.ev.tile y).haltedFault s.ev.tile x) := by
    rw [exec_deferredTrap, execDeferredTrap]
    dsimp only
    rw [hx, hk]
    dsimp only
    rw [if_neg (by simp [hh]), if_pos hst, hy]
  obtain ⟨hfault, k', hk', hends⟩ := State.haltedFault_spec (s := s.setTile s.ev.tile y) (x := x) (mapSet_rising _ _ _ _ hr) hk he
  exact ⟨_, k', hexec, hfault, hk', hends⟩
end

/-! ### The halting of a tile (R95, R114) -/

/-- A pending format write that takes effect changes the formats alone. -/
theorem Tile.applyFmt_frame (t : Tile) (w : FmtWrite) : ∃ fmts, t.applyFmt w = { t with fmts := fmts } := by
  unfold applyFmt orFlags
  dsimp only
  split
  · exact ⟨_, rfl⟩
  · split
    · exact ⟨_, rfl⟩
    · exact ⟨_, rfl⟩

theorem Tile.foldl_applyFmt_frame (l : List FmtWrite) (t : Tile) : ∃ fmts, l.foldl applyFmt t = { t with fmts := fmts } := by
  induction l generalizing t with
  | nil => exact ⟨t.fmts, rfl⟩
  | cons w r ih =>
    obtain ⟨f, hf⟩ := t.applyFmt_frame w
    obtain ⟨g, hg⟩ := ih (t.applyFmt w)
    exact ⟨g, by rw [List.foldl_cons, hg, hf]⟩

/-- The tile halted: its pending format writes in effect, its pages closed. -/
def Tile.halted (t : Tile) : Tile :=
  let u := t.fmts.pend.foldl Tile.applyFmt t
  let t := { u with flow := { u.flow with st := .halted, haltBase := none }, fmts := { u.fmts with pend := [] } }
  t.updVault fun v => { v with banks := v.banks.map fun b => (b.1, { b.2 with st := .idle, ap := none }) }

theorem Tile.halted_spec (t : Tile) : t.halted.flow.st = .halted ∧ t.halted.fmts.pend = [] ∧ t.halted.regs = t.regs ∧ t.halted.staging = t.staging ∧
    ∀ e ∈ t.halted.vault.banks, e.2.st = .idle := by
  obtain ⟨f, hf⟩ := foldl_applyFmt_frame t.fmts.pend t
  unfold halted
  rw [hf]
  refine ⟨rfl, rfl, rfl, rfl, fun e he => ?_⟩
  obtain ⟨b, -, rfl⟩ := List.mem_map.1 he
  rfl

theorem exec_tileHalted_eq (s : State) : ∃ u, exec .tileHalted s = .next u ∧ u.tiles = (s.updTile s.ev.tile Tile.halted).tiles := by
  have e : exec .tileHalted s = .next (match s.kernelOf s.ev.tile with
    | some (n, k) => (s.updTile s.ev.tile Tile.halted).setKernel n { k with tend := s.wclk, tcyc := k.cycle }
    | none => s.updTile s.ev.tile Tile.halted) := rfl
  rw [e]
  cases s.kernelOf s.ev.tile with
  | none => exact ⟨_, rfl, rfl⟩
  | some p => exact ⟨_, rfl, rfl⟩

theorem tileHalted_halts (s : State) (hr : RisingMap s.tiles) : ∃ u, exec .tileHalted s = .next u ∧ (u.tile s.ev.tile).flow.st = .halted ∧
    (u.tile s.ev.tile).fmts.pend = [] ∧ (u.tile s.ev.tile).regs = (s.tile s.ev.tile).regs ∧ (u.tile s.ev.tile).staging = (s.tile s.ev.tile).staging ∧
    (∀ e ∈ (u.tile s.ev.tile).vault.banks, e.2.st = .idle) ∧ ∀ j, j ≠ s.ev.tile → u.tile j = s.tile j := by
  obtain ⟨u, hu, htiles⟩ := exec_tileHalted_eq s
  have htile (j : TileId) : u.tile j = (s.updTile s.ev.tile Tile.halted).tile j := congrArg (mapGet ({} : Tile) · j) htiles
  obtain ⟨hst, hpend, hregs, hstaging, hbanks⟩ := (s.tile s.ev.tile).halted_spec
  rw [← State.tile_updTile_self s s.ev.tile Tile.halted hr, ← htile] at hst hpend hregs hstaging hbanks
  exact ⟨u, hu, hst, hpend, hregs, hstaging, hbanks, fun j hj => (htile j).trans (State.tile_updTile_ne s _ hj)⟩

/-! ### The copy of a segment (R36, R182, R186) -/

/-- Slots read one after the other, to the first that cannot be read. -/
theorem State.readSlots_cons (s : State) (id : TileId) (b g sl : Nat) (r : List (Nat × Nat × Nat)) :
    s.readSlots id ((b, g, sl) :: r) = match s.agentRead id 1 b g 0 sl with
      | (w, .error _) => (w, .error (b + g * 2 ^ 8 + sl * 2 ^ 20))
      | (w, .ok d) => match w.readSlots id r with
        | (w, .error e) => (w, .error e)
        | (w, .ok l) => (w, .ok (d ++ l)) := rfl

theorem getD_mod_mem {l : List Nat} (h : l ≠ []) (i : Nat) : l.getD (i % l.length) 0 ∈ l := by
  have hi : i % l.length < l.length := Nat.mod_lt _ (List.length_pos_of_ne_nil h)
  rw [List.getD_eq_getElem _ _ hi]
  exact List.getElem_mem hi

/-- The service banks of a mask, or all banks where it names none. -/
def serviceBanks (mask : Nat) : List Nat := match (List.range 128).filter (bitOf mask) with
  | [] => List.range 128
  | l => l

theorem serviceBanks_spec (mask : Nat) : serviceBanks mask ≠ [] ∧
    ∀ b ∈ serviceBanks mask, b < 128 ∧ ((∃ c < 128, bitOf mask c = true) → bitOf mask b = true) := by
  cases h : (List.range 128).filter (bitOf mask) with
  | nil =>
    have hall : serviceBanks mask = List.range 128 := by unfold serviceBanks; rw [h]
    rw [hall]
    refine ⟨by simp, fun b hb => ⟨List.mem_range.1 hb, fun ⟨c, hc, hbit⟩ => ?_⟩⟩
    exact absurd (List.mem_filter.2 ⟨List.mem_range.2 hc, hbit⟩) (by simp [h])
  | cons a r =>
    have hsome : serviceBanks mask = (List.range 128).filter (bitOf mask) := by unfold serviceBanks; rw [h]
    rw [hsome]
    refine ⟨by simp [h], fun b hb => ?_⟩
    obtain ⟨hin, hbit⟩ := List.mem_filter.1 hb
    exact ⟨List.mem_range.1 hin, fun _ => hbit⟩

theorem Kernel.segmentSlot_bounds (k : Kernel) (id : TileId) (t : Tile) (key j : Nat) : let q := k.segmentSlot id t key j
    q.1 < 128 ∧ q.2.1 < 4096 ∧ q.2.2 < 32 ∧ ((∃ b < 128, bitOf k.img.sbmask b = true) → bitOf k.img.sbmask q.1 = true) := by
  obtain ⟨hne, hbanks⟩ := serviceBanks_spec k.img.sbmask
  obtain ⟨hlt, hbit⟩ := hbanks _ (getD_mod_mem hne
    ((Config.segmentPlace id k.ctx 0 + ((t.imem.segs.filter fun e => decide (e.1 < key)).map fun e => segmentSlots e.2).sum + j) / 32))
  exact ⟨hlt, Nat.mod_lt _ (by decide), Nat.mod_lt _ (by decide), hbit⟩

theorem groupNeeds_ne_nil {l : Needs} (h : l ≠ []) : groupNeeds l ≠ [] := by
  cases l with
  | nil => exact absurd rfl h
  | cons n r =>
    unfold groupNeeds
    split
    · exact List.cons_ne_nil _ _
    · split <;> exact List.cons_ne_nil _ _

section
variable {s : State} {m : Nat} {k : Kernel}

/-- The needs of a segment's copy. -/
def State.copyNeeds (s : State) (k : Kernel) : Needs :=
  groupNeeds ((k.segmentPlaces s.ev.tile (s.tile s.ev.tile) (k.variant * 65536 + s.ev.x)).map fun q => (s.ev.tile, q.1, 1))

theorem segmentCopyComplete_idle (hk : s.kernelOf s.ev.tile = some (m, k)) (h : s.ev.x ∉ (s.tile s.ev.tile).imem.copying) :
    exec .segmentCopyComplete s = .next s := by
  rw [exec_segmentCopyComplete, execSegmentCopyComplete]
  dsimp only
  rw [hk]
  dsimp only
  rw [if_pos (by simpa using h)]

theorem segmentCopyComplete_asks (hk : s.kernelOf s.ev.tile = some (m, k)) (h : s.ev.x ∈ (s.tile s.ev.tile).imem.copying) (hg : s.ev.grant = .fresh)
    (hp : k.segmentPlaces s.ev.tile (s.tile s.ev.tile) (k.variant * 65536 + s.ev.x) ≠ []) :
    exec .segmentCopyComplete s = .next (s.ask 1 { i := .segmentCopyComplete, arg := s.ev } (s.copyNeeds k)) := by
  have hne : (s.copyNeeds k).isEmpty = false := List.isEmpty_eq_false_iff.2 (groupNeeds_ne_nil (by simpa using hp))
  rw [exec_segmentCopyComplete, execSegmentCopyComplete]
  dsimp only
  rw [hk]
  dsimp only
  rw [if_neg (by simpa using h), State.served, hg]
  dsimp only
  rw [show groupNeeds _ = s.copyNeeds k from rfl, hne]
  rfl

/-- The window of instruction memory after a copy: the segment as its bytes read, or the slot that could not be read kept with it. -/
def IMem.copied (i : IMem) (seg key : Nat) : Except Nat (List Byte) → IMem
  | .ok bs => { i with copying := i.copying.erase seg, segs := mapSet [] i.segs key (indicesOf (mapGet [] i.segs key).length bs) }
  | .error x => { i with copying := i.copying.erase seg, bad := mapPut i.bad seg x }

theorem IMem.copied_copying (i : IMem) (seg key : Nat) (got : Except Nat (List Byte)) : (i.copied seg key got).copying = i.copying.erase seg := by
  cases got <;> rfl

/-- The tile whose window takes the segment. -/
def Tile.copied (t : Tile) (seg key : Nat) (got : Except Nat (List Byte)) : Tile := { t with imem := t.imem.copied seg key got }

/-- A hold that awaits the segment ends with its copy. -/
def State.copyEnded (w : State) (id : TileId) (m : Nat) (k : Kernel) (seg : Nat) : State :=
  if k.holds.contains 4 && (w.tile id).runs && decide ((w.tile id).flow.due ≤ k.cycle) && (w.tile id).flow.pc.seg == seg then w.endHold m 4 else w

theorem segmentCopyComplete_copies (hk : s.kernelOf s.ev.tile = some (m, k)) (h : s.ev.x ∈ (s.tile s.ev.tile).imem.copying) (hg : s.ev.grant = .given)
    {w : State} {got : Except Nat (List Byte)}
    (hp : s.readSlots s.ev.tile (k.segmentPlaces s.ev.tile (s.tile s.ev.tile) (k.variant * 65536 + s.ev.x)) = (w, got)) :
    exec .segmentCopyComplete s =
      .next ((w.updTile s.ev.tile (Tile.copied · s.ev.x (k.variant * 65536 + s.ev.x) got)).copyEnded s.ev.tile m k s.ev.x) := by
  rw [exec_segmentCopyComplete, execSegmentCopyComplete]
  dsimp only
  rw [hk]
  dsimp only
  rw [if_neg (by simpa using h), State.served, hg]
  dsimp only
  rw [hp]
  cases got <;> rfl

theorem State.endHold_parts (s : State) (n cause : Nat) :
    (s.endHold n cause).tiles = s.tiles ∧ (s.endHold n cause).dies = s.dies ∧ (s.endHold n cause).ctxs = s.ctxs := by
  unfold endHold
  split
  · exact ⟨rfl, rfl, rfl⟩
  · dsimp only
    split <;> exact ⟨rfl, rfl, rfl⟩

theorem State.copyEnded_parts (w : State) (id : TileId) (m : Nat) (k : Kernel) (seg : Nat) : (w.copyEnded id m k seg).tiles = w.tiles ∧
    (w.copyEnded id m k seg).dies = w.dies ∧ (w.copyEnded id m k seg).ctxs = w.ctxs := by
  unfold copyEnded
  split
  · exact w.endHold_parts m 4
  · exact ⟨rfl, rfl, rfl⟩

/-- A partition that awaits the segment alone is released by its copy. -/
theorem State.copyEnded_releases {w : State} {id : TileId} {seg : Nat} (hk : w.kernel? m = some k) (hh : k.holds = [4]) (hr : (w.tile id).runs = true)
    (hdue : (w.tile id).flow.due ≤ k.cycle) (hseg : (w.tile id).flow.pc.seg = seg) :
    ∃ k', (w.copyEnded id m k seg).kernel? m = some k' ∧ k'.holds = [] ∧ (w.copyEnded id m k seg).todo = { i := .holdRelease, arg := { x := m } } :: w.todo := by
  have hended : w.copyEnded id m k seg = w.endHold m 4 := if_pos (by simp [hh, hr, hdue, hseg])
  have hlast : k.holds.erase 4 = [] := by rw [hh]; rfl
  obtain ⟨from', host, hk'⟩ := kernel_endHold hk 4
  rw [hended]
  exact ⟨_, hk', hlast, endHold_todo hk hlast⟩

/-- What the copy of a segment makes of its tile's window, and that it leaves the other tiles (R36, R186). -/
theorem segmentCopyComplete_window (hk : s.kernelOf s.ev.tile = some (m, k)) (h : s.ev.x ∈ (s.tile s.ev.tile).imem.copying) (hg : s.ev.grant = .given) :
    let key := k.variant * 65536 + s.ev.x
    let p := s.readSlots s.ev.tile (k.segmentPlaces s.ev.tile (s.tile s.ev.tile) key)
    let v := p.1.tile s.ev.tile
    RisingMap p.1.tiles → ∃ u, exec .segmentCopyComplete s = .next u ∧ u.tile s.ev.tile = v.copied s.ev.x key p.2 ∧
      (∀ j, j ≠ s.ev.tile → u.tile j = p.1.tile j) ∧ u.dies = p.1.dies ∧ u.ctxs = p.1.ctxs ∧
      (p.1.kernel? m = some k → k.holds = [4] → v.flow.st = .running ∨ v.flow.st = .held → v.flow.due ≤ k.cycle → v.flow.pc.seg = s.ev.x →
        ∃ k', u.kernel? m = some k' ∧ k'.holds = [] ∧ u.todo = { i := .holdRelease, arg := { x := m } } :: p.1.todo) := by
  intro key p v hr
  obtain ⟨w, hw⟩ : ∃ w, w = p.1.updTile s.ev.tile (Tile.copied · s.ev.x key p.2) := ⟨_, rfl⟩
  have hexec : exec .segmentCopyComplete s = .next (w.copyEnded s.ev.tile m k s.ev.x) := hw ▸ segmentCopyComplete_copies hk h hg rfl
  have hself : w.tile s.ev.tile = v.copied s.ev.x key p.2 := hw ▸ State.tile_updTile_self p.1 s.ev.tile _ hr
  obtain ⟨htiles, hdies, hctxs⟩ := w.copyEnded_parts s.ev.tile m k s.ev.x
  have htile (j : TileId) : (w.copyEnded s.ev.tile m k s.ev.x).tile j = w.tile j := congrArg (mapGet ({} : Tile) · j) htiles
  refine ⟨_, hexec, (htile _).trans hself,
    fun j hj => (htile j).trans (hw ▸ State.tile_updTile_ne p.1 _ hj), hdies.trans (by rw [hw]; rfl), hctxs.trans (by rw [hw]; rfl),
    fun hkp hh hst hdue hseg => ?_⟩
  obtain ⟨k', hk', hholds, htodo⟩ := State.copyEnded_releases (w := w) (id := s.ev.tile) (seg := s.ev.x) (by rw [hw]; exact hkp) hh
    (by rw [hself]; exact (Tile.runs_iff v).2 hst) (by rw [hself]; exact hdue) (by rw [hself]; exact hseg)
  exact ⟨k', hk', hholds, htodo.trans (by rw [hw]; rfl)⟩
end

/-- Settles O44: each event by what it makes of the kernel, of the tiles of its partition and of the tile it names. -/
theorem stopsAndHolds : Obligations.StopsAndHolds := by
  intro s k n id t hr
  refine ⟨fun hk => ⟨stopHorizon_stops hr hk, partitionRelease_releases hr hk, fun start hh hf => holdRelease_releases hr hk hh hf,
      fun i hi hst hh hw => selfRefreshEntry_stopped hk hi hst hh hw, fun h0 hf => selfRefreshEntry_held hr hk h0 hf⟩,
    fun m x rest hk hx hh => deferredTrap_waits hk hx hh,
    fun m x rest hk hx hh => ⟨fun hst => deferredTrap_taken hk hx hh hst, fun hst he => deferredTrap_halted hr hk hx hh hst he⟩,
    tileHalted_halts s hr, fun m hk => ?_⟩
  intro key places p v
  refine ⟨fun b g sl r => s.readSlots_cons id b g sl r, fun key j => k.segmentSlot_bounds id t key j, fun h => segmentCopyComplete_idle hk h,
    fun h hg hp => segmentCopyComplete_asks hk h hg hp, fun h hg hrp => ?_⟩
  obtain ⟨u, hu, htile, hothers, hdies, hctxs, hreleases⟩ := segmentCopyComplete_window hk h hg hrp
  refine ⟨u, hu, ?_, fun x hx => ?_, fun bs hx => ?_, ?_, ?_, hothers, hdies, hctxs, hreleases⟩
  · rw [htile]
    exact v.imem.copied_copying ..
  · rw [htile, show p.2 = _ from hx]
    exact ⟨rfl, rfl⟩
  · rw [htile, show p.2 = _ from hx]
    exact ⟨rfl, rfl⟩
  · rw [htile]
    rfl
  · rw [htile]
    rfl

end Sys2Proof.Machine
end
